-- ==== Sys2Proof/Word.lean ====
section
/-! DEFINITION. The word types of the module and the one container that holds like units by number. -/

namespace Sys2Proof

/-- A byte of memory. -/
abbrev Byte := BitVec 8
/-- A 16-bit field. -/
abbrev Half := BitVec 16
/-- A 32-bit register (most register-page registers, R514). -/
abbrev W32 := BitVec 32
/-- A 64-bit register or general register of a core (R58). -/
abbrev W64 := BitVec 64
/-- A vector register or a 128-byte line pair: 1,024 bits, byte 0 in bits [7:0] (R6, R88). -/
abbrev VReg := BitVec 1024

/-- A sparse map from unit numbers to units: keys strictly rising, an absent key holds the unit's
reset value. Used for everything the module has many of (cores, queues, pages, counters). DESIGN CHOICE (log entry 60). -/
abbrev SMap (α : Type) := List (Nat × α)

end Sys2Proof
end

