-- ==== Sys2Proof/Syntax.lean ====
section
/-! DEFINITION. The commands of the module: one constructor per row of the operation and event table, with the
row's operands. A command is one indivisible event of the module's history; its operands say which unit it
happens to and what the surroundings contribute (values written, sensor readings, outcomes of checks). -/

namespace Sys2Proof

/-- Outcome of the residue and parity checks of one instruction's arithmetic (R444, R445). -/
inductive Chk where
  /-- The checks pass. -/
  | pass
  /-- The first run fails its check and the re-run passes. -/
  | rerun
  /-- The re-run fails its check too. -/
  | fail
  deriving DecidableEq, Repr

/-- What happened to a flit on its way (R314). -/
inductive FlitOut where
  /-- Arrives with no error. -/
  | good
  /-- A router of cluster g corrected a single-bit error. -/
  | corrected (g : Nat)
  /-- Uncorrectable payload error found by the router of cluster g on the given output link. -/
  | payload (g link : Nat)
  /-- Uncorrectable header error found by the router of cluster g on the given output link. -/
  | header (g link : Nat)
  /-- A logic fault in the bridge or in an edge crossbar on the way (R453). -/
  | crossbar
  deriving DecidableEq, Repr

/-- What a core meets as it issues an instruction (R443 class 5, R451): the reads of its program buffer, handle table, scratchpad
and accumulators, and the compare of its duplicated sequencer. -/
inductive Met where
  /-- Nothing: every read is clean and the sequencers agree. -/
  | clean
  /-- A corrected error in the scratchpad, program buffer or handle table. -/
  | spadCorrected
  /-- An uncorrectable error there. -/
  | spadUncorrectable
  /-- A corrected error in the accumulators the instruction reads. -/
  | accCorrected
  /-- An uncorrectable error there. -/
  | accUncorrectable
  /-- The duplicated sequencer disagrees. -/
  | seqFault
  deriving DecidableEq, Repr

/-- Outcome of the ECC of one codeword read (R201, R203). -/
inductive Ecc where
  | clean
  | corrected
  | uncorrectable
  deriving DecidableEq, Repr

/-- What a read of the vial meets (R468): codewords corrected without retry, codewords a retry corrected, and the places of
those no read level corrects. -/
structure VRead where
  corr : Nat
  retry : Nat
  lost : List Nat
  deriving DecidableEq, Repr

/-- One command: one row of the table. -/
inductive Instr where
  /-- NOP, R59: Core instruction that does nothing for one core cycle. `core`: the core that acts, 0-4,095. `met`: what the core and its stores meet (R443, R451). -/
  | nop (core : Nat) (met : Met)
  /-- ADD, R60: Scalar add of GA and the second operand into GD, wrapping modulo 2^64. `core`: the core that acts, 0-4,095. `met`: what the core and its stores meet (R443, R451). -/
  | add (core : Nat) (met : Met)
  /-- SUB, R60: Scalar subtract into GD, wrapping modulo 2^64. `core`: the core that acts, 0-4,095. `met`: what the core and its stores meet (R443, R451). -/
  | sub (core : Nat) (met : Met)
  /-- MUL, R60: Scalar multiply into GD, keeping the low 64 bits. `core`: the core that acts, 0-4,095. `met`: what the core and its stores meet (R443, R451). -/
  | mul (core : Nat) (met : Met)
  /-- AND, R60: Scalar bitwise AND into GD. `core`: the core that acts, 0-4,095. `met`: what the core and its stores meet (R443, R451). -/
  | and (core : Nat) (met : Met)
  /-- OR, R60: Scalar bitwise OR into GD. `core`: the core that acts, 0-4,095. `met`: what the core and its stores meet (R443, R451). -/
  | or (core : Nat) (met : Met)
  /-- XOR, R60: Scalar bitwise XOR into GD. `core`: the core that acts, 0-4,095. `met`: what the core and its stores meet (R443, R451). -/
  | xor (core : Nat) (met : Met)
  /-- SHL, R60: Logical left shift by the low 6 bits of the second operand. `core`: the core that acts, 0-4,095. `met`: what the core and its stores meet (R443, R451). -/
  | shl (core : Nat) (met : Met)
  /-- SHR, R60: Logical right shift by the low 6 bits of the second operand. `core`: the core that acts, 0-4,095. `met`: what the core and its stores meet (R443, R451). -/
  | shr (core : Nat) (met : Met)
  /-- SAR, R60: Arithmetic right shift by the low 6 bits of the second operand. `core`: the core that acts, 0-4,095. `met`: what the core and its stores meet (R443, R451). -/
  | sar (core : Nat) (met : Met)
  /-- SLT, R60: Sets GD to 1 if GA is less than the second operand, signed. `core`: the core that acts, 0-4,095. `met`: what the core and its stores meet (R443, R451). -/
  | slt (core : Nat) (met : Met)
  /-- SLTU, R60: Sets GD to 1 if GA is less than the second operand, unsigned. `core`: the core that acts, 0-4,095. `met`: what the core and its stores meet (R443, R451). -/
  | sltu (core : Nat) (met : Met)
  /-- LUI, R60: Sets GD to IMM32 shifted left 32 ORed with GA[31:0]. `core`: the core that acts, 0-4,095. `met`: what the core and its stores meet (R443, R451). -/
  | lui (core : Nat) (met : Met)
  /-- RDCNT, R60: Reads an arrival counter into GD. `core`: the core that acts, 0-4,095. `met`: what the core and its stores meet (R443, R451). -/
  | rdcnt (core : Nat) (met : Met)
  /-- RDACC, R280: Reads the cluster's local Accord copy at issue into GD. `core`: the core that acts, 0-4,095. `met`: what the core and its stores meet (R443, R451). -/
  | rdacc (core : Nat) (met : Met)
  /-- RDCAP, R60: Reads the core's CORE_CAPS into GD. `core`: the core that acts, 0-4,095. `met`: what the core and its stores meet (R443, R451). -/
  | rdcap (core : Nat) (met : Met)
  /-- BR, R60: Branches by IMM32 instructions. `core`: the core that acts, 0-4,095. `met`: what the core and its stores meet (R443, R451). -/
  | br (core : Nat) (met : Met)
  /-- BEQZ, R60: Branches by IMM32 if GA is zero; target checked at issue. `core`: the core that acts, 0-4,095. `met`: what the core and its stores meet (R443, R451). -/
  | beqz (core : Nat) (met : Met)
  /-- BNEZ, R60: Branches by IMM32 if GA is not zero; target checked at issue. `core`: the core that acts, 0-4,095. `met`: what the core and its stores meet (R443, R451). -/
  | bnez (core : Nat) (met : Met)
  /-- END, R60: Ends the tile program once all issued instructions complete. `core`: the core that acts, 0-4,095. `met`: what the core and its stores meet (R443, R451). -/
  | endProg (core : Nat) (met : Met)
  /-- HSET, R73: Writes handle table entry H from register GA after checking it. `core`: the core that acts, 0-4,095. `met`: what the core and its stores meet (R443, R451). -/
  | hset (core : Nat) (met : Met)
  /-- HREL, R79: Releases N slots of a checked handle and optionally sends credit. `core`: the core that acts, 0-4,095. `met`: what the core and its stores meet (R443, R451). -/
  | hrel (core : Nat) (met : Met)
  /-- WAIT, R82: Holds issue until the named counter meets its wait target. `core`: the core that acts, 0-4,095. `met`: what the core and its stores meet (R443, R451). -/
  | wait (core : Nat) (met : Met)
  /-- SIGNAL, R85: Adds AMOUNT to a counter of a core, optionally fenced behind earlier writes. `core`: the core that acts, 0-4,095. `met`: what the core and its stores meet (R443, R451). -/
  | signal (core : Nat) (met : Met)
  /-- CSET, R84: Sets an arrival counter to GA plus IMM32. `core`: the core that acts, 0-4,095. `met`: what the core and its stores meet (R443, R451). -/
  | cset (core : Nat) (met : Met)
  /-- TSET, R82: Sets a counter's wait target and step. `core`: the core that acts, 0-4,095. `met`: what the core and its stores meet (R443, R451). -/
  | tset (core : Nat) (met : Met)
  /-- LAUNCH_AT, R86: Holds issue until the Accord counter reaches the stamp in GA. `core`: the core that acts, 0-4,095. `met`: what the core and its stores meet (R443, R451). -/
  | launchAt (core : Nat) (met : Met)
  /-- UFENCE, R65: Holds issue until earlier instructions of the masked units complete. `core`: the core that acts, 0-4,095. `met`: what the core and its stores meet (R443, R451). -/
  | ufence (core : Nat) (met : Met)
  /-- MMA_D, R105: Dense matrix multiply-accumulate of A and B feed lines into an accumulator tile. `core`: the core that acts, 0-4,095. `met`: what the core and its stores meet (R443, R451). -/
  | mmaD (core : Nat) (met : Met)
  /-- MMA_S, R184: Sparse matrix multiply on the merge engine by the order of R130. `core`: the core that acts, 0-4,095. `met`: what the core and its stores meet (R443, R451). -/
  | mmaS (core : Nat) (met : Met)
  /-- MMA_A, R189: Automatic-path matrix multiply run as K16 parts, each dense or merge. `core`: the core that acts, 0-4,095. `met`: what the core and its stores meet (R443, R451). -/
  | mmaA (core : Nat) (met : Met)
  /-- MOVE_L, R161: Mover load into own scratchpad or accumulators by descriptor pair. `core`: the core that acts, 0-4,095. `met`: what the core and its stores meet (R443, R451). -/
  | moveL (core : Nat) (met : Met)
  /-- MOVE_S, R161: Mover store from own scratchpad or accumulators to HBM or scratchpad. `core`: the core that acts, 0-4,095. `met`: what the core and its stores meet (R443, R451). -/
  | moveS (core : Nat) (met : Met)
  /-- MOVE_R, R169: Mover write to another core's scratchpad or to another endpoint. `core`: the core that acts, 0-4,095. `met`: what the core and its stores meet (R443, R451). -/
  | moveR (core : Nat) (met : Met)
  /-- MOVE_X, R170: Mover reduce-store that adds or takes maximum into the destination. `core`: the core that acts, 0-4,095. `met`: what the core and its stores meet (R443, R451). -/
  | moveX (core : Nat) (met : Met)
  /-- VADD, R88: Vector lane-wise add. `core`: the core that acts, 0-4,095. `met`: what the core and its stores meet (R443, R451). -/
  | vadd (core : Nat) (met : Met)
  /-- VSUB, R88: Vector lane-wise subtract. `core`: the core that acts, 0-4,095. `met`: what the core and its stores meet (R443, R451). -/
  | vsub (core : Nat) (met : Met)
  /-- VMUL, R88: Vector lane-wise multiply. `core`: the core that acts, 0-4,095. `met`: what the core and its stores meet (R443, R451). -/
  | vmul (core : Nat) (met : Met)
  /-- VFMA, R88: Vector fused multiply-add with one rounding. `core`: the core that acts, 0-4,095. `met`: what the core and its stores meet (R443, R451). -/
  | vfma (core : Nat) (met : Met)
  /-- VMIN, R88: Vector lane-wise minimum. `core`: the core that acts, 0-4,095. `met`: what the core and its stores meet (R443, R451). -/
  | vmin (core : Nat) (met : Met)
  /-- VMAX, R88: Vector lane-wise maximum. `core`: the core that acts, 0-4,095. `met`: what the core and its stores meet (R443, R451). -/
  | vmax (core : Nat) (met : Met)
  /-- VABS, R47: Vector absolute value producing canonical NaNs. `core`: the core that acts, 0-4,095. `met`: what the core and its stores meet (R443, R451). -/
  | vabs (core : Nat) (met : Met)
  /-- VCMP, R88: Vector compare setting lanes to all ones or zero. `core`: the core that acts, 0-4,095. `met`: what the core and its stores meet (R443, R451). -/
  | vcmp (core : Nat) (met : Met)
  /-- VSEL, R88: Vector select by lane condition. `core`: the core that acts, 0-4,095. `met`: what the core and its stores meet (R443, R451). -/
  | vsel (core : Nat) (met : Met)
  /-- VCVT, R587: Vector type conversion packed from byte 0. `core`: the core that acts, 0-4,095. `met`: what the core and its stores meet (R443, R451). -/
  | vcvt (core : Nat) (met : Met)
  /-- VDIV, R88: Vector correctly rounded division. `core`: the core that acts, 0-4,095. `met`: what the core and its stores meet (R443, R451). -/
  | vdiv (core : Nat) (met : Met)
  /-- VSQRT, R88: Vector correctly rounded square root. `core`: the core that acts, 0-4,095. `met`: what the core and its stores meet (R443, R451). -/
  | vsqrt (core : Nat) (met : Met)
  /-- VRCP, R90: Vector reciprocal by the published procedure. `core`: the core that acts, 0-4,095. `met`: what the core and its stores meet (R443, R451). -/
  | vrcp (core : Nat) (met : Met)
  /-- VRSQ, R90: Vector reciprocal square root by the published procedure. `core`: the core that acts, 0-4,095. `met`: what the core and its stores meet (R443, R451). -/
  | vrsq (core : Nat) (met : Met)
  /-- VEXP2, R90: Vector base-2 exponential by the published procedure. `core`: the core that acts, 0-4,095. `met`: what the core and its stores meet (R443, R451). -/
  | vexp2 (core : Nat) (met : Met)
  /-- VLOG2, R90: Vector base-2 logarithm by the published procedure. `core`: the core that acts, 0-4,095. `met`: what the core and its stores meet (R443, R451). -/
  | vlog2 (core : Nat) (met : Met)
  /-- VRSUM, R89: Vector lane sum in a fixed tree into lane 0. `core`: the core that acts, 0-4,095. `met`: what the core and its stores meet (R443, R451). -/
  | vrsum (core : Nat) (met : Met)
  /-- VBCAST, R88: Broadcasts a general register value to every lane. `core`: the core that acts, 0-4,095. `met`: what the core and its stores meet (R443, R451). -/
  | vbcast (core : Nat) (met : Met)
  /-- VLD, R88: Loads 128 bytes from a handle into a vector register. `core`: the core that acts, 0-4,095. `met`: what the core and its stores meet (R443, R451). -/
  | vld (core : Nat) (met : Met)
  /-- VST, R88: Stores a vector register as 128 bytes through a handle. `core`: the core that acts, 0-4,095. `met`: what the core and its stores meet (R443, R451). -/
  | vst (core : Nat) (met : Met)
  /-- VLDA, R120: Loads two accumulator rows into a vector register. `core`: the core that acts, 0-4,095. `met`: what the core and its stores meet (R443, R451). -/
  | vlda (core : Nat) (met : Met)
  /-- VSTA, R120: Stores a vector register to two accumulator rows. `core`: the core that acts, 0-4,095. `met`: what the core and its stores meet (R443, R451). -/
  | vsta (core : Nat) (met : Met)
  /-- VMOVG, R588: Moves one vector lane into a general register. `core`: the core that acts, 0-4,095. `met`: what the core and its stores meet (R443, R451). -/
  | vmovg (core : Nat) (met : Met)
  /-- MMA_D_TILE_WRITE, R110: The array writes the finished tile to accumulator memory, completing the instruction. `core`: the core that acts, 0-4,095. `part`: true: the dense part of an MMA.A; false: the MMA.D at the head of the array queue. `chk`: outcome of the arithmetic checks. -/
  | mmaDTileWrite (core : Nat) (part : Bool) (chk : Chk)
  /-- MMA_A_PART, R190: The core reads a part's headers and runs it on the dense or merge path. `core`: the core that acts, 0-4,095. -/
  | mmaAPart (core : Nat)
  /-- MERGE_TILE_WRITE, R187: The merge engine writes its tile, completing a merge instruction or part. `core`: the core that acts, 0-4,095. `chk`: outcome of the arithmetic checks. -/
  | mergeTileWrite (core : Nat) (chk : Chk)
  /-- VECTOR_RESULT, R88: A vector instruction completes after its latency and writes its destination. `core`: the core that acts, 0-4,095. `chk`: outcome of the arithmetic checks. -/
  | vectorResult (core : Nat) (chk : Chk)
  /-- MOVE_COMPLETE, R167: A mover instruction's last write lands; CMP_CTR and RMT_CTR increments follow. `core`: the core that acts, 0-4,095. `which`: which of the movers' instructions in progress, oldest 0. `ecc`: codewords of HBM it reads that an error meets: address and outcome (R203). `flit`: what the network did to its flits, where it has any outside its core that are not writes to another core. -/
  | moveComplete (core : Nat) (which : Nat) (ecc : List (Nat × Ecc)) (flit : FlitOut)
  /-- PROGRAM_LOAD_DONE, R267: The last program line arrives and instruction 0 may issue. `core`: the core that acts, 0-4,095. `ecc`: codewords of HBM it reads that an error meets: address and outcome (R203). -/
  | programLoadDone (core : Nat) (ecc : List (Nat × Ecc))
  /-- TILE_PROGRAM_END, R259: END completes after all issued instructions complete, completing the record. `core`: the core that acts, 0-4,095. -/
  | tileProgramEnd (core : Nat)
  /-- COUNTER_WAIT_MET, R82: A held instruction's counter wait is met and it issues, advancing the target. `core`: the core that acts, 0-4,095. -/
  | counterWaitMet (core : Nat)
  /-- LAUNCH_STAMP_REACHED, R281: The local Accord copy reaches a held LAUNCH_AT stamp and it issues. `core`: the core that acts, 0-4,095. -/
  | launchStampReached (core : Nat)
  /-- WAIT_LIMIT_EXPIRE, R87: A held wait reaches WAIT_LIMIT; the core records WAIT_LIMIT and keeps waiting. `core`: the core that acts, 0-4,095. -/
  | waitLimitExpire (core : Nat)
  /-- COUNTER_INCREMENT, R81: An increment arrives at a core's arrival counter. `core`: the core that acts, 0-4,095. `which`: which of the increments in flight to the core, oldest 0. `flit`: what the network did to the flit. -/
  | counterIncrement (core : Nat) (which : Nat) (flit : FlitOut)
  /-- REMOTE_WRITE_LAND, R70: A mover-port write arrives at a core's scratchpad through the bank buffers. `core`: the core that acts, 0-4,095. `which`: which of the writes in flight to the core, oldest 0. `flit`: what the network did to the flit. -/
  | remoteWriteLand (core : Nat) (which : Nat) (flit : FlitOut)
  /-- CORE_CMD_STOP, R66: Writing STOP to CORE_CMD stops a running or waiting core. `core`: the core that acts, 0-4,095. -/
  | coreCmdStop (core : Nat)
  /-- CORE_CMD_RESET, R94: Writing RESET to CORE_CMD clears core state and returns it to IDLE. `core`: the core that acts, 0-4,095. -/
  | coreCmdReset (core : Nat)
  /-- HOLD_EXPIRE, R284: A core's hold period ends and, with SLEEP_EN, it enters ASLEEP. `core`: the core that acts, 0-4,095. -/
  | holdExpire (core : Nat)
  /-- LAUNCH_WAKE_LEAD, R285: The local copy reaches a held LAUNCH_AT stamp minus 2,250 and the sleeping core requests a wake. `core`: the core that acts, 0-4,095. -/
  | launchWakeLead (core : Nat)
  /-- WAKE_WINDOW, R289: A governor window opens and up to WAKE_RATE waiting requests are admitted. -/
  | wakeWindow
  /-- WAKE_COMPLETE, R287: A core's wake sequence ends with the wake check and the core can issue. `core`: the core that acts, 0-4,095. `good`: the wake check passes. -/
  | wakeComplete (core : Nat) (good : Bool)
  /-- ACC_PLL_LOCK, R278: The ACC PLL locks after being started. -/
  | accPllLock
  /-- ACC_MODE_SWITCH, R278: At a REF edge the Accord master switches between coarse and fine mode. -/
  | accModeSwitch
  /-- ACC_COPY_COMPARE, R279: Every 2^16 ticks local copies are compared with the master and reloaded if off. `unit`: the unit whose copy is compared: cluster 0-255, 300 + site, 400 + site (stack engine), 500 + die, 600 + x. `err`: the copy minus the master, in ticks. -/
  | accCopyCompare (unit : Nat) (err : Int)
  /-- ACC_LO_READ, R280: A narrow read of ACC_LO latches the master's upper half into ACC_HI. `size`: bytes read, 1, 2 or 4. `off`: offset within ACC_LO. -/
  | accLoRead (size : Nat) (off : Nat)
  /-- DOORBELL_WRITE, R251: A doorbell write sets or advances a queue's TAIL after checks. `queue`: queue. `size`: bytes written. `value`: doorbell value (R251). -/
  | doorbellWrite (queue : Nat) (size : Nat) (value : W64)
  /-- TILE_RUN, R267: A TILE_RUN record starts on its assigned core, waking and reloading as needed. `queue`: the queue, 0-4,095. `ecc`: what the reads of the queue engine's prefetch and logic meet (R451). -/
  | tileRun (queue : Nat) (ecc : Ecc)
  /-- UPDATE, R406: An UPDATE record updates shard blocks on a core's vector engine. `queue`: the queue, 0-4,095. `core`: the core that acts, 0-4,095. `count`: blocks or tokens the core does in this event. -/
  | update (queue : Nat) (core : Nat) (count : Nat)
  /-- COMBINE, R337: A COMBINE record forms each token's weighted sum of returned rows. `queue`: the queue, 0-4,095. `core`: the core that acts, 0-4,095. `count`: blocks or tokens the core does in this event. -/
  | combine (queue : Nat) (core : Nat) (count : Nat)
  /-- TEST, R435: A TEST record runs self-test parts on an asleep core. `queue`: the queue, 0-4,095. -/
  | test (queue : Nat)
  /-- TEST_COMPLETE, R435: A TEST ends, clears the core, writes its result and passes or stops the core. `core`: the core that acts, 0-4,095. `failing`: the first failing part, 0-5. -/
  | testComplete (core : Nat) (failing : Option Nat)
  /-- DISPATCH, R323: A DISPATCH record opens a return context and sends every choice to its expert. `queue`: the queue, 0-4,095. -/
  | dispatch (queue : Nat)
  /-- FENCE_RECORD, R264: A FENCE record completes once every earlier record has retired. `queue`: the queue, 0-4,095. -/
  | fenceRecord (queue : Nat)
  /-- WAIT_COUNT, R264: A WAIT_COUNT record starts when its wait is met and completes at once. `queue`: the queue, 0-4,095. -/
  | waitCount (queue : Nat)
  /-- LAUNCH_AT_RECORD, R264: A LAUNCH_AT record completes at its stamp, waking the cores of WAKE_MASK. `queue`: the queue, 0-4,095. -/
  | launchAtRecord (queue : Nat)
  /-- SIGNAL_ADD, R265: A SIGNAL record of KIND ADD adds to a counter or a queue's TAIL. `queue`: the queue, 0-4,095. -/
  | signalAdd (queue : Nat)
  /-- SEQ_WRITE, R265: A SIGNAL record of KIND SEQ_WRITE writes a sequence table entry. `queue`: the queue, 0-4,095. -/
  | seqWrite (queue : Nat)
  /-- SE_TRANSPOSE, R223: A stack-engine TRANSPOSE command writes a transposed copy of a tensor. `queue`: the queue, 0-4,095. -/
  | seTranspose (queue : Nat)
  /-- SIGN_PACK, R226: A stack-engine command sign-packs a gradient with error-feedback residual. `queue`: the queue, 0-4,095. `chk`: outcome of the arithmetic checks of the engine. -/
  | signPack (queue : Nat) (chk : Chk)
  /-- TOPK_PACK, R227: A stack-engine command top-k packs a gradient with error-feedback residual. `queue`: the queue, 0-4,095. `chk`: outcome of the arithmetic checks of the engine. -/
  | topkPack (queue : Nat) (chk : Chk)
  /-- REDUCE, R385: A REDUCE command opens a reduce slot for a group and bucket and sends contributions. `queue`: the queue, 0-4,095. -/
  | reduce (queue : Nat)
  /-- CKPT_PUSH, R237: Streams a local range and its trailer to a remote range over channel 2. `queue`: the queue, 0-4,095. -/
  | ckptPush (queue : Nat)
  /-- CKPT_PULL, R238: Reads a remote checkpoint range and trailer into a local range and checks it. `queue`: the queue, 0-4,095. -/
  | ckptPull (queue : Nat)
  /-- CTR_SET, R220: Stack-engine command that writes a memory counter. `queue`: the queue, 0-4,095. -/
  | ctrSet (queue : Nat)
  /-- LINK_ENGINE_MOVE, R374: A link-engine MOVE record copies a range to another endpoint in 1 MiB transfers. `queue`: the queue, 0-4,095. -/
  | linkEngineMove (queue : Nat)
  /-- SE_COMMAND_COMPLETE, R219: A stack-engine command's last write lands; it reports, raises DONE_CTR and signals the core. `site`: stack site 0-15. `unit`: unit of Table 10-1: 1 transposer, 2 compressor, 4 checkpoint mover. `ecc`: what the reads of the microprogram store meet (R451). `hbm`: codewords of HBM it reads that an error meets: address and outcome (R203). -/
  | seCommandComplete (site : Nat) (unit : Nat) (ecc : Ecc) (hbm : List (Nat × Ecc))
  /-- RECORD_COMPLETE, R259: A consumer reports a record done; it retires in order and HEAD advances. `queue`: the queue, 0-4,095. -/
  | recordComplete (queue : Nat)
  /-- RECORD_FAILED, R260: A consumer reports a record ended in error; the queue records it and halts under HALT_ON_ERR. `queue`: the queue, 0-4,095. -/
  | recordFailed (queue : Nat)
  /-- SCHED_AGING, R269: A candidate waits 2^AGE ticks and its effective priority becomes 3. `queue`: the queue, 0-4,095. -/
  | schedAging (queue : Nat)
  /-- Q_BIND_ENABLE, R249: Writing ENABLE 1 checks and enables a queue, or reruns a halted record. `queue`: queue. `value`: Q_BIND written, but for the bits the row fixes. -/
  | qBindEnable (queue : Nat) (value : W32)
  /-- Q_BIND_DISABLE, R249: Writing ENABLE 0 stops new record starts on a queue. `queue`: queue. `value`: Q_BIND written, but for the bits the row fixes. -/
  | qBindDisable (queue : Nat) (value : W32)
  /-- Q_BIND_SKIP, R261: Writing SKIP retires a halted record unrun and resumes the queue. `queue`: queue. `value`: Q_BIND written, but for the bits the row fixes. -/
  | qBindSkip (queue : Nat) (value : W32)
  /-- QUEUE_CONFIG_WRITE, R249: A write of Q_CFG or Q_BIND binding fields, refused while enabled. `queue`: queue. `bind`: Q_BIND is written, else Q_CFG. `value`: value written. -/
  | queueConfigWrite (queue : Nat) (bind : Bool) (value : W64)
  /-- REDUCE_SLOT_AVAILABLE, R230: A REDUCE waiting for a free reduce slot proceeds when one closes. `site`: stack site 0-15. -/
  | reduceSlotAvailable (site : Nat)
  /-- CONTRIB_LANDED, R231: A contribution's last byte lands in the hold area and its digest and form are checked. `site`: stack site 0-15. `group`: the reduction group, 0-1,023. `bucket`: the bucket ID. `rank`: the sender's rank. -/
  | contribLanded (site : Nat) (group : Nat) (bucket : Nat) (rank : Nat)
  /-- REDUCE_PASS, R234: The reduce unit starts a pass adding up to 8 ready contributions in rank order. `site`: stack site 0-15. `group`: the reduction group, 0-1,023. `bucket`: the bucket ID. `chk`: outcome of the arithmetic checks of the engine. `hbm`: codewords of HBM it reads that an error meets: address and outcome (R203). -/
  | reducePass (site : Nat) (group : Nat) (bucket : Nat) (chk : Chk) (hbm : List (Nat × Ecc))
  /-- SILLAGE_RESUME, R431: Software advances READ_POS and the held entry and pass proceed. `site`: stack site 0-15. `group`: the reduction group, 0-1,023. `bucket`: the bucket ID. -/
  | sillageResume (site : Nat) (group : Nat) (bucket : Nat)
  /-- REDUCE_PASS_DONE, R234: A reduce pass ends with its sums in the result tensor. `site`: stack site 0-15. `group`: the reduction group, 0-1,023. `bucket`: the bucket ID. -/
  | reducePassDone (site : Nat) (group : Nat) (bucket : Nat)
  /-- SCRUB_CODEWORD, R240: The patrol scrubber reads the next codeword of the stack. `site`: stack site 0-15. `ecc`: what the codeword check finds (R201, R203). -/
  | scrubCodeword (site : Nat) (ecc : Ecc)
  /-- CTR_DATA_WRITE, R220: A write to CTR_DATA sets the selected memory counter. `site`: stack site. `value`: value written. -/
  | ctrDataWrite (site : Nat) (value : W32)
  /-- HBM_READ, R203: A memory controller serves a read, correcting or poisoning it by ECC. `addr`: module address. `len`: bytes read. `ecc`: what the check of each codeword finds, in address order (R201, R203). `keepOpen`: the controller leaves the bank open. -/
  | hbmRead (addr : Nat) (len : Nat) (ecc : List Ecc) (keepOpen : Bool)
  /-- HBM_WRITE, R11: A memory controller lands a write, with read-merge-write for partial codewords. `addr`: module address. `data`: bytes written. `ecc`: what the read of each codeword of a read-merge-write finds, in address order. `keepOpen`: the controller leaves the bank open. `drains`: outstanding writes of the bank that reach the array. -/
  | hbmWrite (addr : Nat) (data : List Byte) (ecc : List Ecc) (keepOpen : Bool) (drains : Nat)
  /-- HBM_REDUCE_STORE, R170: A memory controller performs an indivisible reduce-store into HBM. `addr`: module address. `bf16`: element type BF16, else FP32. `mx`: maximum, else add. `value`: FP32 value. `ecc`: what the read of each codeword finds. -/
  | hbmReduceStore (addr : Nat) (bf16 : Bool) (mx : Bool) (value : W32) (ecc : List Ecc)
  /-- HBM_REFRESH, R204: The controller issues a per-bank refresh on its interval. `site`: stack site 0-15. `pc`: pseudo-channel 0-63. `bank`: bank 0-63. `drains`: outstanding writes of the bank that have reached the array. `onDie`: corrections the stack's own error check reports with it. -/
  | hbmRefresh (site : Nat) (pc : Nat) (bank : Nat) (drains : Nat) (onDie : Nat)
  /-- HBM_TEMP_SAMPLE, R209: Every 10 µs channel temperatures are read and throttle steps set. `site`: stack site 0-15. `temps`: temperature of each of the 32 channels in degrees C. -/
  | hbmTempSample (site : Nat) (temps : List Nat)
  /-- IMB_WINDOW_END, R207: An imbalance window ends; counts are copied and the condition evaluated. `site`: stack site 0-15. -/
  | imbWindowEnd (site : Nat)
  /-- BANK_POWER_DOWN, R210: A bank idle for BANK_IDLE with no outstanding writes moves to POWERING_DOWN. `site`: stack site 0-15. `pc`: pseudo-channel 0-63. `bank`: bank 0-63. -/
  | bankPowerDown (site : Nat) (pc : Nat) (bank : Nat)
  /-- SELF_REFRESH_ENTRY, R211: After SR_IDLE with every bank DOWN the stack enters self-refresh. `site`: stack site 0-15. -/
  | selfRefreshEntry (site : Nat)
  /-- DISPATCH_MESSAGE, R328: A dispatched choice reaches an expert queue and is taken into its round. `die`: the I/O die, 0-3. `which`: which of the messages of this kind at the die, oldest 0. -/
  | dispatchMessage (die : Nat) (which : Nat)
  /-- END_MARK_MESSAGE, R328: An end marker arrives at an expert queue and sets its END_MASK bit. `die`: the I/O die, 0-3. `which`: which of the messages of this kind at the die, oldest 0. -/
  | endMarkMessage (die : Nat) (which : Nat)
  /-- ROUND_OPEN_AFTER_DRAIN, R328: A held newer-generation arrival opens a new round once the old round's records retire. `queue`: the queue, 0-4,095. -/
  | roundOpenAfterDrain (queue : Nat)
  /-- RETURN_MESSAGE, R335: The dispatching Atomizer applies a return to its slot and raises RET_CTR. `die`: the I/O die, 0-3. `which`: which of the messages of this kind at the die, oldest 0. -/
  | returnMessage (die : Nat) (which : Nat)
  /-- DROP_MESSAGE, R335: The dispatching Atomizer applies a drop notice to the choice entry and raises RET_CTR. `die`: the I/O die, 0-3. `which`: which of the messages of this kind at the die, oldest 0. -/
  | dropMessage (die : Nat) (which : Nat)
  /-- ATOM_CANCEL, R339: Writing ATOM_CANCEL stops and closes an open return context. `die`: I/O die. `ctx`: context. -/
  | atomCancel (die : Nat) (ctx : Nat)
  /-- PORT_TRAIN_START, R346: A port with EN, an existing owner and signal on every lane begins training. `port`: port index 0-31. `signal`: every lane has signal. -/
  | portTrainStart (port : Nat) (signal : Bool)
  /-- PORT_TRAIN_DONE, R348: Training ends, the width is chosen and the port goes UP, DEGRADED or DOWN. `port`: port index 0-31. `lanes`: lanes good at both ends, bit n for lane n. `peerId`: far module ID. `peerPort`: far port index. -/
  | portTrainDone (port : Nat) (lanes : Nat) (peerId : Nat) (peerPort : Nat)
  /-- LANE_LOCK_LOSS, R349: A lane loses lock and the port retrains. `port`: port index 0-31. -/
  | laneLockLoss (port : Nat)
  /-- LANE_ERROR_WINDOW, R349: A 1 ms window ends with a lane above the error limit and the port retrains. `port`: port index 0-31. `overLimit`: a lane exceeded the error limit. -/
  | laneErrorWindow (port : Nat) (overLimit : Bool)
  /-- PORT_CMD_RETRAIN, R349: Writing RETRAIN to PORT_CMD retrains the port. `port`: port index 0-31. -/
  | portCmdRetrain (port : Nat)
  /-- PORT_CMD_SAVE_EQ, R347: Writing SAVE_EQ asks the Nose to store the port's equalisation. `port`: port index 0-31. -/
  | portCmdSaveEq (port : Nat)
  /-- FLIT_SEND, R356: In each flit slot the port sends a DATA, CONTROL or IDLE flit by arbitration. `port`: port index 0-31. `ca`: channel whose credit count rides in the first field, 8 none. `cb`: the same for the second field. -/
  | flitSend (port : Nat) (ca : Nat) (cb : Nat)
  /-- DATA_FLIT_RECEIVE, R354: A DATA flit arrives and is accepted or discarded with a NAK. `port`: port index 0-31. `bytes`: the 256 bytes received. `corr`: symbols corrected. `uncorr`: uncorrectable codewords that it begins. `failed`: some of its bits lie in an uncorrectable codeword, be it one counted before. -/
  | dataFlitReceive (port : Nat) (bytes : List Byte) (corr : Nat) (uncorr : Nat) (failed : Bool)
  /-- CONTROL_FLIT_RECEIVE, R353: A CONTROL flit delivers running credit counts. `port`: port index 0-31. `bytes`: the 256 bytes received. `corr`: symbols corrected. `uncorr`: uncorrectable codewords that it begins. `failed`: some of its bits lie in an uncorrectable codeword, be it one counted before. -/
  | controlFlitReceive (port : Nat) (bytes : List Byte) (corr : Nat) (uncorr : Nat) (failed : Bool)
  /-- NAK_RECEIVE, R354: A NAK causes the sender to resend every held flit after ACK_SEQ. `port`: port index 0-31. `bytes`: the 256 bytes received. `corr`: symbols corrected. `uncorr`: uncorrectable codewords that it begins. `failed`: some of its bits lie in an uncorrectable codeword, be it one counted before. -/
  | nakReceive (port : Nat) (bytes : List Byte) (corr : Nat) (uncorr : Nat) (failed : Bool)
  /-- REPLAY_TIMEOUT, R354: ACK_SEQ has not advanced for 2 µs and the sender resends from the oldest flit. `port`: port index 0-31. -/
  | replayTimeout (port : Nat)
  /-- WRITE_MESSAGE, R358: A WRITE message is routed, ordered at the landing die and written with a span check. `die`: the I/O die, 0-3. `which`: which of the messages of this kind at the die, oldest 0. `flit`: what the on-die network did to its flits. -/
  | writeMessage (die : Nat) (which : Nat) (flit : FlitOut)
  /-- READ_REQ_MESSAGE, R358: A READ_REQ is checked and answered with READ_DATA. `die`: the I/O die, 0-3. `which`: which of the messages of this kind at the die, oldest 0. -/
  | readReqMessage (die : Nat) (which : Nat)
  /-- READ_DATA_MESSAGE, R371: READ_DATA lands at the requester. `die`: the I/O die, 0-3. `which`: which of the messages of this kind at the die, oldest 0. -/
  | readDataMessage (die : Nat) (which : Nat)
  /-- CONTRIB_MESSAGE, R390: A contribution header arrives and is held, carried, discarded, refused or answered busy. `die`: the I/O die, 0-3. `which`: which of the messages of this kind at the die, oldest 0. -/
  | contribMessage (die : Nat) (which : Nat)
  /-- DIAG_MESSAGE, R357: The destination I/O die returns a DIAG message unchanged. `die`: the I/O die, 0-3. `which`: which of the messages of this kind at the die, oldest 0. -/
  | diagMessage (die : Nat) (which : Nat)
  /-- ACK_MESSAGE, R371: An ACK ends a transfer as completed and frees its tracker entry. `die`: the I/O die, 0-3. `which`: which of the messages of this kind at the die, oldest 0. `ecc`: what the reads of the tracker and the reorder store meet (R451). -/
  | ackMessage (die : Nat) (which : Nat) (ecc : Ecc)
  /-- REFUSE_MESSAGE, R371: A REFUSE ends a transfer in error and reports the code. `die`: the I/O die, 0-3. `which`: which of the messages of this kind at the die, oldest 0. -/
  | refuseMessage (die : Nat) (which : Nat)
  /-- BUSY_MESSAGE, R369: A BUSY answer schedules the transfer's resend and counts as progress. `die`: the I/O die, 0-3. `which`: which of the messages of this kind at the die, oldest 0. -/
  | busyMessage (die : Nat) (which : Nat)
  /-- STREAM_ACK_MESSAGE, R364: A STREAM_ACK frees the stream's acknowledged messages at the source. `die`: the I/O die, 0-3. `which`: which of the messages of this kind at the die, oldest 0. -/
  | streamAckMessage (die : Nat) (which : Nat)
  /-- STREAM_NAK_MESSAGE, R367: A STREAM_NAK makes the source resend from the named SSEQ. `die`: the I/O die, 0-3. `which`: which of the messages of this kind at the die, oldest 0. -/
  | streamNakMessage (die : Nat) (which : Nat)
  /-- STREAM_ACK_TIMER, R366: 2 µs after an unacknowledged delivery the landing die sends STREAM_ACK. `die`: the I/O die, 0-3. `context`: position of the landing context among the die's. -/
  | streamAckTimer (die : Nat) (context : Nat)
  /-- STREAM_RESEND_TIMEOUT, R367: No acknowledgement progress for RESEND_US and the source resends from the oldest message. `die`: the I/O die, 0-3. `stream`: position of the source stream among the die's. -/
  | streamResendTimeout (die : Nat) (stream : Nat)
  /-- TRANSFER_RESEND, R369: RESEND_US after BUSY or refusal the source resends the whole transfer. `die`: the I/O die, 0-3. `tag`: the transfer tag. -/
  | transferResend (die : Nat) (tag : Nat)
  /-- SOURCE_STREAM_CLOSE, R368: A fully acknowledged stream idle for 100 µs is closed at the source. `die`: the I/O die, 0-3. `stream`: position of the source stream among the die's. -/
  | sourceStreamClose (die : Nat) (stream : Nat)
  /-- LANDING_CONTEXT_FREE, R368: A landing context without a message for 200 µs is freed. `die`: the I/O die, 0-3. `context`: position of the landing context among the die's. -/
  | landingContextFree (die : Nat) (context : Nat)
  /-- TRACKER_ENTRY_AVAILABLE, R372: A requester waiting for a tracker entry proceeds when one frees. `die`: the I/O die, 0-3. -/
  | trackerEntryAvailable (die : Nat)
  /-- RT_DATA_ACCESS, R361: An access to RT_DATA reads or writes a route entry and may advance INDEX. `die`: I/O die. `value`: value written, none for a read. -/
  | rtDataAccess (die : Nat) (value : Option W32)
  /-- GRP_SETTLE, R396: GRP_CMD SETTLE settles named ranks in the previous step's open slots. `group`: reduction group. -/
  | grpSettle (group : Nat)
  /-- GRP_RESHARD, R398: GRP_CMD RESHARD drains the group and moves to a new layout epoch. `group`: reduction group. -/
  | grpReshard (group : Nat)
  /-- RESHARD_DRAIN_DONE, R398: No old-epoch slot remains; the staged plane becomes active and the group READY. `group`: the reduction group, 0-1,023. -/
  | reshardDrainDone (group : Nat)
  /-- GRP_ABORT, R399: GRP_CMD ABORT closes every slot of the group without result and sets ABORTED. `group`: reduction group. -/
  | grpAbort (group : Nat)
  /-- LATE_RANK_DEADLINE, R395: A slot open DEADLINE with a rank missing raises LATE_RANK once. `site`: stack site 0-15. `group`: the reduction group, 0-1,023. `bucket`: the bucket ID. -/
  | lateRankDeadline (site : Nat) (group : Nat) (bucket : Nat)
  /-- GRP_CFG_WRITE, R382: A GRP_CFG write, refused while slots are open or for LATE_POLICY 3. `group`: reduction group. `value`: value written. -/
  | grpCfgWrite (group : Nat) (value : W32)
  /-- LAYOUT_DATA_WRITE, R383: A LAYOUT_DATA access reaches the staged plane and may advance RANK. `group`: reduction group. `value`: value written, none for a read. -/
  | layoutDataWrite (group : Nat) (value : Option W32)
  /-- DUP_COMPARE, R450: The checker's tile is compared with the sampled tile and a mismatch stops both cores. `cluster`: the cluster, 0-255. `mismatch`: the two results differ. -/
  | dupCompare (cluster : Nat) (mismatch : Bool)
  /-- CHECKER_ROTATE, R447: Every 2^ROT_SHIFT ticks the checker role passes to the next eligible core. `cluster`: the cluster, 0-255. -/
  | checkerRotate (cluster : Nat)
  /-- DUP_CFG_WRITE, R447: A DUP_CFG write that enables or disables duplicates assigns or releases the checker. `cluster`: cluster. `value`: value written. -/
  | dupCfgWrite (cluster : Nat) (value : W32)
  /-- PART_RESET_COMPLETE, R454: The reset sequence ends with the partition in INIT and PART_RESET raised. `part_`: the partition, 0-3. -/
  | partResetComplete (part_ : Nat)
  /-- RAIL_MONITOR_SAMPLE, R457: Every 1 µs every rail's voltage and current is sampled. `bad`: rails outside their limits in this sample. -/
  | railMonitorSample (bad : List Nat)
  /-- NOSE_LOCKSTEP_MISMATCH, R456: The Nose cores disagree and both stop for a restart. -/
  | noseLockstepMismatch
  /-- NOSE_WATCHDOG_EXPIRE, R456: The watchdog expires and the Nose restarts from ROM. -/
  | noseWatchdogExpire
  /-- NOSE_RESTART_DONE, R456: The Nose restart completes and the blotter for its cause is issued. `verdict`: image conditions of R549: 0 all hold, else the number of the first that fails. `r`: what the read of the image meets; its lost codewords are rebuilt (R468). -/
  | noseRestartDone (verdict : Nat) (r : VRead)
  /-- NOSE_SENSOR_POLL, R531: Every 10 ms the Nose reads every sensor. `readings`: sensor IDs with the values read. `sram`: what the code of the Nose's own memory finds (R530). -/
  | noseSensorPoll (readings : List (Nat × Nat)) (sram : Ecc)
  /-- VIAL_MOUNT, R479: At mount the Nose finds the newest critical set and erases the target half. `aReads`: every codeword and CRC of half A reads. `bReads`: the same for half B. `bad`: configuration records (type * 64 + item) no copy of which reads. `verdict`: image conditions of R549: 0 all hold, else the number of the first that fails. `anchors`: copies of ANCHOR, 0-15, whose digest fails. `worn`: records one copy of which reads. -/
  | vialMount (anchors : List Nat) (aReads : Bool) (bReads : Bool) (bad : List Nat) (worn : List Nat) (verdict : Nat)
  /-- VIAL_PATROL, R473: Patrol reads a written page and refreshes blocks that need it. `block`: the block read, 0-16,383. `corr`: corrected codewords. `worst`: most corrected bits in one codeword. `retry`: reads repeated with other thresholds. `lost`: uncorrectable codewords. `where_`: where the first of those lies: a record (type * 64 + item) in CONFIG, a BLOTTER_SEQ in BLOTTER, a codeword of the block in STORE. `lastPage`: the read ends a patrol pass. -/
  | vialPatrol (block : Nat) (corr : Nat) (worst : Nat) (retry : Nat) (lost : Nat) (where_ : Nat) (lastPage : Bool)
  /-- VIAL_WEAR_LEVEL, R470: The least-erased block's data moves when erase counts differ by more than 2,000. `region`: region of Table 20-3. -/
  | vialWearLevel (region : Nat)
  /-- BLOTTER_LOG_PROGRAM, R482: A blotter page is programmed when full or 50 ms after its oldest blotter. `failed`: the program fails, or the page reads back with more than 8 corrections (R471). -/
  | blotterLogProgram (failed : Bool)
  /-- POWER_UP, R544: 40 V is applied and the module runs its boot stages. `width`: lanes the link trains to. `speed`: speed code the link trains to. `flit`: FLIT mode. -/
  | powerUp (width : Nat) (speed : Nat) (flit : Bool)
  /-- BOOT_READY, R546: Boot completes; every partition OFF and READY raised. `ms`: milliseconds since the start of stage 2. `disabled`: cores the self-test disables. `narrowed`: cores it narrows, with the column bypassed. `rows`: spare-row entries (Table 24-2). `badSites`: sites whose base die or stack fails its test. -/
  | bootReady (ms : Nat) (disabled : List Nat) (narrowed : List (Nat × Nat)) (rows : List W32) (badSites : List Nat)
  /-- INPUT_SAG, R498: Input below 33.0 V for 1 µs triggers drydown. `inputMin`: lowest input in the last 1 ms, mV. `bankMv`: bank voltage at the trigger, mV. -/
  | inputSag (inputMin : Nat) (bankMv : Nat)
  /-- INPUT_OVERVOLTAGE, R486: Input at 48 V for 10 µs records INPUT_FAULT and triggers drydown. `inputMin`: lowest input in the last 1 ms, mV. `bankMv`: bank voltage at the trigger, mV. -/
  | inputOvervoltage (inputMin : Nat) (bankMv : Nat)
  /-- INPUT_OVERCURRENT, R486: Input current above 110 A for 20 µs records INPUT_FAULT and triggers drydown. `inputMin`: lowest input in the last 1 ms, mV. `bankMv`: bank voltage at the trigger, mV. -/
  | inputOvercurrent (inputMin : Nat) (bankMv : Nat)
  /-- INPUT_OUT_OF_RANGE, R486: Input leaves 36.0–44.0 V within the running band and INPUT_RANGE is raised. `mv`: input voltage, mV. -/
  | inputOutOfRange (mv : Nat)
  /-- DRYDOWN_COMMIT, R480: The commit page is programmed and the module enters DRY_HOLD. `failed`: blocks of the target half whose program fails (Table 20-6). -/
  | drydownCommit (failed : List Nat)
  /-- INPUT_RESTORE, R503: Input in range for 10 ms after DRY_HOLD restarts the module from stage 2. `fell`: the input fell below 20 V since the drydown. `width`: lanes the link trains to. `speed`: speed code the link trains to. `flit`: FLIT mode. -/
  | inputRestore (fell : Bool) (width : Nat) (speed : Nat) (flit : Bool)
  /-- BANK_CUTOFF, R503: The bank reaches 22 V and the base-note domain stops. -/
  | bankCutoff
  /-- BANK_CHARGED, R496: The bank reaches 43.0 V and BANK_OK sets. `mv`: bank voltage, mV. `cap`: capacitance measured from a full charge, 0.01 mF. -/
  | bankCharged (mv : Nat) (cap : Nat)
  /-- BANK_LOW, R497: BANK_OK clears while a partition is ACTIVE and BANK_LOW is recorded. `mv`: bank voltage, mV. -/
  | bankLow (mv : Nat)
  /-- POWER_WINDOW, R492: A 1 ms power window ends and power caps step down or up. `mv`: average input voltage, mV. `ma`: average input current, mA. `watts`: average input power, W. `bankMv`: bank voltage, mV. -/
  | powerWindow (mv : Nat) (ma : Nat) (watts : Nat) (bankMv : Nat)
  /-- DIE_THERMAL_SAMPLE, R495: A die's hottest sensor sets its thermal cap or trips the die. `unit`: compute die 0-1, or 10 + I/O die. `temp`: its hottest sensor, degrees C. -/
  | dieThermalSample (unit : Nat) (temp : Nat)
  /-- OP_CFG_WRITE, R491: A write to OP_CFG changes OP_MAX and starts an operating point change. `value`: value written. -/
  | opCfgWrite (value : W32)
  /-- OP_CHANGE_DONE, R491: An operating point change completes with clock and rail at the new point. `die`: the compute die, 0-1. -/
  | opChangeDone (die : Nat)
  /-- REF_CLOCK_LOSS, R578: REF stops and the base-note domain moves to the internal oscillator. -/
  | refClockLoss
  /-- REF_CLOCK_RETURN, R578: REF returns and the base-note domain moves back to it. -/
  | refClockReturn
  /-- WXL_REFCLK_LOSS, R579: A WXL reference stops and the die's ports retrain until it returns. `die`: the I/O die, 0-3. -/
  | wxlRefclkLoss (die : Nat)
  /-- PCIE_REFCLK_LOSS, R579: The PCIe reference stops and the link goes down. -/
  | pcieRefclkLoss
  /-- PERST_ASSERT, R581: PERST# low puts the endpoint under conventional reset. -/
  | perstAssert
  /-- PERST_RELEASE, R545: PERST# rises and the endpoint comes up. `width`: lanes the link trains to. `speed`: speed code the link trains to. `flit`: FLIT mode. -/
  | perstRelease (width : Nat) (speed : Nat) (flit : Bool)
  /-- PCIE_RESET, R525: A PCIe reset or FLR resets configuration, MSI-X, CW_AP and COMP_PEND only. -/
  | pcieReset
  /-- MSIX_ENABLE, R519: Enabling MSI-X sends one message per unmasked vector with a pending source. `enable`: MSI-X Enable. `funcMask`: Function Mask. -/
  | msixEnable (enable : Bool) (funcMask : Bool)
  /-- MSIX_UNMASK, R519: Unmasking a vector with its PBA bit set sends its message. `vector`: vector. -/
  | msixUnmask (vector : Nat)
  /-- PART_INIT, R558: PART_CMD INIT powers the partition's domains and clears it toward INIT. `part_`: partition. -/
  | partInit (part_ : Nat)
  /-- PART_INIT_DONE, R558: Domain power-up and clearing complete and the partition reads INIT. `part_`: the partition, 0-3. -/
  | partInitDone (part_ : Nat)
  /-- PART_ACTIVATE, R558: PART_CMD ACTIVATE moves a partition from INIT or QUIESCED to ACTIVE. `part_`: partition. -/
  | partActivate (part_ : Nat)
  /-- PART_ACTIVATE_RESUME, R558: A pending ACTIVATE proceeds once BANK_OK sets and no calibration runs. `part_`: the partition, 0-3. -/
  | partActivateResume (part_ : Nat)
  /-- PART_QUIESCE, R559: PART_CMD QUIESCE stops record starts and waits for the partition to drain. `part_`: partition. -/
  | partQuiesce (part_ : Nat)
  /-- PART_QUIESCE_DONE, R559: Quiesce conditions hold and the partition reads QUIESCED. `part_`: the partition, 0-3. -/
  | partQuiesceDone (part_ : Nat)
  /-- PART_OFF, R558: PART_CMD OFF abandons the partition's work and powers its domains down. `part_`: partition. -/
  | partOff (part_ : Nat)
  /-- PART_MODE_WRITE, R20: A PART_MODE write accepted only while every partition is OFF. `value`: value written. -/
  | partModeWrite (value : W32)
  /-- PORT_OWNER_WRITE, R21: A PORT_OWNERn write changes owners of ports that are down. `die`: I/O die. `value`: value written. -/
  | portOwnerWrite (die : Nat) (value : W32)
  /-- PART_MODULE_ID_WRITE, R23: A PART_MODULE_ID write refused when locked or clashing. `part_`: partition. `value`: value written. -/
  | partModuleIdWrite (part_ : Nat) (value : W32)
  /-- HBM_PLACEMENT_WRITE, R198: A placement register write refused outside OFF and INIT. `part_`: partition. `which`: 0 HBM_KEY_LO, 1 HBM_KEY_HI, 2 HBM_PLACE. `value`: value written. -/
  | hbmPlacementWrite (part_ : Nat) (which : Nat) (value : W32)
  /-- EXP_TABLE_WRITE, R341: An EXP_TABLE write refused outside OFF and INIT. `part_`: partition. `value`: value written. -/
  | expTableWrite (part_ : Nat) (value : W64)
  /-- SILLAGE_WRITE, R427: A sillage register write, checked; a MODE change initialises ring headers. `part_`: partition. `which`: 0 SILLAGE_CFG, 1 SILLAGE_OFS, 2 SILLAGE_LEN. `value`: value written. -/
  | sillageWrite (part_ : Nat) (which : Nat) (value : W64)
  /-- REGISTER_WRITE, R7: A write to a register that has no row of its own, by its access type. `byNose`: a write of the Nose, else of the host. `bar`: BAR. `off`: offset in the BAR. `size`: bytes written. `value`: value written. -/
  | registerWrite (byNose : Bool) (bar : Nat) (off : Nat) (size : Nat) (value : W64)
  /-- HOST_READ_BAD, R509: A host read of a refused size or alignment returns all ones and records HOST_ACCESS_BAD. `bar`: BAR. `off`: offset in the BAR. `size`: bytes read. -/
  | hostReadBad (bar : Nat) (off : Nat) (size : Nat)
  /-- EVT_PEND_CLEAR, R515: A W1C write to EVT_PEND clears event bits. `page`: page (BAR0 offset / 4,096). `value`: value written. -/
  | evtPendClear (page : Nat) (value : W32)
  /-- EVT_FORCE, R515: A write to EVT_FORCE raises events. `page`: page (BAR0 offset / 4,096). `value`: value written. -/
  | evtForce (page : Nat) (value : W32)
  /-- EVT_EN_WRITE, R515: A write to EVT_EN may newly make a bit pending and send a message. `page`: page (BAR0 offset / 4,096). `value`: value written. -/
  | evtEnWrite (page : Nat) (value : W32)
  /-- ERR_CLEAR, R516: Writing ERR_CLEAR clears ERR_FIRST, ERR_COUNT and ERR_INFO. `page`: page (BAR0 offset / 4,096). -/
  | errClear (page : Nat)
  /-- PAGE_LOCK_WRITE, R517: A PAGE_LOCK write with the key sets or clears LOCKED. `page`: page (BAR0 offset / 4,096). `value`: value written. -/
  | pageLockWrite (page : Nat) (value : W32)
  /-- MERGE_CTRL_CLEAR, R194: Writing CLEAR to MERGE_CTRL clears the four merge counters. `cluster`: cluster. -/
  | mergeCtrlClear (cluster : Nat)
  /-- COMP_PEND_CLEAR, R520: A W1C write clears queue completion pending bits. `word`: COMP_PEND register. `value`: value written. -/
  | compPendClear (word : Nat) (value : W32)
  /-- CW_AP_WRITE, R518: A CW_APn write sets an aperture for later command-window TLPs. `aperture`: aperture. `value`: value written. -/
  | cwApWrite (aperture : Nat) (value : W64)
  /-- CMD_WINDOW_WRITE, R518: A command-window write lands in HBM through an aperture or is refused. `off`: BAR2 offset. `data`: bytes written. -/
  | cmdWindowWrite (off : Nat) (data : List Byte)
  /-- CMD_WINDOW_READ, R518: A command-window read returns HBM bytes through an aperture or all ones. `off`: BAR2 offset. `len`: bytes read. -/
  | cmdWindowRead (off : Nat) (len : Nat)
  /-- HOST_RESET_PARTITION, R526: HOST_RESET ACTION 0–3 resets one partition. `part_`: partition. -/
  | hostResetPartition (part_ : Nat)
  /-- HOST_RESET_MODULE, R526: HOST_RESET ACTION 8 resets the module and reboots from stage 2. -/
  | hostResetModule
  /-- MAILBOX_COMPLETE, R524: A mailbox operation ends, writes its response, sets DONE and sends vector 0. -/
  | mailboxComplete
  /-- GET_INFO, R536: Mailbox operation returning firmware versions, Nose state and identity. -/
  | getInfo
  /-- SET_TIME, R533: Mailbox operation setting the Nose's UTC seconds count. -/
  | setTime
  /-- READ_EVENTS, R536: Mailbox operation returning event log entries from a SEQ. -/
  | readEvents
  /-- READ_BLOTTERS, R536: Mailbox operation returning blotters from a BLOTTER_SEQ. `r`: what the read meets; its lost slots by BLOTTER_SEQ (R468, R482). -/
  | readBlotters (r : VRead)
  /-- STAGE_WRITE, R501: Mailbox operation writing bytes into the drydown buffer. -/
  | stageWrite
  /-- STAGE_READ, R536: Mailbox operation reading the drydown buffer or restored header. -/
  | stageRead
  /-- STORE_READ, R536: Mailbox operation reading STORE units. `r`: what the read meets; its lost codewords are unit * 256 + codeword (R468). -/
  | storeRead (r : VRead)
  /-- STORE_WRITE, R536: Mailbox operation writing STORE units. `failed`: a block's program fails (R471). -/
  | storeWrite (failed : Bool)
  /-- CALIBRATE, R537: Mailbox operation running module calibration on quiesced partitions. -/
  | calibrate
  /-- RETRAIN_HBM, R537: Mailbox operation retraining named stacks of quiesced partitions. -/
  | retrainHbm
  /-- RECAL_PORTS, R537: Mailbox operation recalibrating named ports by full search. -/
  | recalPorts
  /-- SELFTEST, R537: Mailbox operation running built-in self-test on a quiesced partition. `pass`: the test passes. `disabled`: cores it would disable. `narrowed`: cores it would narrow, with the column. `rowsDiffer`: its spare rows differ from the map in force. -/
  | selftest (pass : Bool) (disabled : List Nat) (narrowed : List (Nat × Nat)) (rowsDiffer : Bool)
  /-- FW_BEGIN, R539: Mailbox operation starting a firmware staging and erasing blocks. -/
  | fwBegin
  /-- FW_DATA, R539: Mailbox operation programming the next firmware bytes at an offset. `failed`: a block of the staging fails (R471). -/
  | fwData (failed : Bool)
  /-- FW_COMMIT, R539: Mailbox operation verifying the staged image and switching the map. `verdict`: image conditions of R549: 0 all hold, else the number of the first that fails. `r`: what the read of the staged image meets; its lost codewords are rebuilt (R468). -/
  | fwCommit (verdict : Nat) (r : VRead)
  /-- FW_ABORT, R539: Mailbox operation discarding any staging. -/
  | fwAbort
  /-- FW_ACTIVATE, R539: Mailbox operation restarting the Nose into the committed image. -/
  | fwActivate
  /-- SET_MIN_VERSION, R538: Mailbox operation writing a new minimum-version record. -/
  | setMinVersion
  /-- READ_SENSORS, R536: Mailbox operation returning every sensor's last and highest values. -/
  | readSensors
  /-- RECOVERY_LOAD, R541: Mailbox operation staging an image in RECOVERY and booting it on the last piece. `verdict`: image conditions of R549: 0 all hold, else the number of the first that fails. -/
  | recoveryLoad (verdict : Nat)
  /-- MCTP_CONTROL, R534: The Nose answers an MCTP control message. `binding`: 0 PCIe, 1 I3C. `eid`: the requester's endpoint. `tag`: the request's identifier. `cmd`: the command code. `data`: its data. -/
  | mctpControl (binding : Nat) (eid : Nat) (tag : Nat) (cmd : Nat) (data : List Byte)
  /-- PLDM_DISCOVERY, R535: The Nose answers a PLDM type 0 discovery request. `binding`: 0 PCIe, 1 I3C. `eid`: the requester's endpoint. `tag`: the request's identifier. `cmd`: the command code. `data`: its data. `ty`: PLDM type of the request; type 4 asks for the FRU record (R2). -/
  | pldmDiscovery (binding : Nat) (eid : Nat) (tag : Nat) (ty : Nat) (cmd : Nat) (data : List Byte)
  /-- PLDM_SENSOR_READ, R535: The Nose answers a PLDM type 2 numeric sensor reading request. `binding`: 0 PCIe, 1 I3C. `eid`: the requester's endpoint. `tag`: the request's identifier. `sensor`: sensor ID of Table 23-1. -/
  | pldmSensorRead (binding : Nat) (eid : Nat) (tag : Nat) (sensor : Nat)
  /-- PLDM_SET_EVENT_RECEIVER, R535: SetEventReceiver names the receiver of PLDM platform events. `binding`: 0 PCIe, 1 I3C. `eid`: the requester's endpoint. `tag`: the request's identifier. `enable`: events are sent. `receiver`: the receiver's endpoint. -/
  | pldmSetEventReceiver (binding : Nat) (eid : Nat) (tag : Nat) (enable : Bool) (receiver : Nat)
  /-- PLDM_REQUEST_UPDATE, R539: A PLDM type 5 RequestUpdate starts a firmware update or is refused. `binding`: 0 PCIe, 1 I3C. `eid`: the requester's endpoint. `tag`: the request's identifier. `len`: image length in bytes. -/
  | pldmRequestUpdate (binding : Nat) (eid : Nat) (tag : Nat) (len : Nat)
  /-- DOE_DISCOVERY, R507: The DOE instance answers a discovery request. `index`: entry asked for. -/
  | doeDiscovery (index : Nat)
  /-- SPDM_GET_VERSION, R554: SPDM responder answers GET_VERSION. `transport`: 0 DOE, 1 MCTP over PCIe, 2 MCTP over I3C. `eid`: the requester's endpoint. -/
  | spdmGetVersion (transport : Nat) (eid : Nat)
  /-- SPDM_GET_CAPABILITIES, R554: SPDM responder answers GET_CAPABILITIES. `transport`: 0 DOE, 1 MCTP over PCIe, 2 MCTP over I3C. `eid`: the requester's endpoint. `version`: version of the request, 0x10-0x13. -/
  | spdmGetCapabilities (transport : Nat) (eid : Nat) (version : Nat)
  /-- SPDM_NEGOTIATE_ALGORITHMS, R554: SPDM responder answers NEGOTIATE_ALGORITHMS. `transport`: 0 DOE, 1 MCTP over PCIe, 2 MCTP over I3C. `eid`: the requester's endpoint. -/
  | spdmNegotiateAlgorithms (transport : Nat) (eid : Nat)
  /-- SPDM_GET_DIGESTS, R554: SPDM responder answers GET_DIGESTS. `transport`: 0 DOE, 1 MCTP over PCIe, 2 MCTP over I3C. `eid`: the requester's endpoint. -/
  | spdmGetDigests (transport : Nat) (eid : Nat)
  /-- SPDM_GET_CERTIFICATE, R554: SPDM responder returns a certificate chain slot. `transport`: 0 DOE, 1 MCTP over PCIe, 2 MCTP over I3C. `eid`: the requester's endpoint. `slot`: certificate slot. `len`: bytes asked for. -/
  | spdmGetCertificate (transport : Nat) (eid : Nat) (slot : Nat) (len : Nat)
  /-- SPDM_CHALLENGE, R554: SPDM responder answers CHALLENGE with a signature. `transport`: 0 DOE, 1 MCTP over PCIe, 2 MCTP over I3C. `eid`: the requester's endpoint. `slot`: certificate slot. -/
  | spdmChallenge (transport : Nat) (eid : Nat) (slot : Nat)
  /-- SPDM_GET_MEASUREMENTS, R555: SPDM responder returns measurement blocks with the companion signature. `transport`: 0 DOE, 1 MCTP over PCIe, 2 MCTP over I3C. `eid`: the requester's endpoint. `index`: block asked for, 0 their number, 0xFF all. `signed`: a signature is asked for. -/
  | spdmGetMeasurements (transport : Nat) (eid : Nat) (index : Nat) (signed : Bool)
  /-- SPDM_KEY_EXCHANGE, R554: SPDM responder answers KEY_EXCHANGE. `transport`: 0 DOE, 1 MCTP over PCIe, 2 MCTP over I3C. `eid`: the requester's endpoint. -/
  | spdmKeyExchange (transport : Nat) (eid : Nat)
  /-- SPDM_FINISH, R554: SPDM responder answers FINISH, establishing the session. `transport`: 0 DOE, 1 MCTP over PCIe, 2 MCTP over I3C. `eid`: the requester's endpoint. `good`: the requester's verify data are good. -/
  | spdmFinish (transport : Nat) (eid : Nat) (good : Bool)
  /-- SPDM_HEARTBEAT, R554: SPDM responder answers HEARTBEAT. `transport`: 0 DOE, 1 MCTP over PCIe, 2 MCTP over I3C. `eid`: the requester's endpoint. -/
  | spdmHeartbeat (transport : Nat) (eid : Nat)
  /-- SPDM_KEY_UPDATE, R554: SPDM responder answers KEY_UPDATE. `transport`: 0 DOE, 1 MCTP over PCIe, 2 MCTP over I3C. `eid`: the requester's endpoint. `op`: 1 UpdateKey, 2 UpdateAllKeys, 3 VerifyNewKey. `tag`: the request's tag. -/
  | spdmKeyUpdate (transport : Nat) (eid : Nat) (op : Nat) (tag : Nat)
  /-- SPDM_END_SESSION, R554: SPDM responder ends a session. `transport`: 0 DOE, 1 MCTP over PCIe, 2 MCTP over I3C. `eid`: the requester's endpoint. -/
  | spdmEndSession (transport : Nat) (eid : Nat)
  /-- BANK_POWERED_DOWN, R210: A bank in POWERING_DOWN completes its power-down and becomes DOWN. `site`: stack site 0-15. `pc`: pseudo-channel 0-63. `bank`: bank 0-63. -/
  | bankPoweredDown (site : Nat) (pc : Nat) (bank : Nat)
  /-- SELF_REFRESH_EXIT_COMPLETE, R211: A stack that is exiting self-refresh finishes the exit, returns to active and serves its waiting requests. `site`: stack site 0-15. -/
  | selfRefreshExitComplete (site : Nat)
  /-- WXL_REFCLK_RETURN, R579: A stopped WXL reference clock returns and the die's ports leave TRAINING. `die`: the I/O die, 0-3. -/
  | wxlRefclkReturn (die : Nat)
  /-- PCIE_REFCLK_RETURN, R579: A stopped PCIe reference clock returns and the endpoint link can come up again. `width`: lanes the link trains to. `speed`: speed code the link trains to. `flit`: FLIT mode. -/
  | pcieRefclkReturn (width : Nat) (speed : Nat) (flit : Bool)
  /-- GARBAGE_COLLECTION, R469: The Nose reclaims vial places that no map entry names any longer and erases their blocks. `block`: the block whose live pages move. `failed`: the erase fails (R471). -/
  | garbageCollection (block : Nat) (failed : Bool)
  /-- ALIAS_KEYS_READY, R553: Firmware finishes deriving new alias keys after a restart into a new image, and SPDM requests are answered normally again. -/
  | aliasKeysReady
  /-- I3C_DYNAMIC_ADDRESS, R534: The I3C bus controller assigns the Nose target its dynamic address. `addr`: the address assigned. -/
  | i3cDynamicAddress (addr : Nat)
  /-- UNLISTED_MAILBOX_OPCODE, R536: A mailbox start with an opcode that Table 23-3 does not list completes at once with MB_BAD_OPCODE. -/
  | unlistedMailboxOpcode
  /-- RESERVED_OPCODE_ISSUE, R59: An instruction word with an opcode that Table 4-1 does not list is refused at issue with ILLEGAL_INSN and the core stops. `core`: the core that acts, 0-4,095. -/
  | reservedOpcodeIssue (core : Nat)
  /-- RESERVED_OPCLASS_RECORD, R256: A record with OPCLASS 0x00 or 0x0D-0xFF, such as a ring slot that was never written, reaches the head and halts the queue with QE_BAD_RECORD. `queue`: the queue, 0-4,095. -/
  | reservedOpclassRecord (queue : Nat)
  /-- D_STATE_CHANGE, R507: The host moves the endpoint between D0 and D3hot through its Power Management capability. `d3`: to D3hot, else D0. -/
  | dStateChange (d3 : Bool)
  /-- PLDM_ACTIVATE_FIRMWARE, R535: The PLDM type 5 update path activates the committed image by a Nose restart. `binding`: 0 PCIe, 1 I3C. `eid`: the requester's endpoint. `tag`: the request's identifier. `image`: the bytes transferred since RequestUpdate. `verdict`: image conditions of R549: 0 all hold, else the number of the first that fails. -/
  | pldmActivateFirmware (binding : Nat) (eid : Nat) (tag : Nat) (image : List Byte) (verdict : Nat)
  deriving DecidableEq, Repr

end Sys2Proof
end

