-- ==== Sys2Proof/Decode.lean ====
section
/-! DEFINITION. Decoding. No row of the operation and event table gives its command bits: a command comes from outside the module
as an event, not as a word. (The words of tile programs, which the spec does encode, are decoded by the core's own rows.) -/

namespace Sys2Proof

/-- The command a word of `nbits` bits spells: none, for every word. DEDUCED (log entry 13). -/
def decodeTableWord (_nbits _w : Nat) : Option Instr := none

end Sys2Proof
end

