-- ==== Sys2Proof/Machine/Bits.lean ====
section
/-! DEFINITION. Bit fields, sign extension, byte order and the sparse-map operations. Fields are read as
natural numbers: `fld w hi lo` is the manual's [hi:lo] (R6). -/

namespace Sys2Proof.Machine

/-- Bits [hi:lo] of a natural number (R6). -/
def nfld (x hi lo : Nat) : Nat := (x >>> lo) % 2 ^ (hi + 1 - lo)

/-- Bits [hi:lo] of a register (R6). -/
def fld {n : Nat} (w : BitVec n) (hi lo : Nat) : Nat := nfld w.toNat hi lo

/-- Bit i of a register. -/
def bit {n : Nat} (w : BitVec n) (i : Nat) : Bool := w.getLsbD i

/-- Replace bits [hi:lo] of a number by v (taken modulo the field's size). -/
def nsetFld (x hi lo v : Nat) : Nat :=
  x - (nfld x hi lo) * 2 ^ lo + (v % 2 ^ (hi + 1 - lo)) * 2 ^ lo

/-- Replace bits [hi:lo] of a register by v. -/
def setFld {n : Nat} (w : BitVec n) (hi lo v : Nat) : BitVec n := BitVec.ofNat n (nsetFld w.toNat hi lo v)

/-- Set bit i of a register to b. -/
def setBit {n : Nat} (w : BitVec n) (i : Nat) (b : Bool) : BitVec n :=
  if b then w ||| BitVec.ofNat n (2 ^ i) else w &&& ~~~ (BitVec.ofNat n (2 ^ i))

/-- The two's complement value of the low k bits of x. -/
def sval (k x : Nat) : Int :=
  let y := x % 2 ^ k
  if y < 2 ^ (k - 1) then (y : Int) else (y : Int) - (2 ^ k : Nat)

/-- A Bool as a bit. -/
def b2n (b : Bool) : Nat := if b then 1 else 0

/-- Division rounding up. -/
def cdiv (a b : Nat) : Nat := a / b + min 1 (a % b)

/-- Number of set bits among the low k bits of x. -/
def popcount : Nat → Nat → Nat
  | 0, _ => 0
  | k + 1, x => x % 2 + popcount k (x / 2)

/-- Little-endian bytes of x, n of them (R6). -/
def toBytes : Nat → Nat → List Byte
  | 0, _ => []
  | n + 1, x => BitVec.ofNat 8 x :: toBytes n (x / 256)

/-- The little-endian number of a list of bytes (R6). -/
def ofBytes : List Byte → Nat
  | [] => 0
  | b :: r => b.toNat + 256 * ofBytes r

/-- The little-endian number of the n bytes of a list from offset o; bytes past the end count 0. -/
def leAt (bs : List Byte) (o n : Nat) : Nat := ofBytes ((bs.drop o).take n)

/-- Cut a number into k lanes of w bits, lane 0 lowest. -/
def lanes (w : Nat) : Nat → Nat → List Nat
  | 0, _ => []
  | k + 1, x => x % 2 ^ w :: lanes w k (x >>> w)

/-- Put lanes of w bits together, lane 0 lowest. -/
def unlanes (w : Nat) : List Nat → Nat
  | [] => 0
  | x :: r => x % 2 ^ w + 2 ^ w * unlanes w r

/-- Element i of a list of numbers, 0 past the end. -/
def nth (l : List Nat) (i : Nat) : Nat := l.getD i 0

/-- Map with the position, counted from i. -/
def mapIx {α β : Type} (f : Nat → α → β) : Nat → List α → List β
  | _, [] => []
  | i, x :: r => f i x :: mapIx f (i + 1) r

/-- Replace bytes o, o+1, … of a list by bs; the list keeps its length. -/
def patch (l : List Byte) (o : Nat) (bs : List Byte) : List Byte :=
  ((l.take o) ++ bs ++ l.drop (o + bs.length)).take l.length

/-- Saturating increment at 2^n - 1. -/
def satInc {n : Nat} (w : BitVec n) (k : Nat) : BitVec n :=
  if w.toNat + k < 2 ^ n then BitVec.ofNat n (w.toNat + k) else BitVec.allOnes n

/-- The unit an absent key stands for is d, the unit's reset value. -/
def sget {α : Type} (d : α) : SMap α → Nat → α
  | [], _ => d
  | (j, v) :: r, k => if k = j then v else sget d r k

/-- Put unit k into the map, keys staying in rising order. -/
def sput {α : Type} : SMap α → Nat → α → SMap α
  | [], k, v => [(k, v)]
  | (j, w) :: r, k, v =>
    if k = j then (k, v) :: r else if k < j then (k, v) :: (j, w) :: r else (j, w) :: sput r k v

/-- Take unit k out of the map: it holds its reset value again. -/
def sdel {α : Type} : SMap α → Nat → SMap α
  | [], _ => []
  | (j, w) :: r, k => if k = j then r else (j, w) :: sdel r k

/-- Apply f to unit k. -/
def smod {α : Type} (d : α) (m : SMap α) (k : Nat) (f : α → α) : SMap α := sput m k (f (sget d m k))

/-- Apply f to every unit whose number satisfies p among the numbers ks. -/
def smodAll {α : Type} (d : α) (m : SMap α) (ks : List Nat) (f : Nat → α → α) : SMap α :=
  ks.foldl (fun m k => smod d m k (f k)) m

/-- Take every unit whose number satisfies p out of the map. -/
def sdrop {α : Type} (m : SMap α) (p : Nat → Bool) : SMap α := m.filter (fun e => !p e.1)

/-- Apply f to the listed units whose number satisfies p. -/
def smapIf {α : Type} (m : SMap α) (p : Nat → Bool) (f : α → α) : SMap α :=
  m.map (fun e => if p e.1 then (e.1, f e.2) else e)

/-- One of the conditions holds. -/
def anyOf : List Bool → Bool
  | [] => false
  | b :: r => b || anyOf r

/-- The numbers among lo, lo + 1, …, lo + n - 1 that satisfy p. -/
def numsWhere (p : Nat → Bool) (lo : Nat) : Nat → List Nat
  | 0 => []
  | n + 1 => if p lo then lo :: numsWhere p (lo + 1) n else numsWhere p (lo + 1) n

/-- The first of the numbers lo, lo + 1, …, lo + n - 1 that satisfies p. -/
def firstWhere (p : Nat → Bool) (lo : Nat) : Nat → Option Nat
  | 0 => none
  | n + 1 => if p lo then some lo else firstWhere p (lo + 1) n

/-- a - b modulo m. -/
def subMod (m a b : Nat) : Nat := (a + (m - b % m)) % m

/-- Insert into a list in rising order of a key. -/
def insertBy {α : Type} (key : α → Nat) (x : α) : List α → List α
  | [] => [x]
  | y :: r => if key y ≤ key x then y :: insertBy key x r else x :: y :: r

/-- Sort by a key, lowest first, equal keys in their order. -/
def sortBy {α : Type} (key : α → Nat) (l : List α) : List α := l.foldl (fun a x => insertBy key x a) []

/-- The keys of a map stand in rising order. -/
def swf {α : Type} : SMap α → Bool
  | [] => true
  | [_] => true
  | (i, _) :: (j, w) :: r => decide (i < j) && swf ((j, w) :: r)

end Sys2Proof.Machine
end

