-- ==== Sys2Proof/Config.lean ====
section
/-! DEFINITION. What the spec leaves open, as constants with no body: nothing in Lean can evaluate them, so a
claim holds whatever value they have. Each is named in the assumption log. -/

namespace Sys2Proof.Config

/-- The byte at module address `addr` whose contents the spec leaves undefined since loss number `epoch`
(R200, R338, R371, R422). DESIGN CHOICE (log entry 3). -/
opaque freeByte : Nat → Nat → BitVec 8

/-- A choice the spec leaves open (which of several versions of a line a racing read returns, which of two
values a shared element delivers); the first argument is the fresh counter of State. DEDUCED (log entry 6). DESIGN CHOICE (log entry 9). -/
opaque pick : Nat → Nat → Nat

/-- A vector register whose contents the spec leaves undefined (R338): fresh counter, register number. -/
opaque freeV : Nat → Nat → BitVec 1024

/-- Cycles or other timing figures that a counter adds and that the spec gives only as typical. DESIGN CHOICE (log entry 9). -/
opaque freeCycles : Nat → Nat

/-- Bytes of a cryptographic value, key, certificate or signature of this module: fresh counter, byte number. -/
opaque crypto : Nat → Nat → BitVec 8

/-- HMAC-SHA-384 (R477, R552): key, message, byte number. DESIGN CHOICE (log entry 64). -/
opaque hmac : List (BitVec 8) → List (BitVec 8) → Nat → BitVec 8

/-- SHA-384 (R552): message, byte number. DESIGN CHOICE (log entry 64). -/
opaque sha : List (BitVec 8) → Nat → BitVec 8

/-- HKDF-SHA-384 (R551): secret, label (0 "ZS8 wrap", 1 "ZS8 minver"), byte number. DESIGN CHOICE (log entry 64). -/
opaque hkdf : List (BitVec 8) → Nat → Nat → BitVec 8

/-- What the silicon's physical unclonable function yields with given helper data (R551): byte number. DESIGN CHOICE (log entry 64). -/
opaque puf : List (BitVec 8) → Nat → BitVec 8

/-- Bytes of the mask ROM's layer 0 (R552), as its digest takes them. DESIGN CHOICE (log entry 64). -/
opaque romLayer : Nat → BitVec 8

/-- Bytes of the device identity before the two fixed digits (R552): made by the silicon. -/
opaque identity : Nat → BitVec 8

/-- A number the spec leaves to the implementation (versions of images, sensor values before a first sample). -/
opaque freeNum : Nat → Nat

/-- Mesh column whose spine serves a stack site for requests from the other die (R313 does not give
it). DESIGN CHOICE (log entry 67). -/
opaque stackColumn : Nat → Nat

/-- Mesh row of the edge attachment that port traffic for a stack takes (R313 gives one attachment per row). DESIGN CHOICE (log entry 67). -/
opaque entryRow : Nat → Nat → Nat

/-- LIB_VERSION of a firmware version (Table 10-10: per firmware). -/
opaque libVersion : BitVec 32 → BitVec 32

end Sys2Proof.Config
end

