-- ==== Sys2Proof/Machine/State.lean ====
section
/-! DEFINITION. State: every piece of state the spec gives the module, as plain data; its value after reset; the
reasons a step can stop. -/

namespace Sys2Proof.Machine

/-- Fault reasons. No step of this model ends in a fault: every event either has the effect the spec gives it or
does not take place. -/
inductive Fault where
  /-- Raised by no meaning; kept so that the type has a name to report (safe). -/
  | none
  deriving DecidableEq, Repr

/-- Refusal reasons. -/
inductive Refusal where
  /-- Answered only by an arm of exec whose row has no meaning yet (safe: the machine stops). -/
  | notModelled (mnemonic : String)
  deriving DecidableEq, Repr

/-- The assembly variants of Table 0-1 (R1). DESIGN CHOICE (log entry 32). -/
inductive Variant where
  | m12l2
  | m16l2
  | m8l4
  deriving DecidableEq, Repr

/-- A range of memory whose unlisted bytes read otherwise than 0: contents the spec leaves undefined (epoch above
0), or cleared again inside such a range (epoch 0). -/
structure Hole where
  /-- First module address. -/
  lo : Nat
  /-- Bytes. -/
  len : Nat
  /-- 0: cleared; otherwise distinguishes one loss of contents from the next. -/
  epoch : Nat
  /-- The range is taken in periods of `per` bytes, of which the first `sub` are meant (all of it when per = sub). -/
  per : Nat
  sub : Nat
  deriving DecidableEq, Repr

/-- Memory: the HBM of the module and the core windows (scratchpads and accumulators), one module address space
(R24, R26). `cells` lists addresses in rising order, none equal to what an unlisted address reads as. -/
structure Mem where
  cells : List Host.Cell
  holes : List Hole
  deriving DecidableEq, Repr

/-- The common page header (Table 22-4); PAGE_ID and PAGE_REV are fixed and computed. -/
structure Hdr where
  vector : BitVec 10
  irqEn : Bool
  raw : W32
  en : W32
  errFirst : Half
  errCount : W32
  infoLo : W32
  infoHi : W32
  locked : Bool
  deriving DecidableEq, Repr

/-- One MSI-X table entry (R519). -/
structure MsixVec where
  addr : W64
  data : W32
  masked : Bool
  deriving DecidableEq, Repr

/-- Messages the module sends to its surroundings: an output record, oldest first. -/
inductive OutMsg where
  /-- An MSI-X message (R519). -/
  | msix (vec : Nat) (addr : W64) (data : W32)
  /-- A management or attestation answer: transport or protocol number, then its bytes (R534, R535, R554). -/
  | mgmt (proto : Nat) (bytes : List Byte)
  /-- A WXL flit on a port (R350). -/
  | flit (port : Nat) (bytes : List Byte)
  deriving DecidableEq, Repr

/-- Partition states (Table 1-8). -/
inductive PState where
  | off
  | init
  | active
  | quiesced
  | resetting
  deriving DecidableEq, Repr

/-- One partition page and the partition's latched settings (Tables 1-7, 25-3). -/
structure Part where
  state : PState
  moduleId : BitVec 12
  hbmKey : W64
  localGib : BitVec 6
  /-- K and LOCAL_GIB as HBM was placed at the last entry to ACTIVE from INIT (R198). -/
  placedKey : W64
  placedGib : BitVec 6
  expTable : W64
  sillageMode : BitVec 2
  sillageOfs : W64
  sillageLen : W64
  resetCause : W32
  resets : W64
  pendOp : BitVec 4
  pendReason : BitVec 2
  /-- A reset the host asked for is held while an operation of Table 18-9 runs (R438). -/
  resetHeld : Bool
  /-- Landing dies: the I/O dies with a port of the partition at its last entry to ACTIVE (R365), bit n for Ln. -/
  landing : BitVec 4
  /-- FIRST_CORE, and HBM_SIZE and HBM_BASE, as last held while the partition existed (R564). -/
  heldFirst : BitVec 12
  heldHbm : Half
  deriving DecidableEq, Repr

/-- Module global page (Table 25-2) and the repair map in force (R547). -/
structure Glob where
  partMode : BitVec 2
  /-- Owner field of each port index 0-31; an absent port holds 0xF (Table 1-6). -/
  portOwner : SMap (BitVec 4)
  integCfg : BitVec 3
  /-- INTEG_STATUS FULL as last evaluated: FULL_LOST is raised when a bit falls (R442). -/
  full : BitVec 4
  blotterSeq : W64
  failCode : Half
  ready : Bool
  scan : Bool
  cold : Bool
  stage : BitVec 4
  bootMs : W32
  /-- Disabled cores of the repair map in force. -/
  disabled : List Nat
  /-- Narrowed cores with the physical column bypassed. -/
  narrowed : List (Nat × Nat)
  /-- Spare-row entries of the map (Table 24-2). -/
  mapRows : List W32
  /-- A module operation of Table 18-9 that runs (R437): its mailbox opcode, 0 none. -/
  moduleOp : Half
  /-- Partitions the running module operation names. -/
  moduleOpParts : BitVec 4
  deriving DecidableEq, Repr

/-- PCIe endpoint: PCIE_STATE, command-window apertures, completion pending bits, MSI-X (Table 22-6, R519, R525). -/
structure Pcie where
  linkUp : Bool
  flit : Bool
  dState : BitVec 2
  width : BitVec 4
  speed : BitVec 4
  /-- PERST# as the baseboard drives it: true while asserted (low) (R581). -/
  perst : Bool
  /-- The PCIe reference clock runs (R579). -/
  refClk : Bool
  /-- The ROM or firmware has brought the endpoint up (R545). -/
  up : Bool
  cwAp : SMap W64
  compPend : SMap W32
  msixEn : Bool
  funcMask : Bool
  msix : SMap MsixVec
  pba : SMap Bool
  /-- A mailbox operation completed while MSI-X was disabled (R519). -/
  mbUnsent : Bool
  deriving DecidableEq, Repr

/-- Core states (Table 4-9). DISABLED is computed from the repair map. -/
inductive CState where
  | asleep
  | waking
  | idle
  | running
  | waiting
  | stopped
  | testing
  deriving DecidableEq, Repr

/-- Execution units of a core with a queue (R56). -/
inductive CUnit where
  | array
  | merge
  | vec
  | mover
  deriving DecidableEq, Repr

/-- What the sequencer tracks for R63. -/
inductive Res where
  | g (n : Nat)
  | v (n : Nat)
  | h (n : Nat)
  | t (n : Nat)
  deriving DecidableEq, Repr

/-- An issued instruction that has not completed. -/
structure Flight where
  /-- Number of the instruction on its core, in issue order. -/
  id : Nat
  unit : CUnit
  word : W64
  pc : Nat
  /-- The general register the instruction names for offsets, as read at issue (GO, GD or GA). -/
  reg : W64
  /-- Sources and destinations for R63. -/
  rd : List Res
  wr : List Res
  /-- Handle lines read or written, for HREL (R79): handle, first logical line, lines, written. -/
  spans : List (Nat × Nat × Nat × Bool)
  /-- Banks held (R68), bit b for bank b. -/
  banks : BitVec 16
  /-- Scratchpad lines its compute-port accesses touch (window offset / 64). -/
  lines : List Nat
  /-- Lines overwritten since issue by mover-port writes, with their bytes before the write, newest first. -/
  olds : List (Nat × List Byte)
  /-- SPARSE_THRESH[THR_SEL] and ROW_SPLIT latched at issue (R194). -/
  thresh : Nat
  rowSplit : Nat
  /-- MMA.A: parts done, and the path of the part in progress (true: dense). -/
  part : Nat
  path : Option Bool
  /-- MMA.A: the tile's values before its first part, which a failing header check leaves in place (R181). -/
  vals : List Nat
  /-- Has started on its unit; waits for the checker; is the sampled instruction (R448). -/
  started : Bool
  sampleWait : Bool
  sampled : Bool
  /-- Movers: source and destination descriptors and the sequence entries read at issue (R137, R175). -/
  src : List Byte
  dst : List Byte
  srcSeq : List (BitVec 128)
  dstSeq : List (BitVec 128)
  /-- MOVE.R to another endpoint: the transfer tag of its tracker entry (R169); none when local. -/
  xfer : Option Nat
  /-- MOVE.R or MOVE.X whose writes cross the network to another core: they were injected at issue. -/
  sent : Bool
  deriving DecidableEq, Repr

/-- Slot state of a checked handle (R74, R76). -/
structure Slots where
  full : W64
  fill : Nat
  rel : Nat
  deriving DecidableEq, Repr

/-- Why issue is held (R82, R86). -/
structure Hold where
  /-- true: LAUNCH_AT; false: a counter wait. -/
  launch : Bool
  /-- Accord time at which the hold began. -/
  since : Nat
  /-- WAIT_LIMIT already recorded for this hold (R87). -/
  limited : Bool
  deriving DecidableEq, Repr

/-- A queue record a core or engine runs. -/
structure Run where
  queue : Nat
  /-- HEAD-relative record index (R250). -/
  index : Nat
  cls : Nat
  deriving DecidableEq, Repr

/-- An UPDATE, COMBINE or TEST record on its core (R337, R406, R435). -/
structure Job where
  bytes : List Byte
  /-- Shard descriptor as read at the start (R406). -/
  desc : List Byte
  /-- UPDATE: the gradient of the record's blocks as it was at the start (R415). -/
  grad : List Byte
  /-- Blocks or tokens done. -/
  done : Nat
  /-- The record's checks have passed and its work has begun. -/
  begun : Bool
  /-- A remote write has landed in the scratchpad bytes the record uses (R338). -/
  tainted : Bool
  /-- TEST: Accord value at the start. -/
  at_ : Nat
  deriving DecidableEq, Repr

/-- One core ("Cores and scratchpads"). -/
structure Core where
  g : SMap W64
  v : SMap VReg
  prog : List W64
  progAddr : W64
  progLen : Nat
  pc : Nat
  handles : SMap W64
  slots : SMap Slots
  ctr : SMap W32
  tgt : SMap W32
  stp : SMap Byte
  state : CState
  waitLimit : W32
  hold : Option Hold
  flights : List Flight
  nextId : Nat
  /-- A stop in progress, with its error code: the core waits for its issued instructions (R66). -/
  stopping : Option Half
  /-- END has issued and waits for the issued instructions (Table 4-2). -/
  ended : Bool
  run : Option Run
  /-- The program load of TILE_RUN is under way: instruction 0 may not issue (R267). -/
  loading : Bool
  /-- A record is assigned and the core has not begun it (wake, load, argument line; R267). -/
  starting : Bool
  /-- Accord value at which the record launches; none without a stamp or once launched (R267). -/
  startAt : Option Nat
  /-- UPDATE, COMBINE or TEST in place of a tile program. -/
  job : Option Job
  sramCe : Half
  /-- Eligible starts and activity ticks since the last sample (R448). -/
  sinceSample : Nat
  activity : Nat
  /-- Start of the hold and of the sleep, for sleep and the wake predictor (R284, R286). -/
  idleSince : Nat
  sleepSince : Nat
  /-- SLEEP_CFG as it stood when the hold began: a write takes effect at the next hold (R297). -/
  holdCfg : W32
  /-- A wake is under way (requested and not completed), and its cause is one the predictor counts (R285, R286). -/
  wakeReq : Bool
  /-- State the core enters when the wake completes: 0 IDLE, 1 RUNNING, 2 WAITING, 3 TESTING, 4 checker (R287). -/
  wakeTo : Nat
  predLevel : BitVec 3
  /-- The core serves as its cluster's checker and reads RUNNING (R447). -/
  checker : Bool
  deriving DecidableEq, Repr

/-- A consumer's report on a record, on its way to the queue engine (R259, R260): code 0 done, else the error code. -/
structure Report where
  queue : Nat
  index : Nat
  code : Nat
  /-- General register G31 of the core when its program ended, for POST (R267). -/
  g31 : W64
  deriving DecidableEq, Repr

/-- The operand, scale, header and mask lines a matrix instruction or one part of it read: of A, of B and of the third
operand, each as a list of lines or of slots, as numbers (R106, R183). -/
structure OpLines where
  a : List Nat
  b : List Nat
  m : List Nat
  deriving DecidableEq, Repr

/-- A sampled instruction on the check path (R448-R450): what the check path delivers to the checker's check buffer (R449). -/
structure Sample where
  core : Nat
  word : W64
  pc : Nat
  /-- The register GO names, and the SPARSE_THRESH and ROW_SPLIT values latched at issue. -/
  reg : W64
  thresh : Nat
  rowSplit : Nat
  /-- The starting tile values. -/
  start : List Nat
  /-- The lines read, one entry per part in read order. -/
  reads : List OpLines
  /-- The tile the sampled core wrote. -/
  tile : List Nat
  /-- The sampled core has written its tile; the comparison may take place. -/
  written : Bool
  deriving DecidableEq, Repr

/-- One cluster page (Table 25-4) with the scheduler's and the checker's inner state. -/
structure Cluster where
  thresh : SMap (BitVec 9)
  rowSplit : BitVec 8
  pickDense : W64
  pickMerge : W64
  segExtra : W64
  mergeBusy : W64
  schedCfg : W32
  starts : W64
  stampLate : W64
  aged : W64
  sleepCfg : W32
  sleeps : W64
  wakesEarly : W64
  netCe : W64
  flitsOut : W64
  headWait : W64
  creditStall : W64
  updBlocks : W64
  updNonfinite : W64
  updFrozen : W64
  dupCfg : W32
  /-- Checker core within the cluster; none when DUP_STATE reads NONE. -/
  checker : Option Nat
  sample : Option Sample
  /-- Cores whose sampled instruction waits for the checker, in the order they began to wait (R448). -/
  dupQueue : List Nat
  /-- A rotation or an assignment is due and waits for a free core (R447). -/
  rotateDue : Bool
  /-- Accord time of the next rotation point (R447, R463). -/
  rotateAt : Nat
  dupSamples : W64
  dupWaits : W64
  arithCe : W64
  /-- Queue whose record the ready scheduler last started (R268). -/
  lastQueue : Nat
  deriving DecidableEq, Repr

/-- A WR flit on the on-die network (R300, R306-R309): a write or a counter increment for a core. DESIGN CHOICE (log entry 60). -/
structure NetMsg where
  /-- Source unit: a core number, 5000 + site for a stack engine, 6000 + x for I/O die Lx, 7000 + die for a queue engine. -/
  src : Nat
  /-- Flight of the source core the write belongs to (0 for none; flights number from 1). -/
  flight : Nat
  /-- Destination core. -/
  dst : Nat
  /-- Bytes written, with their module addresses; empty for an increment. -/
  cells : List Host.Cell
  /-- A reduce-store of MOVE.X: element type (0 FP32, 1 BF16), maximum instead of add, FP32 value (R170). -/
  red : Option (Nat × Bool × Nat)
  /-- Arrival counter and amount of the increment, if it carries one. -/
  inc : Option (Nat × Nat)
  /-- Mover flights of the source core whose writes must have landed first (FENCE, R85). -/
  fence : List Nat
  /-- The source has injected it; a mover injects its writes while later instructions issue (R309). -/
  injected : Bool
  deriving DecidableEq, Repr

/-- A wake request in the governor (R289). -/
structure WakeReq where
  core : Nat
  at_ : Nat
  deriving DecidableEq, Repr

/-- The Accord counter, its copies and the wake governor ("The Accord counter, sleep and clock crossings"). -/
structure Accord where
  master : Nat
  fine : Bool
  /-- Ticks since the last REF edge, 0-59, and the master's value at that edge (R278). -/
  phase : Nat
  edge : Nat
  /-- The master holds since the PLL stopped (R278). -/
  holding : Bool
  /-- The PLL has been started; it has locked. -/
  pllOn : Bool
  pllLock : Bool
  /-- A switch to coarse mode, or to fine mode, waits for the next REF edge. -/
  toCoarse : Bool
  toFine : Bool
  /-- Upper half of the master that a narrow read of ACC_LO latched for the next read of ACC_HI (R280). -/
  accHi : Option W32
  wakeRate : BitVec 9
  maxErr : Byte
  wakes : W64
  wakeDeferred : W64
  /-- Wake requests not admitted, in arrival order; the window last opened and the requests admitted in it. -/
  wakeQ : List WakeReq
  window : Nat
  admitted : Nat
  /-- Error of each local copy against the master, in ticks; within 2 unless faulty (R279). -/
  copyErr : SMap Int
  /-- REF present; otherwise the internal oscillator drives the base-note domain (R578). -/
  refPresent : Bool
  deriving DecidableEq, Repr

/-- State of a bank (R210). -/
inductive BankState where
  | opened
  | closed
  | poweringDown
  | down
  deriving DecidableEq, Repr

/-- One bank: its state, outstanding-write counter and the time of its last request (R210). -/
structure Bank where
  st : BankState
  writes : Nat
  last : Nat
  deriving DecidableEq, Repr

/-- What a request asks of a controller (R170, R202, R203). -/
inductive HbmOp where
  | read (len : Nat)
  | write (data : List Byte)
  | reduce (ty : Nat) (mx : Bool) (value : Nat)
  deriving DecidableEq, Repr

/-- A request to a controller within one granule: its module address, what its codeword reads meet, whether it is a read-merge-write,
whether the bank is left open, and how many outstanding writes of the bank reach the array. -/
structure HbmReq where
  addr : Nat
  op : HbmOp
  ecc : List Ecc
  rmw : Bool
  keepOpen : Bool
  drains : Nat
  deriving DecidableEq, Repr

/-- Data a controller returned, and whether it is marked poisoned (R203). -/
structure HbmReply where
  addr : Nat
  data : List Byte
  poisoned : Bool
  deriving DecidableEq, Repr

/-- One memory controller page (Tables 9-7, 9-8) with the stack's inner state. -/
structure Mc where
  cfg : W32
  /-- MC_STATE: 0 active, 1 self-refresh, 2 exiting. -/
  st : BitVec 2
  imbCfg : W32
  imbOn : Bool
  hotPc : BitVec 6
  run : Byte
  lastRatio : Byte
  stackReq : W64
  throttle : W64
  tempHot : BitVec 5
  tempMax : Byte
  ecce : W64
  eccue : W64
  wakeCount : W64
  pcCount : SMap W32
  /-- Requests each pseudo-channel has accepted in the running window, and the window's start (R207). -/
  running : SMap Nat
  winStart : Nat
  /-- Banks by pseudo-channel * 64 + bank. -/
  banks : SMap Bank
  /-- State of every bank the map does not list. -/
  restDown : Bool
  /-- Accord time since which every bank is DOWN and no engine command is pending (R211); none otherwise. -/
  idleSince : Option Nat
  /-- Refreshes issued per bank since power-up (R204). -/
  refreshes : Nat
  /-- The run in progress has raised its event (R207). -/
  imbRaised : Bool
  /-- Requests held while the stack leaves self-refresh, in arrival order (R211). -/
  waiting : List HbmReq
  /-- What the controller answered last (R203). -/
  reply : Option HbmReply
  /-- The stack works (a site whose self-test fails stays off, R548). -/
  ok : Bool
  deriving DecidableEq, Repr

/-- One blotter: the Zhoco section of Table 19-5 with its sequence number and whether its time is valid. -/
structure Blotter where
  seq : Nat
  /-- UTC seconds, when the driver has set the time (R533); none: timestamp not valid. -/
  utc : Option Nat
  cls : Nat
  code : Nat
  source : Nat
  action : Nat
  inst : Nat
  partition : Nat
  moduleId : Nat
  parts : Nat
  accDetect : Nat
  accReport : Nat
  address : Nat
  infoLo : Nat
  infoHi : Nat
  count : Nat
  fwVersion : Nat
  core : Nat
  peer : Nat
  site : Nat
  pc : Nat
  bank : Nat
  port : Nat
  row : Nat
  col : Nat
  lane : Nat
  rail : Nat
  insn : Nat
  pcAt : Nat
  deriving DecidableEq, Repr

/-- The limits of R459 and the Nose's time. -/
structure FaultLog where
  /-- Per detecting page: Accord time of its last corrected blotter, and corrections counted since (R459). -/
  lastAt : SMap (Option Nat)
  counted : SMap Nat
  /-- Seconds of UTC set by SET_TIME and the Accord time of the setting (R533); none until set. -/
  utcBase : Option (Nat × Nat)
  /-- Blotters whose faults were detected while the Nose restarts: issued when the restart is done (R458). -/
  held : List Blotter
  deriving DecidableEq, Repr

/-- What became of a record a queue has started (R257-R261). -/
inductive RecSt where
  /-- Its consumer has it. -/
  | running
  /-- Completed. -/
  | done
  /-- Failed with the consumer's code under HALT_ON_ERR (R260). -/
  | failed (code : Nat)
  /-- Refused by a check of R258: never started. -/
  | refused
  /-- To be run again after ENABLE 1 on the halted queue (R261). -/
  | again
  deriving DecidableEq, Repr

/-- A record between its start and its retirement. -/
structure QRec where
  index : Nat
  bytes : List Byte
  st : RecSt
  deriving DecidableEq, Repr

/-- One queue ("Queues and dispatch"; expert queues, R326-R330). -/
structure Queue where
  cfg : W64
  /-- Q_BIND without HALTED and SKIP. -/
  bind : W32
  halted : Bool
  head : W32
  tail : W32
  /-- Records started and not retired, in index order (R257). -/
  recs : List QRec
  /-- Ticks the next record has waited while a core was available to it, and whether it was raised to priority 3 (R269). -/
  waited : Nat
  aged : Bool
  /-- The queue engine's copy of bytes 0-63 of the expert entry (R327). -/
  entry : List Byte
  /-- Slots of the round's open group, in admission order (R330). -/
  group : List Nat
  /-- Generation of an arrival held until the old round has drained (R328). -/
  heldGen : Option Nat
  deriving DecidableEq, Repr

/-- A return context of an Atomizer (R323). -/
structure Ctx where
  gen : Nat
  retBase : Nat
  choiceAddr : Nat
  nch : Nat
  outLines : Nat
  retCtr : Nat
  pend : Nat
  /-- Partition that dispatched. -/
  part : Nat
  deriving DecidableEq, Repr

/-- A DISPATCH record an Atomizer holds or runs (R322, R323). -/
structure Disp where
  queue : Nat
  index : Nat
  bytes : List Byte
  started : Bool
  /-- Next choice, t * NCH + j; past the last one, the expert whose end marker is next. -/
  next : Nat
  ends : Nat
  deriving DecidableEq, Repr

/-- An Atomizer page (Table 14-10) with the Atomizer's inner state. -/
structure Atom where
  ctxSel : Byte
  ctxs : SMap Ctx
  /-- Last cancelled generation by context (R339). -/
  cancelled : SMap Nat
  dispatched : W64
  returned : W64
  dropped : W64
  stale : W64
  mapMiss : W64
  cancels : W64
  disps : List Disp
  /-- Queue whose record was handed over last (R270). -/
  lastQueue : Nat
  deriving DecidableEq, Repr


/-- A command a stack engine has received and not completed (R217-R219). -/
structure SeCmd where
  queue : Nat
  index : Nat
  bytes : List Byte
  /-- Its unit: 0 front end, 1 transposer, 2 compressor, 3 reduce unit, 4 checkpoint mover (Table 10-1). -/
  unit : Nat
  started : Bool
  /-- Descriptors read at the start (R219). -/
  d0 : List Byte
  d1 : List Byte
  /-- Checkpoint mover: transfers opened, transfers ended, bytes streamed in order so far. -/
  sent : Nat
  ended : Nat
  /-- Error of a remote refusal, to be reported when the command ends; 0 none. -/
  err : Nat
  /-- Push: CRC-64 over the bytes streamed so far (Table 10-8). -/
  dig : Nat
  /-- Pull: the bytes read so far, by their place in the local range, over which the digest is computed (R238). -/
  pulled : SMap (List Byte)
  deriving DecidableEq, Repr

/-- A contribution in a slot's hold area (R231, R232, R390). -/
structure Contrib where
  rank : Nat
  carry : Bool
  /-- Offset in the hold area, contribution bytes, bytes landed (header and digest included). -/
  off : Nat
  len : Nat
  got : Nat
  /-- Digest the contribution carries, if any, and its step tag. -/
  dig : Option Nat
  tag : Nat
  /-- Form and k of the header; false: it does not match the slot and is not stored. -/
  form : Nat
  topk : Nat
  fits : Bool
  /-- Its LAST message has landed. -/
  last : Bool
  /-- Landed and checked. -/
  ready : Bool
  /-- Added in the pass that runs. -/
  passing : Bool
  /-- Landing die, sender and transfer, for the answer: die, source field of the message, transfer tag. -/
  die : Nat
  src : Nat
  xtag : Nat
  deriving DecidableEq, Repr

/-- Progress of the send of a slot to one member (R387). -/
inductive SendSt where
  | waiting
  | inFlight (xtag : Nat)
  | ended
  | failed (code peer : Nat)
  deriving DecidableEq, Repr

/-- An open reduce slot or carry slot (R230-R236, R397). -/
structure RSlot where
  group : Nat
  bucket : Nat
  queue : Nat
  index : Nat
  bytes : List Byte
  /-- Descriptors of the result and of SRC (FORM 0, 1). -/
  res : List Byte
  src : List Byte
  /-- Latched at open (R230). -/
  mask : W64
  own : Nat
  epoch : Nat
  tag : Nat
  deadline : Nat
  form : Nat
  topk : Nat
  elems : Nat
  holdBase : Nat
  holdSize : Nat
  openedAt : Nat
  lateRaised : Bool
  added : W64
  settled : W64
  carried : W64
  held : List Contrib
  /-- Digest failures by rank (R392). -/
  fails : SMap Nat
  sends : SMap SendSt
  /-- A pass runs (R234); the own contribution is part of it. -/
  pass : Bool
  ownPass : Bool
  /-- Some contribution has been added (v is not empty). -/
  any : Bool
  /-- Elements some contribution has had present (FORM 3, R233). -/
  seen : List Nat
  /-- Position in the add sequence for the sillage log (R429). -/
  order : Nat
  /-- SETTLE entries that wait for room in the ring, oldest first: the ranks each settled (R430, R431). -/
  silSettle : List W64
  /-- SILLAGE_FULL has been raised for the entry that is held (R431). -/
  silHeld : Bool
  /-- Closed: kept as a carry slot under CARRY (R397). -/
  carrySlot : Bool
  deriving DecidableEq, Repr

/-- A stack engine page (Table 10-9) with the engine's inner state. -/
structure Se where
  scrubEn : Bool
  ctrSel : BitVec 12
  ctrs : SMap W32
  scrubPos : BitVec 30
  scrubPasses : W64
  scrubFixed : W64
  nonfinite : W64
  digestFail : W64
  holdRefused : W64
  cmds : List SeCmd
  /-- Queue whose record was handed over last (R270). -/
  lastQueue : Nat
  slots : List RSlot
  /-- Accord time at which the engine last became free of commands (R211). -/
  idleAt : Nat
  /-- Replay: positions of ring entries consumed beyond READ_POS (R432). -/
  silUsed : List Nat
  deriving DecidableEq, Repr

/-- A reduction group's entry and layout planes (Tables 16-1, 16-2). -/
structure Group where
  cfg : W32
  /-- 0 DISABLED, 1 READY, 2 DRAINING, 3 ABORTED. -/
  st : BitVec 3
  mask : W64
  tag : W64
  epoch : W32
  arg : W64
  /-- Epoch the running RESHARD moves to (R398). -/
  newEpoch : W32
  sel : W32
  staged : SMap W32
  active : SMap W32
  lateSet : W64
  lateTag : W64
  deriving DecidableEq, Repr

/-- A reduction-group page (Table 16-5). -/
structure GrpPage where
  lateGroup : W32
  lateBucket : W32
  lateMissing : W64
  carried : W64
  lateDropped : W64
  lateMissed : W64
  skewAccepted : W64
  contribIn : W64
  busyOut : W64
  deriving DecidableEq, Repr


/-- A WXL message (Table 15-6). -/
structure Msg where
  /-- Virtual channel it travels on (Table 15-5). -/
  vc : Nat
  kind : Nat
  flags : Nat
  dst : Nat
  src : Nat
  hops : Nat
  svc : Nat
  sseq : Nat
  xtag : Nat
  xidx : Nat
  addr : Nat
  incSel : Nat
  code : Nat
  data : List Byte
  deriving DecidableEq, Repr

/-- A DATA flit in the replay buffer (R354). -/
structure TxFlit where
  seq : Nat
  vc : Nat
  first : Nat
  payload : List Byte
  deriving DecidableEq, Repr

/-- Port states (Table 15-12). -/
inductive PortSt where
  | down
  | training
  | up
  | degraded
  deriving DecidableEq, Repr

/-- A link port page (Table 15-11) with the port's inner state. -/
structure Port where
  ctrl : W32
  st : PortSt
  lanes : BitVec 4
  width : Nat
  peer : W32
  fecCorr : W64
  fecUncorr : W64
  crcFail : W64
  replays : W64
  retrains : W64
  flitsTx : W64
  flitsRx : W64
  /-- Messages waiting per channel, as bytes, oldest first; the flag says that part of the first has been sent. -/
  tx : SMap (List (List Byte))
  txPart : SMap Bool
  /-- DATA flits sent and not acknowledged, oldest first; those to be resent; the next sequence number (R354). -/
  replay : List TxFlit
  resend : List TxFlit
  txSeq : Nat
  /-- Accord-independent time of the last advance of ACK_SEQ, and replays in a row without progress (R349, R354). -/
  ackAt : Nat
  replayRun : Nat
  /-- Receiver: last good sequence number + 1; a NAK is due; a discard has been answered already. -/
  rxSeq : Nat
  nakDue : Bool
  nakSent : Bool
  /-- Message bytes received per channel, and whether the channel is in step with the message headers. -/
  rx : SMap (List Byte)
  rxSync : SMap Bool
  /-- Receive buffers freed per channel, counts last sent, flits accepted per channel (R353). -/
  freed : SMap Nat
  given : SMap Nat
  taken : SMap Nat
  /-- Credits: last count seen from the far side, flits sent per channel. -/
  seen : SMap Nat
  used : SMap Nat
  /-- Flit slot number modulo 128; arbitration turn: channel and flits left (R351, R356). -/
  slot : Nat
  turn : Nat
  turnLeft : Nat
  deriving DecidableEq, Repr

/-- Who started a transfer (R372). -/
inductive Requester where
  /-- MOVE.R: core and flight (R169). -/
  | move (core flight : Nat)
  /-- The increment that follows a MOVE.R of a core (RMT_CTR, R167). -/
  | rmt (core : Nat)
  /-- Checkpoint mover: site and piece (R237, R238). -/
  | ckpt (site piece : Nat)
  /-- Reduce unit: site, group, bucket, member (R387). -/
  | contrib (site group bucket rank : Nat)
  /-- Link engine: record's queue, its index, piece (R374). -/
  | link (queue index piece : Nat)
  deriving DecidableEq, Repr

/-- A tracked transfer (R371, R372). -/
structure Xfer where
  req : Requester
  part : Nat
  /-- Destination module ID. -/
  dst : Nat
  /-- Channel. -/
  vc : Nat
  /-- Its messages, for a resend of the whole transfer. -/
  msgs : List Msg
  /-- BUSY has been answered: the transfer is resent at this time (R369). -/
  busyAt : Option Nat
  /-- READ_REQ: bytes asked for and landed. -/
  want : Nat
  got : Nat
  deriving DecidableEq, Repr

/-- A source stream context (R364, R367, R368). -/
structure SrcStream where
  part : Nat
  dst : Nat
  vc : Nat
  nextSeq : Nat
  /-- Messages sent and not acknowledged, oldest first; messages that wait for the window. -/
  sent : List Msg
  waiting : List Msg
  /-- Time of the last advance of the acknowledgement and of the last message sent; resends in a row. -/
  ackAt : Nat
  sentAt : Nat
  resends : Nat
  /-- Acknowledged messages that hold no tracker entry, kept for a resend while the stream is open; those answered BUSY, with the tag
  and the time of the answer (R372). -/
  kept : List Msg
  busy : List (Nat × Nat)
  deriving DecidableEq, Repr

/-- An increment that follows a MOVE.R to another endpoint and waits for a tracker entry, or for the core's earlier mover writes (R85, R167):
core, message, mover flights it waits for. -/
structure RmtWait where
  core : Nat
  msg : Msg
  fence : List Nat
  deriving DecidableEq, Repr

/-- A transfer open at its landing die: its tag, whether its messages are passed over (R369), and the ranges of memory its bytes have been
written to: first address and length (R371). -/
structure LandXfer where
  tag : Nat
  refused : Bool
  wrote : List (Nat × Nat)
  deriving DecidableEq, Repr

/-- A landing context (R366, R368). -/
structure LandCtx where
  part : Nat
  /-- SRC field of its messages (module ID and I/O die). -/
  src : Nat
  vc : Nat
  expect : Nat
  /-- Early messages (R366). -/
  early : List Msg
  /-- Deliveries since the last STREAM_ACK; time of the first of them; time of the last message. -/
  unacked : Nat
  deliveredAt : Nat
  msgAt : Nat
  /-- Transfers open on the stream. -/
  xfers : List LandXfer
  /-- The OPEN message that began the stream, which tells a resent one from a new stream's (R366, R368). -/
  opened : Option Msg
  /-- A row that comes in several messages: where its next bytes go, and its tag (R323, R334). -/
  cont : Option (Nat × List Byte)
  deriving DecidableEq, Repr

/-- A message at an I/O die, not yet taken: its arrival port (none: handed over inside the module). -/
structure InMsg where
  port : Option Nat
  msg : Msg
  deriving DecidableEq, Repr

/-- A link-engine MOVE record that runs (R374). -/
structure LinkMove where
  queue : Nat
  index : Nat
  bytes : List Byte
  /-- Transfers opened and acknowledged. -/
  sent : Nat
  acked : Nat
  deriving DecidableEq, Repr

/-- A link-engine page (Table 15-13) with the I/O die's inner state. -/
structure Iod where
  rtSel : W32
  routes : SMap W32
  vcWeight : W32
  linkCfg : W32
  trkPeak : Nat
  xferDone : W64
  xferFail : W64
  resends : W64
  busyRx : W64
  reorderDrop : W64
  noRoute : W64
  xfers : SMap Xfer
  streams : List SrcStream
  lands : List LandCtx
  /-- Port that carried the last message for a destination (R362). -/
  lastPort : SMap Nat
  inbox : List InMsg
  moves : List LinkMove
  /-- Records a full queue of the link engine or the tracker holds back. -/
  waiting : List LinkMove
  rmtWait : List RmtWait
  /-- Queue whose record was handed over last (R270). -/
  lastQueue : Nat
  /-- The die's WXL reference clock runs (R579). -/
  refClk : Bool
  deriving DecidableEq, Repr


/-- One entry of the Nose's event log (Table 23-2). -/
structure Event where
  seq : Nat
  acc : Nat
  pageId : Nat
  kind : Nat
  bit : Nat
  code : Nat
  info : Nat
  count : Nat
  time : Nat
  deriving DecidableEq, Repr

/-- A critical set, or the one a drydown in progress will write (Tables 21-8, R478). -/
structure CritSet where
  seq : Nat
  cause : Nat
  /-- STAGE_BUSY in [0], BANK_WEAK in [1]. -/
  flags : Nat
  acc : Nat
  inputMin : Nat
  bankMv : Nat
  driverLen : Nat
  partState : List Nat
  resetCause : List Nat
  blotSeq : Nat
  blotters : List Blotter
  events : List Event
  /-- The driver area. -/
  area : Mem
  /-- Every CRC and codeword reads (R478). -/
  good : Bool
  deriving DecidableEq, Repr

/-- The power page (Table 21-10) with the power stage's inner state. -/
structure Pwr where
  st : BitVec 3
  /-- Rails whose domain a rail fault keeps off until the next power-up (R457). -/
  dead : List Nat
  /-- Compute dies (number) and I/O dies (10 + number) a thermal trip keeps off (R495). -/
  tripped : List Nat
  opCfg : BitVec 4
  /-- Power cap of both dies, thermal cap and effective point by die (codes of OP_CFG). -/
  powerCap : BitVec 2
  thermCap : SMap (BitVec 2)
  op : SMap (BitVec 2)
  /-- Operating point a change in progress moves to, by die (R491). -/
  change : SMap (BitVec 2)
  /-- PWR_LIMIT as written; none until written: the variant's maximum. -/
  limit : Option Half
  /-- Consecutive windows at or below 90 % of the limit; time of the last PWR_CAP at the bottom (R492). -/
  under : Nat
  bottomAt : Option Nat
  /-- By die: time of the last thermal step, and since when the die has been below 92 degrees (R495). -/
  thermAt : SMap Nat
  coolAt : SMap (Option Nat)
  dieTemp : SMap Byte
  minMv : Half
  mv : Half
  ma : W32
  watts : Half
  bankOk : Bool
  bankWeak : Bool
  bankCap : BitVec 14
  bankMv : Half
  dryCfg : BitVec 12
  accKept : Bool
  cause : BitVec 3
  outcome : BitVec 3
  drydowns : W64
  caps : W64
  /-- Consecutive samples outside its limits, by rail (R457). -/
  railRun : SMap Nat
  /-- The drydown in progress: what it will write, or that it writes a skip marker (R499). -/
  dry : Option CritSet
  drySkip : Bool
  /-- A module reset keeps the drydown buffer through the next mount (R526). -/
  keepBuffer : Bool
  /-- FAULT# and DRY# as driven: true while low (Table 26-4). -/
  faultLow : Bool
  dryLow : Bool
  deriving DecidableEq, Repr

/-- A configuration record (R474): its newest good generation, and whether a record had been written that no copy reads. -/
structure CfgRec where
  gen : Nat
  payload : List Byte
  deriving DecidableEq, Repr

/-- The stored firmware image (R549): its version, length and bytes. -/
structure Image where
  version : Nat
  len : Nat
  bytes : Mem
  deriving DecidableEq, Repr

/-- A block of the vial (R467-R471): region of Table 20-3, erase count, retired, holding data a map entry names, holding data
no entry names any longer. -/
structure VBlock where
  region : Nat
  erases : Nat
  retired : Bool
  live : Bool
  stale : Bool
  /-- Logical block of the region's map that it holds (R469). -/
  unit : Nat
  /-- Number of its first program since its erase, over all blocks: the order in which blocks were written (R473). -/
  born : Nat
  deriving DecidableEq, Repr

/-- The block map, with the erase counts and the counts that ANCHOR keeps (R467, R469, R484). -/
structure VMap where
  blocks : SMap VBlock
  /-- Block and place in it that hold each STORE unit; the block being filled, with the units in it (R469). -/
  place : SMap (Nat × Nat)
  openBlock : Option (Nat × Nat)
  /-- First programs so far, and blocks the blotter log has begun. -/
  births : Nat
  logBlocks : Nat
  /-- The image the map names (R539, R549). -/
  image : Option Image
  retired : W64
  patrolPasses : W64
  blotWritten : W64
  blotOver : W64
  /-- Powered time in Accord ticks, which ANCHOR holds in hours (Table 20-3). -/
  powered : Nat
  deriving DecidableEq, Repr

/-- A copy of ANCHOR: its sequence, and whether its digest is good (R469). -/
structure Anchor where
  seq : Nat
  good : Bool
  map : VMap
  deriving DecidableEq, Repr

/-- The vial: its page (Table 20-7) and what it stores without power. -/
structure Vial where
  mounted : Bool
  roRegions : BitVec 6
  dryValid : Bool
  dryTarget : Bool
  dryReady : Bool
  corrected : W64
  retries : W64
  uncorr : W64
  refreshed : W64
  /-- LOW_SPARES has been raised for the present fall to 256 (R483). -/
  lowSpares : Bool
  /-- The two halves of DRYDOWN and the skip marker: its cause, and the SEQ of the newest set when it was written. -/
  halfA : Option CritSet
  halfB : Option CritSet
  marker : Option (Nat × Nat)
  /-- Configuration records by type * 64 + instance (Table 20-4). -/
  records : SMap CfgRec
  /-- The map in force, the copies of it in ANCHOR, and the sequence of the newest (R469). -/
  map : VMap
  anchor : SMap Anchor
  anchorSeq : Nat
  /-- Accord time up to which powered time is counted. -/
  poweredAt : Nat
  /-- Pages of the blotter log by block, in the order programmed (R482). -/
  logPages : SMap (List (List Blotter))
  /-- Bytes of the blocks that hold STORE units: block * 4 MiB + place * 256 KiB. -/
  flash : Mem
  /-- Block patrol last read in its present pass, with the block's order of writing (R473). -/
  patrolAt : Option (Nat × Nat)
  /-- Blocks whose program failed during the last drydown: retired after mount (Table 20-6). -/
  dryFailed : List Nat
  deriving DecidableEq, Repr

/-- A firmware update in progress (R539): path (1 mailbox, 2 PLDM, 3 recovery), image length, bytes staged, IMAGE blocks taken. -/
structure Update where
  path : Nat
  len : Nat
  done : Nat
  bytes : Mem
  blocks : List Nat
  deriving DecidableEq, Repr

/-- A mailbox operation in progress: its opcode and argument, and its result once it has one. -/
structure MbOp where
  op : Nat
  arg : Nat
  req : Nat
  result : Option (Nat × List Byte)
  deriving DecidableEq, Repr

/-- An SPDM connection of one transport (R554). -/
structure Spdm where
  /-- Version in use (0x10-0x13); 0 before GET_VERSION. -/
  version : Nat
  caps : Bool
  algs : Bool
  /-- KEY_EXCHANGE has been answered; FINISH has; key updates of the session. -/
  handshake : Bool
  session : Bool
  updates : Nat
  deriving DecidableEq, Repr

/-- The Nose: its page (Table 25-5), mailbox, event log, sensors, management endpoints and update agent. -/
structure Nose where
  mode : BitVec 3
  running : W32
  staged : W32
  minVersion : W32
  restarts : W64
  cause : Half
  sramCe : W64
  mbOpcode : Half
  mbReqLen : BitVec 21
  mbArg : W64
  mbDone : Bool
  mbCode : Half
  mbRespLen : BitVec 21
  mbRejects : W64
  mbCompleted : W64
  mb : Option MbOp
  window : Mem
  /-- The drydown buffer (R501) and the set whose header the mailbox may read (R504). -/
  buffer : Mem
  restored : Option CritSet
  /-- Event log, oldest first; SEQ of the newest; the newest entry of each page and bit: page * 32 + bit to (SEQ, time). -/
  events : List Event
  evtSeq : Nat
  evtAt : SMap (Nat × Nat)
  /-- Last and highest value of each sensor since mount; threshold level last reported. -/
  sensors : SMap (Nat × Nat)
  levels : SMap Nat
  update : Option Update
  /-- A restart in progress: code of RESTART_CAUSE, whether FW_ACTIVATE or a module reset asked for it, Accord value at its start. -/
  restarting : Option (Nat × Bool × Nat)
  /-- Blotters not yet in the vial's log (R482), and time since the oldest was received. -/
  unlogged : List Blotter
  loggedAt : Nat
  /-- MCTP endpoint IDs by binding (0 PCIe, 1 I3C), the I3C dynamic address, the PLDM terminus ID and the event receiver
  (binding, endpoint). -/
  eids : SMap Byte
  i3cAddr : Option Nat
  tid : Byte
  receiver : Option (Nat × Nat)
  /-- SPDM connections by transport (0 DOE, 1 MCTP over PCIe, 2 MCTP over I3C); the alias keys are ready (R553). -/
  spdm : SMap Spdm
  keysReady : Bool
  /-- BODY_DIGEST of the image whose alias keys are retained (R550). -/
  keysFor : Option (List Byte)
  /-- The UDS and the keys derived from it, K_wrap and K_min (R551), and CDI_1 (R552), as their holders keep them. -/
  uds : Option (List Byte)
  kWrap : Option (List Byte)
  kMin : Option (List Byte)
  cdi1 : Option (List Byte)
  /-- The UDS and K_wrap are locked away from every reader (R551). -/
  keyLock : Bool
  deriving DecidableEq, Repr


/-! ### Values after reset -/

/-- Header reset values (Table 22-4). -/
def Hdr.reset : Hdr :=
  { vector := 0, irqEn := false, raw := 0, en := 0, errFirst := 0, errCount := 0, infoLo := 0, infoHi := 0, locked := false }

/-- An MSI-X vector after reset: masked (R519). -/
def MsixVec.reset : MsixVec := { addr := 0, data := 0, masked := true }

/-- A partition after reset (Tables 1-7, 25-3). -/
def Part.reset : Part :=
  { state := .off, moduleId := 0, hbmKey := 0, localGib := 0, placedKey := 0, placedGib := 0, expTable := 0,
    sillageMode := 0, sillageOfs := 0, sillageLen := 0, resetCause := 0, resets := 0, pendOp := 0, pendReason := 0, resetHeld := false,
    landing := 0, heldFirst := 0, heldHbm := 0 }

/-- The module global page after reset (Table 25-2). CORE_SUMMARY is computed from the map in force: before a self-test has measured
one, and after a boot that failed, no core is disabled or narrowed, and it reads 4,096 enabled and 0 narrowed; the spec gives no
value there. DESIGN CHOICE (log entry 68). -/
def Glob.reset : Glob :=
  { partMode := 0, portOwner := [], integCfg := 7, full := 0, blotterSeq := 0, failCode := 0, ready := false,
    scan := false, cold := false, stage := 0, bootMs := 0, disabled := [], narrowed := [], mapRows := [],
    moduleOp := 0, moduleOpParts := 0 }

/-- The endpoint after reset (Table 22-6): link down, MSI-X disabled, every vector masked. DESIGN CHOICE (log entry 30). -/
def Pcie.reset : Pcie :=
  { linkUp := false, flit := false, dState := 0, width := 0, speed := 0, perst := true, refClk := true, up := false,
    cwAp := [], compPend := [], msixEn := false, funcMask := false, msix := [], pba := [], mbUnsent := false }

/-- An enabled core after power-up (R96, R286). DESIGN CHOICE (log entry 30). -/
def Core.reset : Core :=
  { g := [], v := [], prog := [], progAddr := 0, progLen := 0, pc := 0, handles := [], slots := [], ctr := [], tgt := [],
    stp := [], state := .asleep, waitLimit := 0, hold := none, flights := [], nextId := 1, stopping := none,
    ended := false, run := none, loading := false, starting := false, startAt := none, job := none, sramCe := 0, sinceSample := 0, activity := 0, idleSince := 0,
    sleepSince := 0, holdCfg := 0x80705DC0, wakeReq := false, wakeTo := 0, predLevel := 7, checker := false }

/-- A cluster page after reset (Table 25-4). -/
def Cluster.reset : Cluster :=
  { thresh := [], rowSplit := 16, pickDense := 0, pickMerge := 0, segExtra := 0, mergeBusy := 0,
    schedCfg := 0x001408CA, starts := 0, stampLate := 0, aged := 0, sleepCfg := 0x80705DC0, sleeps := 0,
    wakesEarly := 0, netCe := 0, flitsOut := 0, headWait := 0, creditStall := 0, updBlocks := 0, updNonfinite := 0,
    updFrozen := 0, dupCfg := 0xC0150008, checker := none, sample := none, dupQueue := [], rotateDue := false,
    rotateAt := 0, dupSamples := 0, dupWaits := 0, arithCe := 0, lastQueue := 0 }

/-- The Accord block after reset (Table 12-5): coarse mode, master 0. DESIGN CHOICE (log entry 30). -/
def Accord.reset : Accord :=
  { master := 0, fine := false, phase := 0, edge := 0, holding := false, pllOn := false, pllLock := false,
    toCoarse := false, toFine := false, accHi := none, wakeRate := 300, maxErr := 0, wakes := 0, wakeDeferred := 0,
    wakeQ := [], window := 0, admitted := 0, copyErr := [], refPresent := true }

/-- A bank after reset. DESIGN CHOICE (log entry 30). -/
def Bank.reset : Bank := { st := .closed, writes := 0, last := 0 }

/-- A memory controller page after reset (Table 9-7). DESIGN CHOICE (log entry 30). -/
def Mc.reset : Mc :=
  { cfg := 0x64140003, st := 0, imbCfg := 0x10081410, imbOn := false, hotPc := 0, run := 0, lastRatio := 0,
    stackReq := 0, throttle := 0, tempHot := 0, tempMax := 0, ecce := 0, eccue := 0, wakeCount := 0, pcCount := [],
    running := [], winStart := 0, banks := [], restDown := false, idleSince := none, refreshes := 0, imbRaised := false,
    waiting := [], reply := none, ok := true }

/-- A queue after reset (Table 11-1). -/
def Queue.reset : Queue :=
  { cfg := 0, bind := 0x00400000, halted := false, head := 0, tail := 0, recs := [], waited := 0, aged := false,
    entry := [], group := [], heldGen := none }

/-- An Atomizer after reset (Table 14-10). -/
def Atom.reset : Atom :=
  { ctxSel := 0, ctxs := [], cancelled := [], dispatched := 0, returned := 0, dropped := 0, stale := 0, mapMiss := 0,
    cancels := 0, disps := [], lastQueue := 0 }

/-- A stack engine after reset (Table 10-9). -/
def Se.reset : Se :=
  { scrubEn := true, ctrSel := 0, ctrs := [], scrubPos := 0, scrubPasses := 0, scrubFixed := 0, nonfinite := 0,
    digestFail := 0, holdRefused := 0, cmds := [], lastQueue := 0, slots := [],
    idleAt := 0, silUsed := [] }

/-- A reduction group after power-up (Table 16-1, R383). -/
def Group.reset : Group :=
  { cfg := 0, st := 0, mask := 0, tag := 0, epoch := 0, arg := 0, newEpoch := 0, sel := 0, staged := [], active := [],
    lateSet := 0, lateTag := 0 }

/-- A reduction-group page after reset (Table 16-5). -/
def GrpPage.reset : GrpPage :=
  { lateGroup := 0, lateBucket := 0, lateMissing := 0, carried := 0, lateDropped := 0, lateMissed := 0,
    skewAccepted := 0, contribIn := 0, busyOut := 0 }

/-- A port after reset (Table 15-11). DESIGN CHOICE (log entry 30). -/
def Port.reset : Port :=
  { ctrl := 0x13, st := .down, lanes := 0, width := 0, peer := 0, fecCorr := 0, fecUncorr := 0, crcFail := 0,
    replays := 0, retrains := 0, flitsTx := 0, flitsRx := 0, tx := [], txPart := [], replay := [],
    resend := [], txSeq := 0, ackAt := 0, replayRun := 0, rxSeq := 0, nakDue := false, nakSent := false, rx := [],
    rxSync := [], freed := [], given := [], taken := [], seen := [], used := [], slot := 0, turn := 1, turnLeft := 0 }

/-- A link engine after reset (Table 15-13). DESIGN CHOICE (log entry 30). -/
def Iod.reset : Iod :=
  { rtSel := 0, routes := [], vcWeight := 0x01135240, linkCfg := 0x00083210, trkPeak := 0, xferDone := 0, xferFail := 0,
    resends := 0, busyRx := 0, reorderDrop := 0, noRoute := 0, xfers := [], streams := [], lands := [], lastPort := [],
    inbox := [], moves := [], waiting := [], rmtWait := [], lastQueue := 0, refClk := true }

/-- The power page after reset (Table 21-10). DESIGN CHOICE (log entry 30). -/
def Pwr.reset : Pwr :=
  { st := 1, dead := [], tripped := [], opCfg := 0, powerCap := 0, thermCap := [], op := [], change := [], limit := none, under := 0,
    bottomAt := none, thermAt := [], coolAt := [], dieTemp := [], minMv := 0, mv := 0, ma := 0, watts := 0, bankOk := false,
    bankWeak := false, bankCap := 0, bankMv := 0, dryCfg := 0, accKept := false, cause := 0, outcome := 0, drydowns := 0, caps := 0,
    railRun := [], dry := none, drySkip := false, keepBuffer := false, faultLow := false, dryLow := false }

/-- The map as the factory leaves it: every block as made, one image. DESIGN CHOICE (log entry 23). -/
def VMap.reset : VMap :=
  { blocks := [], place := [], openBlock := none, births := 0, logBlocks := 0,
    image := some { version := 0, len := 0, bytes := { cells := [], holes := [{ lo := 0, len := 2 ^ 27, epoch := 2 ^ 80, per := 2 ^ 27, sub := 2 ^ 27 }] } },
    retired := 0, patrolPasses := 0, blotWritten := 0, blotOver := 0, powered := 0 }

/-- The vial as it leaves the factory, before its first mount: no set, no record but those the factory writes, one image. DESIGN CHOICE (log entry 23). DESIGN CHOICE (log entry 30). -/
def Vial.reset : Vial :=
  { mounted := false, roRegions := 0, dryValid := false, dryTarget := false, dryReady := false, corrected := 0, retries := 0,
    uncorr := 0, refreshed := 0, lowSpares := false,
    halfA := none, halfB := none, marker := none, records := [(448, { gen := 0, payload := [] })],
    map := VMap.reset, anchor := [(0, { seq := 1, good := true, map := VMap.reset })], anchorSeq := 1, poweredAt := 0,
    logPages := [], flash := { cells := [], holes := [] }, patrolAt := none, dryFailed := [] }

/-- An SPDM connection before GET_VERSION. -/
def Spdm.reset : Spdm := { version := 0, caps := false, algs := false, handshake := false, session := false, updates := 0 }

/-- The Nose after reset (Table 25-5). DESIGN CHOICE (log entry 30). -/
def Nose.reset : Nose :=
  { mode := 0, running := 0, staged := 0, minVersion := 0, restarts := 0, cause := 0, sramCe := 0, mbOpcode := 0, mbReqLen := 0,
    mbArg := 0, mbDone := false, mbCode := 0, mbRespLen := 0, mbRejects := 0, mbCompleted := 0, mb := none,
    window := { cells := [], holes := [] }, buffer := { cells := [], holes := [] }, restored := none, events := [], evtSeq := 0,
    evtAt := [], sensors := [], levels := [], update := none, restarting := none, unlogged := [], loggedAt := 0, eids := [],
    i3cAddr := none, tid := 0, receiver := none, spdm := [], keysReady := false, keysFor := none,
    uds := none, kWrap := none, kMin := none, cdi1 := none, keyLock := false }

/-- The whole module. -/
structure State where
  /-- The assembly variant (R1): never written. -/
  variant : Variant
  /-- Accord ticks since 40 V was applied, counted by the model for every timer. -/
  time : Nat
  /-- The model's own counter: each use of a free value takes its number and advances it. -/
  freeCtr : Nat
  /-- Commands waiting, first in, first out. -/
  pending : List Instr
  /-- Messages sent to the surroundings, oldest first. -/
  out : List OutMsg
  /-- Completion data of the last host read. -/
  reply : List Byte
  mem : Mem
  /-- Common headers by BAR0 page number (offset / 4,096). -/
  hdrs : SMap Hdr
  glob : Glob
  parts : SMap Part
  pcie : Pcie
  accord : Accord
  clusters : SMap Cluster
  cores : SMap Core
  /-- WR flits in flight, in the order they were injected. -/
  net : List NetMsg
  mcs : SMap Mc
  /-- The sequence table: entry e of compute die d at 128 * d + e (R174, Table 7-7). -/
  seq : SMap (BitVec 128)
  reports : List Report
  queues : SMap Queue
  /-- Atomizers and link engines by I/O die. -/
  atoms : SMap Atom
  iods : SMap Iod
  /-- Stack engines by site. -/
  ses : SMap Se
  groups : SMap Group
  grpPages : SMap GrpPage
  /-- Ports by port index 0-31 (R14). -/
  ports : SMap Port
  faults : FaultLog
  pwr : Pwr
  vial : Vial
  nose : Nose
  deriving DecidableEq, Repr

/-- The module right after reset. DESIGN CHOICE (log entry 32). -/
def State.reset : State :=
  { variant := .m12l2, time := 0, freeCtr := 0, pending := [], out := [], reply := [],
    mem := { cells := [], holes := [] }, hdrs := [], glob := Glob.reset, parts := [], pcie := Pcie.reset,
    accord := Accord.reset, clusters := [], cores := [], net := [], mcs := [], seq := [], reports := [], queues := [], atoms := [], iods := [], ses := [],
    groups := [], grpPages := [], ports := [],
    faults := { lastAt := [], counted := [], utcBase := none, held := [] }, pwr := Pwr.reset,
    vial := Vial.reset, nose := Nose.reset }

end Sys2Proof.Machine
end

