-- ==== Sys2Proof/Machine/Ops.lean ====
section
/-! DEFINITION. The named operations over memory, the module's units and its partitions: population (R1-R5), the
module address map (R24-R27), partitions (R15-R17), page numbers (Table 22-3) and memory reads and writes. -/

namespace Sys2Proof.Machine

/-! ### Free values -/

/-- Take the next number for a free value. DESIGN CHOICE (log entry 31). -/
def bumpFree (s : State) : State := { s with freeCtr := s.freeCtr + 1 }

/-! ### Memory -/

/-- Does the range take in an address? -/
def Hole.covers (h : Hole) (a : Nat) : Bool :=
  decide (h.lo ≤ a) && decide (a < h.lo + h.len) && decide ((a - h.lo) % h.per < h.sub)

/-- What a byte of memory reads as when no cell lists it: a free value inside a range whose contents the spec leaves
undefined, and 0 elsewhere (log entry 3). DESIGN CHOICE (log entry 3). -/
def memDefault (hs : List Hole) (a : Nat) : Byte :=
  match hs with
  | [] => 0
  | h :: r => if h.covers a then (if h.epoch = 0 then 0 else Config.freeByte h.epoch a) else memDefault r a

/-- The listed byte at an address. -/
def cellFind : List Host.Cell → Nat → Option Byte
  | [], _ => none
  | (j, v) :: r, a => if a = j then some v else if a < j then none else cellFind r a

/-- Read one byte of memory. -/
def readByte (m : Mem) (a : Nat) : Byte := (cellFind m.cells a).getD (memDefault m.holes a)

/-- List a byte at an address, keeping addresses rising. -/
def cellPut : List Host.Cell → Nat → Byte → List Host.Cell
  | [], a, v => [(a, v)]
  | (j, w) :: r, a, v =>
    if a = j then (a, v) :: r else if a < j then (a, v) :: (j, w) :: r else (j, w) :: cellPut r a v

/-- Take the byte at an address off the list. -/
def cellDel : List Host.Cell → Nat → List Host.Cell
  | [], _ => []
  | (j, w) :: r, a => if a = j then r else if a < j then (j, w) :: r else (j, w) :: cellDel r a

/-- Write one byte of memory: a value an unlisted address reads as is not listed. -/
def writeByte (m : Mem) (a : Nat) (v : Byte) : Mem :=
  { m with cells := if v = memDefault m.holes a then cellDel m.cells a else cellPut m.cells a v }

/-- The canonical form of memory: addresses strictly rising, no cell equal to what an unlisted address reads as. -/
def cellsWf (hs : List Hole) : List Host.Cell → Bool
  | [] => true
  | [(a, v)] => decide (v ≠ memDefault hs a)
  | (a, v) :: (b, w) :: r => decide (a < b) && decide (v ≠ memDefault hs a) && cellsWf hs ((b, w) :: r)

/-- Memory is in canonical form. -/
def Mem.wf (m : Mem) : Bool := cellsWf m.holes m.cells

/-- Read n bytes from an address. -/
def readBytes (m : Mem) (a : Nat) : Nat → List Byte
  | 0 => []
  | n + 1 => readByte m a :: readBytes m (a + 1) n

/-- Write bytes from an address. -/
def writeBytes (m : Mem) (a : Nat) : List Byte → Mem
  | [] => m
  | b :: r => writeBytes (writeByte m a b) (a + 1) r

/-- Write listed bytes. -/
def writeCells (m : Mem) (cs : List Host.Cell) : Mem := cs.foldl (fun m c => writeByte m c.1 c.2) m

/-- A little-endian number of n bytes at an address (R6). -/
def readLe (m : Mem) (a n : Nat) : Nat := ofBytes (readBytes m a n)

/-- Write a number as n little-endian bytes (R6). -/
def writeLe (m : Mem) (a n x : Nat) : Mem := writeBytes m a (toBytes n x)

/-- Put a range in front of the holes and drop the cells inside it. DESIGN CHOICE (log entry 3). -/
def coverHole (m : Mem) (h : Hole) : Mem :=
  { cells := m.cells.filter (fun c => !h.covers c.1), holes := h :: m.holes }

/-- Clear a range: every byte of it reads 0. -/
def clearHole (m : Mem) (h : Hole) : Mem :=
  if m.holes.isEmpty then { m with cells := m.cells.filter (fun c => !h.covers c.1) } else coverHole m { h with epoch := 0 }

/-- A plain range. -/
def plainHole (lo len epoch : Nat) : Hole := { lo := lo, len := len, epoch := epoch, per := len, sub := len }

/-- Clear a plain range. DESIGN CHOICE (log entry 3). -/
def clearRange (m : Mem) (lo len : Nat) : Mem := clearHole m (plainHole lo len 0)

/-- The contents of a plain range become undefined: its unlisted bytes read as free values of a new loss (epoch + 1). DESIGN CHOICE (log entry 3). DESIGN CHOICE (log entry 65). -/
def loseRange (m : Mem) (lo len epoch : Nat) : Mem := coverHole m (plainHole lo len (epoch + 1))

/-! ### Units by number -/

/-- Core n. -/
def core (s : State) (n : Nat) : Core := sget Core.reset s.cores n
/-- Put core n. -/
def setCore (s : State) (n : Nat) (c : Core) : State := { s with cores := sput s.cores n c }
/-- Apply f to core n. DESIGN CHOICE (log entry 60). -/
def modCore (s : State) (n : Nat) (f : Core → Core) : State := setCore s n (f (core s n))
/-- Cluster g. DESIGN CHOICE (log entry 60). -/
def cluster (s : State) (g : Nat) : Cluster := sget Cluster.reset s.clusters g
/-- Put cluster g. -/
def setCluster (s : State) (g : Nat) (c : Cluster) : State := { s with clusters := sput s.clusters g c }
/-- Apply f to cluster g. DESIGN CHOICE (log entry 60). -/
def modCluster (s : State) (g : Nat) (f : Cluster → Cluster) : State := setCluster s g (f (cluster s g))
/-- Partition p. -/
def part (s : State) (p : Nat) : Part := sget Part.reset s.parts p
/-- Put partition p. -/
def setPart (s : State) (p : Nat) (x : Part) : State := { s with parts := sput s.parts p x }
/-- Apply f to partition p. -/
def modPart (s : State) (p : Nat) (f : Part → Part) : State := setPart s p (f (part s p))
/-- Memory controller of a site. -/
def mc (s : State) (i : Nat) : Mc := sget Mc.reset s.mcs i
/-- Put the memory controller of a site. -/
def setMc (s : State) (i : Nat) (x : Mc) : State := { s with mcs := sput s.mcs i x }
/-- Apply f to the memory controller of a site. -/
def modMc (s : State) (i : Nat) (f : Mc → Mc) : State := setMc s i (f (mc s i))
/-- Queue q. -/
def queue (s : State) (q : Nat) : Queue := sget Queue.reset s.queues q
/-- Put queue q. -/
def setQueue (s : State) (q : Nat) (x : Queue) : State := { s with queues := sput s.queues q x }
/-- Apply f to queue q. -/
def modQueue (s : State) (q : Nat) (f : Queue → Queue) : State := setQueue s q (f (queue s q))
/-- Atomizer of Lx. -/
def atom (s : State) (x : Nat) : Atom := sget Atom.reset s.atoms x
/-- Put the Atomizer of Lx. -/
def setAtom (s : State) (x : Nat) (a : Atom) : State := { s with atoms := sput s.atoms x a }
/-- Apply f to the Atomizer of Lx. -/
def modAtom (s : State) (x : Nat) (f : Atom → Atom) : State := setAtom s x (f (atom s x))
/-- Link engine of Lx. -/
def iod (s : State) (x : Nat) : Iod := sget Iod.reset s.iods x
/-- Put the link engine of Lx. -/
def setIod (s : State) (x : Nat) (d : Iod) : State := { s with iods := sput s.iods x d }
/-- Apply f to the link engine of Lx. -/
def modIod (s : State) (x : Nat) (f : Iod → Iod) : State := setIod s x (f (iod s x))
/-- Port i. -/
def port (s : State) (i : Nat) : Port := sget Port.reset s.ports i
/-- Put port i. -/
def setPort (s : State) (i : Nat) (x : Port) : State := { s with ports := sput s.ports i x }
/-- Apply f to port i. -/
def modPort (s : State) (i : Nat) (f : Port → Port) : State := setPort s i (f (port s i))
/-- Stack engine of a site. -/
def se (s : State) (i : Nat) : Se := sget Se.reset s.ses i
/-- Has a stack engine a command pending or a reduce slot open (R211)? -/
def sePending (e : Se) : Bool := !e.cmds.isEmpty || !e.slots.isEmpty
/-- An engine's new contents, stamped when its last command has gone (R211). -/
def seStamp (t : Nat) (old new : Se) : Se := if sePending old && !sePending new then { new with idleAt := t } else new
/-- Put the stack engine of a site. -/
def setSe (s : State) (i : Nat) (x : Se) : State := { s with ses := sput s.ses i (seStamp s.accord.master (se s i) x) }
/-- Apply f to the stack engine of a site. -/
def modSe (s : State) (i : Nat) (f : Se → Se) : State := setSe s i (f (se s i))
/-- Reduction group g. -/
def group (s : State) (g : Nat) : Group := sget Group.reset s.groups g
/-- Put reduction group g. -/
def setGroup (s : State) (g : Nat) (x : Group) : State := { s with groups := sput s.groups g x }
/-- Apply f to reduction group g. -/
def modGroup (s : State) (g : Nat) (f : Group → Group) : State := setGroup s g (f (group s g))
/-- Reduction-group page of partition p. -/
def grpPage (s : State) (p : Nat) : GrpPage := sget GrpPage.reset s.grpPages p
/-- Apply f to the reduction-group page of partition p. -/
def modGrpPage (s : State) (p : Nat) (f : GrpPage → GrpPage) : State :=
  { s with grpPages := sput s.grpPages p (f (grpPage s p)) }
/-- Header of a page. DESIGN CHOICE (log entry 60). -/
def hdr (s : State) (p : Nat) : Hdr := sget Hdr.reset s.hdrs p
/-- Put the header of a page. -/
def setHdr (s : State) (p : Nat) (h : Hdr) : State := { s with hdrs := sput s.hdrs p h }

/-! ### Population (R1-R5) -/

/-- SITE_MAP STACK_PRESENT of a variant (Table 0-3, R5). -/
def stackBits : Variant → Nat
  | .m12l2 => 0x3F3F
  | .m16l2 => 0xFFFF
  | .m8l4 => 0x0F0F

/-- SITE_MAP IOD_PRESENT of a variant. -/
def iodBits : Variant → Nat
  | .m12l2 => 3
  | .m16l2 => 3
  | .m8l4 => 15

/-- SITE_MAP (Table 0-3). DESIGN CHOICE (log entry 32). -/
def siteMap (s : State) : Nat := iodBits s.variant * 2 ^ 20 + 3 * 2 ^ 16 + stackBits s.variant

/-- Is stack site i populated? -/
def sitePop (s : State) (i : Nat) : Bool := decide (i < 16) && Nat.testBit (stackBits s.variant) i

/-- Is I/O die Lx present? -/
def iodPop (s : State) (x : Nat) : Bool := decide (x < 4) && Nat.testBit (iodBits s.variant) x

/-- Populated sites in ascending order. -/
def sites (s : State) : List Nat := (List.range 16).filter (sitePop s)

/-- Is core n enabled (R91, R95)? -/
def coreOn (s : State) (n : Nat) : Bool := decide (n < 4096) && !s.glob.disabled.contains n

/-- The physical column bypassed on a narrowed core. -/
def bypassed (s : State) (n : Nat) : Option Nat := (s.glob.narrowed.find? (fun e => e.1 == n)).map (·.2)

/-- ARRAY_COLS of a core (Table 4-12). -/
def arrayCols (s : State) (n : Nat) : Nat :=
  if !coreOn s n then 0 else if (bypassed s n).isSome then 15 else 16

/-- CORE_CAPS of a core (Table 4-12). -/
def coreCaps (s : State) (n : Nat) : Nat :=
  arrayCols s n + (if coreOn s n then (match bypassed s n with | some c => (c % 16) * 512 + 128 | none => 0) + 256 else 0)

/-- CORE_SUMMARY (Table 0-4). -/
def coreSummary (s : State) : Nat :=
  (4096 - s.glob.disabled.length) + s.glob.narrowed.length * 2 ^ 16

/-! ### Partitions (R15-R17, R25) -/

/-- Number of partitions in the current mode; the reserved value cannot be written (R20). -/
def nParts (s : State) : Nat := if s.glob.partMode = 0 then 1 else if s.glob.partMode = 1 then 2 else 4

/-- Does partition p exist in the current mode? -/
def partExists (s : State) (p : Nat) : Bool := decide (p < nParts s)

/-- Partition of a core, or of a queue of the same number (Table 1-3). See R9. -/
def partOfCore (s : State) (n : Nat) : Nat := n / (4096 / nParts s)

/-- Partition of a reduction group (Table 1-3). -/
def partOfGroup (s : State) (g : Nat) : Nat := g / (1024 / nParts s)

/-- Sites of partition p in ascending order (R15, R16). -/
def partSites (s : State) (p : Nat) : List Nat :=
  if !partExists s p then []
  else if nParts s = 1 then sites s
  else if nParts s = 2 then (sites s).filter (fun i => i / 8 = p)
  else
    let d := (sites s).filter (fun i => i / 8 = p / 2)
    if p % 2 = 0 then d.take (d.length / 2) else d.drop (d.length / 2)

/-- Partition that holds a site, if any. -/
def partOfSite (s : State) (i : Nat) : Option Nat := (List.range (nParts s)).find? (fun p => (partSites s p).contains i)

/-- HBM_SIZE of partition p in units of 64 GiB (Table 1-11). -/
def hbmSize (s : State) (p : Nat) : Nat := (partSites s p).length

/-- HBM_BASE of partition p in units of 64 GiB (R25). -/
def hbmBase (s : State) (p : Nat) : Nat := ((List.range p).map (hbmSize s)).foldl (· + ·) 0

/-- 64 GiB. -/
def gib64 : Nat := 2 ^ 36

/-- Partition whose HBM range holds a module address, if it is populated HBM. -/
def partOfHbm (s : State) (a : Nat) : Option Nat :=
  (List.range (nParts s)).find? (fun p => hbmBase s p * gib64 ≤ a && a < (hbmBase s p + hbmSize s p) * gib64)

/-- First core of partition p and how many it has (Table 1-10). -/
def partCores (s : State) (p : Nat) : Nat × Nat :=
  if partExists s p then (p * (4096 / nParts s), 4096 / nParts s) else (0, 0)

/-- Does core or queue n belong to partition p? -/
def inPart (s : State) (p n : Nat) : Bool := decide (n < 4096) && partExists s p && partOfCore s n == p

/-- Compute dies that hold cores of partition p. -/
def partDies (s : State) (p : Nat) : List Nat :=
  if !partExists s p then [] else if nParts s = 1 then [0, 1] else if nParts s = 2 then [p] else [p / 2]

/-- Owner field of a port (Table 1-6). -/
def portOwnerField (s : State) (i : Nat) : Nat := (sget (15 : BitVec 4) s.glob.portOwner i).toNat

/-- Partition that owns a port: none when unassigned or naming a partition that does not exist (R21). -/
def portOwner (s : State) (i : Nat) : Option Nat :=
  if partExists s (portOwnerField s i) then some (portOwnerField s i) else none

/-- Ports of the present I/O dies that partition p owns. -/
def partPorts (s : State) (p : Nat) : List Nat :=
  (List.range 32).filter (fun i => iodPop s (i / 8) && portOwner s i == some p)

/-- Compute die an I/O die attaches to (R13). -/
def iodDie (x : Nat) : Nat := x % 2

/-- Has a rail fault switched off the domain a rail feeds, or BUS12 (R457, R487)? -/
def railDead (s : State) (r : Nat) : Bool := s.pwr.dead.contains r || s.pwr.dead.contains 0

/-- May compute die d not be powered: a rail fault or a thermal trip (R457, R495)? -/
def dieDead (s : State) (d : Nat) : Bool :=
  railDead s (4 + d) || railDead s (6 + d) || railDead s (8 + d) || s.pwr.tripped.contains d

/-- May the stack of site i not be powered? -/
def siteDead (s : State) (i : Nat) : Bool := railDead s (16 + i) || dieDead s (i / 8)

/-- May Lx not be powered? -/
def iodDead (s : State) (x : Nat) : Bool := railDead s (40 + x) || s.pwr.tripped.contains (10 + x) || dieDead s (iodDie x)

/-- Is the domain of compute die d on: a partition that holds its cores is not OFF (R488)? -/
def dieOn (s : State) (d : Nat) : Bool :=
  !dieDead s d && (List.range (nParts s)).any (fun p => (partDies s p).contains d && decide ((part s p).state ≠ .off))

/-- Share of sequence table entries partition p owns on die d: first entry and count (R174). -/
def seqShare (s : State) (p d : Nat) : Nat × Nat :=
  if !(partDies s p).contains d then (0, 0)
  else if nParts s = 4 then (if p % 2 = 0 then (0, 64) else (64, 64)) else (0, 128)

/-! ### The module address map (Table 1-12) -/

/-- What lies at a module address. -/
inductive Place where
  | hbm
  | spad (n off : Nat)
  | acc (n off : Nat)
  | regs (off : Nat)
  | bell (off : Nat)
  | unmapped
  deriving DecidableEq, Repr

/-- Start of the core windows. -/
def coreWin : Nat := 0x100000000000

/-- Module address of offset o of core n's window (R26). -/
def coreAddr (n o : Nat) : Nat := coreWin + n * 0x40000 + o

/-- Module address of accumulator offset o of core n (R119). -/
def accAddr (n o : Nat) : Nat := coreAddr n (0x30000 + o)

/-- What lies at a module address (Table 1-12, R26). -/
def addrPlace (a : Nat) : Place :=
  if a < 2 ^ 40 then .hbm
  else if coreWin ≤ a ∧ a < coreWin + 0x40000000 then
    let o := a - coreWin
    if o % 0x40000 < 0x30000 then .spad (o / 0x40000) (o % 0x40000) else .acc (o / 0x40000) (o % 0x40000 - 0x30000)
  else if 0x200000000000 ≤ a ∧ a < 0x200004000000 then .regs (a - 0x200000000000)
  else if 0x200004000000 ≤ a ∧ a < 0x200004008000 then .bell (a - 0x200004000000)
  else .unmapped

/-- The error of an access by a unit of partition p to a module address: ADDR_UNMAPPED before ADDR_PARTITION
(R17, R24, R26, R140). DEDUCED (log entry 36). -/
def addrErr (s : State) (p a : Nat) : Option Nat :=
  match addrPlace a with
  | .hbm => match partOfHbm s a with
    | none => some 0x0101
    | some q => if q = p then none else some 0x0102
  | .spad n _ => if !coreOn s n then some 0x0101 else if partOfCore s n = p then none else some 0x0102
  | .acc n _ => if !coreOn s n then some 0x0101 else if partOfCore s n = p then none else some 0x0102
  | _ => some 0x0101

/-- First address past the region that holds a (its HBM range, scratchpad part or accumulator part; R140). DEDUCED (log entry 46). -/
def regionEnd (s : State) (a : Nat) : Nat :=
  match addrPlace a with
  | .hbm => match partOfHbm s a with
    | some p => (hbmBase s p + hbmSize s p) * gib64
    | none => a + 1
  | .spad n _ => coreAddr n 0x30000
  | .acc n _ => coreAddr n 0x40000
  | _ => a + 1

/-! ### Page numbers (Table 22-3): BAR0 offset / 4,096 -/

/-- Page of core n. -/
def pgCore (n : Nat) : Nat := 0x1000 + n
/-- Page of cluster g. -/
def pgCluster (g : Nat) : Nat := 0x100 + g
/-- Queue-engine page of queue q (128 queues a page, R248). -/
def pgQueue (q : Nat) : Nat := 0x20 + q / 128
/-- Stack-engine page of a site. -/
def pgSe (i : Nat) : Nat := 0x40 + i
/-- Memory-controller page of a site. -/
def pgMc (i : Nat) : Nat := 0x50 + i
/-- First page of I/O die Lx (R377). -/
def pgIod (x : Nat) : Nat := if x = 0 then 0x60 else if x = 1 then 0x70 else if x = 2 then 0x90 else 0xA0
/-- Page of a port by port index. -/
def pgPort (i : Nat) : Nat := pgIod (i / 8) + i % 8
/-- Link-engine page of Lx. -/
def pgLink (x : Nat) : Nat := pgIod x + 8
/-- Atomizer page of Lx. -/
def pgAtom (x : Nat) : Nat := pgIod x + 15
/-- Reduction-group page i. -/
def pgGrp (i : Nat) : Nat := 8 + i
/-- Module global page. See R19, R28. -/
def pgGlob : Nat := 0
/-- Partition page. -/
def pgPart (p : Nat) : Nat := 1 + p
/-- Accord page. -/
def pgAcc : Nat := 5
/-- Power page. -/
def pgPwr : Nat := 6
/-- Vial page. -/
def pgVial : Nat := 0xD
/-- PCIe page. -/
def pgPcie : Nat := 0xE
/-- Nose page. -/
def pgNose : Nat := 0x10

/-- Block type and instance of a page of Table 22-3 (group entries have none). -/
def pageType (p : Nat) : Option (Nat × Nat) :=
  if p = 0 then some (1, 0)
  else if p ≤ 4 then some (0xF, p - 1)
  else if p = 5 then some (0xA, 0)
  else if p = 6 then some (0xB, 0)
  else if 8 ≤ p ∧ p < 12 then some (9, p - 8)
  else if p = 0xD then some (0xD, 0)
  else if p = 0xE then some (0xE, 0)
  else if p = 0x10 then some (0xC, 0)
  else if 0x20 ≤ p ∧ p < 0x40 then some (4, p - 0x20)
  else if 0x40 ≤ p ∧ p < 0x50 then some (5, p - 0x40)
  else if 0x50 ≤ p ∧ p < 0x60 then some (6, p - 0x50)
  else if 0x100 ≤ p ∧ p < 0x200 then some (3, p - 0x100)
  else if 0x1000 ≤ p ∧ p < 0x2000 then some (2, p - 0x1000)
  else
    match (List.range 4).find? (fun x => pgIod x ≤ p && p < pgIod x + 16) with
    | none => none
    | some x =>
      let k := p - pgIod x
      if k < 8 then some (7, 8 * x + k) else if k = 8 then some (7, 32 + x) else if k = 15 then some (8, x) else none

/-- Is the page's site populated (R4, R377)? -/
def pagePop (s : State) (p : Nat) : Bool :=
  match pageType p with
  | none => false
  | some (t, i) =>
    if t = 5 ∨ t = 6 then sitePop s i
    else if t = 7 then iodPop s (if i < 32 then i / 8 else i - 32)
    else if t = 8 then iodPop s i
    else true

/-- Event bits a page raises besides [31] ERROR (Table 25-6). See R567, R378, R379, R505, R527, R542, R560. -/
def evtBits (p : Nat) : Nat :=
  match pageType p with
  | none => 0
  | some (t, i) =>
    match t with
    | 1 => 7 | 0xF => 7 | 2 => 1 | 3 => 0x700 | 4 => 3 | 5 => 15 | 6 => 15
    | 7 => if i < 32 then 15 else 3
    | 8 => 7 | 9 => 31 | 0xA => 3 | 0xB => 31 | 0xC => 3 | 0xD => 15 | _ => 0

/-- The bits of EVT_RAW that exist on a page: its events and ERROR (R567). -/
def evtMask (p : Nat) : W32 := BitVec.ofNat 32 (evtBits p + 2 ^ 31)

end Sys2Proof.Machine
end

