-- ==== Sys2Proof/Machine/Cper.lean ====
section
/-! DEFINITION. A blotter as bytes: the Common Platform Error Record of R458 with the Zhoco section of Table 19-5 and the memory
section of an HBM fault. The places of the fields inside a CPER are those of the UEFI specification. -/

namespace Sys2Proof.Machine

/-- Big-endian bytes of a number, n of them. -/
def beBytes (n x : Nat) : List Byte := (toBytes n x).reverse

/-- A GUID of groups of 8, 4, 4 and 16 hexadecimal digits in its stored form: the first three groups little-endian. PRESUMED (log entry 22). -/
def guid (a b c d : Nat) : List Byte := toBytes 4 a ++ toBytes 2 b ++ toBytes 2 c ++ beBytes 8 d

/-- The device identity, 48 bytes, with the two fixed digits of R552. -/
def deviceId : List Byte :=
  (List.range 48).map (fun i =>
    let b := Config.identity i
    if i = 6 then (b &&& 0x0F) ||| 0x80 else if i = 8 then (b &&& 0x3F) ||| 0x80 else b)

/-- Two decimal digits in one byte. -/
def bcd (n : Nat) : Nat := n / 10 % 10 * 16 + n % 10

/-- Year, month and day of a day number counted from 1 January 1970. -/
def civil (days : Nat) : Nat × Nat × Nat :=
  let z := days + 719468
  let era := z / 146097
  let doe := z % 146097
  let yoe := (doe - doe / 1460 + doe / 36524 - doe / 146096) / 365
  let doy := doe - (365 * yoe + yoe / 4 - yoe / 100)
  let mp := (5 * doy + 2) / 153
  let m := if mp < 10 then mp + 3 else mp - 9
  (yoe + era * 400 + (if m ≤ 2 then 1 else 0), m, doy - (153 * mp + 2) / 5 + 1)

/-- The UEFI timestamp of a UTC seconds count. -/
def stampBytes (t : Nat) : List Byte :=
  let d := civil (t / 86400)
  [bcd (t % 60), bcd (t / 60 % 60), bcd (t / 3600 % 24), 1, bcd d.2.2, bcd d.2.1, bcd (d.1 % 100), bcd (d.1 / 100)].map (BitVec.ofNat 8)

/-- Error severity of Table 19-4. DEDUCED (log entry 52). -/
def severity (b : Blotter) : Nat :=
  if b.cls = 1 ∨ b.cls = 3 ∨ b.cls = 7 ∨ b.cls = 12 then 2
  else if b.cls = 11 ∧ 1 ≤ b.rail ∧ b.rail ≤ 3 then 1
  else if b.cls = 10 then 3
  else 0

/-- Does a memory section follow: class 1, 2 or 9 in HBM (R458)? -/
def memSection (b : Blotter) : Bool := (b.cls == 1 || b.cls == 2 || b.cls == 9) && b.source == 6

/-- Text in k bytes, zeros beyond. -/
def textBytes (k : Nat) (t : String) : List Byte :=
  ((t.toList.map (fun (c : Char) => BitVec.ofNat 8 c.toNat)) ++ List.replicate k 0).take k

/-- FRU text: "S8" and the location in words. The words for a place that is no core are free. PRESUMED (log entry 22). -/
def fruText (b : Blotter) : List Byte :=
  if b.core < 4096 then
    textBytes 20 ("S8 C" ++ toString (b.core / 2048) ++ " core " ++ toString b.core)
  else textBytes 2 "S8" ++ (List.range 18).map (fun i => Config.crypto b.seq i)

/-- A section descriptor: offset, length, section type. -/
def descBytes (off len : Nat) (ty fru : List Byte) (sev : Nat) : List Byte :=
  toBytes 4 off ++ toBytes 4 len ++ toBytes 2 0 ++ toBytes 1 (if fru.isEmpty then 0 else 2) ++ toBytes 1 0 ++ toBytes 4 0 ++ ty
    ++ List.replicate 16 0 ++ toBytes 4 sev ++ (if fru.isEmpty then List.replicate 20 0 else fru)

/-- The Zhoco section (Table 19-5). -/
def zhocoBytes (b : Blotter) : List Byte :=
  [toBytes 2 0x0100, toBytes 2 b.cls, toBytes 2 b.code, toBytes 1 b.source, toBytes 1 b.action, toBytes 2 b.inst, toBytes 1 b.partition,
    toBytes 1 0, toBytes 2 b.moduleId, toBytes 2 b.parts, toBytes 8 b.accDetect, toBytes 8 b.accReport, toBytes 8 b.address,
    toBytes 4 b.infoLo, toBytes 4 b.infoHi, toBytes 8 b.count, toBytes 4 b.fwVersion, toBytes 2 b.core, toBytes 2 b.peer,
    toBytes 1 b.site, toBytes 1 b.pc, toBytes 1 b.bank, toBytes 1 b.port, toBytes 2 b.row, toBytes 1 b.lane, toBytes 1 b.rail,
    toBytes 8 b.insn, toBytes 4 b.pcAt, List.replicate 44 0].flatten

/-- The memory section: node, card, module, bank, row and column, each with its validation bit (R458). -/
def memBytes (b : Blotter) : List Byte :=
  [toBytes 8 0x378, List.replicate 24 0, toBytes 2 b.moduleId, toBytes 2 b.site, toBytes 2 b.pc, toBytes 2 b.bank, toBytes 2 0,
    toBytes 2 b.row, toBytes 2 b.col, List.replicate 34 0].flatten

/-- The record header (Table 19-4); fields the table does not name are 0. PRESUMED (log entry 22). -/
def cperHeader (b : Blotter) : List Byte :=
  [toBytes 10 0, toBytes 2 (if memSection b then 2 else 1), toBytes 4 (severity b), toBytes 4 (if b.utc.isSome then 7 else 5),
    toBytes 4 0,
    match b.utc with
      | some t => stampBytes t
      | none => toBytes 8 0,
    deviceId.take 16,
    guid 0x8C21F0D4 0x6B7A 0x4E19 (0xA35E * 2 ^ 48 + 0x9D02B7C4 * 2 ^ 16 + (if b.partition < 4 then b.moduleId else 0)),
    guid 0x5E9B2A17 0xC3D8 0x4F06 0x8B4471AE0D5C93F2, guid 0x3D7C4E80 0x19A5 0x4B2F 0x9E63C08F5A21D47B,
    toBytes 8 b.seq, List.replicate 24 0].flatten

/-- The whole record of a blotter. PRESUMED (log entry 22). -/
def cperBytes (b : Blotter) : List Byte :=
  let two := memSection b
  let base := if two then 272 else 200
  let z := guid 0xF4A6D9C2 0x0B3E 0x4785 0xA1D72E5C8B9F6034
  let m := guid 0xA5BC1114 0x6F64 0x4EDE 0xB8633E83ED7C83B1
  cperHeader b ++ descBytes base 128 z (fruText b) (severity b)
    ++ (if two then descBytes (base + 128) 80 m [] (severity b) else [])
    ++ zhocoBytes b ++ (if two then memBytes b else [])

/-- A blotter in its 2 KiB slot (R482). -/
def blotterBytes (b : Blotter) : List Byte :=
  let body := cperBytes b
  body ++ List.replicate (2048 - body.length) 0

/-- An event-log entry (Table 23-2). -/
def eventBytes (e : Event) : List Byte :=
  toBytes 8 e.seq ++ toBytes 8 e.acc ++ toBytes 4 e.pageId ++ toBytes 1 e.kind ++ toBytes 1 e.bit ++ toBytes 2 e.code ++ toBytes 8 e.info
    ++ toBytes 8 e.count ++ toBytes 8 e.time ++ List.replicate 16 0

end Sys2Proof.Machine
end

