-- ==== Sys2Proof/Machine/Flags.lean ====
section
/-! DEFINITION. The flags of the register pages: EVT_RAW and its messages (R515, R519), error records (R516),
MSI-X (R519, R520), host-visible completion bits, and blotters (R458-R460). -/

namespace Sys2Proof.Machine

/-! ### MSI-X (R519) -/

/-- Send one message on a vector: nothing while MSI-X is disabled; the PBA bit while the vector or the function is
masked; otherwise the message goes out (R519). DEDUCED (log entry 26). DESIGN CHOICE (log entry 59). -/
def sendMsi (s : State) (v : Nat) : State :=
  if !s.pcie.msixEn then s
  else
    let e := sget MsixVec.reset s.pcie.msix v
    if e.masked || s.pcie.funcMask then { s with pcie := { s.pcie with pba := sput s.pcie.pba v true } }
    else { s with out := s.out ++ [.msix v e.addr e.data] }

/-- Send k messages on a vector. -/
def sendMsis (s : State) (v : Nat) : Nat → State
  | 0 => s
  | k + 1 => sendMsis (sendMsi s v) v k

/-! ### Page headers -/

/-- EVT_PEND of a header (Table 22-4). -/
def pend (h : Hdr) : W32 := h.raw &&& h.en

/-- Put a header whose EVT_RAW or EVT_EN changed; with IRQ_EN set one message goes out for each bit of EVT_PEND that
changed from 0 to 1, `fresh` naming the bits that count as having been 0 before (R515). -/
def putEvt (s : State) (p : Nat) (h : Hdr) (fresh : W32) : State :=
  let old := pend (hdr s p) &&& ~~~ fresh
  let k := popcount 32 (pend h &&& ~~~ old).toNat
  let s1 := setHdr s p h
  if h.irqEn then sendMsis s1 h.vector.toNat k else s1

/-- UTC seconds now, when SET_TIME has set them (R533): 1.5 GHz ticks since the setting count the seconds. -/
def utcNow (s : State) : Option Nat := s.faults.utcBase.map (fun b => b.1 + (s.accord.master - b.2) / 1500000000)

/-- Add an entry to the Nose's event log, which keeps the newest 16,384 (R532). PRESUMED (log entry 22). -/
def addEvent (s : State) (pageId kind bit code info : Nat) : State :=
  let n := s.nose
  let e : Event := { seq := n.evtSeq + 1, acc := s.accord.master, pageId := pageId, kind := kind, bit := bit, code := code, info := info,
                     count := 1, time := (utcNow s).getD 0 }
  let l := n.events ++ [e]
  { s with nose := { n with evtSeq := n.evtSeq + 1, events := l.drop (l.length - 16384) } }

/-- PAGE_ID of a page. -/
def pageId (p : Nat) : Nat := match pageType p with
  | some (t, i) => t * 2 ^ 16 + i
  | none => 0

/-- The log's part of one raise of event n of a page: a new entry, or a further raise carried in the entry of the same page and
bit made less than 2^20 ticks ago (R532). -/
def logRaise (s : State) (p code : Nat) (n : Nat) : State :=
  let k := p * 32 + n
  let h := hdr s p
  let fresh := fun (s : State) =>
    let s1 := addEvent s (pageId p) 1 n code (h.infoLo.toNat + h.infoHi.toNat * 2 ^ 32)
    { s1 with nose := { s1.nose with evtAt := sput s1.nose.evtAt k (s1.nose.evtSeq, s.accord.master) } }
  match s.nose.evtAt.find? (fun e => e.1 == k) with
  | none => fresh s
  | some (_, q, t) =>
    if s.accord.master < t + 2 ^ 20 then
      { s with nose := { s.nose with events := s.nose.events.map (fun e => if e.seq = q then { e with count := e.count + 1 } else e) } }
    else fresh s

/-- Raise the events of a mask on a page (R515): the header's bits, the messages, the event log. The code is that of an error
that raises them, or 0. -/
def raiseCode (s : State) (p : Nat) (m : W32) (code : Nat) : State :=
  let h := hdr s p
  ((List.range 32).filter (fun n => bit m n)).foldl (fun s n => logRaise s p (if n = 31 then code else 0) n) (putEvt s p { h with raw := h.raw ||| m } 0)

/-- Raise the events of a mask on a page (R515). -/
def raiseMask (s : State) (p : Nat) (m : W32) : State := raiseCode s p m 0

/-- Raise event n of a page. -/
def raiseEvt (s : State) (p n : Nat) : State := raiseMask s p (BitVec.ofNat 32 (2 ^ n))

/-- Record an error on a page: ERR_COUNT rises, ERR_FIRST and ERR_INFO keep the first, ERROR is raised (R515, R516). See R571. -/
def recordErr (s : State) (p code lo hi : Nat) : State :=
  let h := hdr s p
  let h1 := { h with errCount := satInc h.errCount 1 }
  let h2 := if h.errFirst = 0 then
      { h1 with errFirst := BitVec.ofNat 16 code, infoLo := BitVec.ofNat 32 lo, infoHi := BitVec.ofNat 32 hi }
    else h1
  raiseCode (setHdr s p h2) p 0x80000000 code

/-- Add a corrected error to ERR_COUNT, ERR_FIRST left unchanged and no event raised (R451, R515). DESIGN CHOICE (log entry 66). -/
def countCorrected (s : State) (p : Nat) : State :=
  let h := hdr s p
  setHdr s p { h with errCount := satInc h.errCount 1 }

/-- Clear EVT_RAW bits by a W1C write of EVT_PEND (R515). -/
def clearEvt (s : State) (p : Nat) (m : W32) : State :=
  let h := hdr s p
  setHdr s p { h with raw := h.raw &&& ~~~ m }

/-- Clear ERR_FIRST, ERR_COUNT and ERR_INFO (Table 22-4). -/
def clearErr (s : State) (p : Nat) : State :=
  let h := hdr s p
  setHdr s p { h with errFirst := 0, errCount := 0, infoLo := 0, infoHi := 0 }

/-- Set the completion bit of queue q and send its message when the bit changes from 0 to 1 (R519, R520). -/
def setComp (s : State) (q : Nat) : State :=
  let w := sget (0 : W32) s.pcie.compPend (q / 32)
  let s1 := { s with pcie := { s.pcie with compPend := sput s.pcie.compPend (q / 32) (setBit w (q % 32) true) } }
  if bit w (q % 32) then s1 else sendMsi s1 (1024 + q / 4)

/-! ### Blotters -/

/-- A blotter with every place field empty (Table 19-5). -/
def blank (cls code source action inst : Nat) : Blotter :=
  { seq := 0, utc := none, cls := cls, code := code, source := source, action := action, inst := inst,
    partition := 0xFF, moduleId := 0, parts := 0, accDetect := 0, accReport := 0, address := 0, infoLo := 0, infoHi := 0,
    count := 1, fwVersion := 0, core := 0xFFFF, peer := 0xFFFF, site := 0xFF, pc := 0xFF, bank := 0xFF, port := 0xFF,
    row := 0xFFFF, col := 0, lane := 0xFF, rail := 0xFF, insn := 0, pcAt := 0 }

/-- Send an MCTP message of type `ty` to an endpoint on a binding (0 PCIe, 1 I3C). PRESUMED (log entry 25). DESIGN CHOICE (log entry 59). -/
def mctpOut (s : State) (b e ty : Nat) (bytes : List Byte) : State :=
  { s with out := s.out ++ [.mgmt (16 + b) (BitVec.ofNat 8 e :: BitVec.ofNat 8 ty :: bytes)] }

/-- Send a PLDM PlatformEventMessage of an event class to the receiver SetEventReceiver named (R535). -/
def platformEvent (s : State) (cls : Nat) (bytes : List Byte) : State :=
  match s.nose.receiver with
  | none => s
  | some (b, e) => mctpOut s b e 1 (toBytes 1 0x80 ++ toBytes 1 2 ++ toBytes 1 0x0A ++ toBytes 1 1 ++ [s.nose.tid] ++ toBytes 1 cls ++ bytes)

/-- A blotter's platform event carries the record whole (R535). -/
def blotterEvent (s : State) (b : Blotter) : State :=
  let c := cperBytes b
  platformEvent s 7 (toBytes 1 1 ++ toBytes 1 0 ++ toBytes 2 c.length ++ c)

/-- Write a blotter: BLOTTER_SEQ rises, the Nose's event log and its store of unlogged blotters take it, BLOTTER is raised in the
module global page, and the event receiver gets the record whole (R458, R460, R461, R482, R532, R535). Its time, firmware version
and report value are filled in here. -/
def writeBlotter (s : State) (b : Blotter) : State :=
  let q := s.glob.blotterSeq + 1
  let b1 := { b with seq := q.toNat, utc := utcNow s, accReport := s.accord.master, fwVersion := s.nose.running.toNat }
  let s1 := { s with
    glob := { s.glob with blotterSeq := q }
    nose := { s.nose with unlogged := s.nose.unlogged ++ [b1], loggedAt := if s.nose.unlogged.isEmpty then s.time else s.nose.loggedAt } }
  raiseEvt (blotterEvent (addEvent s1 0xC0000 2 0 b.code q.toNat) b1) pgGlob 0

/-- A fault is detected: its blotter takes the Accord value and the module ID, and is written, or held until the Nose has restarted
(R458, Table 19-12). -/
def issueBlotter (s : State) (b : Blotter) : State :=
  let b1 := { b with accDetect := s.accord.master, moduleId := if b.partition < 4 then (part s b.partition).moduleId.toNat else 0 }
  if s.nose.mode = 3 then { s with faults := { s.faults with held := s.faults.held ++ [b1] } } else writeBlotter s b1

/-- Blotters held during a restart of the Nose are written, in the order their faults were detected. -/
def releaseBlotters (s : State) : State :=
  s.faults.held.foldl writeBlotter { s with faults := { s.faults with held := [] } }

/-- Write a blotter of n corrected faults, at most one per detecting page per 2^36 ticks; COUNT holds the corrections
since the page's previous blotter (R459). -/
def correctedMany (s : State) (page n : Nat) (b : Blotter) : State :=
  let k := sget 0 s.faults.counted page + n
  let last := sget none s.faults.lastAt page
  let due := match last with
    | none => true
    | some t => decide (t + 2 ^ 36 ≤ s.accord.master)
  if due then
    issueBlotter { s with faults := { s.faults with
      counted := sput s.faults.counted page 0, lastAt := sput s.faults.lastAt page (some s.accord.master) } }
      { b with count := k }
  else { s with faults := { s.faults with counted := sput s.faults.counted page k } }

/-- A blotter of one corrected fault (R459). -/
def correctedBlotter (s : State) (page : Nat) (b : Blotter) : State := correctedMany s page 1 b

/-- A blotter at a core of its partition. -/
def coreBlotter (s : State) (cls code action n : Nat) : Blotter :=
  { blank cls code 2 action n with
    partition := partOfCore s n, core := n, infoLo := (hdr s (pgCore n)).infoLo.toNat, infoHi := (hdr s (pgCore n)).infoHi.toNat }

/-! ### The FULL integrity profile (R442) -/

/-- Clusters of partition p. -/
def clustersOf (s : State) (p : Nat) : List Nat :=
  (List.range ((partCores s p).2 / 16)).map (fun i => (partCores s p).1 / 16 + i)

/-- The five conditions of R442 that partition p leaves unmet, as LACK codes them (Table 19-6), bit 0 for [16]. DEDUCED (log entry 50). -/
def lackOf (s : State) (p : Nat) : Nat :=
  let k := s.glob.integCfg
  b2n (!bit k 0) + 2 * b2n (!bit k 1 || !bit k 2) + 4 * b2n ((sites s).any (fun i => !(se s i).scrubEn))
    + 8 * b2n ((clustersOf s p).any (fun g =>
        let c := cluster s g
        !bit c.dupCfg 31 || !bit c.dupCfg 30 || decide (8 < min 12 (fld c.dupCfg 3 0)) || c.checker.isNone))
    + 16 * b2n (s.groups.any (fun e => decide (e.1 < 1024) && partOfGroup s e.1 == p && e.2.st == 1 && !bit e.2.cfg 9))

/-- FULL: bit n while partition n meets the profile. -/
def fullBits (s : State) : BitVec 4 :=
  BitVec.ofNat 4 (((List.range 4).map (fun p => b2n (partExists s p && lackOf s p == 0) * 2 ^ p)).foldl (· + ·) 0)

/-- LACK over the existing partitions that are not OFF, so that it reads 0 at reset as Table 19-6 gives. DEDUCED (log entry 50). -/
def lackBits (s : State) : Nat :=
  ((List.range (nParts s)).map (fun p => if (part s p).state = .off then 0 else lackOf s p)).foldl (· ||| ·) 0

/-- FULL is brought up to date; FULL_LOST is raised when a bit falls (R442). DESIGN CHOICE (log entry 11). -/
def settleFull (s : State) : State :=
  let f := fullBits s
  let s1 := { s with glob := { s.glob with full := f } }
  if (s.glob.full &&& ~~~ f) != 0 then raiseEvt s1 pgGlob 1 else s1

end Sys2Proof.Machine
end

