-- ==== Sys2Proof/Machine/Format.lean ====
section
/-! DEFINITION. Number formats and rounding ("Number formats and rounding", R33-R55): every value is held exactly
as sign, integer magnitude and power of two, and rounded only where Table 3-5 names a rounding point. -/

namespace Sys2Proof.Machine

/-- An exact value: NaN, a signed infinity, or (-1)^neg * m * 2^e. Zero keeps its sign (R128). -/
inductive FVal where
  | nan
  | inf (neg : Bool)
  | fin (neg : Bool) (m : Nat) (e : Int)
  deriving DecidableEq, Repr

/-- Positive zero. -/
def fZero : FVal := .fin false 0 0

/-- Round m / 2^k to an integer, to nearest, ties to even. -/
def rne (m k : Nat) : Nat :=
  let q := m >>> k
  let r := m % 2 ^ k
  if 2 * r > 2 ^ k then q + 1
  else if 2 * r = 2 ^ k then q + q % 2
  else q

/-- Round m * 2^e to an integer multiple of 2^lsb, to nearest even; the answer counts units of 2^lsb. -/
def rneTo (m : Nat) (e lsb : Int) : Nat :=
  if lsb ≤ e then m * 2 ^ (e - lsb).toNat else rne m (lsb - e).toNat

/-- The exponent floor(log2 (m * 2^e)) of a non-zero value. -/
def fexp (m : Nat) (e : Int) : Int := (Nat.log2 m : Int) + e

/-- The magnitude field (exponent and fraction together) of m * 2^e rounded to nearest even in a format of mb
fraction bits and the given bias, as if the exponent had no upper limit. Subnormals are kept (R34, R128). -/
def encMag (mb : Nat) (bias : Int) (m : Nat) (e : Int) : Nat :=
  if m = 0 then 0
  else
    let lmin : Int := 1 - bias - mb
    let lsb := max (fexp m e - mb) lmin
    (lsb - lmin).toNat * 2 ^ mb + rneTo m e lsb

/-- A format of 1 sign bit, eb exponent bits and mb fraction bits with IEEE special values: its value. -/
def decIeee (eb mb : Nat) (bias : Int) (x : Nat) : FVal :=
  let neg := decide (nfld x (eb + mb) (eb + mb) = 1)
  let ex := nfld x (eb + mb - 1) mb
  let f := x % 2 ^ mb
  if ex = 2 ^ eb - 1 then (if f = 0 then .inf neg else .nan)
  else if ex = 0 then .fin neg f (1 - bias - mb)
  else .fin neg (2 ^ mb + f) (ex - bias - mb)

/-- FP32 to its value. -/
def dec32 (x : Nat) : FVal := decIeee 8 23 127 x
/-- BF16 to its value. -/
def dec16b (x : Nat) : FVal := decIeee 8 7 127 x
/-- FP16 to its value. -/
def dec16h (x : Nat) : FVal := decIeee 5 10 15 x
/-- E5M2 to its value (Table 3-2). -/
def decE5M2 (x : Nat) : FVal := decIeee 5 2 15 x
/-- E4M3 to its value: no infinity, NaN is S.1111.111 (Table 3-2). -/
def decE4M3 (x : Nat) : FVal :=
  let neg := decide (nfld x 7 7 = 1)
  let ex := nfld x 6 3
  let f := x % 8
  if ex = 15 ∧ f = 7 then .nan
  else if ex = 0 then .fin neg f (-9)
  else .fin neg (8 + f) (ex - 10)
/-- A small element format without infinity or NaN (E3M2, E2M3, E2M1; Table 3-2). -/
def decSmall (eb mb : Nat) (bias : Int) (x : Nat) : FVal :=
  let neg := decide (nfld x (eb + mb) (eb + mb) = 1)
  let ex := nfld x (eb + mb - 1) mb
  let f := x % 2 ^ mb
  if ex = 0 then .fin neg f (1 - bias - mb) else .fin neg (2 ^ mb + f) (ex - bias - mb)

/-- The canonical NaNs of R47. -/
def nan32 : Nat := 0x7FC00000
/-- Canonical BF16 NaN (R47). -/
def nan16b : Nat := 0x7FC0

/-- Sign bit above a magnitude of w bits. -/
def withSign (w : Nat) (neg : Bool) (mag : Nat) : Nat := mag + (if neg then 2 ^ w else 0)

/-- Round once to FP32, to nearest even; overflow gives infinity (R45, R48). -/
def enc32 : FVal → Nat
  | .nan => nan32
  | .inf neg => withSign 31 neg 0x7F800000
  | .fin neg m e => withSign 31 neg (min (encMag 23 127 m e) 0x7F800000)

/-- Round once to BF16, to nearest even (Table 3-6). -/
def enc16b : FVal → Nat
  | .nan => nan16b
  | .inf neg => withSign 15 neg 0x7F80
  | .fin neg m e => withSign 15 neg (min (encMag 7 127 m e) 0x7F80)

/-- Round once to FP16, to nearest even (Table 3-6). -/
def enc16h : FVal → Nat
  | .nan => 0x7E00
  | .inf neg => withSign 15 neg 0x7C00
  | .fin neg m e => withSign 15 neg (min (encMag 10 15 m e) 0x7C00)

/-- Round to E4M3; finite overflow saturates at 448, infinity becomes NaN (Table 3-6). -/
def encE4M3 : FVal → Nat
  | .nan => 0x7F
  | .inf _ => 0x7F
  | .fin neg m e => withSign 7 neg (min (encMag 3 7 m e) 0x7E)

/-- Round to E5M2; finite overflow saturates at 57,344, infinity is kept (Table 3-6). -/
def encE5M2 : FVal → Nat
  | .nan => 0x7E
  | .inf neg => withSign 7 neg 0x7C
  | .fin neg m e => withSign 7 neg (min (encMag 2 15 m e) 0x7B)

/-- Round to an integer, to nearest even, and saturate to INT8 (Table 3-6). -/
def encI8 : FVal → Nat
  | .nan => 0
  | .inf neg => if neg then 0x80 else 0x7F
  | .fin neg m e =>
    let q := rneTo m e 0
    if neg then (256 - min q 128) % 256 else min q 127

/-- INT8 to its value. -/
def decI8 (x : Nat) : FVal :=
  let y := x % 256
  if y < 128 then .fin false y 0 else .fin true (256 - y) 0

/-- The signed integer a finite value counts in units of 2^e0, for e0 at or below its exponent. -/
def asInt (e0 : Int) (neg : Bool) (m : Nat) (e : Int) : Int :=
  let v : Int := (m * 2 ^ (e - e0).toNat : Nat)
  if neg then -v else v

/-- Exact product (R48): a NaN operand, or zero times infinity, gives NaN. -/
def fmul : FVal → FVal → FVal
  | .nan, _ => .nan
  | _, .nan => .nan
  | .inf a, .inf b => .inf (a != b)
  | .inf a, .fin b m _ => if m = 0 then .nan else .inf (a != b)
  | .fin a m _, .inf b => if m = 0 then .nan else .inf (a != b)
  | .fin a m e, .fin b n f => .fin (a != b) (m * n) (e + f)

/-- Exact sum of two values (R48). An exact zero is -0 only when both terms are -0 (R128). -/
def fadd : FVal → FVal → FVal
  | .nan, _ => .nan
  | _, .nan => .nan
  | .inf a, .inf b => if a = b then .inf a else .nan
  | .inf a, .fin _ _ _ => .inf a
  | .fin _ _ _, .inf b => .inf b
  | .fin a m e, .fin b n f =>
    if m = 0 ∧ n = 0 then .fin (a && b) 0 (min e f)
    else
      let g := min e f
      let s := asInt g a m e + asInt g b n f
      .fin (decide (s < 0)) s.natAbs g

/-- A value with its sign flipped. -/
def fneg : FVal → FVal
  | .nan => .nan
  | .inf a => .inf (!a)
  | .fin a m e => .fin (!a) m e

/-- Exact scaling by 2^k. -/
def fscale (k : Int) : FVal → FVal
  | .fin a m e => .fin a m (e + k)
  | v => v

/-- Is the value a NaN? -/
def fisNan : FVal → Bool
  | .nan => true
  | _ => false

/-- Is the value finite? -/
def fisFin : FVal → Bool
  | .fin _ _ _ => true
  | _ => false

/-- Is the value a zero of either sign? -/
def fisZero : FVal → Bool
  | .fin _ m _ => m == 0
  | _ => false

/-- a < b for values that are no NaN; the two zeros are equal. -/
def flt : FVal → FVal → Bool
  | .nan, _ => false
  | _, .nan => false
  | .inf a, .inf b => a && !b
  | .inf a, .fin _ _ _ => a
  | .fin _ _ _, .inf b => !b
  | .fin a m e, .fin b n f => decide (asInt (min e f) a m e < asInt (min e f) b n f)

/-- Equality of values that are no NaN; the two zeros are equal. -/
def feq (a b : FVal) : Bool := !fisNan a && !fisNan b && !flt a b && !flt b a

/-- The sign of a value (a NaN has none: false). -/
def fneg? : FVal → Bool
  | .nan => false
  | .inf a => a
  | .fin a _ _ => a

/-- Minimum with NaN if either is NaN and -0 below +0 (VMIN, Table 4-8). -/
def fmin (a b : FVal) : FVal :=
  if fisNan a || fisNan b then .nan
  else if flt a b then a else if flt b a then b
  else if fneg? a then a else b

/-- Maximum with NaN if either is NaN and -0 below +0 (VMAX, Table 4-8). -/
def fmax (a b : FVal) : FVal :=
  if fisNan a || fisNan b then .nan
  else if flt a b then b else if flt b a then a
  else if fneg? a then b else a

/-- Exact quotient carried to enough bits that one later rounding is correct: the last bit is sticky. -/
def fdiv : FVal → FVal → FVal
  | .nan, _ => .nan
  | _, .nan => .nan
  | .inf _, .inf _ => .nan
  | .inf a, .fin b _ _ => .inf (a != b)
  | .fin a _ _, .inf b => .fin (a != b) 0 0
  | .fin a m e, .fin b n f =>
    if n = 0 then (if m = 0 then .nan else .inf (a != b))
    else if m = 0 then .fin (a != b) 0 0
    else
      let k := 64 + Nat.log2 n
      let q := (m * 2 ^ k) / n
      let r := (m * 2 ^ k) % n
      .fin (a != b) (2 * q + (if r = 0 then 0 else 1)) (e - f - k - 1)

/-- Integer square root of x by bits, b bits still to decide. -/
def isqrtAux : Nat → Nat → Nat → Nat
  | 0, _, acc => acc
  | b + 1, x, acc =>
    let t := acc + 2 ^ b
    isqrtAux b x (if t * t ≤ x then t else acc)

/-- Integer square root. -/
def isqrt (x : Nat) : Nat := isqrtAux (Nat.log2 x / 2 + 1) x 0

/-- Exact square root carried to enough bits that one later rounding is correct: the last bit is sticky. -/
def fsqrt : FVal → FVal
  | .nan => .nan
  | .inf false => .inf false
  | .inf true => .nan
  | .fin neg m e =>
    if m = 0 then .fin neg 0 0
    else if neg then .nan
    else
      let odd := decide (e % 2 = 1)
      let m1 := if odd then 2 * m else m
      let e1 := if odd then e - 1 else e
      let x := m1 * 2 ^ 128
      let q := isqrt x
      .fin false (2 * q + (if q * q = x then 0 else 1)) (e1 / 2 - 65)

/-- FP32 operations of the vector engine: one rounding each (Table 3-5). -/
def add32 (a b : Nat) : Nat := enc32 (fadd (dec32 a) (dec32 b))
/-- FP32 product, one rounding. -/
def mul32 (a b : Nat) : Nat := enc32 (fmul (dec32 a) (dec32 b))
/-- FP32 fused multiply-add a * b + c, one rounding. -/
def fma32 (a b c : Nat) : Nat := enc32 (fadd (fmul (dec32 a) (dec32 b)) (dec32 c))
/-- FP32 sign flip of a value (for the fma(-u, …) forms of R90; exact). -/
def neg32 (a : Nat) : Nat := if a < 2 ^ 31 then a + 2 ^ 31 else a - 2 ^ 31
/-- FP32 difference, one rounding. -/
def sub32 (a b : Nat) : Nat := enc32 (fadd (dec32 a) (fneg (dec32 b)))
/-- FP32 quotient, correctly rounded. -/
def div32 (a b : Nat) : Nat := enc32 (fdiv (dec32 a) (dec32 b))
/-- FP32 square root, correctly rounded. -/
def sqrt32 (a : Nat) : Nat := enc32 (fsqrt (dec32 a))

/-! ### The transcendental procedures of R90, on FP32 bit patterns -/

/-- FP32 constant 2^k for a normal exponent. -/
def pow32 (k : Int) : Nat := (k + 127).toNat * 2 ^ 23

/-- One Newton step of vrcp: e = fma(-u, y, 1); y = fma(y, e, y). -/
def rcpStep (u y : Nat) : Nat := fma32 y (fma32 (neg32 u) y 0x3F800000) y

/-- vrcp (R90). -/
def vrcp (x : Nat) : Nat :=
  match dec32 x with
  | .nan => nan32
  | .inf neg => withSign 31 neg 0
  | .fin neg m _ =>
    if m = 0 then withSign 31 neg 0x7F800000
    else
      let ax := x % 2 ^ 31
      let s := if ax < 0x00800000 then pow32 24 else if 0x7E800000 ≤ ax then pow32 (-24) else 0x3F800000
      let u := mul32 ax s
      let y := (0x7EF311C3 + 2 ^ 32 - u) % 2 ^ 32
      let y := rcpStep u (rcpStep u (rcpStep u y))
      let r := mul32 y s
      if neg then neg32 r else r

/-- One step of vrsq. -/
def rsqStep (h y : Nat) : Nat := fma32 y (fma32 (neg32 h) (mul32 y y) 0x3F000000) y

/-- vrsq (R90). -/
def vrsq (x : Nat) : Nat :=
  match dec32 x with
  | .nan => nan32
  | .inf neg => if neg then nan32 else 0
  | .fin neg m _ =>
    if m = 0 then withSign 31 neg 0x7F800000
    else if neg then nan32
    else
      let small := x < 0x01000000
      let u := if small then mul32 x (pow32 24) else x
      let s := if small then pow32 12 else 0x3F800000
      let y := (0x5F375A86 + 2 ^ 32 - u / 2) % 2 ^ 32
      let h := mul32 0x3F000000 u
      let y := rsqStep h (rsqStep h (rsqStep h y))
      mul32 y s

/-- The FP32 value nearest to num / 10^den. -/
def decimal32 (num den : Nat) : Nat := enc32 (fdiv (.fin false num 0) (.fin false (10 ^ den) 0))

/-- c6 … c0 of vexp2, in the order they are used (R90). -/
def exp2Coef : List Nat :=
  [decimal32 1540353 10, decimal32 1333356 9, decimal32 9618129 9, decimal32 5550411 8,
   decimal32 2402265 7, decimal32 6931472 7, 0x3F800000]

/-- x rounded to an integer, ties to even, as a signed integer. -/
def roundInt : FVal → Int
  | .fin neg m e => let q := rneTo m e 0; if neg then -(q : Int) else q
  | _ => 0

/-- vexp2 (R90). -/
def vexp2 (x : Nat) : Nat :=
  match dec32 x with
  | .nan => nan32
  | v =>
    if !flt v (.fin false 128 0) then 0x7F800000
    else if flt v (.fin true 150 0) then 0
    else
      let n := roundInt v
      let f := enc32 (fadd v (.fin (decide (0 < n)) n.natAbs 0))
      let p := exp2Coef.foldl (fun p c => fma32 p f c) (decimal32 1525273 11)
      enc32 (fscale n (dec32 p))

/-- d4 … d0 of vlog2, in the order they are used (R90). -/
def log2Coef : List Nat :=
  [decimal32 3205989 7, decimal32 4121986 7, decimal32 5770780 7, decimal32 9617967 7, decimal32 2885390 6]

/-- vlog2 (R90). -/
def vlog2 (x : Nat) : Nat :=
  match dec32 x with
  | .nan => nan32
  | .inf neg => if neg then nan32 else 0x7F800000
  | .fin neg m e =>
    if m = 0 then 0xFF800000
    else if neg then nan32
    else
      let ex := fexp m e
      let m32 := enc32 (.fin false m (e - ex))
      let big := 0x3FB504F3 ≤ m32
      let m32 := if big then mul32 m32 0x3F000000 else m32
      let ex := if big then ex + 1 else ex
      let s := div32 (sub32 m32 0x3F800000) (add32 m32 0x3F800000)
      let z := mul32 s s
      let p := log2Coef.foldl (fun p d => fma32 p z d) (decimal32 2623082 7)
      fma32 p s (enc32 (.fin (decide (ex < 0)) ex.natAbs 0))

/-! ### Element types (Table 3-1) -/

/-- Bits per element of a type code of Table 3-1. -/
def typeBits (t : Nat) : Nat :=
  match t with
  | 0 => 32 | 1 => 16 | 2 => 16 | 3 => 8 | 4 => 8 | 5 => 8 | 6 => 8 | 7 => 6 | 8 => 6 | 9 => 4 | 10 => 8 | 11 => 16
  | _ => 0

/-- Is the type a block type with a scale plane (MX types and SB32)? -/
def typeBlocked (t : Nat) : Bool := (5 ≤ t && t ≤ 9) || t == 11

/-- Is the type an MX type? -/
def typeMx (t : Nat) : Bool := 5 ≤ t && t ≤ 9

/-- Bytes of one block of 32 elements (R36, R40). -/
def blockBytes (t : Nat) : Nat := typeBits t * 4

/-- emax of an MX element type (Table 3-2). -/
def typeEmax (t : Nat) : Int :=
  match t with
  | 5 => 8 | 6 => 15 | 7 => 4 | 8 => 2 | 9 => 2
  | _ => 0

/-- The value of an element of an unblocked or MX type, scale left aside (Tables 3-1, 3-2). -/
def decElem (t x : Nat) : FVal :=
  match t with
  | 0 => dec32 x
  | 1 => dec16b x
  | 2 => dec16h x
  | 3 => decE4M3 x
  | 4 => decE5M2 x
  | 5 => decE4M3 x
  | 6 => decE5M2 x
  | 7 => decSmall 3 2 3 x
  | 8 => decSmall 2 3 1 x
  | 9 => decSmall 2 1 1 x
  | 10 => decI8 x
  | _ => .nan

/-- The value of an MX element under scale byte sc (R37). -/
def decMx (t x sc : Nat) : FVal :=
  if sc = 255 then .nan else fscale ((sc : Int) - 127) (decElem t x)

/-- The value of an SB32 element under scale S (R41). -/
def decSb (q sc : Nat) : FVal :=
  if q = 0x8000 then .nan
  else if q < 0x8000 then .fin false q ((sc : Int) - 142) else .fin true (0x10000 - q) ((sc : Int) - 142)

/-- Widen an element to FP32 bits (Table 3-6: exact; an MX value above the FP32 range gives infinity; NaN is canonical). -/
def widen (t x sc : Nat) : Nat :=
  if t = 11 then enc32 (decSb x sc) else if typeMx t then enc32 (decMx t x sc) else enc32 (decElem t x)

/-- Convert an FP32 value to an unblocked type, to nearest even (Table 3-6). -/
def narrow (t : Nat) (v : FVal) : Nat :=
  match t with
  | 0 => enc32 v
  | 1 => enc16b v
  | 2 => enc16h v
  | 3 => encE4M3 v
  | 4 => encE5M2 v
  | 10 => encI8 v
  | _ => 0

/-- The 16 random bits of element n (R51). -/
def srBits (seed stream n : Nat) : Nat :=
  let w := 2 ^ 64
  let z := seed ^^^ ((n * 0x9E3779B97F4A7C15) % w) ^^^ ((stream * 2 ^ 32) % w)
  let z := ((z ^^^ (z >>> 30)) * 0xBF58476D1CE4E5B9) % w
  let z := ((z ^^^ (z >>> 27)) * 0x94D049BB133111EB) % w
  (z ^^^ (z >>> 31)) % 2 ^ 16

/-- FP32 bits to BF16 with stochastic rounding by the 16 bits r; never past 0x7F7F (R52, Table 3-6). -/
def srBf16 (x r : Nat) : Nat :=
  match dec32 x with
  | .nan => nan16b
  | .inf neg => withSign 15 neg 0x7F80
  | .fin neg _ _ =>
    let mag := (x % 2 ^ 31) / 2 ^ 16
    let d := x % 2 ^ 16
    withSign 15 neg (min (if 2 ^ 16 ≤ d + r then mag + 1 else mag) 0x7F7F)

/-- Round a magnitude m * 2^e to an element of an MX type and saturate at its largest finite magnitude (R38). -/
def encMxElem (t : Nat) (neg : Bool) (m : Nat) (e : Int) : Nat :=
  match t with
  | 5 => withSign 7 neg (min (encMag 3 7 m e) 0x7E)
  | 6 => withSign 7 neg (min (encMag 2 15 m e) 0x7B)
  | 7 => withSign 5 neg (min (encMag 2 3 m e) 0x1F)
  | 8 => withSign 5 neg (min (encMag 3 1 m e) 0x1F)
  | 9 => withSign 3 neg (min (encMag 1 1 m e) 0x7)
  | _ => 0

/-- The largest magnitude among finite values, as an exact value. -/
def maxMag (xs : List FVal) : FVal :=
  xs.foldl (fun a x => match x with
    | .fin _ m e => if flt a (.fin false m e) then .fin false m e else a
    | _ => a) fZero

/-- Write an MX block from 32 FP32 values: scale byte and elements (R38, R39). -/
def mxBlock (t : Nat) (xs : List FVal) : Nat × List Nat :=
  if xs.any (fun x => !fisFin x) then (255, xs.map (fun _ => 0))
  else
    match maxMag xs with
    | .fin _ m e =>
      let X : Int := if m = 0 then -127 else max (-127) (min 127 (fexp m e - typeEmax t))
      ((X + 127).toNat, xs.map (fun x => match x with
        | .fin neg n f => encMxElem t neg n (f - X)
        | _ => 0))
    | _ => (0, xs.map (fun _ => 0))

/-- Does m * 2^(142 - S + e) stay at or below 32,767 (R42 step 3)? -/
def sbFits (m : Nat) (e : Int) (S : Nat) : Bool :=
  !flt (.fin false 32767 0) (.fin false m (e + 142 - S))

/-- The smallest S from s on, at most k further, for which the block fits; 255 if none (R42 steps 3, 4). -/
def sbScale (m : Nat) (e : Int) : Nat → Nat → Nat
  | 0, s => min s 255
  | k + 1, s => if sbFits m e s then s else sbScale m e k (s + 1)

/-- Round y = m * 2^e to an integer by the store's rounding mode: none is nearest even, some r stochastic (R42, R52). -/
def sbRound (m : Nat) (e : Int) (r : Option Nat) : Nat :=
  match r with
  | none => rneTo m e 0
  | some r =>
    if 0 ≤ e then m * 2 ^ e.toNat
    else
      let k := (-e).toNat
      let q := m >>> k
      let d := ((m % 2 ^ k) * 65536) >>> k
      if 65536 ≤ d + r then q + 1 else q

/-- Write an SB32 block from FP32 values: scale and significands (R42). -/
def sbBlock (xs : List FVal) (rs : List (Option Nat)) : Nat × List Nat :=
  match maxMag xs with
  | .fin _ m e =>
    let S := if m = 0 then 0 else sbScale m e 255 0
    (S, (xs.zip rs).map (fun p => match p.1 with
      | .fin neg n f =>
        let q := min (sbRound n (f + 142 - S) p.2) 32767
        if neg then (0x10000 - q) % 0x10000 else q
      | _ => 0x8000))
  | _ => (0, xs.map (fun _ => 0x8000))

/-- Split conversion (R53): a_hi (hi true) or a_lo of an FP32 value. -/
def splitBf16 (hi : Bool) (x : Nat) : Nat :=
  match dec32 x with
  | .fin neg m e =>
    let h := withSign 15 neg (min (encMag 7 127 m e) 0x7F7F)
    if hi then h else enc16b (fadd (.fin neg m e) (fneg (dec16b h)))
  | v => if hi then enc16b v else 0

/-- Operand types of an MMA format code: type codes of A and B (Table 3-3). -/
def fmtTypes (f : Nat) : Nat × Nat :=
  match f with
  | 0 => (1, 1) | 1 => (2, 2) | 2 => (3, 3) | 3 => (4, 4) | 4 => (3, 4) | 5 => (4, 3)
  | 6 => (5, 5) | 7 => (6, 6) | 8 => (5, 6) | 9 => (6, 5) | 10 => (7, 7) | 11 => (8, 8) | 12 => (9, 9)
  | _ => (0, 0)

/-- Dot depth of a format code (Table 3-3). -/
def fmtK (f : Nat) : Nat := if f ≤ 1 then 2 else if f ≤ 11 then 4 else 8

/-- Is the format code an MX code (0x6-0xC)? -/
def fmtMx (f : Nat) : Bool := 6 ≤ f && f ≤ 12

/-- Does the merge engine take the format (Table 3-3, last column)? -/
def fmtMerge (f : Nat) : Bool := f == 0 || (2 ≤ f && f ≤ 5)

end Sys2Proof.Machine
end

