-- ==== Sys2Proof/Machine/Operands.lean ====
section
/-! DEFINITION. The core instruction word: its fields (Tables 4-3, 4-4, 4-7, 5-2, 7-5, 8-3), the encoding checks of
R59, R44, R108, R158 and R185, the registers each instruction reads and writes (R63), and handles (R71-R75). -/

namespace Sys2Proof.Machine

/-- Opcode, bits [63:56] of the instruction word. -/
def opc (w : W64) : Nat := fld w 63 56
/-- Wait enable, bit [55]. -/
def waitEn (w : W64) : Bool := bit w 55
/-- Arrival-counter index, bits [54:50]. -/
def waitCtr (w : W64) : Nat := fld w 54 50

/-- Is the opcode listed in Table 4-1? -/
def opListed (o : Nat) : Bool :=
  o ≤ 0x13 || (0x20 ≤ o && o ≤ 0x21) || (0x28 ≤ o && o ≤ 0x2D) || (0x40 ≤ o && o ≤ 0x42) || (0x48 ≤ o && o ≤ 0x4B)
  || (0x60 ≤ o && o ≤ 0x76)

/-- Reserved class-specific bits of the scalar, control, handle and synchronisation instructions, as a mask over
[47:0] (R586, Table 4-4). -/
def resvMask (o : Nat) : Nat :=
  match o with
  | 0x00 => 0xFFFFFFFFFFFF
  | 0x0C => 0x3F00000000
  | 0x0D => 0x7FFFFFFFFE0
  | 0x0E => 0x7FFFFFFFFFF
  | 0x0F => 0x7FFFFFFFFFF
  | 0x10 => 0xFFFF00000000
  | 0x11 => 0xF83F00000000
  | 0x12 => 0xF83F00000000
  | 0x13 => 0xFFFFFFFFFFFF
  | 0x20 => 0x1FFFFFFFFF
  | 0x21 => 0x3FFFF
  | 0x28 => 0xFFFFFFFFFFFF
  | 0x29 => 0x3FFF0000
  | 0x2A => 0x3F00000000
  | 0x2B => 0x3F00000000
  | 0x2C => 0xF83FFFFFFFFF
  | 0x2D => 0xF0FFFFFFFFFF
  | 0x40 => 0x3
  | 0x41 => 0x3
  | 0x42 => 0x3
  | 0x48 => 0x7FFFF
  | 0x49 => 0x7FFFF
  | 0x4A => 0x7FFFF
  | 0x4B => 0x7FFFF
  | 0x74 => 0x7C01FFFFFFF
  | 0x75 => 0x7C01FFFFFFF
  | _ => 0

/-- Is the opcode a vector arithmetic one, with a TYPE field (Table 4-7)? -/
def opVArith (o : Nat) : Bool := (0x60 ≤ o && o ≤ 0x71) || o == 0x76

/-- VCVT destination codes (Table 4-8). -/
def cvtCode (c : Nat) : Bool := c ≤ 4 || c == 10

/-- Rules of Table 4-7 and 4-8 a vector arithmetic word breaks (R587, R588). -/
def vecBad (w : W64) : Bool :=
  let o := opc w
  let ty := fld w 27 26
  if 2 ≤ ty then true
  else if o = 0x67 then fld w 2 0 == 7 || fld w 25 3 != 0
  else if o = 0x69 then
    !cvtCode (fld w 25 22) || fld w 20 0 != 0 || (bit w 21 && !(ty == 1 && fld w 25 22 == 0))
  else if o = 0x76 then fld w 37 28 != 0 || fld w 25 6 != 0 || (ty == 0 && 32 ≤ fld w 5 0)
  else fld w 25 0 != 0

/-- The ILLEGAL_INSN condition of R59 and the classes' field rules. DEDUCED (log entry 33). -/
def illegal (w : W64) : Bool :=
  let o := opc w
  !opListed o || fld w 49 48 != 0 || (w.toNat &&& resvMask o) != 0
  || (o == 0x28 && !waitEn w)
  || (o == 0x29 && fld w 15 0 == 0)
  || (opVArith o && vecBad w)
  || ((0x48 ≤ o && o ≤ 0x4B) &&
      (fld w 24 23 == 3 || 2 ≤ fld w 20 19 || (o != 0x4A && (bit w 30 || bit w 21)) || (o != 0x4B && fld w 20 19 != 0)))

/-- K of a matrix instruction from its K16 field (Tables 5-2, 8-3). -/
def mmaK16 (w : W64) : Nat := let k := fld w 18 11; if k = 0 then 256 else k

/-- Minimum slot pitch of a CTILE operand of an element type (R180): 9 lines for BF16, 5 for FP8. -/
def minPitch (t : Nat) : Nat := if t = 1 then 9 else 5

/-- Encoding checks of the first group of R62: the first error and its ERR_INFO_LO. `cols` is ARRAY_COLS, `go` the
register GO names (R44, R59, R108, R185). See R118. -/
def encErr (cols : Nat) (go : W64) (w : W64) : Option (Nat × Nat) :=
  let o := opc w
  let f := fld w 40 37
  let ncol := fld w 5 2
  if illegal w then some (0x0201, 0)
  else if o = 0x40 then
    if 13 ≤ f then some (0x0230, 0)
    else if cols ≤ ncol then some (0x0210, ncol)
    else if fmtMx f && fld w 18 11 % 2 == 1 then some (0x0211, fld w 18 11)
    else if !fmtMx f && fld w 24 19 != 0 then some (0x0201, 0)
    else none
  else if o = 0x41 ∨ o = 0x42 then
    if 13 ≤ f then some (0x0230, 0)
    else if !fmtMerge f then some (0x0231, 0)
    else
      let sample := bit go 58
      let bct := bit go 57
      let act := bit go 56
      let pitch := fld go 55 48
      if fld go 63 61 != 0 then some (0x0241, 1)
      else if sample && (o == 0x42 || act || bct) then some (0x0241, 2)
      else if (act && pitch < minPitch (fmtTypes f).1) || (bct && pitch < minPitch (fmtTypes f).2) || (sample && pitch < 9) then
        some (0x0241, 3)
      else if o == 0x41 && fld go 60 59 != 0 then some (0x0241, 4)
      else if !sample && fld w 24 19 != 0 then some (0x0241, 5)
      else if o == 0x42 && cols ≤ ncol then some (0x0210, ncol)
      else none
  else none

/-! ### Handles (R71-R75) -/

/-- VALID of a handle entry. -/
def hValid (h : W64) : Bool := bit h 63
/-- CHECKED of a handle entry. -/
def hChecked (h : W64) : Bool := bit h 62
/-- COUNTER of a handle entry. -/
def hCtr (h : W64) : Nat := fld h 61 57
/-- Slots of a checked handle (SLOTS + 1). -/
def hSlots (h : W64) : Nat := fld h 56 51 + 1
/-- SLOT_LINES of a handle entry. -/
def hSlotLines (h : W64) : Nat := fld h 50 39
/-- SIZE of a handle entry, in lines. -/
def hSize (h : W64) : Nat := fld h 38 27
/-- Banks spanned, W. -/
def hW (h : W64) : Nat := 2 ^ fld h 26 24

/-- Scratchpad line (offset / 64) of logical line i of a handle: row * 16 + bank (R67, R72). -/
def hLine (h : W64) (i : Nat) : Nat := (fld h 19 12 + i / hW h) * 16 + fld h 23 20 + i % hW h

/-- Window offset of byte b of a handle's logical space (R72). -/
def hByte (h : W64) (b : Nat) : Nat := hLine h (b / 64) * 64 + b % 64

/-- The conditions under which HSET refuses an entry, apart from the overlap with another handle (R73). -/
def hBad (h : W64) : Bool :=
  hValid h && (4 < fld h 26 24 || fld h 23 20 % hW h != 0 || hSize h == 0 || 192 < fld h 19 12 + cdiv (hSize h) (hW h)
    || (hChecked h && hSlots h * hSlotLines h != hSize h))

/-- Do two handles' lines meet? -/
def hMeet (a b : W64) : Bool :=
  let la := (List.range (hSize a)).map (hLine a)
  (List.range (hSize b)).any (fun i => la.contains (hLine b i))

/-! ### Sources and destinations (R63) -/

/-- General register n as a tracked resource; G0 is none (R58). -/
def rG (n : Nat) : List Res := if n = 0 then [] else [.g n]

/-- What an instruction other than a mover reads, `go` the register GO names. -/
def readsOf (w : W64) (go : W64) : List Res :=
  let o := opc w
  let A := fld w 42 38
  let B := fld w 37 33
  if o = 0 ∨ o = 0x10 ∨ o = 0x13 then []
  else if o ≤ 0x0B then rG A ++ (if bit w 32 then [] else rG B)
  else if o = 0x0C ∨ o = 0x11 ∨ o = 0x12 then rG A
  else if o ≤ 0x0F then []
  else if o = 0x20 then rG (fld w 41 37)
  else if o = 0x2A ∨ o = 0x2B ∨ o = 0x2C then rG A
  else if o = 0x40 then
    rG (fld w 10 6) ++ [.h (fld w 36 31), .h (fld w 30 25)] ++ (if fmtMx (fld w 40 37) then [.h (fld w 24 19)] else [])
      ++ (if bit w 41 then [.t (fld w 47 42)] else [])
  else if o = 0x41 ∨ o = 0x42 then
    rG (fld w 10 6) ++ [.h (fld w 36 31), .h (fld w 30 25)] ++ (if bit go 58 then [.h (fld w 24 19)] else [])
      ++ (if bit w 41 then [.t (fld w 47 42)] else [])
  else if o = 0x71 then rG A
  else if o = 0x72 then rG A ++ [.h (fld w 37 32)]
  else if o = 0x73 then rG A ++ [.v (fld w 47 43)]
  else if o = 0x74 then [.t (fld w 37 32)]
  else if o = 0x75 then [.v (fld w 47 43)]
  else if o = 0x63 ∨ o = 0x68 then [.v A, .v B, .v (fld w 32 28)]
  else if (0x60 ≤ o ∧ o ≤ 0x62) ∨ o = 0x64 ∨ o = 0x65 ∨ o = 0x67 ∨ o = 0x6A then [.v A, .v B]
  else if 0x60 ≤ o ∧ o ≤ 0x76 then [.v A]
  else []

/-- What an instruction other than a mover writes. -/
def writesOf (w : W64) : List Res :=
  let o := opc w
  let D := fld w 47 43
  if 0x01 ≤ o ∧ o ≤ 0x0F then rG D
  else if o = 0x20 then [.h (fld w 47 42)]
  else if 0x40 ≤ o ∧ o ≤ 0x42 then [.t (fld w 47 42)]
  else if o = 0x76 then rG D
  else if o = 0x73 then [.h (fld w 37 32)]
  else if o = 0x75 then [.t (fld w 37 32)]
  else if 0x60 ≤ o ∧ o ≤ 0x74 then [.v D]
  else []

/-- Does an instruction with these sources and destinations wait for an earlier one in flight (R63)? -/
def hazard (rd wr : List Res) (f : Flight) : Bool :=
  f.wr.any (fun r => rd.contains r || wr.contains r) || f.rd.any (fun r => wr.contains r)

/-- Execution unit of an opcode with a queue. -/
def unitOf (o : Nat) : Option CUnit :=
  if o = 0x40 then some .array
  else if o = 0x41 ∨ o = 0x42 then some .merge
  else if 0x48 ≤ o ∧ o ≤ 0x4B then some .mover
  else if 0x60 ≤ o ∧ o ≤ 0x76 then some .vec
  else none

/-- Unit code of BANK_CONFLICT (R97, R186). -/
def unitCode (o : Nat) : Nat := if o = 0x40 then 1 else if o = 0x41 then 2 else if o = 0x42 then 3 else 4

/-! ### Lines a compute-port instruction touches -/

/-- Handle line runs of an MMA.D: handle, first line, lines (R106). -/
def mmadRuns (w : W64) (go : W64) : List (Nat × Nat × Nat) :=
  let f := fld w 40 37
  let K := mmaK16 w * 16
  [(fld w 36 31, fld go 15 0, K / fmtK f), (fld w 30 25, fld go 31 16, K / fmtK f)]
    ++ (if fmtMx f then [(fld w 24 19, fld go 47 32, cdiv K 64)] else [])

/-- Handle line runs of an MMA.S or MMA.A (R185). -/
def mmasRuns (w : W64) (go : W64) : List (Nat × Nat × Nat) :=
  let f := fld w 40 37
  let k16 := mmaK16 w
  let pitch := fld go 55 48
  let n := k16 * 16 / fmtK f
  [(fld w 36 31, fld go 15 0, if bit go 56 then k16 * pitch else n),
   (fld w 30 25, fld go 31 16, if bit go 57 then k16 * pitch else n)]
    ++ (if bit go 58 then [(fld w 24 19, fld go 47 32, pitch)] else [])

/-- The byte offset of a VLD or VST: GA signed plus IMM32 sign-extended, exact (R88). -/
def vmemOff (w : W64) (ga : W64) : Int := sval 64 ga.toNat + sval 32 (fld w 31 0)

end Sys2Proof.Machine
end

