-- ==== Sys2Proof/Machine/CoreBase.lean ====
section
/-! DEFINITION. Operations every core instruction shares: registers, handles and slots, arrival counters, stops
(R66), the unit queues, bank and slot checks (R62, R68), wakes (R285-R289), residue checks (R445), samples (R448). -/

namespace Sys2Proof.Machine

/-- The Accord master (R277). DESIGN CHOICE (log entry 8). -/
def now (s : State) : Nat := s.accord.master

/-! ### Registers of a core -/

/-- General register n; G0 reads 0 (R58). -/
def getG (c : Core) (n : Nat) : W64 := if n = 0 then 0 else sget 0 c.g n
/-- Write general register n; writes to G0 are discarded (R58). -/
def setG (c : Core) (n : Nat) (v : W64) : Core := if n = 0 then c else { c with g := sput c.g n v }
/-- Vector register n. -/
def getV (c : Core) (n : Nat) : VReg := sget 0 c.v n
/-- Write vector register n. -/
def setV (c : Core) (n : Nat) (v : VReg) : Core := { c with v := sput c.v n v }
/-- Handle entry n. -/
def getH (c : Core) (n : Nat) : W64 := sget 0 c.handles n
/-- Arrival counter n. -/
def getCtr (c : Core) (n : Nat) : W32 := sget 0 c.ctr n
/-- Slot state of a checked handle: every slot EMPTY, positions 0, until written (R74). -/
def getSlots (c : Core) (h : Nat) : Slots := sget { full := 0, fill := 0, rel := 0 } c.slots h

/-- CORE_STATE of core n (Table 4-9). -/
def coreState (s : State) (n : Nat) : Nat :=
  if !coreOn s n then 0
  else match (core s n).state with
    | .asleep => 1 | .waking => 2 | .idle => 3 | .running => 4 | .waiting => 5 | .stopped => 6 | .testing => 7

/-! ### Slots of checked handles (R76-R79) -/

/-- Slot that holds logical line i of a checked handle. -/
def slotOf (h : W64) (i : Nat) : Nat := i / (max 1 (hSlotLines h))

/-- Mark k further slots FULL from the fill position; the flag says that one of them was FULL already (R76). -/
def fillSlots (n : Nat) : Nat → Slots → Bool → Slots × Bool
  | 0, sl, b => (sl, b)
  | k + 1, sl, b =>
    fillSlots n k { sl with full := setBit sl.full sl.fill true, fill := (sl.fill + 1) % n } (b || bit sl.full sl.fill)

/-- Mark k slots EMPTY from the release position; the flag says that one of them was not FULL (R79). -/
def relSlots (n : Nat) : Nat → Slots → Bool → Slots × Bool
  | 0, sl, b => (sl, b)
  | k + 1, sl, b =>
    relSlots n k { sl with full := setBit sl.full sl.rel false, rel := (sl.rel + 1) % n } (b || !bit sl.full sl.rel)

/-- Valid checked handles of a core: number and entry. -/
def checkedHandles (c : Core) : List (Nat × W64) :=
  c.handles.filter (fun e => hValid e.2 && hChecked e.2)

/-- Does scratchpad line l (offset / 64) lie in a FULL slot of a checked handle (R78)? -/
def lineFull (c : Core) (l : Nat) : Bool :=
  (checkedHandles c).any (fun e =>
    (List.range (hSize e.2)).any (fun i => hLine e.2 i == l && bit (getSlots c e.1).full (slotOf e.2 i)))

/-! ### Reports and stops -/

/-- Send a consumer's report on a record to the queue engine (R259, R260). -/
def report (s : State) (r : Run) (code : Nat) (g31 : W64) : State :=
  { s with reports := s.reports ++ [{ queue := r.queue, index := r.index, code := code, g31 := g31 }] }

/-- Record an error of a core without its event: the event rises with STOPPED (R66). DEDUCED (log entry 5). -/
def noteErr (s : State) (p code lo hi : Nat) : State :=
  let h := hdr s p
  let h1 := { h with errCount := satInc h.errCount 1 }
  setHdr s p (if h.errFirst = 0 then
      { h1 with errFirst := BitVec.ofNat 16 code, infoLo := BitVec.ofNat 32 lo, infoHi := BitVec.ofNat 32 hi }
    else h1)

/-- The wake request of core n, admitted or not, is dropped; one that waits in the governor is not counted (R295). -/
def dropWake (s : State) (n : Nat) : State :=
  { s with accord := { s.accord with wakeQ := s.accord.wakeQ.filter (fun w => w.core != n) }
           cores := sput s.cores n { core s n with wakeReq := false } }

/-- May core n issue: enabled, RUNNING, not held, not stopping, END not issued, program loaded? DESIGN CHOICE (log entry 2). -/
def canIssue (s : State) (n : Nat) : Bool :=
  let c := core s n
  coreOn s n && decide (c.state = .running) && c.hold.isNone && c.stopping.isNone && !c.ended && !c.loading && !c.starting
    && c.job.isNone && !c.checker

/-! ### Wakes (R285-R289) -/

/-- LEVEL_MAX of a SLEEP_CFG value: 8-15 act as 7 (Table 12-8). -/
def cfgMax (v : W32) : Nat := min 7 (fld v 23 20)
/-- LEVEL_MIN of a SLEEP_CFG value: a value above LEVEL_MAX acts as LEVEL_MAX. -/
def cfgMin (v : W32) : Nat := min (cfgMax v) (fld v 19 16)
/-- LEVEL_MAX in effect for core n. -/
def levelMax (s : State) (n : Nat) : Nat := cfgMax (cluster s (n / 16)).sleepCfg
/-- LEVEL_MIN in effect. -/
def levelMin (s : State) (n : Nat) : Nat := cfgMin (cluster s (n / 16)).sleepCfg

/-- Core n begins a hold with contents c (R284): SLEEP_CFG as it stands governs the hold, and the level is clamped into
LEVEL_MIN to LEVEL_MAX (R286, R297). -/
def startHold (s : State) (n : Nat) (c : Core) : Core :=
  let v := (cluster s (n / 16)).sleepCfg
  { c with idleSince := now s, holdCfg := v, predLevel := BitVec.ofNat 3 (max (cfgMin v) (min (cfgMax v) c.predLevel.toNat)) }

/-- The wake predictor's update when a core wakes by a counter or a record (R286). -/
def predict (s : State) (n : Nat) : State :=
  let c := core s n
  let g := now s - c.sleepSince
  let be := fld (cluster s (n / 16)).sleepCfg 15 0
  let l := c.predLevel.toNat
  if g < be then
    modCluster (setCore s n { c with predLevel := BitVec.ofNat 3 (min (levelMax s n) (l + 1)) }) (n / 16)
      (fun k => { k with wakesEarly := k.wakesEarly + 1 })
  else if 4 * be ≤ g then setCore s n { c with predLevel := BitVec.ofNat 3 (max (levelMin s n) (l - 1)) }
  else s

/-- WAKE_RATE in effect: 0 and values above 300 act as 300 (R290). -/
def wakeRate (s : State) : Nat :=
  let r := s.accord.wakeRate.toNat
  if r = 0 ∨ 300 < r then 300 else r

/-- Admit one wake request: the core reads WAKING from admission (R289). -/
def admitWake (s : State) (w : WakeReq) : State :=
  let a := s.accord
  let late := decide (w.at_ / 1500 < a.window)
  modCore { s with accord := { a with admitted := a.admitted + 1, wakes := a.wakes + 1,
                                      wakeDeferred := if late then a.wakeDeferred + 1 else a.wakeDeferred } }
    w.core (fun c => { c with state := .waking })

/-- Admit waiting requests in order while the window has room. -/
def admitAll : Nat → State → State
  | 0, s => s
  | k + 1, s =>
    match s.accord.wakeQ with
    | [] => s
    | w :: r => if s.accord.admitted < wakeRate s then
        admitAll k (admitWake { s with accord := { s.accord with wakeQ := r } } w) else s

/-- Open the governor window of the present tick if it is not open, and let waiting in requests first (R289). -/
def openWindow (s : State) : State :=
  let w := now s / 1500
  if s.accord.window < w then
    admitAll s.accord.wakeQ.length { s with accord := { s.accord with window := w, admitted := 0 } }
  else s

/-- A wake request in its place among those that wait: arrival order, ties going to the lower core number (R289). -/
def queueWake : List WakeReq → WakeReq → List WakeReq
  | [], w => [w]
  | x :: r, w => if w.at_ = x.at_ ∧ w.core < x.core then w :: x :: r else x :: queueWake r w

/-- A sleeping core sends a wake request: `toState` is what the core enters when the wake ends, `pred` whether the
predictor counts the cause (R285, R286, R289). -/
def requestWake (s : State) (n toState : Nat) (pred : Bool) : State :=
  let c := core s n
  if c.state = .asleep && !c.wakeReq then
    let s1 := if pred then predict s n else s
    let s2 := modCore s1 n (fun c => { c with wakeReq := true, wakeTo := toState })
    let s3 := openWindow s2
    let q := queueWake s3.accord.wakeQ { core := n, at_ := now s }
    admitAll q.length { s3 with accord := { s3.accord with wakeQ := q } }
  else s

/-! ### The checker role (R447) -/

/-- Is the partition of cluster g ACTIVE? DEDUCED (log entry 27). -/
def clusterActive (s : State) (g : Nat) : Bool := decide ((part s (partOfCore s (16 * g))).state = .active)

/-- May core i of cluster g take the checker role now: enabled, 16 columns, IDLE or ASLEEP, no record assigned? -/
def checkerFree (s : State) (g i : Nat) : Bool :=
  let n := 16 * g + i
  let c := core s n
  arrayCols s n == 16 && !c.checker && c.run.isNone && c.stopping.isNone && !c.wakeReq
    && (decide (c.state = .idle) || decide (c.state = .asleep))

/-- May the cluster have a checker at all: at least two enabled cores of 16 columns? -/
def checkerAble (s : State) (g : Nat) : Bool :=
  decide (2 ≤ ((List.range 16).filter (fun i => arrayCols s (16 * g + i) == 16)).length)

/-- Give the role to core i of cluster g; an ASLEEP core wakes first (R447). -/
def takeRole (s : State) (g i : Nat) : State :=
  let n := 16 * g + i
  let s1 := settleFull (modCluster s g (fun k => { k with checker := some i, rotateDue := false }))
  if (core s n).state = .asleep then requestWake s1 n 4 false
  else modCore s1 n (fun c => { c with checker := true, state := .running })

/-- The cluster's checker leaves the role: it returns to IDLE, unless it is still waking. -/
def leaveRole (s : State) (g : Nat) : State :=
  match (cluster s g).checker with
  | none => s
  | some i =>
    let s1 := modCluster s g (fun k => { k with checker := none })
    modCore s1 (16 * g + i) (fun c => if c.checker then startHold s1 (16 * g + i) { c with checker := false, state := .idle }
      else { c with wakeTo := if c.wakeTo = 4 then 0 else c.wakeTo })

/-- The role leaves the cluster. -/
def dropRole (s : State) (g : Nat) : State := if (cluster s g).checker.isNone then s else settleFull (leaveRole s g)

/-- Successor from position a on, wrapping, among the 16 cores (R447). -/
def nextChecker (s : State) (g a : Nat) : Option Nat :=
  ((List.range 16).map (fun i => (a + i) % 16)).find? (checkerFree s g)

/-- The role of a cluster without a checker passes to the next free core from position a on; with none free it waits for the first
core to become free (R447). -/
def passRole (s : State) (g a : Nat) : State :=
  let k := cluster s g
  if bit k.dupCfg 31 && k.checker.isNone && checkerAble s g && clusterActive s g then
    match nextChecker s g a with
    | some i => takeRole s g i
    | none => setCluster s g { k with rotateDue := true }
  else s

/-- A rotation that is due takes place when no sample is in progress and a successor is free; a role that waits is taken by a core that
is free (R447). DEDUCED (log entry 27). -/
def tryRotate (s : State) (g : Nat) : State :=
  let k := cluster s g
  match k.checker with
  | none => if k.rotateDue then passRole s g 0 else s
  | some i =>
    if k.rotateDue && k.sample.isNone then
      match nextChecker s g (i + 1) with
      | some j => takeRole (leaveRole s g) g j
      | none => s
    else s

/-! ### Stops (R66) -/

/-- When the last issued instruction of a stopping core has completed: STOPPED, the error event, the report of the
record (R66 steps 4, 5); a checker role passes on at once, as at a rotation (R447). DEDUCED (log entry 5). -/
def settleStop (s : State) (n : Nat) : State :=
  let c := core s n
  match c.stopping with
  | none => s
  | some code =>
    if c.flights.isEmpty && !(c.checker && (match (cluster s (n / 16)).sample with | some _ => true | none => false)) then
      let s0 := dropWake s n
      let s1 := setCore s0 n { c with state := .stopped, wakeReq := false, stopping := none, run := none, loading := false,
                                      ended := false, starting := false, startAt := none, job := none, hold := none, checker := false,
                                      progLen := if c.loading then 0 else c.progLen }
      let s2 := if c.checker then
          settleFull (passRole (modCluster s1 (n / 16) (fun g => { g with checker := none })) (n / 16) (n % 16 + 1))
        else s1
      let s3 := raiseCode s2 (pgCore n) 0x80000000 code.toNat
      match c.run with
      | some r => report s3 r code.toNat 0
      | none => s3
    else s

/-- Stop core n with an error (R66): nothing further issues; the error is recorded; the core enters STOPPED once
every issued instruction has completed. DEDUCED (log entry 5). -/
def stopCore (s : State) (n code lo hi : Nat) : State :=
  let s1 := noteErr s (pgCore n) code lo hi
  let c := core s1 n
  settleStop (setCore s1 n { c with stopping := some (c.stopping.getD (BitVec.ofNat 16 code)), hold := none }) n

/-! ### Arrival counters (R81, R82) -/

/-- Is the wait of a held instruction met: (counter - T) signed is 0 or more (R82)? See R83. -/
def waitMet (c : Core) (k : Nat) : Bool :=
  !bit (getCtr c k - sget 0 c.tgt k) 31

/-- Index of the counter the instruction at PC waits on. -/
def heldCtr (c : Core) : Nat := waitCtr (c.prog.getD c.pc 0)

/-- Apply an increment of k to arrival counter i of core n: the counter adds modulo 2^32; checked handles that name it
mark slots FULL (R76, R81); a sleeping core whose wait it meets asks for a wake (R285). -/
def applyInc (s : State) (n i k : Nat) : State :=
  let c := core s n
  let c1 := { c with ctr := sput c.ctr i (getCtr c i + BitVec.ofNat 32 k) }
  let hs := (checkedHandles c).filter (fun e => hCtr e.2 == i)
  let step := fun (a : Core × Bool) (e : Nat × W64) =>
    let m := hSlots e.2
    let r := fillSlots m (min k (m + 1)) (getSlots a.1 e.1) false
    let fin := { r.1 with fill := ((getSlots a.1 e.1).fill + k) % m }
    ({ a.1 with slots := sput a.1.slots e.1 fin }, a.2 || r.2)
  let r := hs.foldl step (c1, false)
  let s1 := setCore s n r.1
  let s2 := if r.2 then stopCore s1 n 0x0207 0 0 else s1
  let c2 := core s2 n
  match c2.hold with
  | some h => if !h.launch && heldCtr c2 == i && waitMet c2 i then requestWake s2 n 2 true else s2
  | none => s2

/-- Page of a source unit of a WR flit, where it records CORE_TESTING (R93, Table 4-14). -/
def srcPage (u : Nat) : Nat :=
  if u < 4096 then pgCore u else if u < 6000 then pgSe (u - 5000) else if u < 7000 then pgLink (u - 6000)
  else 0x20 + (u - 7000) * 16

/-! ### Writes through the mover port (R70, R78, R93) -/

/-- Remember what lines held before a mover-port write for the instructions in flight that read them (R70, R136). -/
def logOld (s : State) (n : Nat) (cells : List Host.Cell) : State :=
  let ls := (cells.map (fun c => (c.1 - coreAddr n 0) / 64)).eraseDups
  modCore s n (fun c => { c with flights := c.flights.map (fun f =>
    ls.foldl (fun f l => if f.lines.contains l then { f with olds := (l, readBytes s.mem (coreAddr n (64 * l)) 64) :: f.olds } else f) f) })

/-- A mover-port write of listed bytes to core n's scratchpad: bytes of a FULL slot are discarded and the owner stops
with SLOT_OVERRUN (R78). Bytes an UPDATE or COMBINE uses on the core taint it (R338). See R92. -/
def portWrite (s : State) (n : Nat) (cells : List Host.Cell) : State :=
  let c := core s n
  let bad := fun (x : Host.Cell) => lineFull c ((x.1 - coreAddr n 0) / 64)
  let ok := cells.filter (fun x => !bad x)
  let uses := ok.any (fun x => decide (0x2C000 ≤ x.1 - coreAddr n 0))
  let s0 := if uses && c.job.isSome then setCore s n { c with job := c.job.map (fun j => { j with tainted := true }) } else s
  let s1 := logOld s0 n ok
  let s2 := { s1 with mem := writeCells s1.mem ok }
  if cells.any bad then stopCore s2 n 0x0207 0 0 else s2

/-! ### Unit queues, samples and completion -/

/-- Flights of a unit, oldest first. -/
def unitFlights (c : Core) (u : CUnit) : List Flight := c.flights.filter (fun f => decide (f.unit = u))

/-- Replace a flight by its number. -/
def putFlight (c : Core) (f : Flight) : Core :=
  { c with flights := c.flights.map (fun g => if g.id = f.id then f else g) }

/-- PERIOD_SHIFT in effect (Table 19-8). -/
def periodShift (k : Cluster) : Nat := min 12 (fld k.dupCfg 3 0)

/-- A sample as it begins: the word and the latched values, nothing read yet (R449). -/
def newSample (n : Nat) (f : Flight) : Sample :=
  { core := n, word := f.word, pc := f.pc, reg := f.reg, thresh := f.thresh, rowSplit := f.rowSplit, start := [], reads := [],
    tile := [], written := false }

/-- The sampling decision when an eligible instruction starts on its unit (R448): it is sampled when 2^PERIOD_SHIFT of
them have started since the core's last sample or 2^20 ticks of activity have passed; a sampled one waits until the
checker has no sample in progress. -/
def sampleStart (s : State) (n : Nat) (f : Flight) : State :=
  let g := n / 16
  let k := cluster s g
  let c := core s n
  match k.checker with
  | none => setCore s n { putFlight c { f with started := true } with sinceSample := c.sinceSample + 1 }
  | some ck =>
    if !bit k.dupCfg 31 || ck == n % 16 then
      setCore s n { putFlight c { f with started := true } with sinceSample := c.sinceSample + 1 }
    else if 2 ^ periodShift k ≤ c.sinceSample ∨ 2 ^ 20 ≤ c.activity then
      if k.sample.isNone && k.dupQueue.isEmpty then
        setCluster (setCore s n { putFlight c { f with started := true, sampled := true } with sinceSample := 0, activity := 0 }) g
          { k with sample := some (newSample n f) }
      else
        setCluster (setCore s n (putFlight c { f with started := true, sampleWait := true })) g { k with dupQueue := k.dupQueue ++ [n] }
    else setCore s n { putFlight c { f with started := true } with sinceSample := c.sinceSample + 1 }

/-- Does a dense part of the core's MMA.A stand before the array: it enters ahead of any array instruction that has not
started (R56, R191)? -/
def partWaits (c : Core) : Bool :=
  match unitFlights c .merge with
  | [] => false
  | f :: _ => f.started && !f.sampleWait && f.path == some true

/-- Does the array run an instruction of its own queue? A dense part never interrupts it (R191). -/
def arrayBusy (c : Core) : Bool := (unitFlights c .array).any (fun f => f.started && !f.sampleWait)

/-- Start the oldest instruction of a unit if none of the unit has started; movers start every instruction at issue, and the
array takes a dense part of an MMA.A first (R191). -/
def startNext (s : State) (n : Nat) (u : CUnit) : State :=
  let fs := unitFlights (core s n) u
  if fs.any (fun f => f.started) || (decide (u = .array) && partWaits (core s n)) then s
  else match fs with
    | [] => s
    | f :: _ =>
      if opc f.word = 0x40 ∨ opc f.word = 0x41 ∨ opc f.word = 0x42 then sampleStart s n f
      else setCore s n (putFlight (core s n) { f with started := true })

/-- Hand the checker to the next waiting core when no sample is in progress (R448). DESIGN CHOICE (log entry 9). -/
def nextSample (s : State) (g : Nat) : State :=
  let k := cluster s g
  match k.sample, k.dupQueue with
  | none, n :: r =>
    let c := core s n
    match c.flights.find? (fun f => f.sampleWait) with
    | some f =>
      let s1 := setCore s n { putFlight c { f with sampleWait := false, sampled := true } with sinceSample := 0, activity := 0 }
      let s2 := bumpFree s1
      setCluster s2 g { k with dupQueue := r, dupWaits := k.dupWaits + BitVec.ofNat 64 (Config.freeCycles s1.freeCtr),
                               sample := some (newSample n f) }
    | none => setCluster s g { k with dupQueue := r }
  | _, _ => s

/-- An instruction completes: it leaves its unit's queue, the unit starts its next, a sampled tile stands ready for the
comparison, a stop in progress may end, and a hold period may begin (R284). -/
def complete (s : State) (n : Nat) (f : Flight) : State :=
  let c := core s n
  let c1 := { c with flights := c.flights.filter (fun g => g.id != f.id) }
  let c2 := if c1.flights.isEmpty then startHold s n c1 else c1
  let s1 := setCore s n c2
  let s2 := if f.sampled then modCluster s1 (n / 16) (fun k => { k with sample := k.sample.map (fun x => { x with written := true }) }) else s1
  let s3 := startNext s2 n f.unit
  settleStop (if f.unit = .merge then startNext s3 n .array else s3) n

/-- Put an issued instruction into its unit's queue. -/
def enqueue (s : State) (n : Nat) (f : Flight) : State :=
  let c := core s n
  startNext (setCore s n { c with flights := c.flights ++ [{ f with id := c.nextId }], nextId := c.nextId + 1 }) n f.unit

/-- A blank flight of an instruction. -/
def mkFlight (u : CUnit) (w : W64) (pc : Nat) (reg : W64) (rd wr : List Res) : Flight :=
  { id := 0, unit := u, word := w, pc := pc, reg := reg, rd := rd, wr := wr, spans := [], banks := 0, lines := [], olds := [],
    thresh := 0, rowSplit := 0, part := 0, path := none, vals := [], started := false, sampleWait := false, sampled := false,
    src := [], dst := [], srcSeq := [], dstSeq := [], xfer := none, sent := false }

/-- A re-run cures a check failure: ARITH_CE of the cluster rises with its event, and a corrected blotter is issued (R445). -/
def cureArith (s : State) (n : Nat) (f : Flight) : State :=
  let s1 := raiseEvt (modCluster s (n / 16) (fun k => { k with arithCe := k.arithCe + 1 })) (pgCluster (n / 16)) 9
  correctedBlotter s1 (pgCore n) { coreBlotter s1 3 0 1 n with insn := f.word.toNat, pcAt := f.pc }

/-- The residue checks of an array, merge-engine or vector instruction (R444, R445): what is written is `good`; a cured
failure raises ARITH_CE and a corrected blotter; a failed re-run writes nothing and stops the core with ARITH_UE. -/
def withCheck (s : State) (n : Nat) (f : Flight) (chk : Chk) (good : State → State) : State :=
  if !bit s.glob.integCfg 0 then complete (good s) n f
  else match chk with
    | .pass => complete (good s) n f
    | .rerun => complete (good (cureArith s n f)) n f
    | .fail =>
      let s1 := stopCore s n 0x0253 0 0
      complete (issueBlotter s1 { coreBlotter s1 4 0x0253 2 n with insn := f.word.toNat, pcAt := f.pc }) n f

/-! ### Issue checks (R62) -/

/-- A run of logical lines an instruction touches: handle, first line, lines, written. -/
abbrev Span := Nat × Nat × Nat × Bool

/-- Handle checks over the spans: HANDLE_INVALID, then HANDLE_RANGE (R75). -/
def handleErr (c : Core) (sp : List Span) : Option Nat :=
  if sp.any (fun x => !hValid (getH c x.1)) then some 0x0203
  else if sp.any (fun x => hSize (getH c x.1) < x.2.1 + x.2.2.1) then some 0x0204
  else none

/-- Slot checks of checked handles over the spans (R77): a read of a slot that is not FULL, a local write of a FULL one. See R80. -/
def slotErr (c : Core) (sp : List Span) : Option Nat :=
  let bad := fun (x : Span) =>
    let h := getH c x.1
    hChecked h && (List.range x.2.2.1).any (fun i =>
      bit (getSlots c x.1).full (slotOf h (x.2.1 + i)) == x.2.2.2)
  match sp.find? bad with
  | some x => some (if x.2.2.2 then 0x0207 else 0x0206)
  | none => none

/-- Scratchpad lines of the spans. -/
def spanLines (c : Core) (sp : List Span) : List Nat :=
  sp.foldr (fun x acc => (List.range x.2.2.1).map (fun i => hLine (getH c x.1) (x.2.1 + i)) ++ acc) []

/-- Banks of a list of lines, bit b for bank b (R67). -/
def banksOf (ls : List Nat) : BitVec 16 := ls.foldl (fun a l => setBit a (l % 16) true) 0

/-- The bank check (R68): the lowest bank an instruction of another unit holds, with the holder's unit code. See R69. DEDUCED (log entry 12). -/
def bankErr (c : Core) (u : CUnit) (banks : BitVec 16) : Option (Nat × Nat) :=
  let held := fun (b : Nat) => c.flights.find? (fun f => decide (f.unit ≠ u) && bit f.banks b)
  match (List.range 16).find? (fun b => bit banks b && (held b).isSome) with
  | none => none
  | some b => (held b).map (fun f => (b, unitCode (opc f.word)))

end Sys2Proof.Machine
end

