-- ==== Sys2Proof/Machine/Network.lean ====
section
/-! DEFINITION. The on-die network (R299-R316): its links, the fixed path of a flit between two units, the registers each router
on the path counts in, and the order in which flits of one source reach one destination. -/

namespace Sys2Proof.Machine

/-! ### Links and paths (Table 13-1, R301, R302, R312, R313) -/

/-- A link a router sends a flit on (Table 13-1). -/
inductive NetLink where
  /-- To a router of the same die one place away. -/
  | near (to_ : Nat)
  /-- Express link to a router of the same die four places away. -/
  | express (to_ : Nat)
  /-- Ejection channel of a core. -/
  | core (n : Nat)
  /-- Drop onto the spine of a column, to the north or the south edge. -/
  | spine (north : Bool) (col : Nat)
  /-- Bridge row port of a row; the channel where R302 gives one. -/
  | bridge (row : Nat) (channel : Option Nat)
  /-- Edge attachment of an I/O die in a row. -/
  | edge (iodie row : Nat)
  deriving DecidableEq, Repr

/-- Mesh row of a cluster (R10). -/
def meshRow (g : Nat) : Nat := (g % 128) / 8

/-- Mesh column of a cluster (R10). -/
def meshCol (g : Nat) : Nat := g % 8

/-- Cluster at a die, row and column (R10). -/
def clusterAt (d r c : Nat) : Nat := d * 128 + r * 8 + c

/-- Routers a flit passes after the one at place a of a dimension on its way to place b, an express hop whenever four or more
places remain (R301). -/
def hopsDim (mk : Nat → Nat) : Nat → Nat → Nat → List Nat
  | 0, _, _ => []
  | fuel + 1, a, b =>
    if a = b then []
    else
      let d := if a < b then b - a else a - b
      let st := if 4 ≤ d then 4 else 1
      let a1 := if a < b then a + st else a - st
      mk a1 :: hopsDim mk fuel a1 b

/-- Routers from one cluster along its row to a column, the first included. -/
def rowPath (g c : Nat) : List Nat := g :: hopsDim (clusterAt (g / 128) (meshRow g)) 8 (meshCol g) c

/-- Routers between two clusters of one die: along the row, then along the column (R301). -/
def meshPath (a b : Nat) : List Nat :=
  rowPath a (meshCol b) ++ hopsDim (fun r => clusterAt (a / 128) r (meshCol b)) 16 (meshRow a) (meshRow b)

/-- Column of a die at the bridge: 7 of C0, 0 of C1 (R302). -/
def bridgeCol (d : Nat) : Nat := if d = 0 then 7 else 0

/-- Column of a die at its I/O edge: 0 of C0, 7 of C1 (R313). -/
def edgeCol (d : Nat) : Nat := if d = 0 then 0 else 7

/-- The link between two routers of a path. -/
def hopLink (a b : Nat) : NetLink :=
  let d := fun (x y : Nat) => if x < y then y - x else x - y
  if d (meshRow a) (meshRow b) + d (meshCol a) (meshCol b) = 4 then .express b else .near b

/-- Routers with the links they send on, the last on `last`. -/
def withLinks (last : NetLink) : List Nat → List (Nat × NetLink)
  | [] => []
  | [g] => [(g, last)]
  | g :: h :: r => (g, hopLink g h) :: withLinks last (h :: r)

/-- From a router to a router of the other die by the bridge row port of its row, then by `there` from the entry (R302). -/
def overBridge (g : Nat) (ch : Option Nat) (there : Nat → List (Nat × NetLink)) : List (Nat × NetLink) :=
  let d := g / 128
  withLinks (.bridge (meshRow g) ch) (rowPath g (bridgeCol d)) ++ there (clusterAt (1 - d) (meshRow g) (bridgeCol (1 - d)))

/-- Bridge channel of a pair of cores (R302). -/
def bridgeChannel (a b : Nat) : Nat := (a + b) % 4

/-- From a router to a core: R301 on its die, R302 to the other. -/
def toCore (g : Nat) (ch : Option Nat) (b : Nat) : List (Nat × NetLink) :=
  let fin := fun (g : Nat) => withLinks (.core b) (meshPath g (b / 16))
  if g / 128 = b / 16 / 128 then fin g else overBridge g ch fin

/-- Path of a flit between two cores. -/
def corePath (a b : Nat) : List (Nat × NetLink) := toCore (a / 16) (some (bridgeChannel a b)) b

/-- Does a site lie on the north edge of its die? -/
def siteNorth (i : Nat) : Bool := decide (i % 8 < 4)

/-- Path of a core's request to a stack: by its column's spine on its own die; on the other die along the row of the bridge port to
the stack's column (R312, R313). DESIGN CHOICE (log entry 67). -/
def coreHbmPath (n i : Nat) : List (Nat × NetLink) :=
  let g := n / 16
  if g / 128 = i / 8 then [(g, .spine (siteNorth i) (meshCol g))]
  else
    let c := Config.stackColumn i % 8
    overBridge g none (fun h => withLinks (.spine (siteNorth i) c) (rowPath h c))

/-- Path of a stack's flits to a core: back the same way (R312, R313). -/
def hbmCorePath (i n : Nat) : List (Nat × NetLink) :=
  let g := n / 16
  if g / 128 = i / 8 then [(g, .core n)]
  else overBridge (clusterAt (i / 8) (meshRow g) (Config.stackColumn i % 8)) none (fun h => withLinks (.core n) (rowPath h (meshCol g)))

/-- Row at which Lx meets the flits of a row: its own row where the die serves it, the same row of its half otherwise (R313). -/
def edgeRow (s : State) (x r : Nat) : Nat := if iodPop s 2 then x / 2 * 8 + r % 8 else r % 16

/-- Router of column 0 or 7 at which Lx enters the mesh for a row. -/
def edgeRouter (s : State) (x r : Nat) : Nat := clusterAt (iodDie x) (edgeRow s x r) (edgeCol (iodDie x))

/-- Path of a flit of Lx to a core (R313): in at the row of the core, then R301 and R302. DESIGN CHOICE (log entry 67). -/
def iodCorePath (s : State) (x n : Nat) : List (Nat × NetLink) := toCore (edgeRouter s x (meshRow (n / 16))) none n

/-- Path of a core's flit to Lx: along its row to the edge attachment, by the bridge where the die is the other one. -/
def coreIodPath (s : State) (n x : Nat) : List (Nat × NetLink) :=
  let g := n / 16
  let e := edgeRouter s x (meshRow g)
  let fin := fun (h : Nat) => withLinks (.edge x (meshRow e)) (meshPath h e)
  if g / 128 = iodDie x then fin g else overBridge g none fin

/-- Path between Lx and a stack: along a row between the attachment and the stack's column (R313). DESIGN CHOICE (log entry 67). -/
def iodHbmPath (s : State) (x i : Nat) : List (Nat × NetLink) :=
  let g := edgeRouter s x (Config.entryRow x i)
  let c := Config.stackColumn i % 8
  let fin := fun (h : Nat) => withLinks (.spine (siteNorth i) c) (rowPath h c)
  if iodDie x = i / 8 then fin g else overBridge g none fin

/-- Path of a WR flit from its source unit to a core: a core, a stack engine, an I/O die; a queue engine's place is not given, and its
flits count at the core's own router. DESIGN CHOICE (log entry 67). -/
def unitCorePath (s : State) (u n : Nat) : List (Nat × NetLink) :=
  if u < 4096 then corePath u n
  else if u < 6000 then hbmCorePath (u - 5000) n
  else if u < 7000 then iodCorePath s (u - 6000) n
  else [(n / 16, .core n)]

/-! ### Counting (R316, Table 13-5) -/

/-- k flits sent by each router of a path: FLITS_OUT rises by k at each, HEAD_WAIT and CREDIT_STALL by the cycles waited there, which
the manual leaves to traffic. DESIGN CHOICE (log entry 9). -/
def countPath (s : State) (p : List (Nat × NetLink)) (k : Nat) : State :=
  if k = 0 then s
  else p.foldl (fun s e => bumpFree (modCluster s e.1 (fun x =>
    { x with flitsOut := x.flitsOut + BitVec.ofNat 64 k
             headWait := x.headWait + BitVec.ofNat 64 (Config.pick s.freeCtr 5)
             creditStall := x.creditStall + BitVec.ofNat 64 (Config.pick s.freeCtr 6) }))) s

/-- The lines of 64 bytes among addresses, each once, in their order. -/
def linesOf (as : List Nat) : List Nat := (as.map (fun a => a / 64)).eraseDups

/-! ### Order (R306, R309) -/

/-- May message i arrive: its fence has gone, and no message its source injected to its destination before it is still on its way
(R306)? A message not yet injected is injected by its arrival, after all that are (R309). DESIGN CHOICE (log entry 7). -/
def mayArrive (s : State) (i : Nat) : Bool :=
  match s.net[i]? with
  | none => false
  | some m =>
    m.fence.isEmpty
      && !((if m.injected then s.net.take i else s.net).any (fun x => x.injected && x.src == m.src && x.dst == m.dst && x.fence.isEmpty))

/-- Position in the network of message number `which` among those to core n that satisfy p, oldest first. DESIGN CHOICE (log entry 7). -/
def netPick (s : State) (n which : Nat) (p : NetMsg → Bool) : Option Nat :=
  ((List.range s.net.length).filter (fun i => match s.net[i]? with
    | some m => m.dst == n && p m
    | none => false))[which]?

/-- Inject an increment of k from core n to a counter of core dst now. Of the core's mover writes to that core still to be injected,
any may have been injected before it: a free choice for each (R309). DEDUCED (log entry 6). DESIGN CHOICE (log entry 7). -/
def injectInc (s : State) (n : Nat) (m : NetMsg) : State :=
  let open_ := fun (x : NetMsg) => !x.injected && x.src == n && x.dst == m.dst
  let tag := mapIx (fun i (x : NetMsg) => (x, open_ x && Config.pick s.freeCtr i % 2 == 1)) 0 s.net
  let before := (tag.filter (fun e => e.2)).map (fun e => { e.1 with injected := true })
  let rest := (tag.filter (fun e => !e.2)).map (·.1)
  let s1 := if s.net.any open_ then bumpFree s else s
  { s1 with net := rest ++ before ++ [m] }

/-- Inject an increment of k to a counter of a core (R85, R309), once the flights of its fence have landed. DESIGN CHOICE (log entry 7). -/
def sendInc (s : State) (n dst ctr k : Nat) (fence : List Nat) : State :=
  let m : NetMsg := { src := n, flight := 0, dst := dst, cells := [], red := none, inc := some (ctr, k), fence := fence, injected := true }
  if fence.isEmpty then injectInc s n m else { s with net := s.net ++ [m] }

/-- Mover flight `id` of core n has completed: fenced increments that wait for no other are injected now (R85). -/
def releaseFence (s : State) (n id : Nat) : State :=
  let upd := s.net.map (fun m => if m.src = n then { m with fence := m.fence.filter (· != id) } else m)
  let was := (s.net.zip upd).filter (fun p => !p.1.fence.isEmpty && p.2.fence.isEmpty)
  let keep := (s.net.zip upd).filter (fun p => p.1.fence.isEmpty || !p.2.fence.isEmpty)
  let iods := s.iods.map (fun e => (e.1, { e.2 with
    rmtWait := e.2.rmtWait.map (fun r => if r.core = n then { r with fence := r.fence.filter (· != id) } else r) }))
  (was.map (·.2)).foldl (fun s m => injectInc s n m) { s with net := keep.map (·.2), iods := iods }

/-- Take message i off the network. -/
def netDrop (s : State) (i : Nat) : State := { s with net := s.net.take i ++ s.net.drop (i + 1) }

end Sys2Proof.Machine
end

