-- ==== Sys2Proof/Machine/Matrix.lean ====
section
/-! DEFINITION. The dense array (R98-R117), the merge engine (R129-R131, R179-R193) and the expander: what a matrix
instruction reads, the order of its additions and the tile it writes. -/

namespace Sys2Proof.Machine

/-! ### Tiles in accumulator memory (R119) -/

/-- Module address of element i (16 * row + column) of tile t of core n. -/
def tileAddr (n t i : Nat) : Nat := accAddr n (t * 0x400 + i * 4)

/-- The 256 FP32 elements of a tile, row by row. -/
def readTile (m : Mem) (n t : Nat) : List Nat := (List.range 256).map (fun i => readLe m (tileAddr n t i) 4)

/-- Write elements i, i+1, … of a tile, but only columns 0 to ncol (R107, R126). -/
def writeTileFrom (n t ncol : Nat) : Nat → List Nat → Mem → Mem
  | _, [], m => m
  | i, x :: r, m =>
    writeTileFrom n t ncol (i + 1) r (if i % 16 ≤ ncol then writeLe m (tileAddr n t i) 4 x else m)

/-- Write columns 0 to ncol of a tile. -/
def writeTile (m : Mem) (n t ncol : Nat) (vs : List Nat) : Mem := writeTileFrom n t ncol 0 vs m

/-- The starting values v0: the tile's values with ACC_ADD 1, +0 otherwise (R126); so too for a chained MMA.D whose predecessor's re-run
failed and wrote no tile, a case R111 does not name. DEDUCED (log entry 12). -/
def startTile (m : Mem) (w : W64) (n : Nat) : List Nat :=
  let t := readTile m n (fld w 47 42)
  if bit w 41 then t else t.map (fun _ => 0)

/-! ### Operand lines -/

/-- A scratchpad line as an instruction in flight reads it: the line as it stands, or, when mover-port writes changed
it since issue, any of the versions it had (R70, R136). -/
def flightLine (s : State) (n : Nat) (f : Flight) (tag l : Nat) : Nat :=
  let cur := readBytes s.mem (coreAddr n (64 * l)) 64
  let olds := (f.olds.filter (fun o => o.1 == l)).map (·.2)
  match olds with
  | [] => ofBytes cur
  | o => ofBytes ((cur :: o).getD (Config.pick s.freeCtr (tag * 4096 + l) % (o.length + 1)) cur)

/-- Logical lines first … first + k - 1 of a handle, each as a 512-bit number. -/
def runLines (s : State) (n : Nat) (f : Flight) (h first k : Nat) : List Nat :=
  (List.range k).map (fun i => flightLine s n f i (hLine (getH (core s n) h) (first + i)))

/-! ### The dense array -/

/-- Element (r, i) of operand A in the A-feed layout (R101, Table 5-1). -/
def feedA (t k : Nat) (ls : List Nat) (r i : Nat) : Nat :=
  let b := typeBits t
  nfld (nth ls (i / k)) (r * (k * b) + (i % k) * b + b - 1) (r * (k * b) + (i % k) * b)

/-- Element (i, c) of operand B in the B-feed layout (R102, Table 5-1). -/
def feedB (t k : Nat) (ls : List Nat) (c i : Nat) : Nat :=
  let b := typeBits t
  nfld (nth ls (i / k)) ((i % k) * (16 * b) + c * b + b - 1) ((i % k) * (16 * b) + c * b)

/-- Scale byte at position p of the scale line that covers reduction index i (R103). -/
def feedScale (ls : List Nat) (i p : Nat) : Nat :=
  let o := ((i / 32) % 2) * 32 + p
  nfld (nth ls (i / 64)) (8 * o + 7) (8 * o)

/-- One step of a cell: k products and the running value, exact, rounded once (R98, R127). -/
def cellStep (v : Nat) (terms : List FVal) : Nat := enc32 (terms.foldl fadd (dec32 v))

/-- The exact terms of step st of cell (r, c): products, scaled for MX codes; scale 0xFF gives NaN (R99, R37). -/
def stepTerms (fmt st : Nat) (a b : Nat → Nat) (sa sb : Nat) : List FVal :=
  let ty := fmtTypes fmt
  let k := fmtK fmt
  (List.range k).map (fun j =>
    let x := a (st * k + j)
    let y := b (st * k + j)
    if fmtMx fmt then fmul (decMx ty.1 x sa) (decMx ty.2 y sb) else fmul (decElem ty.1 x) (decElem ty.2 y))

/-- One output element of the dense order: steps 0 to K / k - 1 from v0 (R127). -/
def denseElem (fmt K v0 : Nat) (a b : Nat → Nat) (sa sb : Nat → Nat) : Nat :=
  (List.range (K / fmtK fmt)).foldl
    (fun v st => cellStep v (stepTerms fmt st a b (sa (st * fmtK fmt)) (sb (st * fmtK fmt)))) v0

/-- The lines an MMA.D reads: of A, of B and, for MX codes, of the scales (R106). -/
def mmadReads (s : State) (n : Nat) (f : Flight) : OpLines :=
  let w := f.word
  let k := fmtK (fld w 40 37)
  let K := mmaK16 w * 16
  { a := runLines s n f (fld w 36 31) (fld f.reg 15 0) (K / k)
    b := runLines s n f (fld w 30 25) (fld f.reg 31 16) (K / k)
    m := if fmtMx (fld w 40 37) then runLines s n f (fld w 24 19) (fld f.reg 47 32) (cdiv K 64) else [] }

/-- The tile an MMA.D forms from its lines and starting values, written columns only; the others keep the list's values (R105, R107,
R127). -/
def mmadForm (w : W64) (o : OpLines) (t0 : List Nat) : List Nat :=
  let fmt := fld w 40 37
  let ty := fmtTypes fmt
  let k := fmtK fmt
  let K := mmaK16 w * 16
  mapIx (fun i v =>
    if i % 16 ≤ fld w 5 2 then
      denseElem fmt K v (feedA ty.1 k o.a (i / 16)) (feedB ty.2 k o.b (i % 16))
        (fun j => feedScale o.m j (i / 16)) (fun j => feedScale o.m j (16 + i % 16))
    else v) 0 t0

/-- The tile an MMA.D of the core forms. -/
def mmadTile (s : State) (n : Nat) (f : Flight) : List Nat := mmadForm f.word (mmadReads s n f) (startTile s.mem f.word n)

/-! ### Compressed tiles (R179-R181) -/

/-- A decoded slot: for each of 16 rows its present elements, column and value, ascending. -/
abbrev Slot := List (List (Nat × Nat))

/-- Bytes of a slot as a number, from its lines. -/
def slotNum (ls : List Nat) : Nat := unlanes 512 ls

/-- Byte o of a slot. -/
def slotByte (x o : Nat) : Nat := nfld x (8 * o + 7) (8 * o)
/-- 16-bit field at byte o of a slot. -/
def slotHalf (x o : Nat) : Nat := nfld x (8 * o + 15) (8 * o)

/-- COUNT of a header. -/
def slotCount (x : Nat) : Nat := nfld x 8 0
/-- DENSE of a header. -/
def slotDense (x : Nat) : Bool := Nat.testBit x 9
/-- ROW_PTRr of a header. -/
def rowPtr (x r : Nat) : Nat := slotHalf x (4 + 2 * r)

/-- Are consecutive entries of the list in the relation? -/
def steadily (p : Nat → Nat → Bool) : List Nat → Bool
  | a :: b :: r => p a b && steadily p (b :: r)
  | _ => true

/-- Index entries that lie within the lines read of a slot: those of the dense form of the operand's type, 9 lines for a mask; a
slot read never runs past them (R181). DEDUCED (log entry 12). -/
def slotEnts (ty : Option Nat) : Nat := match ty with
  | some t => (minPitch t - 1) * 32
  | none => 256

/-- The lowest-numbered check of Table 8-2 a slot fails, 0 for none; `ty` is the operand's type, none for a mask. Checks 3 and 4 look
at the entries that lie within the lines read. -/
def slotCheck (ty : Option Nat) (x : Nat) : Nat :=
  let n := slotCount x
  let t := nfld x 15 11
  let ptrs := (List.range 17).map (rowPtr x)
  let ents := (List.range (min n (slotEnts ty))).map (fun i => slotHalf x (64 + 2 * i))
  if 256 < n then 1
  else if nth ptrs 0 != 0 || !steadily (fun a b => decide (a ≤ b)) ptrs || nth ptrs 16 != n then 2
  else if !slotDense x && ents.any (fun e => 16 ≤ e) then 3
  else if !slotDense x && (List.range 16).any (fun r =>
      !steadily (fun a b => decide (a < b)) ((ents.drop (nth ptrs r)).take (nth ptrs (r + 1) - nth ptrs r))) then 4
  else if (match ty with | some u => t != u | none => !(t == 1 || t == 3 || t == 4)) then 5
  else if nfld x 31 16 != 0 || Nat.testBit x 10 || nfld x 511 304 != 0 then 6
  else if !slotDense x && (if t = 1 then 128 else 85) < n then 7
  else 0

/-- The present elements of a slot by row (R129, R180). -/
def slotRows (x : Nat) : Slot :=
  let n := slotCount x
  let eb := if nfld x 15 11 = 1 then 2 else 1
  (List.range 16).map (fun r =>
    if slotDense x then
      (List.range 16).map (fun c => (c, nfld x (8 * (64 + (16 * r + c) * eb) + 8 * eb - 1) (8 * (64 + (16 * r + c) * eb))))
    else
      (List.range (rowPtr x (r + 1) - rowPtr x r)).map (fun j =>
        let i := rowPtr x r + j
        (slotHalf x (64 + 2 * i) % 16, nfld x (8 * (64 + 2 * n + i * eb) + 8 * eb - 1) (8 * (64 + 2 * n + i * eb)))))

/-- Element at column c of a row, if present. -/
def rowAt (row : List (Nat × Nat)) (c : Nat) : Option Nat := (row.find? (fun e => e.1 == c)).map (·.2)

/-- Slot b of a CTILE operand in handle h from line `first` with the given pitch. -/
def readSlot (s : State) (n : Nat) (f : Flight) (h first pitch b lines : Nat) : Nat :=
  slotNum ((List.range lines).map (fun i =>
    flightLine s n f i (hLine (getH (core s n) h) (first + b * pitch + i))))

/-! ### The merge engine -/

/-- One chain: multiply-adds of one segment over the present pairs, one rounding each (R130). -/
def mergeChain (ta tb : Nat) (v : Nat) (seg : List (Nat × Nat)) (b : Nat → Option Nat) : Nat :=
  seg.foldl (fun v e => match b e.1 with
    | some y => enc32 (fadd (dec32 v) (fmul (decElem ta e.2) (decElem tb y)))
    | none => v) v

/-- Cut a list into runs of k. -/
def runsOf {α : Type} (k : Nat) : Nat → List α → List (List α)
  | 0, _ => []
  | fuel + 1, l => if l.isEmpty then [] else l.take k :: runsOf k fuel (l.drop k)

/-- One output element of the merge order (R130): segments of at most R present elements, partials added in order. -/
def mergeElem (ta tb R v0 : Nat) (row : List (Nat × Nat)) (b : Nat → Option Nat) : Nat :=
  match runsOf (max 1 R) row.length row with
  | [] => v0
  | s0 :: rest =>
    rest.foldl (fun v seg => add32 v (mergeChain ta tb 0 seg b)) (mergeChain ta tb v0 s0 b)

/-- What a matrix instruction of the merge unit reads of its operands for parts b0 … b0 + k - 1: rows of A and, per
column, the elements of B; or the operand and check number of a bad slot with its part (R181, R183). -/
structure MergeOps where
  rowsA : List (List (Nat × Nat))
  colsB : List (List (Nat × Nat))
  /-- Operand (0 A, 1 B), check number, part. -/
  bad : Option (Nat × Nat × Nat)

/-- The slots of a CTILE operand over the parts. -/
def readSlots (s : State) (n : Nat) (f : Flight) (h first pitch ty b0 k : Nat) : List Nat :=
  (List.range k).map (fun b => readSlot s n f h first pitch (b0 + b) (minPitch ty))

/-- First bad slot of a list, with its check and part. -/
def firstBad (op : Nat) (ty : Option Nat) (b0 : Nat) : List Nat → Option (Nat × Nat × Nat)
  | [] => none
  | x :: r => if slotCheck ty x = 0 then firstBad op ty (b0 + 1) r else some (op, slotCheck ty x, b0)

/-- Rows (or transposed columns) of a band of slots: reduction index 16 b + column. -/
def bandRows (xs : List Nat) : List (List (Nat × Nat)) :=
  let sl := xs.map slotRows
  (List.range 16).map (fun r =>
    (mapIx (fun b (x : Slot) => (x.getD r []).map (fun e => (16 * b + e.1, e.2))) 0 sl).foldr (· ++ ·) [])

/-- The mask slot of a SAMPLE product (R193): its number. -/
def maskSlot (s : State) (n : Nat) (f : Flight) : Nat :=
  readSlot s n f (fld f.word 24 19) (fld f.reg 47 32) 0 0 9

/-- The lines an MMA.S or MMA.A reads of its operands for parts b0 … b0 + k - 1: slots of a CTILE operand, feed lines of another, the
mask slot under SAMPLE (R183, R193). -/
def mergeReads (s : State) (n : Nat) (f : Flight) (b0 k : Nat) : OpLines :=
  let w := f.word
  let g := f.reg
  let fmt := fld w 40 37
  let ty := fmtTypes fmt
  let d := fmtK fmt
  let K := 16 * k
  let pitch := fld g 55 48
  { a := if bit g 56 then readSlots s n f (fld w 36 31) (fld g 15 0) pitch ty.1 b0 k
         else runLines s n f (fld w 36 31) (fld g 15 0 + b0 * 16 / d) (K / d)
    b := if bit g 57 then readSlots s n f (fld w 30 25) (fld g 31 16) pitch ty.2 b0 k
         else runLines s n f (fld w 30 25) (fld g 31 16 + b0 * 16 / d) (K / d)
    m := if bit g 58 then [maskSlot s n f] else [] }

/-- What the merge unit makes of the lines of k parts from b0 on; reduction indices count from part b0. -/
def mergeView (w g : W64) (b0 k : Nat) (o : OpLines) : MergeOps :=
  let fmt := fld w 40 37
  let ty := fmtTypes fmt
  let d := fmtK fmt
  let K := 16 * k
  { rowsA := if bit g 56 then bandRows o.a
             else (List.range 16).map (fun r => (List.range K).map (fun i => (i, feedA ty.1 d o.a r i))),
    colsB := if bit g 57 then bandRows o.b
             else (List.range 16).map (fun c => (List.range K).map (fun i => (i, feedB ty.2 d o.b c i))),
    bad := match (if bit g 56 then firstBad 0 (some ty.1) b0 o.a else none) with
           | some x => some x
           | none => match (if bit g 57 then firstBad 1 (some ty.2) b0 o.b else none) with
             | some x => some x
             | none => match o.m with
               | [] => none
               | x :: _ => if slotCheck none x = 0 then none else some (2, slotCheck none x, 0) }

/-- The operands of parts b0 … b0 + k - 1 of an MMA.S or MMA.A of the core. -/
def mergeOps (s : State) (n : Nat) (f : Flight) (b0 k : Nat) : MergeOps := mergeView f.word f.reg b0 k (mergeReads s n f b0 k)

/-- Does a part of an MMA.A take the merge path: a CTILE operand has COUNT below the threshold (R190)? -/
def partMerges (g : W64) (thresh : Nat) (o : OpLines) : Bool :=
  ((if bit g 56 then o.a else []) ++ (if bit g 57 then o.b else [])).any (fun x => decide (slotCount x < thresh))

/-- The tile of the merge path over the read operands (R130, R184, R193); `R` is the segment length. -/
def mergeTile (o : MergeOps) (fmt ncol R : Nat) (mask : Option Slot) (t0 : List Nat) : List Nat :=
  let ty := fmtTypes fmt
  mapIx (fun i v =>
    let r := i / 16
    let c := i % 16
    let wanted := match mask with
      | none => true
      | some m => (rowAt (m.getD r []) c).isSome
    if c ≤ ncol && wanted then mergeElem ty.1 ty.2 R v (o.rowsA.getD r []) (rowAt (o.colsB.getD c []))
    else v) 0 t0

/-- The tile of the dense path of one MMA.A part: K = 16, absent elements are +0 (R133, R191). -/
def expandTile (o : MergeOps) (fmt ncol : Nat) (t0 : List Nat) : List Nat :=
  mapIx (fun i v =>
    if i % 16 ≤ ncol then
      denseElem fmt 16 v (fun j => (rowAt (o.rowsA.getD (i / 16) []) j).getD 0)
        (fun j => (rowAt (o.colsB.getD (i % 16) []) j).getD 0) (fun _ => 0) (fun _ => 0)
    else v) 0 t0

/-- Segments after the first, summed over rows (SEG_EXTRA, Table 8-6). -/
def segExtra (o : MergeOps) (R : Nat) : Nat :=
  (o.rowsA.map (fun row => cdiv row.length (max 1 R) - 1)).foldl (· + ·) 0

/-- ROW_SPLIT in elements: units of 16, 0 meaning 4,096 (Table 8-6). See R132, R195. -/
def rowSplitOf (k : Cluster) : Nat := if k.rowSplit = 0 then 4096 else k.rowSplit.toNat * 16

/-- THRESH in effect: 257-511 act as 257 (Table 8-6). -/
def threshOf (k : Cluster) (i : Nat) : Nat := min 257 (sget (64 : BitVec 9) k.thresh i).toNat

/-- The tile of one part of an MMA.A on either path (R133, R189). -/
def partForm (w g : W64) (dense : Bool) (o : OpLines) (t0 : List Nat) : List Nat :=
  let v := mergeView w g 0 1 o
  if dense then expandTile v (fld w 40 37) (fld w 5 2) t0 else mergeTile v (fld w 40 37) (fld w 5 2) 4096 none t0

/-- The tile of an MMA.S (R130, R184, R193). -/
def mergeForm (w g : W64) (split : Nat) (o : OpLines) (t0 : List Nat) : List Nat :=
  mergeTile (mergeView w g 0 (mmaK16 w) o) (fld w 40 37) (fld w 5 2) split (o.m.head?.map slotRows) t0

/-- The tile the checker forms from its check buffer: it takes the same paths, each a function of the copied headers (R449). -/
def checkerTile (x : Sample) : List Nat :=
  let w := x.word
  if opc w = 0x42 then x.reads.foldl (fun t o => partForm w x.reg (!partMerges x.reg x.thresh o) o t) x.start
  else match x.reads with
    | [] => x.start
    | o :: _ => if opc w = 0x40 then mmadForm w o x.start else mergeForm w x.reg x.rowSplit o x.start

/-- Do two tiles agree in columns 0 to ncol? -/
def tilesAgree (ncol : Nat) (a b : List Nat) : Bool :=
  (List.range 256).all (fun i => decide (ncol < i % 16) || nth a i == nth b i)

/-- The check path copies what a sampled instruction read, the values it started from and the tile it formed (R449). -/
def noteSample (s : State) (n : Nat) (f : Flight) (o : OpLines) (first vs : List Nat) : State :=
  if f.sampled then
    modCluster s (n / 16) (fun k => { k with sample := k.sample.map (fun x =>
      { x with start := if x.reads.isEmpty then first else x.start, reads := x.reads ++ [o], tile := vs }) })
  else s

/-- MERGE_BUSY rises by the cycles the unit ran, a figure the spec gives only as typical (R187). DESIGN CHOICE (log entry 9). -/
def addBusy (s : State) (n : Nat) : State :=
  bumpFree (modCluster s (n / 16) (fun k => { k with mergeBusy := k.mergeBusy + BitVec.ofNat 64 (Config.freeCycles s.freeCtr) }))

/-- Stop a core with CTILE_BAD: the instruction completes without a tile write, and the parts an MMA.A had run leave its tile as it was
before the instruction (R181). DEDUCED (log entry 12). -/
def ctileBad (s : State) (n : Nat) (f : Flight) (b : Nat × Nat × Nat) : State :=
  let s1 := if 0 < f.part then { s with mem := writeTile s.mem n (fld f.word 47 42) (fld f.word 5 2) f.vals } else s
  addBusy (complete (stopCore s1 n 0x0240 (b.1 + b.2.1 * 16 + (b.2.2 % 256) * 256) 0) n f) n

/-- Write a computed tile of an instruction and bump the free counter when a racing read was resolved. DEDUCED (log entry 12). -/
def putTile (s : State) (n : Nat) (f : Flight) (vs : List Nat) : State :=
  let s1 := if f.olds.isEmpty then s else bumpFree s
  { s1 with mem := writeTile s1.mem n (fld f.word 47 42) (fld f.word 5 2) vs }

/-- The oldest MMA.D of the array queue. -/
def headArray (s : State) (n : Nat) : Option Flight := (unitFlights (core s n) .array).head?
/-- The instruction the merge unit runs. -/
def headMerge (s : State) (n : Nat) : Option Flight := (unitFlights (core s n) .merge).head?

/-- May the instruction's tile be written now: it has started and does not wait for the checker (R448)? DESIGN CHOICE (log entry 1). -/
def mayFinish (f : Flight) : Bool := f.started && !f.sampleWait

/-- Starting values of a part of an MMA.A: part 0 from v0, a later part from the tile the part before it wrote (R189, R191). DEDUCED (log entry 12). -/
def partStart (s : State) (n : Nat) (f : Flight) : List Nat :=
  if f.part = 0 then startTile s.mem f.word n else readTile s.mem n (fld f.word 47 42)

/-- The instruction goes on to its next part: what stood in the tile before the first part is kept for R181. -/
def nextPart (s : State) (n : Nat) (f : Flight) : State :=
  let old := if f.part = 0 then readTile s.mem n (fld f.word 47 42) else f.vals
  startNext (setCore s n (putFlight (core s n) { f with part := f.part + 1, path := none, vals := old })) n .array

/-- A part of an MMA.A ends: it writes the tile, and the next part begins from it, or the instruction completes (R189, R191). A re-run
that passes is counted (R445). DEDUCED (log entry 12). -/
def endPart (s : State) (n : Nat) (f : Flight) (chk : Chk) (o : OpLines) : State :=
  let t0 := partStart s n f
  let vs := partForm f.word f.reg (f.path == some true) o t0
  let good := fun (t : State) => putTile (noteSample t n f o t0 vs) n f vs
  if f.part + 1 < mmaK16 f.word then
    match chk, bit s.glob.integCfg 0 with
    | .fail, true => withCheck s n f .fail id
    | .rerun, true => good (nextPart (cureArith s n f) n f)
    | _, _ => good (nextPart s n f)
  else withCheck s n f chk good

/-- MMA_D_TILE_WRITE (R110): the array writes the finished tile, completing the MMA.D, or the tile of a dense part of an MMA.A, which the
array takes while it runs no instruction of its own (R191); the expander checks each header it reads (R181). -/
def mmaDTileWrite (s : State) (n : Nat) (isPart : Bool) (chk : Chk) : State :=
  if isPart then
    match headMerge s n with
    | some f =>
      if mayFinish f && f.path == some true && !arrayBusy (core s n) then
        match (mergeOps s n f f.part 1).bad with
        | some b => ctileBad s n f b
        | none => addBusy (endPart s n f chk (mergeReads s n f f.part 1)) n
      else s
    | none => s
  else
    match headArray s n with
    | some f =>
      if mayFinish f then
        withCheck s n f chk (fun s => putTile (noteSample s n f (mmadReads s n f) (startTile s.mem f.word n) (mmadTile s n f)) n f (mmadTile s n f))
      else s
    | none => s

/-- MMA_A_PART (R190-R192): the core reads the part's headers; a failing header stops the core; else the part takes the
merge path when a CTILE operand's COUNT is below THRESH, the dense path otherwise, and is counted. -/
def mmaAPart (s : State) (n : Nat) : State :=
  match headMerge s n with
  | none => s
  | some f =>
    if mayFinish f && opc f.word == 0x42 && f.path.isNone then
      match (mergeOps s n f f.part 1).bad with
      | some b => ctileBad s n f b
      | none =>
        let merge := partMerges f.reg f.thresh (mergeReads s n f f.part 1)
        let s1 := setCore s n (putFlight (core s n) { f with path := some (!merge) })
        modCluster s1 (n / 16) (fun k =>
          if merge then { k with pickMerge := k.pickMerge + 1 } else { k with pickDense := k.pickDense + 1 })
    else s

/-- MERGE_TILE_WRITE (R187): the merge engine writes its tile, completing an MMA.S or a merge part of an MMA.A. -/
def mergeTileWrite (s : State) (n : Nat) (chk : Chk) : State :=
  match headMerge s n with
  | none => s
  | some f =>
    if !mayFinish f then s
    else if opc f.word = 0x42 then
      if f.path == some false then
        match (mergeOps s n f f.part 1).bad with
        | some b => ctileBad s n f b
        | none => addBusy (endPart s n f chk (mergeReads s n f f.part 1)) n
      else s
    else
      let o := mergeOps s n f 0 (mmaK16 f.word)
      match o.bad with
      | some b => ctileBad s n f b
      | none =>
        let r := mergeReads s n f 0 (mmaK16 f.word)
        let t0 := startTile s.mem f.word n
        let vs := mergeForm f.word f.reg f.rowSplit r t0
        let s1 := modCluster s (n / 16) (fun k => { k with segExtra := k.segExtra + BitVec.ofNat 64 (segExtra o f.rowSplit) })
        addBusy (withCheck s1 n f chk (fun t => putTile (noteSample t n f r t0 vs) n f vs)) n

/-- MMA_D_TILE_WRITE (R110). -/
def execMmaDTileWrite (core : Nat) (part : Bool) (chk : Chk) (s : State) : Host.Outcome State Fault Refusal :=
  .next (mmaDTileWrite s core part chk)

/-- MMA_A_PART (R190). -/
def execMmaAPart (core : Nat) (s : State) : Host.Outcome State Fault Refusal := .next (mmaAPart s core)

/-- MERGE_TILE_WRITE (R187). -/
def execMergeTileWrite (core : Nat) (chk : Chk) (s : State) : Host.Outcome State Fault Refusal :=
  .next (mergeTileWrite s core chk)

end Sys2Proof.Machine
end

