-- ==== Sys2Proof/Machine/Reset.lean ====
section
/-! DEFINITION. The partition reset of Table 19-3 (R453-R455): its trigger with steps 1 to 4, done at once, and what
steps 5 to 7 leave (Table 25-7). -/

namespace Sys2Proof.Machine

/-- RESET_CAUSE of a trigger (Table 19-7). -/
def causeWord (code cls : Nat) : W32 := BitVec.ofNat 32 (code * 2 ^ 16 + cls * 2 ^ 8)

/-- Cores of partition p. -/
def coresOf (s : State) (p : Nat) : List Nat :=
  (List.range (partCores s p).2).map (fun i => (partCores s p).1 + i)

/-- A core whose work is abandoned: no program runs on it, nothing issued remains (steps 2 and 4). DESIGN CHOICE (log entry 65). -/
def abandonCore (c : Core) : Core :=
  { c with flights := [], hold := none, run := none, stopping := none, ended := false, loading := false, wakeReq := false,
           starting := false, startAt := none, job := none, checker := false, state := .idle }

/-- A core after step 6: asleep at predictor level `lvl`, its registers at reset values, WAIT_LIMIT and SRAM_CE kept
(R454, Table 25-7). -/
def resetCoreRegs (c : Core) (lvl tick : Nat) : Core :=
  { Core.reset with waitLimit := c.waitLimit, sramCe := c.sramCe, predLevel := BitVec.ofNat 3 lvl, idleSince := tick,
                    sleepSince := tick, nextId := c.nextId }

/-- A cluster page after step 5 (Table 25-7). -/
def resetClusterRegs (k : Cluster) : Cluster :=
  { k with thresh := [], rowSplit := 16, pickDense := 0, pickMerge := 0, segExtra := 0, mergeBusy := 0, starts := 0,
           stampLate := 0, aged := 0 }

/-- Steps 2 to 4 for the cores, their clusters and the network: flits in flight to the partition are discarded (R315). -/
def abandonCores (s : State) (p : Nat) : State :=
  { s with
    cores := smapIf s.cores (inPart s p) abandonCore
    clusters := smapIf s.clusters (fun g => inPart s p (16 * g)) (fun k =>
      { k with checker := none, sample := none, dupQueue := [], rotateDue := false })
    net := s.net.filter (fun m => !inPart s p m.dst)
    reports := s.reports.filter (fun r => !inPart s p r.queue)
    accord := { s.accord with wakeQ := s.accord.wakeQ.filter (fun w => !inPart s p w.core) } }

/-- Step 5 for the cores: accumulators clear, scratchpad contents undefined, registers at reset values. See R121, R569. -/
def clearCores (s : State) (p : Nat) : State :=
  let lo := (partCores s p).1
  let k := (partCores s p).2
  let hole := fun (o sub epoch : Nat) =>
    ({ lo := coreAddr lo o, len := k * 0x40000 - o, epoch := epoch, per := 0x40000, sub := sub } : Hole)
  let s1 := { s with
    mem := clearHole (coverHole s.mem (hole 0 0x30000 (s.freeCtr + 1))) (hole 0x30000 0x10000 0)
    cores := (coresOf s p).foldl (fun m n => if coreOn s n then
        sput m n (resetCoreRegs (core s n) (levelMax s n) (now s)) else m) s.cores
    clusters := smapIf s.clusters (fun g => inPart s p (16 * g)) resetClusterRegs }
  bumpFree s1

/-- Clear the partition's entries of the sequence table, as at every entry to INIT (R174). -/
def clearSeq (s : State) (p : Nat) : State :=
  { s with seq := sdrop s.seq (fun e =>
      let sh := seqShare s p (e / 128)
      decide (sh.1 ≤ e % 128) && decide (e % 128 < sh.1 + sh.2)) }

/-- A reset of the dispatching partition cancels its open contexts (R339). -/
def cancelContexts (s : State) (p : Nat) : State :=
  { s with atoms := s.atoms.map (fun e =>
      let a := e.2
      let mine := a.ctxs.filter (fun c => c.2.part == p)
      (e.1, { a with
        ctxs := a.ctxs.filter (fun c => c.2.part != p)
        cancelled := mine.foldl (fun m c => sput m c.1 c.2.gen) a.cancelled
        cancels := a.cancels + BitVec.ofNat 64 mine.length
        disps := a.disps.filter (fun d => partOfCore s d.queue != p) })) }

/-- The contents of some ranges become undefined. -/
def loseRanges (s : State) (rs : List (Nat × Nat)) : State :=
  if rs.isEmpty then s
  else bumpFree { s with mem := rs.foldl (fun m r => loseRange m r.1 r.2 s.freeCtr) s.mem }

/-- The bytes that transfers in progress have written for a partition are undefined once its landing contexts close (R371). -/
def loseOpen (s : State) (p : Nat) : State :=
  loseRanges s ((s.iods.map (fun e => (e.2.lands.filter (fun c => c.part == p)).map (fun c => (c.xfers.map (fun x => x.wrote)).foldl (· ++ ·) []))).foldl
    (fun a l => a ++ l.foldl (· ++ ·) []) [])

/-- The fence at the ports (step 2): nothing that a port of the partition has queued leaves the module. -/
def fencePorts (s : State) (p : Nat) : State :=
  { s with ports := smapIf s.ports (fun i => decide (i < 32) && portOwner s i == some p) (fun q =>
      { q with tx := [], txPart := [], replay := [], resend := [] }) }

/-- Steps 3 and 4 for the engines: commands and reduce slots (R243), records (R273), dispatch contexts (R339), transfers and
streams (R373) of the partition are abandoned. DESIGN CHOICE (log entry 65). -/
def abandonEngines (s : State) (p : Nat) : State :=
  let s1 := fencePorts (loseOpen (cancelContexts s p) p) p
  let id := (part s p).moduleId.toNat
  { s1 with
    ses := smapIf s1.ses (fun i => (partSites s p).contains i) (fun e =>
      seStamp (now s) e { e with cmds := [], slots := [], silUsed := [] })
    queues := smapIf s1.queues (inPart s p) (fun q => { q with recs := [], group := [], heldGen := none, waited := 0, aged := false })
    iods := s1.iods.map (fun e => (e.1, { e.2 with
      xfers := e.2.xfers.filter (fun x => x.2.part != p)
      streams := e.2.streams.filter (fun t => t.part != p)
      lands := e.2.lands.filter (fun c => c.part != p)
      moves := e.2.moves.filter (fun m => partOfCore s m.queue != p)
      rmtWait := e.2.rmtWait.filter (fun r => partOfCore s r.core != p)
      waiting := e.2.waiting.filter (fun m => partOfCore s m.queue != p)
      inbox := e.2.inbox.filter (fun m => m.port.isSome || m.msg.src % 4096 != id) })) }

/-- Step 5 for the engines (Table 25-7). See R569. -/
def clearEngines (s : State) (p : Nat) : State :=
  { s with
    ses := smapIf s.ses (fun i => (partSites s p).contains i) (fun e =>
      { Se.reset with scrubPos := e.scrubPos, scrubPasses := e.scrubPasses, scrubFixed := e.scrubFixed, idleAt := e.idleAt })
    queues := sdrop s.queues (inPart s p)
    mcs := smapIf s.mcs (fun i => (partSites s p).contains i) (fun m =>
      { m with imbOn := false, hotPc := 0, run := 0, lastRatio := 0, stackReq := 0, pcCount := [], running := [], imbRaised := false,
               winStart := now s, waiting := [] })
    groups := smapIf s.groups (fun g => decide (g < 1024) && partOfGroup s g == p) (fun g => { g with st := 0, lateSet := 0, lateTag := 0 }) }

/-- Steps 1 to 4 of Table 19-3. DEDUCED (log entry 10). -/
def abandonPart (s : State) (p : Nat) : State := settleFull (abandonEngines (abandonCores s p) p)

/-- Step 5 of Table 19-3: what a reset and an INIT clear. See R569. DEDUCED (log entry 10). -/
def clearPart (s : State) (p : Nat) : State := settleFull (clearEngines (clearSeq (clearCores s p) p) p)

/-- A trigger for partition p (R454, R455): ignored when the partition is OFF, no further effect while it is RESETTING;
otherwise STATE becomes RESETTING, RESET_CAUSE is written, RESETS rises and the partition's work is abandoned; a module
operation's work on its parts ends in error (R438). DEDUCED (log entry 10). -/
def triggerReset (s : State) (p code cls : Nat) : State :=
  match (part s p).state with
  | .off => s
  | .resetting => s
  | _ =>
    let s1 := modPart s p (fun x => { x with state := .resetting, resetCause := causeWord code cls, resets := x.resets + 1,
                                             pendOp := 0, pendReason := 0, resetHeld := false })
    abandonPart { s1 with glob := { s1.glob with moduleOpParts := setBit s1.glob.moduleOpParts p false } } p

/-- Trigger several partitions. -/
def triggerAll (s : State) (ps : List Nat) (code cls : Nat) : State := ps.foldl (fun s p => triggerReset s p code cls) s

/-- Partitions a trigger reaches: those that exist and are not OFF. -/
def hit (s : State) (ps : List Nat) : List Nat :=
  ps.filter (fun p => partExists s p && decide ((part s p).state ≠ .off))

/-- A class 9 fault of one partition: blotter, then the reset (R453, R455). A trigger for a partition that is OFF is
ignored. DEDUCED (log entry 10). -/
def resetByFault (s : State) (p : Nat) (b : Blotter) : State :=
  if (part s p).state = .off then s
  else triggerReset (issueBlotter s { b with cls := 9, action := 3, partition := p, parts := 2 ^ p }) p b.code 9

/-- A class 9 fault of a unit that serves several partitions: one blotter, each partition reset (R453); ACTION and PARTITION say
whether one partition is reset or several (Table 19-5). -/
def resetsByFault (s : State) (ps : List Nat) (b : Blotter) : State :=
  match hit s ps with
  | [] => s
  | [p] => resetByFault s p b
  | h => triggerAll (issueBlotter s { b with cls := 9, action := 4, partition := 0xFF,
                                             parts := h.foldl (fun a p => a + 2 ^ p) 0 }) h b.code 9

/-- Partitions of a compute die. -/
def dieParts (s : State) (d : Nat) : List Nat := (List.range (nParts s)).filter (fun p => (partDies s p).contains d)

end Sys2Proof.Machine
end

