-- ==== Sys2Proof/Machine/Hbm.lean ====
section
/-! DEFINITION. Memory stacks (R197-R213): placement, requests and what they meet, error correction, bank and stack power states, the
channel-imbalance monitor, throttling. -/

namespace Sys2Proof.Machine

/-! ### Placement (R199) -/

/-- A place in the stacks. -/
structure HbmPlace where
  site : Nat
  pc : Nat
  bank : Nat
  row : Nat
  col : Nat
  deriving DecidableEq, Repr

/-- KM of a key. -/
def keyMul (k : W64) : Nat := fld k 63 32 ||| 1

/-- rot(q, m) of R199. -/
def rot (k : W64) (q m : Nat) : Nat := (((q * keyMul k + fld k 31 6) % 2 ^ 32) / 256) % m

/-- Place of byte a of a partition's range over the given sites, with key and LOCAL_GIB (R199). -/
def placeIn (ss : List Nat) (k : W64) (L a : Nat) : HbmPlace :=
  let n := ss.length
  let fin := fun (j c q : Nat) =>
    let row := nfld q 21 8
    ({ site := nth ss j, pc := c, bank := (nfld q 7 2 + ((row * keyMul k) / 64) % 64 + fld k 5 0) % 64, row := row,
       col := q % 4 } : HbmPlace)
  if a < n * (64 - L) * 2 ^ 30 then
    let g := a / 256
    let q := g / (64 * n)
    let p := (g % (64 * n) + rot k q (64 * n)) % (64 * n)
    fin (p % n) (p / n) q
  else
    let a2 := a - n * (64 - L) * 2 ^ 30
    let j := a2 / (L * 2 ^ 30)
    let g2 := (a2 % (L * 2 ^ 30)) / 256
    let q2 := g2 / 64
    fin j ((g2 % 64 + rot k q2 64) % 64) ((64 - L) * 2 ^ 16 + q2)

/-- Place of a module address of populated HBM, by the placement its partition applies (R198, R199). -/
def hbmPlace (s : State) (a : Nat) : Option HbmPlace :=
  match addrPlace a, partOfHbm s a with
  | .hbm, some p =>
    some (placeIn (partSites s p) (part s p).placedKey (part s p).placedGib.toNat (a - hbmBase s p * gib64))
  | _, _ => none

/-- Is a site's domain on: its partition is not OFF? -/
def siteOn (s : State) (i : Nat) : Bool :=
  match partOfSite s i with
  | some p => decide ((part s p).state ≠ .off) && !siteDead s i
  | none => false

/-! ### Banks (R210) -/

/-- Bank number of a pseudo-channel and bank. -/
def bankKey (c b : Nat) : Nat := 64 * c + b

/-- Bank b of pseudo-channel c. -/
def getBank (m : Mc) (c b : Nat) : Bank :=
  sget (if m.restDown then { Bank.reset with st := .down } else Bank.reset) m.banks (bankKey c b)

/-- Put a bank. -/
def putBank (m : Mc) (c b : Nat) (x : Bank) : Mc := { m with banks := sput m.banks (bankKey c b) x }

/-- Is every bank of the stack DOWN? -/
def allDown (m : Mc) : Bool :=
  m.banks.all (fun e => decide (e.2.st = .down)) && (m.restDown || decide (4096 ≤ m.banks.length))

/-- When every bank is DOWN the map is emptied, and the time since is kept (R211). -/
def settleDown (m : Mc) (t : Nat) : Mc :=
  if allDown m then { m with banks := [], restDown := true, idleSince := some (m.idleSince.getD t) } else m

/-- State a request leaves its bank in: a write accepted during POWERING_DOWN returns it to CLOSED (R210); otherwise the controller
leaves it open or closed. -/
def bankAfter (st : BankState) (write keepOpen : Bool) : BankState :=
  if write && decide (st = .poweringDown) then .closed else if keepOpen then .opened else .closed

/-- A request a pseudo-channel accepts (R207, R210): it is counted; a DOWN bank wakes and the wake is counted; a write takes part in
the outstanding writes, of which `drains` reach the array. -/
def request (s : State) (p : HbmPlace) (write keepOpen : Bool) (drains : Nat) : State :=
  modMc s p.site (fun m =>
    let b := getBank m p.pc p.bank
    let w := b.writes + b2n write
    let m1 := putBank m p.pc p.bank { st := bankAfter b.st write keepOpen, writes := w - min drains w, last := now s }
    { m1 with wakeCount := if b.st = .down then m.wakeCount + 1 else m.wakeCount, idleSince := none,
              running := sput m.running p.pc (sget 0 m.running p.pc + 1) })

/-- Does the stack serve requests: neither in self-refresh nor exiting? -/
def mcServes (s : State) (i : Nat) : Bool := (mc s i).st == 0

/-- A request or an engine command meets a stack in self-refresh: the exit starts (R211). -/
def startExit (s : State) (i : Nat) : State :=
  modMc s i (fun m => if m.st = 1 then { m with st := 2, idleSince := none } else m)

/-! ### Error correction (R201-R203) -/

/-- A blotter at a place of a stack. -/
def memBlotter (s : State) (cls code : Nat) (p : HbmPlace) (a : Nat) : Blotter :=
  { blank cls code 6 0 p.site with
    partition := (partOfSite s p.site).getD 0xFF, address := a, site := p.site, pc := p.pc, bank := p.bank, row := p.row,
    col := p.col, infoLo := (hdr s (pgMc p.site)).infoLo.toNat, infoHi := (hdr s (pgMc p.site)).infoHi.toNat }

/-- k corrected codewords at a place: ECC_CE rises, its event for each, corrected blotters (R201, R212). -/
def eccCount (s : State) (p : HbmPlace) (a k : Nat) : State :=
  let s1 := modMc s p.site (fun m => { m with ecce := m.ecce + BitVec.ofNat 64 k })
  (List.range k).foldl (fun s _ => correctedBlotter (raiseEvt s (pgMc p.site) 2) (pgMc p.site) (memBlotter s 1 0 p a)) s1

/-- A corrected codeword. -/
def eccCorrected (s : State) (p : HbmPlace) (a : Nat) : State := eccCount s p a 1

/-- An uncorrectable codeword: ECC_UE rises, HBM_UE is recorded with the address, the owning partition is reset (R203). -/
def eccUncorrectable (s : State) (p : HbmPlace) (a : Nat) : State :=
  let s1 := modMc s p.site (fun m => { m with eccue := m.eccue + 1 })
  let s2 := raiseEvt (recordErr s1 (pgMc p.site) 0x0601 (a % 2 ^ 32) (a / 2 ^ 32)) (pgMc p.site) 3
  match partOfSite s2 p.site with
  | some q => resetByFault s2 q (memBlotter s2 9 0x0601 p a)
  | none => s2

/-- What a codeword read meets. DESIGN CHOICE (log entry 34). -/
def eccResult (s : State) (p : HbmPlace) (a : Nat) (e : Ecc) : State :=
  match e with
  | .clean => s
  | .corrected => eccCorrected s p a
  | .uncorrectable => eccUncorrectable s p a

/-- What the read of the codeword at a module address meets. -/
def eccAt (s : State) (a : Nat) (e : Ecc) : State :=
  match hbmPlace s a with
  | some p => eccResult s p a e
  | none => s

/-! ### Requests of the units of the die (R205, R207, R210) -/

/-- The requests of a unit that reads or writes bytes at these addresses: one for each line of HBM, the write reaching the array at
once. A stack in self-refresh starts its exit; the delay is time only (R211). DESIGN CHOICE (log entry 34). -/
def hbmTouch (s : State) (as : List Nat) (write : Bool) : State :=
  (linesOf as).foldl (fun s l => match hbmPlace s (64 * l) with
    | some p => if siteOn s p.site then request (startExit s p.site) p write false 1 else s
    | none => s) s

/-- The errors met by a unit that reads bytes at these addresses: each named codeword that it reads, with its outcome. -/
def hbmMeets (s : State) (as : List Nat) (es : List (Nat × Ecc)) : State :=
  let ls := linesOf as
  es.foldl (fun s e => if ls.contains (e.1 / 64) then eccAt s e.1 e.2 else s) s

/-- Is one of the codewords read uncorrectable: the data is poisoned, and no result of it is used (R203)? -/
def hbmPoison (as : List Nat) (es : List (Nat × Ecc)) : Bool :=
  es.any (fun e => decide (e.2 = .uncorrectable) && (linesOf as).contains (e.1 / 64))

/-- The flits of core n's accesses to HBM bytes at these addresses: for each line a request or write to the stack and the data or the
acknowledgement back (R300, R312, R313). DESIGN CHOICE (log entry 67). -/
def countHbm (s : State) (n : Nat) (as : List Nat) : State :=
  (linesOf as).foldl (fun s l => match hbmPlace s (64 * l) with
    | some p => countPath (countPath s (coreHbmPath n p.site) 1) (hbmCorePath p.site n) 1
    | none => s) s

/-- Core n reads or writes HBM bytes at these addresses: the flits, and the requests at the controllers. -/
def coreHbm (s : State) (n : Nat) (as : List Nat) (write : Bool) : State := hbmTouch (countHbm s n as) as write

/-! ### Reduce-stores (R170) -/

/-- Combine a contribution with an element of type t (R170): the exact sum rounded once to the type, or the maximum. DEDUCED (log entry 35). -/
def reduceVal (t : Nat) (mx : Bool) (cur x : Nat) : Nat :=
  let a := dec32 x
  let b := decElem t cur
  narrow t (if mx then fmax a b else fadd a b)

/-- Apply one reduce contribution to memory at an address (R170). See R171. -/
def reduceAt (m : Mem) (t : Nat) (mx : Bool) (a x : Nat) : Mem :=
  let k := typeBits t / 8
  writeLe m a k (reduceVal t mx (readLe m a k) x)

/-! ### The controller's commands -/

/-- Bytes a request spans. -/
def HbmReq.len (r : HbmReq) : Nat :=
  match r.op with
  | .read n => n
  | .write bs => bs.length
  | .reduce t _ _ => typeBits t / 8

/-- Codewords a request touches: the address of each. -/
def HbmReq.words (r : HbmReq) : List Nat :=
  if r.len = 0 then [] else (List.range ((r.addr + r.len - 1) / 64 - r.addr / 64 + 1)).map (fun i => 64 * (r.addr / 64 + i))

/-- The codeword reads of a request, each with what it meets; those it names no outcome for are clean (R202, R203). -/
def reqEcc (s : State) (r : HbmReq) : State := (r.words.zip r.ecc).foldl (fun s e => eccAt s e.1 e.2) s

/-- Serve a request at the place of its granule: a read answers its data, marked poisoned where a codeword is uncorrectable (R203); a
write or reduce-store lands, after the reads of a read-merge-write (R202). -/
def serveReq (s : State) (p : HbmPlace) (r : HbmReq) : State :=
  match r.op with
  | .read n =>
    let s1 := request s p false r.keepOpen 0
    let ans : HbmReply :=
      { addr := r.addr, data := readBytes s.mem r.addr n, poisoned := (r.ecc.take r.words.length).contains .uncorrectable }
    reqEcc (modMc s1 p.site (fun m => { m with reply := some ans })) r
  | .write bs =>
    let s1 := request s p true r.keepOpen r.drains
    let s2 := { s1 with mem := writeBytes s1.mem r.addr bs }
    if r.rmw then reqEcc s2 r else s2
  | .reduce t mx x =>
    let s1 := request s p true r.keepOpen r.drains
    reqEcc { s1 with mem := reduceAt s1.mem t mx r.addr x } r

/-- A request of one granule: served, or held while its stack leaves self-refresh (R211). -/
def hbmRequest (s : State) (r : HbmReq) : State :=
  match hbmPlace s r.addr with
  | none => s
  | some p =>
    if !siteOn s p.site then s
    else if mcServes s p.site then serveReq s p r
    else modMc (startExit s p.site) p.site (fun m => { m with waiting := m.waiting ++ [r] })

/-- Does a write of k bytes at an address leave part of a codeword (R202)? -/
def partialWrite (a k : Nat) : Bool := a % 64 != 0 || k % 64 != 0

/-- The ranges of k bytes at an address by granule: address and length of each (R197). -/
def granules (a k : Nat) : List (Nat × Nat) :=
  if k = 0 then []
  else (List.range ((a + k - 1) / 256 - a / 256 + 1)).map (fun i =>
    let lo := max a (256 * (a / 256 + i))
    (lo, min (a + k) (256 * (a / 256 + i + 1)) - lo))

/-- Requests for k bytes at an address, one per granule, each with the outcomes of its own codewords. -/
def hbmAccess (s : State) (a k : Nat) (mk : Nat → Nat → HbmOp) (ecc : List Ecc) (rmw keepOpen : Bool) (drains : Nat) : State :=
  if decide (regionEnd s a < a + k) then s
  else (granules a k).foldl (fun s g => hbmRequest s
    { addr := g.1, op := mk (g.1 - a) g.2, ecc := ecc.drop (g.1 / 64 - a / 64), rmw := rmw, keepOpen := keepOpen, drains := drains }) s

/-- A read at the controllers of a range (R203). -/
def hbmRead (s : State) (a k : Nat) (ecc : List Ecc) (keepOpen : Bool) : State :=
  hbmAccess s a k (fun _ n => .read n) ecc true keepOpen 0

/-- A write at the controllers of a range (R11, R202). -/
def hbmWrite (s : State) (a : Nat) (bs : List Byte) (ecc : List Ecc) (keepOpen : Bool) (drains : Nat) : State :=
  hbmAccess s a bs.length (fun o n => .write ((bs.drop o).take n)) ecc (partialWrite a bs.length) keepOpen drains

/-- A reduce-store at a controller, indivisible (R170, R202). -/
def hbmReduce (s : State) (a : Nat) (bf16 mx : Bool) (x : W32) (ecc : List Ecc) : State :=
  let t := b2n bf16
  if decide (regionEnd s a < a + typeBits t / 8) then s
  else hbmRequest s { addr := a, op := .reduce t mx x.toNat, ecc := ecc, rmw := true, keepOpen := false, drains := 1 }

/-- The exit from self-refresh completes: the stack is active and serves the requests that waited, in their order (R211). -/
def exitDone (s : State) (i : Nat) : State :=
  if (mc s i).st = 2 then
    (mc s i).waiting.foldl hbmRequest (modMc s i (fun m => { m with st := 0, waiting := [] }))
  else s

/-- A per-bank refresh (R204): the bank is closed for it; DOWN banks are refreshed and stay DOWN. The corrections that the stack's own
error check has counted are read into ECC_CE (Table 9-2). DESIGN CHOICE (log entry 34). -/
def hbmRefresh (s : State) (i c b drains onDie : Nat) : State :=
  if siteOn s i && (mc s i).st == 0 && decide (c < 64) && decide (b < 64) then
    let s1 := modMc s i (fun m =>
      let x := getBank m c b
      let m1 := { m with refreshes := m.refreshes + 1 }
      if x.st = .down ∨ x.st = .poweringDown then m1
      else putBank m1 c b { x with st := .closed, writes := x.writes - min drains x.writes })
    eccCount s1 { site := i, pc := c, bank := b, row := 0, col := 0 } 0 onDie
  else s

/-- Throttle step of a channel from its old step and its temperature (R209, Table 9-6). -/
def throttleStep (old t : Nat) : Nat :=
  if 100 ≤ t then 2
  else if old = 2 ∧ 97 ≤ t then 2
  else if 95 ≤ t then 1
  else if old ≠ 0 ∧ 92 ≤ t then 1
  else 0

/-- HBM_OVERTEMP: self-refresh, error, partition reset (R209). -/
def overTemp (s : State) (i : Nat) : State :=
  let s1 := recordErr (modMc s i (fun m => { m with st := 1 })) (pgMc i) 0x0602 0 0
  match partOfSite s1 i with
  | some q => resetByFault s1 q { blank 9 0x0602 6 3 i with
      site := i, infoLo := (hdr s1 (pgMc i)).infoLo.toNat, infoHi := (hdr s1 (pgMc i)).infoHi.toNat }
  | none => s1

/-- A position of the greatest element of a list, which one being left open where several are equal. -/
def anyMax (s : State) (l : List Nat) : Nat :=
  let m := l.foldl max 0
  let ps := (List.range l.length).filter (fun i => nth l i == m)
  ps.getD (Config.pick s.freeCtr 0 % max 1 ps.length) 0

/-- The channel temperatures of a stack are read (R209): THROTTLE is raised for each channel that leaves step 0. -/
def tempSample (s : State) (i : Nat) (ts : List Nat) : State :=
  if !siteOn s i || ts.length != 32 then s
  else
    let m := mc s i
    let steps := mapIx (fun h t => throttleStep (fld m.throttle (2 * h + 1) (2 * h)) t) 0 ts
    let left := (List.range 32).filter (fun h => fld m.throttle (2 * h + 1) (2 * h) == 0 && nth steps h != 0)
    let hot := anyMax s ts
    let s1 := bumpFree (setMc s i { m with throttle := BitVec.ofNat 64 (unlanes 2 steps), tempHot := BitVec.ofNat 5 hot,
                                            tempMax := BitVec.ofNat 8 (min 255 (nth ts hot)) })
    let s2 := left.foldl (fun s _ => raiseEvt s (pgMc i) 1) s1
    if 105 ≤ nth ts hot then overTemp s2 i else s2

/-- WINDOW in effect (Table 9-8). -/
def imbWindow (m : Mc) : Nat := max 10 (min 40 (fld m.imbCfg 15 8))

/-- Do the monitor's windows run: the partition has entered ACTIVE and is not being reset (R208)? -/
def imbRuns (s : State) (i : Nat) : Bool :=
  siteOn s i && (match partOfSite s i with
    | some p => decide ((part s p).state = .active) || decide ((part s p).state = .quiesced)
    | none => false)

/-- The monitor starts empty, its first window now (R208). -/
def imbStart (s : State) (i : Nat) : State :=
  modMc s i (fun m => { m with imbOn := false, hotPc := 0, run := 0, lastRatio := 0, stackReq := 0, pcCount := [], running := [],
                               imbRaised := false, winStart := now s })

/-- An imbalance window of a stack ends (R207); the event comes once per run. DEDUCED (log entry 61). -/
def imbWindowEnd (s : State) (i : Nat) : State :=
  let m := mc s i
  if !imbRuns s i || decide (now s < m.winStart + 2 ^ imbWindow m) then s
  else
    let cs := (List.range 64).map (fun c => sget 0 m.running c)
    let tot := cs.foldl (· + ·) 0
    let mx := cs.foldl max 0
    let on := decide (fld m.imbCfg 7 0 * 256 ≤ tot) && decide (fld m.imbCfg 31 24 * tot ≤ 64 * mx * 4)
    let run := if on then satInc m.run 1 else 0
    let ratio := if tot = 0 then Config.pick s.freeCtr 1 % 256 else min 255 (256 * mx / tot)
    let raise := on && !m.imbRaised && decide (max 1 (fld m.imbCfg 23 16) ≤ run.toNat)
    let s1 := bumpFree (setMc s i { m with
      pcCount := mapIx (fun c k => (c, BitVec.ofNat 32 (min k (2 ^ 32 - 1)))) 0 cs, stackReq := BitVec.ofNat 64 tot,
      imbOn := on, hotPc := BitVec.ofNat 6 (anyMax s cs), run := run, lastRatio := BitVec.ofNat 8 ratio, running := [],
      imbRaised := on && (m.imbRaised || raise), winStart := m.winStart + 2 ^ imbWindow m })
    if raise then raiseEvt s1 (pgMc i) 0 else s1

/-- A bank idle for BANK_IDLE with no outstanding write begins to power down (R210). -/
def bankPowerDown (s : State) (i c b : Nat) : State :=
  let m := mc s i
  let x := getBank m c b
  if siteOn s i && bit m.cfg 0 && decide (c < 64) && decide (b < 64) && decide (x.st = .closed) && x.writes == 0
      && decide (x.last + 15 * max 1 (fld m.cfg 23 16) ≤ now s) then
    setMc s i (putBank m c b { x with st := .poweringDown })
  else s

/-- A bank completes its power-down (R210). -/
def bankPoweredDown (s : State) (i c b : Nat) : State :=
  let m := mc s i
  let x := getBank m c b
  if x.st = .poweringDown then setMc s i (settleDown (putBank m c b { x with st := .down }) (now s)) else s

/-- The stack enters self-refresh once every bank has been DOWN and the stack engine without a command for SR_IDLE (R211). -/
def selfRefreshEntry (s : State) (i : Nat) : State :=
  let m := mc s i
  match m.idleSince with
  | none => s
  | some t =>
    if siteOn s i && bit m.cfg 1 && m.st == 0 && allDown m && !sePending (se s i)
        && decide (max t (se s i).idleAt + 1500 * max 1 (fld m.cfg 31 24) ≤ now s) then
      setMc s i { m with st := 1 }
    else s

/-- HBM_READ (R203). -/
def execHbmRead (addr len : Nat) (ecc : List Ecc) (keepOpen : Bool) (s : State) : Host.Outcome State Fault Refusal :=
  .next (hbmRead s addr len ecc keepOpen)
/-- HBM_WRITE (R202). -/
def execHbmWrite (addr : Nat) (data : List Byte) (ecc : List Ecc) (keepOpen : Bool) (drains : Nat) (s : State) :
    Host.Outcome State Fault Refusal := .next (hbmWrite s addr data ecc keepOpen drains)
/-- HBM_REDUCE_STORE (R170). -/
def execHbmReduceStore (addr : Nat) (bf16 mx : Bool) (value : W32) (ecc : List Ecc) (s : State) :
    Host.Outcome State Fault Refusal := .next (hbmReduce s addr bf16 mx value ecc)
/-- HBM_REFRESH (R204). -/
def execHbmRefresh (site pc bank drains onDie : Nat) (s : State) : Host.Outcome State Fault Refusal :=
  .next (hbmRefresh s site pc bank drains onDie)
/-- HBM_TEMP_SAMPLE (R209). -/
def execHbmTempSample (site : Nat) (temps : List Nat) (s : State) : Host.Outcome State Fault Refusal :=
  .next (tempSample s site temps)
/-- IMB_WINDOW_END (R207). -/
def execImbWindowEnd (site : Nat) (s : State) : Host.Outcome State Fault Refusal := .next (imbWindowEnd s site)
/-- BANK_POWER_DOWN (R210). -/
def execBankPowerDown (site pc bank : Nat) (s : State) : Host.Outcome State Fault Refusal :=
  .next (bankPowerDown s site pc bank)
/-- BANK_POWERED_DOWN (R210). -/
def execBankPoweredDown (site pc bank : Nat) (s : State) : Host.Outcome State Fault Refusal :=
  .next (bankPoweredDown s site pc bank)
/-- SELF_REFRESH_ENTRY (R211). -/
def execSelfRefreshEntry (site : Nat) (s : State) : Host.Outcome State Fault Refusal := .next (selfRefreshEntry s site)
/-- SELF_REFRESH_EXIT_COMPLETE (R211). -/
def execSelfRefreshExitComplete (site : Nat) (s : State) : Host.Outcome State Fault Refusal := .next (exitDone s site)

end Sys2Proof.Machine
end

