-- ==== Sys2Proof/Machine/Mover.lean ====
section
/-! DEFINITION. Tensor descriptors and movers (R137-R178): the descriptor, its checks in the order of Table 7-10, the place
of each element, and what a move writes. -/

namespace Sys2Proof.Machine

/-! ### The descriptor (Tables 7-1 to 7-3) -/

/-- A descriptor. -/
structure Desc where
  base : Nat
  sbase : Nat
  fmt : Nat
  flags : Nat
  pad : Nat
  aux : Nat
  size : List Nat
  valid : List Nat
  stride : List Int
  stream : Nat
  seed : Nat

/-- Read a descriptor from its 128 bytes (Table 7-1); reserved bits are ignored (R8). -/
def parseDesc (bs : List Byte) : Desc :=
  { base := leAt bs 0 8, sbase := leAt bs 8 8, fmt := leAt bs 0x10 4, flags := leAt bs 0x14 4, pad := leAt bs 0x18 4,
    aux := leAt bs 0x1C 4, size := (List.range 6).map (fun i => leAt bs (0x20 + 4 * i) 4),
    valid := (List.range 6).map (fun i => leAt bs (0x38 + 4 * i) 4),
    stride := (List.range 6).map (fun i => sval 48 (leAt bs (0x50 + 6 * i) 6)),
    stream := leAt bs 0x74 4, seed := leAt bs 0x78 8 }

/-- RANK. -/
def Desc.rank (d : Desc) : Nat := nfld d.fmt 2 0
/-- TYPE. -/
def Desc.ty (d : Desc) : Nat := nfld d.fmt 7 3
/-- LAYOUT. -/
def Desc.layout (d : Desc) : Nat := nfld d.fmt 15 12
/-- BLOCK_DIM. -/
def Desc.bdim (d : Desc) : Nat := nfld d.fmt 18 16
/-- BASE_KIND. -/
def Desc.kind (d : Desc) : Nat := nfld d.fmt 21 20
/-- SCALE_KIND. -/
def Desc.skind (d : Desc) : Nat := nfld d.fmt 23 22
/-- PAD_WRITE. -/
def Desc.padW (d : Desc) : Bool := Nat.testBit d.flags 0
/-- SR. -/
def Desc.sr (d : Desc) : Bool := Nat.testBit d.flags 1
/-- SEQ_EN. -/
def Desc.seqEn (d : Desc) : Bool := Nat.testBit d.flags 2
/-- SEQ_DIM. -/
def Desc.seqDim (d : Desc) : Nat := nfld d.flags 5 3
/-- MASK_ONE. -/
def Desc.maskOne (d : Desc) : Bool := Nat.testBit d.flags 6
/-- TILE_PITCH. -/
def Desc.pitch (d : Desc) : Nat := nfld d.aux 15 0
/-- SEQ_FIRST. -/
def Desc.seqFirst (d : Desc) : Nat := nfld d.aux 22 16
/-- Sequence entries used, SEQ_COUNT + 1. -/
def Desc.seqN (d : Desc) : Nat := nfld d.aux 29 23 + 1
/-- The sizes of the dimensions in use (R138). -/
def Desc.sizes (d : Desc) : List Nat := d.size.take d.rank
/-- The valid extents of the dimensions in use. -/
def Desc.valids (d : Desc) : List Nat := d.valid.take d.rank
/-- Stride of dimension i. -/
def Desc.str (d : Desc) (i : Nat) : Int := d.stride.getD i 0

/-- STRIDED layout. -/
def Desc.strided (d : Desc) : Bool := d.layout == 0
/-- A_FEED or B_FEED layout. -/
def Desc.feed (d : Desc) : Bool := d.layout == 1 || d.layout == 2
/-- CTILE layout. -/
def Desc.ctile (d : Desc) : Bool := d.layout == 3
/-- GEN_MASK layout. -/
def Desc.gen (d : Desc) : Bool := d.layout == 4
/-- Is a scale plane used (R139)? -/
def Desc.scaled (d : Desc) : Bool := typeBlocked d.ty && (d.strided || d.feed)

/-- Dot depth of a feed type, 0 for a type the feed layouts do not take (R152). -/
def feedDepth (t : Nat) : Nat :=
  if t = 1 ∨ t = 2 then 2 else if 3 ≤ t ∧ t ≤ 8 then 4 else if t = 9 then 8 else 0

/-- Reduction length K of a feed descriptor (R152). -/
def Desc.redLen (d : Desc) : Nat := nth d.size (if d.layout = 1 then 0 else 1)

/-- Lines of a CTILE slot's dense form, header included (R155, R180): the header and 256 elements. -/
def denseLines (t : Nat) : Nat := 1 + 256 * (typeBits t / 8) / 64

/-! ### Sequence table entries (Table 7-7, R174-R177) -/

/-- VALID of an entry. -/
def seqValid (e : BitVec 128) : Bool := bit e 83
/-- START. -/
def seqStart (e : BitVec 128) : Nat := fld e 31 0
/-- MASK_KIND. -/
def seqKind (e : BitVec 128) : Nat := fld e 82 80
/-- SEGMENT. -/
def seqSegment (e : BitVec 128) : Nat := fld e 79 64

/-- Does an entry hold a token (R175)? -/
def seqHolds (e : BitVec 128) (t : Nat) : Bool :=
  seqValid e && decide (seqStart e ≤ t) && decide (t < seqStart e + fld e 63 32)

/-- The entries a descriptor uses, read at issue (R175). -/
def usedSeq (s : State) (n : Nat) (d : Desc) (ofs : Nat) : List (BitVec 128) :=
  if d.seqEn then (List.range d.seqN).map (fun i => sget 0 s.seq (128 * (n / 2048) + d.seqFirst + ofs + i)) else []

/-- START of the first used entry, 0 without SEQ_EN. DEDUCED (log entry 35). -/
def firstStart (es : List (BitVec 128)) : Nat :=
  match es with
  | [] => 0
  | e :: _ => seqStart e

/-- Is the mask element of query token q and key token j allowed (R177)? -/
def maskAllowed (es : List (BitVec 128)) (q j : Nat) : Bool :=
  match es.find? (fun e => seqHolds e q) with
  | none => false
  | some e =>
    let k := seqKind e
    es.any (fun x => seqHolds x j && (k == 0 || seqSegment x == seqSegment e))
      && (decide (k < 2) || decide (j ≤ q)) && (decide (k < 3) || decide (q - j < fld e 99 84))

/-! ### Index tuples -/

/-- Every index tuple below the extents, dimension 0 fastest. -/
def tuples : List Nat → List (List Nat)
  | [] => [[]]
  | e :: r => (tuples r).foldr (fun t acc => (List.range e).map (fun i => i :: t) ++ acc) []

/-- The linear index of a tuple over sizes (R166). -/
def linIdx : List Nat → List Nat → Nat
  | n :: r, i :: t => i + n * linIdx r t
  | _, _ => 0

/-- Swap the two innermost indices under TRANSPOSE (R162). -/
def swapIdx (tr : Bool) : List Nat → List Nat
  | a :: b :: r => if tr then b :: a :: r else a :: b :: r
  | l => l

/-- Is a tuple within the valid extents, its token held by a used entry in a STRIDED descriptor with SEQ_EN (R176)? -/
def elValid (d : Desc) (es : List (BitVec 128)) (ix : List Nat) : Bool :=
  (List.zipWith (fun i v => decide (i < v)) ix d.valids).all id
    && (!(d.seqEn && d.strided) || es.any (fun e => seqHolds e (firstStart es + nth ix d.seqDim)))

/-! ### Placement (R139, R153-R155) -/

/-- Element offset in the STRIDED layout, the sequence dimension shifted by the first used entry's START (R139, R176). -/
def elemOff (d : Desc) (t0 : Nat) (ix : List Nat) : Int :=
  (mapIx (fun k i => ((i + (if d.seqEn && k == d.seqDim then t0 else 0) : Nat) : Int) * d.str k) 0 ix).foldl (· + ·) 0

/-- Where an element lies, relative to BASE and SCALE_BASE. -/
structure ElLoc where
  /-- Offset of its first bit from BASE. -/
  bits : Int
  /-- Its block and its position in the block (types with blocks). -/
  block : Int
  pos : Nat
  /-- Offset of the block's scale byte from SCALE_BASE. -/
  scale : Int

/-- The place of an element (R139, R153, R154, R36). -/
def elLoc (d : Desc) (t0 : Nat) (ix : List Nat) : ElLoc :=
  let b := typeBits d.ty
  if d.strided then
    let e := elemOff d t0 ix
    { bits := e * b, block := e / 32, pos := (e % 32).toNat, scale := e / 32 }
  else
    let k := feedDepth d.ty
    let K := d.redLen
    let i := nth ix (if d.layout = 1 then 0 else 1)
    let r := nth ix (if d.layout = 1 then 1 else 0)
    let line := (r / 16) * (K / k) + i / k
    let inLine := if d.layout = 1 then (r % 16) * (k * b) + (i % k) * b else (i % k) * (16 * b) + (r % 16) * b
    let m := i / 32
    { bits := ((line * 512 + inLine : Nat) : Int), block := ((r * (K / 32) + m : Nat) : Int), pos := i % 32,
      scale := ((((r / 16) * cdiv K 64 + m / 2) * 64 + (m % 2) * 32 + r % 16 + (if d.layout = 1 then 0 else 16) : Nat) : Int) }

/-- Slot of a CTILE tensor that holds a tuple (R155): tile row times tiles per row plus tile column. -/
def tileSlot (d : Desc) (ix : List Nat) : Nat := (nth ix 1 / 16) * (nth d.size 0 / 16) + nth ix 0 / 16

/-- First and last byte offset from BASE an element makes touched (R589). -/
def elTouch (d : Desc) (t0 : Nat) (ix : List Nat) : Int × Int :=
  if d.ctile then
    let o := tileSlot d ix * d.pitch * 64
    ((o : Int), ((o + d.pitch * 64 - 1 : Nat) : Int))
  else if d.feed then
    let per := d.redLen / feedDepth d.ty * 64
    let p := nth ix (if d.layout = 1 then 1 else 0) / 16
    (((p * per : Nat) : Int), ((p * per + per - 1 : Nat) : Int))
  else
    let l := elLoc d t0 ix
    if typeBlocked d.ty then (l.block * blockBytes d.ty, l.block * blockBytes d.ty + blockBytes d.ty - 1)
    else (l.bits / 8, l.bits / 8 + typeBits d.ty / 8 - 1)

/-- First and last byte offset from SCALE_BASE an element makes touched (R589). -/
def elTouchScale (d : Desc) (t0 : Nat) (ix : List Nat) : Int × Int :=
  if d.feed then
    let per := cdiv d.redLen 64 * 64
    let p := nth ix (if d.layout = 1 then 1 else 0) / 16
    (((p * per : Nat) : Int), ((p * per + per - 1 : Nat) : Int))
  else
    let l := elLoc d t0 ix
    (l.scale, l.scale)

/-- Least and greatest over the touched ranges. See R147, R149. -/
def spanOf (l : List (Int × Int)) : Option (Int × Int) :=
  l.foldl (fun a x => match a with
    | none => some x
    | some y => some (min x.1 y.1, max x.2 y.2)) none

/-- The tuples of a side that are touched (R589): a source's valid elements; a destination's, or every one with PAD_WRITE;
none of a GEN_MASK source. PAD_WRITE has no effect on a source (R166) or in the CTILE layout (R156). -/
def touchedTuples (d : Desc) (es : List (BitVec 128)) (dst : Bool) : List (List Nat) :=
  if d.gen then []
  else (tuples d.sizes).filter (fun ix => (dst && d.padW && !d.ctile) || elValid d es ix)

/-! ### Places (R140, R159) -/

/-- Where a plane of a descriptor is based. -/
inductive PBase where
  /-- A handle of the core with a byte offset into its logical space. -/
  | handle (h off : Nat)
  /-- A module address. -/
  | addr (a : Nat)
  /-- A global address on another endpoint. -/
  | remote (g : Nat)

/-- Resolve a base by its kind (Table 7-2, R27): a global address with the partition's own ID is a local access. -/
def planeBase (s : State) (n kind base : Nat) : PBase :=
  if kind = 2 then .handle (nfld base 5 0) (nfld base 31 8)
  else if kind = 1 then
    if base / 2 ^ 48 = (part s (partOfCore s n)).moduleId.toNat then .addr (base % 2 ^ 48) else .remote base
  else .addr base

/-- Module address of the byte at an offset from a base. -/
def planeAddr (s : State) (n : Nat) (b : PBase) (o : Int) : Nat :=
  match b with
  | .handle h off => coreAddr n (hByte (getH (core s n) h) (off + o).toNat)
  | .addr a => (a + o).toNat
  | .remote g => (g % 2 ^ 48 + o).toNat

/-- The places of Table 7-6. -/
inductive MPlace where
  | hbm
  | ownSpad
  | otherSpad
  | ownAcc
  | otherAcc
  | gen
  | remote
  /-- The register window or the doorbell window (Table 1-12), which no opcode may name. -/
  | window
  | unmapped
  deriving DecidableEq, Repr

/-- Place of a module address as core n sees it. -/
def placeOf (n : Nat) (a : Int) : MPlace :=
  if a < 0 then .unmapped
  else match addrPlace a.toNat with
    | .hbm => .hbm
    | .spad m _ => if m = n then .ownSpad else .otherSpad
    | .acc m _ => if m = n then .ownAcc else .otherAcc
    | .regs _ => .window
    | .bell _ => .window
    | .unmapped => .unmapped

/-- Place a plane names, judged from its lowest touched byte, or from its base when it touches nothing. DEDUCED (log entry 35). -/
def basePlace (n : Nat) (b : PBase) (lo : Int) : MPlace :=
  match b with
  | .handle _ _ => .ownSpad
  | .addr a => placeOf n (a + lo)
  | .remote _ => .remote

/-- Does the opcode allow the place (Table 7-6)? Unmapped addresses pass here and fail the address checks (R140). -/
def placeOk (o : Nat) (dst : Bool) (p : MPlace) : Bool :=
  match p with
  | .unmapped => true
  | .hbm => if dst then o == 0x49 || o == 0x4B else o == 0x48 || o == 0x4A
  | .ownSpad => if dst then o == 0x48 || o == 0x49 || o == 0x4B else true
  | .otherSpad => if dst then o == 0x4A || o == 0x4B else o == 0x48
  | .ownAcc => if dst then o == 0x48 else true
  | .otherAcc => false
  | .window => false
  | .gen => !dst && (o == 0x48 || o == 0x49)
  | .remote => dst && o == 0x4A

/-- The handle check of R140 on the touched span, none when nothing is touched (R75). -/
def spanHandleErr (s : State) (n : Nat) (b : PBase) (span : Option (Int × Int)) : Option Nat :=
  match b with
  | .handle h off =>
    let e := getH (core s n) h
    if !hValid e then some 0x0203
    else match span with
      | some x => if (off : Int) + x.1 < 0 ∨ (hSize e : Int) * 64 ≤ (off : Int) + x.2 then some 0x0204 else none
      | none => none
  | _ => none

/-! ### Descriptor checks (Table 7-10) -/

/-- What the checks look at. -/
structure MoveCtx where
  op : Nat
  tr : Bool
  split : Nat
  seqOfs : Nat
  src : Desc
  dst : Desc

/-- The first dimension whose condition holds. -/
def firstDim (k : Nat) (p : Nat → Bool) : Option Nat := (List.range k).find? p

/-- The nesting test of R150 over extents: the failing dimension. `zero` leaves out dimensions of stride 0. See R148, R151. -/
def nestErr (d : Desc) (ext : List Nat) (zero : Bool) : Option Nat :=
  let dims := (List.range d.rank).filter (fun i => decide (1 < nth ext i) && !(zero && d.str i == 0))
  let sorted := sortBy (fun i => (d.str i).natAbs) dims
  (sorted.foldl (fun (a : Nat × Option Nat) i =>
    match a.2 with
    | some _ => a
    | none => if (d.str i).natAbs < a.1 then (a.1, some i)
              else (a.1 + (d.str i).natAbs * (nth ext i - 1), none)) (1, none)).2

/-- Bits of a handle base that R140 requires to be 0 are not. -/
def hbaseBad (base : Nat) : Bool := nfld base 7 6 != 0 || base / 2 ^ 32 != 0

/-- DESC_LAYOUT of a side with the dimension concerned, 0 where there is none (R139, R140, R152, R155, R157, R177, R178). A GEN_MASK
source of another rank or without SEQ_EN, and a GEN_MASK destination, are refused here. DEDUCED (log entry 35). -/
def layoutBad (c : MoveCtx) (d : Desc) (dst : Bool) : Option Nat :=
  if 5 ≤ d.layout || d.kind == 3 then some 0
  else if d.gen then (if dst || d.rank != 2 || !d.seqEn then some 0 else none)
  else if (d.kind == 2 && hbaseBad d.base) || (d.scaled && (d.skind == 3 || (d.skind == 2 && hbaseBad d.sbase)))
      || ((d.feed || d.ctile) && d.rank != 2) || (d.feed && feedDepth d.ty == 0)
      || (d.ctile && !(d.ty == 1 || d.ty == 3 || d.ty == 4))
      || (!dst && d.ctile && !(c.dst.ctile && c.dst.ty == d.ty && c.dst.rank == d.rank && c.dst.sizes == d.sizes)) then some 0
  else if (d.feed || d.ctile) && nth d.size 0 % 16 != 0 then some 0
  else if (d.feed || d.ctile) && nth d.size 1 % 16 != 0 then some 1
  else if d.feed && typeMx d.ty && d.redLen % 32 != 0 then some (if d.layout = 1 then 0 else 1)
  else none

/-- DESC_SHAPE of a side: the dimension concerned (R144, R161, R162). See R163. -/
def shapeErr (c : MoveCtx) (d : Desc) (dst : Bool) : Option Nat :=
  match firstDim d.rank (fun i => nth d.size i == 0 || decide (nth d.size i < nth d.valid i)) with
  | some i => some i
  | none =>
    if !dst then none
    else if c.src.rank != c.dst.rank || (c.tr && c.dst.rank < 2) then some 0
    else firstDim d.rank (fun i => nth (swapIdx c.tr c.src.sizes) i != nth d.size i)

/-- DESC_BLOCK of a side (R145). -/
def blockErr (d : Desc) : Option Nat :=
  if !(d.strided && typeBlocked d.ty) then none
  else if d.rank ≤ d.bdim then some d.bdim
  else if d.str d.bdim != 1 || nth d.size d.bdim % 32 != 0 then some d.bdim
  else firstDim d.rank (fun i => i != d.bdim && decide (1 < nth d.size i) && d.str i % 32 != 0)

/-- DESC_CONV of a side (R165, R166, R170). -/
def convBad (c : MoveCtx) (d : Desc) (dst : Bool) : Bool :=
  (c.split != 0 && (if dst then d.ty != 1 else d.ty != 0))
  || (dst && d.sr && (c.split != 0 || !(d.ty == 1 || d.ty == 11)))
  || (dst && c.op == 0x4B && !(d.ty == 0 || d.ty == 1))

/-- Does a module address lie in an accumulator part? -/
def accPart (a : Nat) : Bool :=
  match addrPlace a with
  | .acc _ _ => true
  | _ => false

/-- Does BASE lie in an accumulator part (R141)? -/
def accBase (d : Desc) : Bool := !d.gen && d.kind ≤ 1 && accPart (if d.kind = 1 then d.base % 2 ^ 48 else d.base)

/-- DESC_ACC of a side: BASE lies in an accumulator part and the descriptor is not FP32 STRIDED (R141). -/
def accBad (d : Desc) : Bool := accBase d && !(d.ty == 0 && d.strided)

/-- DESC_SEQ of a side (R174, R175). -/
def seqErr (s : State) (n : Nat) (c : MoveCtx) (d : Desc) : Bool :=
  d.seqEn &&
    let f := d.seqFirst + c.seqOfs
    let sh := seqShare s (partOfCore s n) (n / 2048)
    decide (127 < f + d.seqN - 1) || (d.strided && decide (d.rank ≤ d.seqDim)) || decide (f < sh.1)
    || decide (sh.1 + sh.2 < f + d.seqN)
    || (usedSeq s n d c.seqOfs).any (fun e => seqValid e && decide (4 ≤ seqKind e))

/-- One check of Table 7-10 on a side: the dimension concerned when it fails. -/
def descCheck (s : State) (n : Nat) (c : MoveCtx) (code : Nat) (dst : Bool) : Option Nat :=
  let d := if dst then c.dst else c.src
  let b := fun (x : Bool) => if x then some 0 else none
  match code with
  | 0x0220 => b (d.rank == 0 || decide (6 < d.rank))
  | 0x0221 => b (decide (12 ≤ d.ty))
  | 0x0227 => layoutBad c d dst
  | 0x0222 => shapeErr c d dst
  | 0x0226 => blockErr d
  | 0x022D => b (d.ctile && decide (d.pitch < denseLines d.ty))
  | 0x0228 => b (!dst && c.tr && !(d.strided && (d.ty ≤ 4 || d.ty == 10)))
  | 0x022B => b (convBad c d dst)
  | 0x0229 => b (accBad d)
  | 0x022A => if seqErr s n c d then some (if d.strided && decide (d.rank ≤ d.seqDim) then d.seqDim else 0) else none
  | 0x0223 =>
    if dst && d.strided && c.op != 0x4B then
      firstDim d.rank (fun i => d.str i == 0 && decide (1 < nth (if d.padW then d.size else d.valid) i))
    else none
  | 0x0224 => if dst && d.strided then nestErr d d.valids (c.op == 0x4B) else none
  | 0x0225 => if dst && d.strided && d.padW then nestErr d d.sizes (c.op == 0x4B) else none
  | _ => none

/-- The codes of Table 7-10 in check order, up to the place checks. -/
def descCodes : List Nat :=
  [0x0220, 0x0221, 0x0227, 0x0222, 0x0226, 0x022D, 0x0228, 0x022B, 0x0229, 0x022A, 0x0223, 0x0224, 0x0225]

/-- The first descriptor check that fails, each applied to the source and then the destination (R160): code and
ERR_INFO_LO (R178). DEDUCED (log entry 33). -/
def descErr (s : State) (n : Nat) (c : MoveCtx) : List Nat → Option (Nat × Nat)
  | [] => none
  | code :: r =>
    match descCheck s n c code false with
    | some i => some (code, (i % 16) * 16)
    | none => match descCheck s n c code true with
      | some i => some (code, (i % 16) * 16 + 1)
      | none => descErr s n c r

/-! ### The planes of a move -/

/-- A plane an instruction touches: its side, its base and its touched span. -/
structure Plane where
  dst : Bool
  base : PBase
  span : Option (Int × Int)

/-- The planes of a side: the elements, and the scale plane where one is used. -/
def planes (s : State) (n : Nat) (d : Desc) (es : List (BitVec 128)) (dst : Bool) : List Plane :=
  if d.gen then []
  else
    let ts := touchedTuples d es dst
    let t0 := firstStart es
    { dst := dst, base := planeBase s n d.kind d.base, span := spanOf (ts.map (elTouch d t0)) }
      :: (if d.scaled then
            [{ dst := dst, base := planeBase s n d.skind d.sbase, span := spanOf (ts.map (elTouchScale d t0)) }]
          else [])

/-- Place of a plane. -/
def planePlace (n : Nat) (p : Plane) : MPlace := basePlace n p.base (match p.span with | some x => x.1 | none => 0)

/-- The first failing place check (MOVE_TARGET, R159, R167). DEDUCED (log entry 33). -/
def targetErr (n : Nat) (w : W64) (src _dst : Desc) (ps : List Plane) : Option (Nat × Nat) :=
  let o := opc w
  if src.gen && !placeOk o false .gen then some (0x022C, 0)
  else match ps.find? (fun p => !placeOk o p.dst (planePlace n p)) with
    | some p => some (0x022C, b2n p.dst)
    | none =>
      let toHbm := fun (p : Plane) => p.dst && (match p.base with
        | .remote g => decide (g % 2 ^ 48 < 2 ^ 40)
        | _ => decide (planePlace n p = .hbm))
      if bit w 30 && ps.any toHbm then some (0x022C, 1) else none

/-- Spans of a side's planes at local module addresses. -/
def localSpans (ps : List Plane) : List (Int × Int) :=
  ps.filterMap (fun p => match p.base, p.span with
    | .addr a, some x => some ((a : Int) + x.1, (a : Int) + x.2)
    | _, _ => none)

/-- Endpoints a side's planes name. -/
def remoteIds (ps : List Plane) : List Nat :=
  (ps.filterMap (fun p => match p.base with
    | .remote g => some (g / 2 ^ 48)
    | _ => none)).eraseDups

/-- The address checks of R140 on the bytes a side touches at module addresses, elements and scales together (R589): the lowest touched
byte, then one region for all. A plane that reaches an accumulator part from a BASE elsewhere, and planes on two endpoints, are no one
region (R141). DEDUCED (log entry 35). -/
def sideAddrErr (s : State) (n : Nat) (d : Desc) (ps : List Plane) : Option Nat :=
  let rem := remoteIds ps
  match spanOf (localSpans ps) with
  | none => if 1 < rem.length then some 0x022C else none
  | some x =>
    if x.1 < 0 then some 0x0101
    else match addrErr s (partOfCore s n) x.1.toNat with
      | some c => some c
      | none => if regionEnd s x.1.toNat ≤ x.2.toNat || !rem.isEmpty || (accPart x.1.toNat && !accBase d) then some 0x022C else none

/-- The first failing address check, source before destination (R140). DEDUCED (log entry 33). -/
def addrErrs (s : State) (n : Nat) (src dst : Desc) (ps : List Plane) : Option (Nat × Nat) :=
  match sideAddrErr s n src (ps.filter (fun p => !p.dst)) with
  | some c => some (c, 0)
  | none => (sideAddrErr s n dst (ps.filter (fun p => p.dst))).map (fun c => (c, 1))

/-- The first failing handle check of the planes, HANDLE_INVALID before HANDLE_RANGE (R62, R75). -/
def planeHandleErr (s : State) (n : Nat) (ps : List Plane) : Option (Nat × Nat) :=
  let es := ps.filterMap (fun p => spanHandleErr s n p.base p.span)
  if es.contains 0x0203 then some (0x0203, 0) else if es.contains 0x0204 then some (0x0204, 0) else none

/-- Handle spans of the planes in lines, for R63, R77 and HREL. -/
def planeSpans (ps : List Plane) : List Span :=
  ps.filterMap (fun p => match p.base, p.span with
    | .handle h off, some x =>
      let a := ((off : Int) + x.1).toNat / 64
      some (h, a, ((off : Int) + x.2).toNat / 64 - a + 1, p.dst)
    | _, _ => none)

/-- Accumulator tiles from the lowest to the highest a plane touches (R123), with its side. -/
def planeTiles (n : Nat) (p : Plane) : List Nat :=
  match p.base, p.span with
  | .addr a, some x =>
    match addrPlace ((a : Int) + x.1).toNat with
    | .acc m o => if m = n then
        (List.range (((a : Int) + x.2).toNat / 0x400 - ((a : Int) + x.1).toNat / 0x400 + 1)).map (fun i => o / 0x400 + i)
      else []
    | _ => []
  | _, _ => []

/-! ### What a move writes -/

/-- Both sides of an issued mover instruction. -/
structure MoveView where
  word : W64
  src : Desc
  dst : Desc
  se : List (BitVec 128)
  de : List (BitVec 128)

/-- The view of a flight. -/
def moveView (f : Flight) : MoveView :=
  { word := f.word, src := parseDesc f.src, dst := parseDesc f.dst, se := f.srcSeq, de := f.dstSeq }

/-- TRANSPOSE of the instruction. -/
def MoveView.tr (v : MoveView) : Bool := bit v.word 22
/-- SPLIT of the instruction. -/
def MoveView.split (v : MoveView) : Nat := fld v.word 24 23

/-- Read a field of bits from a plane's bytes. -/
def readBits (s : State) (n : Nat) (b : PBase) (o : Int) (w : Nat) : Nat :=
  let lo := o / 8
  let k := ((o + w - 1) / 8 - lo).toNat + 1
  let x := ofBytes ((List.range k).map (fun (i : Nat) => readByte s.mem (planeAddr s n b (lo + i))))
  (x >>> (o % 8).toNat) % 2 ^ w

/-- What a source delivers at an index: the FP32 value; its bits with scale, block and position when it is a valid element
held in memory; whether a GEN_MASK source allows it, where it decides the element. -/
structure SrcEl where
  v : Nat
  raw : Option (Nat × Nat × Int × Nat)
  mask : Option Bool

/-- The source element of a destination index (R142, R161, R162, R177): a padding element of any source delivers PAD_VALUE. DEDUCED (log entry 35). -/
def srcEl (s : State) (n : Nat) (v : MoveView) (dix : List Nat) : SrcEl :=
  let d := v.src
  let ix := swapIdx v.tr dix
  if d.gen then
    let t0 := firstStart v.se
    let ok := maskAllowed v.se (t0 + nfld d.base 31 0 + nth ix 1) (t0 + nfld d.base 63 32 + nth ix 0)
    if !elValid d v.se ix then { v := d.pad, raw := none, mask := none }
    else { v := if ok then (if d.maskOne then 0x3F800000 else 0) else d.pad, raw := none, mask := some ok }
  else if elValid d v.se ix then
    let l := elLoc d (firstStart v.se) ix
    let x := readBits s n (planeBase s n d.kind d.base) l.bits (typeBits d.ty)
    let sc := if d.scaled then readBits s n (planeBase s n d.skind d.sbase) (l.scale * 8) 8 else 0
    { v := widen d.ty x sc, raw := some (x, sc, l.block, l.pos), mask := none }
  else { v := d.pad, raw := none, mask := none }

/-- Are element bytes copied unchanged (R165)? -/
def MoveView.copy (v : MoveView) : Bool := v.src.ty == v.dst.ty && v.split == 0 && !v.dst.sr

/-- An FP32 value as the destination stores it, for an unblocked type (R165, R166, R53). See R124. DEDUCED (log entry 35). -/
def storeVal (v : MoveView) (dix : List Nat) (x : Nat) : Nat :=
  if v.split != 0 then splitBf16 (v.split == 1) x
  else if v.dst.sr then srBf16 x (srBits v.dst.seed v.dst.stream (linIdx v.dst.sizes dix))
  else narrow v.dst.ty (dec32 x)

/-- The bits an unblocked destination element takes from its source element. -/
def elemBits (v : MoveView) (dix : List Nat) (e : SrcEl) : Nat :=
  match e.raw with
  | some r => if v.copy then r.1 else storeVal v dix e.v
  | none => storeVal v dix e.v

/-- A field a move writes: true for the scale plane, offset in bits, width, value. -/
abbrev BitWrite := Bool × Int × Nat × Nat

/-- What one element, block or slot of the destination takes, as a function of the memory its source is read from. -/
abbrev WriteGroup := State → List BitWrite

/-- Writes of a STRIDED or feed destination without blocks (R143, R161). -/
def plainGroups (n : Nat) (v : MoveView) : List WriteGroup :=
  let d := v.dst
  (tuples d.sizes).filterMap (fun ix =>
    let l := elLoc d (firstStart v.de) ix
    if elValid d v.de ix then some (fun s => [(false, l.bits, typeBits d.ty, elemBits v ix (srcEl s n v ix))])
    else if d.padW then some (fun _ => [(false, l.bits, typeBits d.ty, storeVal v ix d.pad)])
    else none)

/-- One destination block from its 32 places, each the index that takes it, if any (R146, R165, R38, R42). A place no index reaches is
stored as a padding element. DEDUCED (log entry 35). -/
def blockWrites (s : State) (n : Nat) (v : MoveView) (ixs : List (Option (List Nat))) (blk : Int) : List BitWrite :=
  let d := v.dst
  let vals := ixs.map (fun o => match o with
    | some ix => if elValid d v.de ix then some (ix, srcEl s n v ix) else none
    | none => none)
  let anyV := vals.any (·.isSome)
  if !anyV && !d.padW then []
  else
    let raws := vals.filterMap (fun o => o.bind (fun p => p.2.raw))
    let whole := v.copy && raws.length == 32 && raws.all (fun r => some r.2.2.1 == (raws.head?.map (·.2.2.1)))
      && raws.map (·.2.2.2) == List.range 32
    let fp := (vals.zip ixs).map (fun p => match p.1 with
      | some x => x.2.v
      | none => if anyV || p.2.isNone then 0 else d.pad)
    let enc := if whole then ((raws.head?.map (·.2.1)).getD 0, raws.map (·.1))
      else if d.ty = 11 then sbBlock (fp.map dec32) (ixs.map (fun o =>
        if d.sr then some (srBits d.seed d.stream (match o with | some ix => linIdx d.sizes ix | none => 0)) else none))
      else mxBlock d.ty (fp.map dec32)
    let place := fun (i : Nat) => match ixs.getD i none with
      | some ix => some (elLoc d (firstStart v.de) ix)
      | none => if d.strided then some { bits := (blk * 32 + i) * typeBits d.ty, block := blk, pos := i, scale := blk } else none
    let scaleAt := match (ixs.filterMap id).head? with
      | some ix => (elLoc d (firstStart v.de) ix).scale
      | none => blk
    (mapIx (fun i x => (place i).map (fun l => ((false, l.bits, typeBits d.ty, x) : BitWrite))) 0 enc.2).filterMap id
      ++ [(true, scaleAt * 8, 8, enc.1)]

/-- Writes of a STRIDED or feed destination with blocks: where a padding index meets a valid one, the valid one takes
the place. -/
def blockedGroups (n : Nat) (v : MoveView) : List WriteGroup :=
  let d := v.dst
  let t0 := firstStart v.de
  let els := (tuples d.sizes).map (fun ix => (elLoc d t0 ix, ix))
  let keys := (els.map (fun e => e.1.block)).eraseDups
  keys.map (fun k =>
    let mine := els.filter (fun e => e.1.block == k)
    let at_ := fun (i : Nat) =>
      let c := mine.filter (fun e => e.1.pos == i)
      match c.find? (fun e => elValid d v.de e.2) with
      | some e => some e.2
      | none => c.head?.map (·.2)
    fun s => blockWrites s n v ((List.range 32).map at_) k)

/-- Bytes of a compressed or dense CTILE slot over its present elements (R156, R179, R180): the compressed form when it is
not larger. -/
def ctileBytes (t : Nat) (pres : List (Option Nat)) : List Byte :=
  let e := typeBits t / 8
  let k := pres.countP (·.isSome)
  let ents := (mapIx (fun i (o : Option Nat) => o.map (fun x => (i % 16, x))) 0 pres).filterMap id
  let dense := decide (64 + 256 * e < 64 + (2 + e) * k)
  let ptrs := (List.range 17).map (fun r => (pres.take (16 * r)).countP (·.isSome))
  let hdr := toBytes 4 (k + (if dense then 2 ^ 9 else 0) + t * 2 ^ 11)
    ++ ptrs.foldr (fun p acc => toBytes 2 p ++ acc) []
  let head := hdr ++ List.replicate (64 - hdr.length) 0
  head ++ (if dense then pres.foldr (fun o acc => toBytes e (o.getD 0) ++ acc) []
           else ents.foldr (fun x acc => toBytes 2 x.1 ++ acc) [] ++ ents.foldr (fun x acc => toBytes e x.2 ++ acc) [])

/-- Is a stored value ±0 of a CTILE type? -/
def isZeroElem (t x : Nat) : Bool := x % 2 ^ (typeBits t - 1) == 0

/-- Bytes from a byte offset as field writes of 8 bits. -/
def byteWrites (o : Nat) (bs : List Byte) : List BitWrite :=
  mapIx (fun i (x : Byte) => (false, (((o + i) * 8 : Nat) : Int), 8, x.toNat)) 0 bs

/-- The slots a CTILE destination takes (R156, R157): those that hold a valid element, which alone are touched (R589). DEDUCED (log entry 35). -/
def ctileGroups (n : Nat) (v : MoveView) : List WriteGroup :=
  let d := v.dst
  let slots := ((tuples d.sizes).filter (elValid d v.de)).map (fun ix => (nth ix 1 / 16, nth ix 0 / 16))
  slots.eraseDups.map (fun p =>
    let o := (p.1 * (nth d.size 0 / 16) + p.2) * d.pitch * 64
    if v.src.ctile then
      let so := (p.1 * (nth v.src.size 0 / 16) + p.2) * v.src.pitch * 64
      fun s => byteWrites o ((List.range (64 * min v.src.pitch d.pitch)).map (fun i =>
        readByte s.mem (planeAddr s n (planeBase s n v.src.kind v.src.base) ((so + i : Nat) : Int))))
    else
      fun s => byteWrites o (ctileBytes d.ty ((List.range 256).map (fun k =>
        let ix := [16 * p.2 + k % 16, 16 * p.1 + k / 16]
        if !elValid d v.de ix then none
        else
          let e := srcEl s n v ix
          let x := elemBits v ix e
          match e.mask with
          | some ok => if ok then some x else none
          | none => if isZeroElem d.ty x then none else some x))))

/-- The groups a move writes. -/
def moveGroups (n : Nat) (v : MoveView) : List WriteGroup :=
  if v.dst.ctile then ctileGroups n v else if typeBlocked v.dst.ty then blockedGroups n v else plainGroups n v

/-- Reduce-store contributions in ascending source linear index: bit offset at the destination, and the FP32 value as a function of the
memory the source is read from (R170). -/
def reduceContribs (n : Nat) (v : MoveView) : List (Int × (State → Nat)) :=
  let d := v.dst
  (tuples v.src.sizes).filterMap (fun six =>
    let ix := swapIdx v.tr six
    let o := (elLoc d (firstStart v.de) ix).bits
    let val := fun (x : Nat) => if v.split != 0 then enc32 (dec16b (splitBf16 (v.split == 1) x)) else x
    if elValid d v.de ix then some (o, fun s => val (srcEl s n v ix).v)
    else if d.padW then some (o, fun _ => val d.pad)
    else none)

/-- The bytes of the slots a MOVE.X with a CTILE destination touches: the spec states no result of it, and each is a free value. DEDUCED (log entry 35). -/
def ctileFree (s : State) (n : Nat) (v : MoveView) : List Host.Cell :=
  let d := v.dst
  let slots := (((tuples d.sizes).filter (elValid d v.de)).map (tileSlot d)).eraseDups
  slots.foldr (fun k acc => (List.range (d.pitch * 64)).map (fun i =>
    let a := planeAddr s n (planeBase s n d.kind d.base) ((k * d.pitch * 64 + i : Nat) : Int)
    (a, Config.freeByte (s.freeCtr + 1) a)) ++ acc) []

/-- Apply one field write to memory through a plane: the bytes it lies in are read, merged and written. -/
def putBits (s : State) (n : Nat) (b : PBase) (m : Mem) (o : Int) (w x : Nat) : Mem :=
  let lo := o / 8
  let k := ((o + w - 1) / 8 - lo).toNat + 1
  let as := (List.range k).map (fun (i : Nat) => planeAddr s n b (lo + i))
  let old := ofBytes (as.map (readByte m))
  let sh := (o % 8).toNat
  let new := toBytes k (nsetFld old (sh + w - 1) sh x)
  writeCells m (as.zip new)

/-- Addresses a field write touches. -/
def bitAddrs (s : State) (n : Nat) (b : PBase) (o : Int) (w : Nat) : List Nat :=
  (List.range (((o + w - 1) / 8 - o / 8).toNat + 1)).map (fun (i : Nat) => planeAddr s n b (o / 8 + i))

/-- Bytes the source and the destination of a move share (R164). DEDUCED (log entry 6). -/
def sharedBytes (s : State) (n : Nat) (v : MoveView) : Bool :=
  let sp := planes s n v.src v.se false
  let dp := planes s n v.dst v.de true
  let far := fun (q : Plane) => match q.base with
    | .remote _ => true
    | _ => false
  sp.any (fun p => dp.any (fun q => !far q && match p.span, q.span with
    | some x, some y =>
      let a0 := planeAddr s n p.base x.1
      let a1 := planeAddr s n p.base x.2
      let b0 := planeAddr s n q.base y.1
      let b1 := planeAddr s n q.base y.2
      decide (a0 ≤ b1) && decide (b0 ≤ a1)
    | _, _ => false))

/-- The bytes a move other than a MOVE.X writes: destination addresses with their new bytes, each address once. Where
source and destination share bytes, the groups are written in an order the spec leaves open, and each reads either the
bytes before the instruction or bytes the instruction has written (R164). -/
def moveCells (s : State) (n : Nat) (v : MoveView) : List Host.Cell :=
  let d := v.dst
  let eb := planeBase s n d.kind d.base
  let sb := planeBase s n d.skind d.sbase
  let sh := sharedBytes s n v
  let gs := mapIx (fun i g => (i, g)) 0 (moveGroups n v)
  let ord := if sh then sortBy (fun p => Config.pick s.freeCtr (2 * p.1)) gs else gs
  let r := ord.foldl (fun (a : Mem × List Nat) p =>
    let from_ := if sh && Config.pick s.freeCtr (2 * p.1 + 1) % 2 == 1 then a.1 else s.mem
    (p.2 { s with mem := from_ }).foldl (fun a x =>
      let b := if x.1 then sb else eb
      (putBits s n b a.1 x.2.1 x.2.2.1 x.2.2.2, bitAddrs s n b x.2.1 x.2.2.1 ++ a.2)) a) (s.mem, [])
  r.2.eraseDups.map (fun a => (a, readByte r.1 a))

/-- Addresses of the source bytes a move reads (R142, R157). -/
def srcAddrs (s : State) (n : Nat) (v : MoveView) : List Nat :=
  let d := v.src
  let b := planeBase s n d.kind d.base
  if d.gen then []
  else if d.ctile then
    (((tuples d.sizes).filter (elValid d v.se)).map (tileSlot d)).eraseDups.foldr (fun k acc =>
      (List.range (64 * min d.pitch v.dst.pitch)).map (fun i => planeAddr s n b ((k * d.pitch * 64 + i : Nat) : Int)) ++ acc) []
  else
    ((tuples d.sizes).filter (elValid d v.se)).foldr (fun ix acc =>
      let l := elLoc d (firstStart v.se) ix
      bitAddrs s n b l.bits (typeBits d.ty)
        ++ (if d.scaled then bitAddrs s n (planeBase s n d.skind d.sbase) (l.scale * 8) 8 else []) ++ acc) []

/-- The bytes a move to another endpoint touches there, over both planes: first and last module address (R169, R589). -/
def remoteSpan (s : State) (n : Nat) (v : MoveView) : Option (Nat × Nat) :=
  (spanOf ((planes s n v.dst v.de true).filterMap (fun p => match p.base, p.span with
    | .remote g, some x => some (((g % 2 ^ 48 : Nat) : Int) + x.1, ((g % 2 ^ 48 : Nat) : Int) + x.2)
    | _, _ => none))).map (fun x => (x.1.toNat, x.2.toNat))

end Sys2Proof.Machine
end

