-- ==== Sys2Proof/Machine/VectorEngine.lean ====
section
/-! DEFINITION. The vector engine: what each vector instruction writes (Table 4-8, R88-R90, R587, R588). Results are
written at VECTOR_RESULT, when the instruction completes. -/

namespace Sys2Proof.Machine

/-- Lanes of a vector register under a TYPE (0 FP32: 32 lanes; 1 BF16: 64 lanes). -/
def vLanes (ty : Nat) (v : VReg) : List Nat := if ty = 0 then lanes 32 32 v.toNat else lanes 16 64 v.toNat
/-- A vector register from its lanes. -/
def vPack (ty : Nat) (l : List Nat) : VReg := BitVec.ofNat 1024 (unlanes (if ty = 0 then 32 else 16) l)
/-- Value of a lane. -/
def vDec (ty x : Nat) : FVal := if ty = 0 then dec32 x else dec16b x
/-- A lane from a value, one rounding to nearest even (Table 3-5). -/
def vEnc (ty : Nat) (v : FVal) : Nat := if ty = 0 then enc32 v else enc16b v
/-- All ones of a lane. -/
def vOnes (ty : Nat) : Nat := if ty = 0 then 0xFFFFFFFF else 0xFFFF

/-- A lane-wise operation of one operand. -/
def vMap (ty : Nat) (f : Nat → Nat) (a : VReg) : VReg := vPack ty ((vLanes ty a).map f)
/-- A lane-wise operation of two operands. -/
def vZip (ty : Nat) (f : Nat → Nat → Nat) (a b : VReg) : VReg :=
  vPack ty (List.zipWith f (vLanes ty a) (vLanes ty b))

/-- VADD, VSUB, VMUL on a lane. -/
def laneAdd (ty x y : Nat) : Nat := vEnc ty (fadd (vDec ty x) (vDec ty y))
/-- Lane difference. -/
def laneSub (ty x y : Nat) : Nat := vEnc ty (fadd (vDec ty x) (fneg (vDec ty y)))
/-- Lane product. -/
def laneMul (ty x y : Nat) : Nat := vEnc ty (fmul (vDec ty x) (vDec ty y))
/-- Lane fused multiply-add, one rounding. -/
def laneFma (ty x y z : Nat) : Nat := vEnc ty (fadd (fmul (vDec ty x) (vDec ty y)) (vDec ty z))

/-- VADD (Table 4-8). -/
def vAdd (ty : Nat) (a b : VReg) : VReg := vZip ty (laneAdd ty) a b
/-- VSUB. -/
def vSub (ty : Nat) (a b : VReg) : VReg := vZip ty (laneSub ty) a b
/-- VMUL. -/
def vMul (ty : Nat) (a b : VReg) : VReg := vZip ty (laneMul ty) a b
/-- VFMA. -/
def vFma (ty : Nat) (a b c : VReg) : VReg :=
  vPack ty (List.zipWith (fun p z => laneFma ty p.1 p.2 z) ((vLanes ty a).zip (vLanes ty b)) (vLanes ty c))
/-- VMIN. -/
def vMin (ty : Nat) (a b : VReg) : VReg := vZip ty (fun x y => vEnc ty (fmin (vDec ty x) (vDec ty y))) a b
/-- VMAX. -/
def vMax (ty : Nat) (a b : VReg) : VReg := vZip ty (fun x y => vEnc ty (fmax (vDec ty x) (vDec ty y))) a b
/-- VABS: the sign bit cleared; a NaN lane gives the canonical NaN (R47). -/
def vAbs (ty : Nat) (a : VReg) : VReg :=
  vMap ty (fun x => if fisNan (vDec ty x) then vEnc ty .nan else x % 2 ^ (if ty = 0 then 31 else 15)) a

/-- A VCMP condition on two lane values: with a NaN only NE and UNORD are true. -/
def laneCond (cond : Nat) (x y : FVal) : Bool :=
  let un := fisNan x || fisNan y
  match cond with
  | 0 => !un && feq x y
  | 1 => un || !feq x y
  | 2 => !un && flt x y
  | 3 => !un && (flt x y || feq x y)
  | 4 => !un && flt y x
  | 5 => !un && (flt y x || feq x y)
  | _ => un
/-- VCMP. -/
def vCmp (ty cond : Nat) (a b : VReg) : VReg :=
  vZip ty (fun x y => if laneCond cond (vDec ty x) (vDec ty y) then vOnes ty else 0) a b
/-- VSEL: a where the bits of c are not all 0, else b; bits only move (R47, log entry 20). DEDUCED (log entry 20). -/
def vSel (ty : Nat) (a b c : VReg) : VReg :=
  vPack ty (List.zipWith (fun p z => if z = 0 then p.2 else p.1) ((vLanes ty a).zip (vLanes ty b)) (vLanes ty c))

/-- VCVT: every source lane converted and packed from byte 0, bytes above written 0; BF16 to FP32 takes the half HI
names (R587). -/
def vCvt (ty code : Nat) (hi : Bool) (a : VReg) : VReg :=
  let xs := (vLanes ty a).map (fun x => narrow code (vDec ty x))
  let ys := if ty = 1 ∧ code = 0 then (if hi then xs.drop 32 else xs.take 32) else xs
  BitVec.ofNat 1024 (unlanes (typeBits code) ys)

/-- VDIV, correctly rounded. -/
def vDiv (ty : Nat) (a b : VReg) : VReg := vZip ty (fun x y => vEnc ty (fdiv (vDec ty x) (vDec ty y))) a b
/-- VSQRT, correctly rounded. -/
def vSqrt (ty : Nat) (a : VReg) : VReg := vMap ty (fun x => vEnc ty (fsqrt (vDec ty x))) a
/-- A transcendental procedure of R90 on each lane; BF16 widens exactly and rounds once to BF16 (R588 text). -/
def vTrans (ty : Nat) (f : Nat → Nat) (a : VReg) : VReg :=
  vMap ty (fun x => if ty = 0 then f x else enc16b (dec32 (f (enc32 (dec16b x))))) a

/-- Add adjacent lanes pairwise. -/
def pairSums (ty : Nat) : List Nat → List Nat
  | x :: y :: r => laneAdd ty x y :: pairSums ty r
  | l => l
/-- The fixed tree over 32 lanes (R89). -/
def tree32 (ty : Nat) (l : List Nat) : Nat :=
  nth (pairSums ty (pairSums ty (pairSums ty (pairSums ty (pairSums ty l))))) 0
/-- VRSUM: lane sum into lane 0, other lanes 0; BF16 sums lanes 32-63, then 0-31, then adds the two (R89). -/
def vRsum (ty : Nat) (a : VReg) : VReg :=
  let l := vLanes ty a
  vPack ty [if ty = 0 then tree32 ty l else laneAdd ty (tree32 ty (l.take 32)) (tree32 ty (l.drop 32))]
/-- VBCAST: every lane takes the low bits of a general register. -/
def vBcast (ty : Nat) (g : W64) : VReg :=
  if ty = 0 then vPack 0 (List.replicate 32 (g.toNat % 2 ^ 32)) else vPack 1 (List.replicate 64 (g.toNat % 2 ^ 16))
/-- VMOVG: one lane, zero-extended (R588). -/
def vLane (ty i : Nat) (a : VReg) : W64 := BitVec.ofNat 64 (nth (vLanes ty a) i)

/-- What a vector instruction writes to its destination vector register, over the sources it names; VLD, VST, VLDA,
VSTA and VMOVG have their own effects. -/
def vecArith (c : Core) (w : W64) (reg : W64) : VReg :=
  let ty := fld w 27 26
  let a := getV c (fld w 42 38)
  let b := getV c (fld w 37 33)
  let d := getV c (fld w 32 28)
  match opc w with
  | 0x60 => vAdd ty a b
  | 0x61 => vSub ty a b
  | 0x62 => vMul ty a b
  | 0x63 => vFma ty a b d
  | 0x64 => vMin ty a b
  | 0x65 => vMax ty a b
  | 0x66 => vAbs ty a
  | 0x67 => vCmp ty (fld w 2 0) a b
  | 0x68 => vSel ty a b d
  | 0x69 => vCvt ty (fld w 25 22) (bit w 21) a
  | 0x6A => vDiv ty a b
  | 0x6B => vSqrt ty a
  | 0x6C => vTrans ty vrcp a
  | 0x6D => vTrans ty vrsq a
  | 0x6E => vTrans ty vexp2 a
  | 0x6F => vTrans ty vlog2 a
  | 0x70 => vRsum ty a
  | _ => vBcast ty reg

/-- Module address of byte i of the 128 bytes a VLD or VST names. -/
def vmemAddr (c : Core) (n : Nat) (f : Flight) (i : Nat) : Nat :=
  coreAddr n (hByte (getH c (fld f.word 37 32)) ((vmemOff f.word f.reg).toNat + i))

/-- Module address of byte i of the accumulator row pair a VLDA or VSTA names (R120). -/
def vaccAddr (n : Nat) (w : W64) (i : Nat) : Nat := accAddr n (fld w 37 32 * 0x400 + fld w 31 29 * 0x80 + i)

/-- The effect of a vector instruction at its completion (Table 4-8). -/
def vecEffect (s : State) (n : Nat) (f : Flight) : State :=
  let w := f.word
  let c := core s n
  let D := fld w 47 43
  if opc w = 0x72 then
    let l0 := (vmemOff w f.reg).toNat / 64
    let h := getH c (fld w 37 32)
    let lo := flightLine s n f 0 (hLine h l0)
    let hi := flightLine s n f 1 (hLine h (l0 + 1))
    let s1 := if f.olds.isEmpty then s else bumpFree s
    setCore s1 n (setV (core s1 n) D (BitVec.ofNat 1024 (lo + hi * 2 ^ 512)))
  else if opc w = 0x73 then
    let cells := mapIx (fun i b => (vmemAddr c n f i, b)) 0 (toBytes 128 (getV c D).toNat)
    { s with mem := writeCells s.mem cells }
  else if opc w = 0x74 then
    setCore s n (setV c D (BitVec.ofNat 1024 (readLe s.mem (vaccAddr n w 0) 128)))
  else if opc w = 0x75 then { s with mem := writeLe s.mem (vaccAddr n w 0) 128 (getV c D).toNat }
  else if opc w = 0x76 then setCore s n (setG c D (vLane (fld w 27 26) (fld w 5 0) (getV c (fld w 42 38))))
  else setCore s n (setV c D (vecArith c w f.reg))

/-- Does the instruction use the vector engine's multipliers and adders, which carry checks (R444)? -/
def vecChecked (w : W64) : Bool := (0x60 ≤ opc w && opc w ≤ 0x63) || (0x6A ≤ opc w && opc w ≤ 0x70)

/-- VECTOR_RESULT (R88): the oldest vector instruction completes and writes its destination. -/
def vectorResult (s : State) (n : Nat) (chk : Chk) : State :=
  match (unitFlights (core s n) .vec).head? with
  | none => s
  | some f => withCheck s n f (if vecChecked f.word then chk else .pass) (fun s => vecEffect s n f)

/-- VECTOR_RESULT (R88). -/
def execVectorResult (core : Nat) (chk : Chk) (s : State) : Host.Outcome State Fault Refusal :=
  .next (vectorResult s core chk)

end Sys2Proof.Machine
end

