-- ==== Sys2Proof/Machine/Sequencer.lean ====
section
/-! DEFINITION. The sequencer (R56-R66): holds, issue checks, and what each core instruction does at its issue. A row
command of a core instruction is the core's attempt to issue the word at its PC; it has no effect unless that word has the
row's opcode and the core may issue. -/

namespace Sys2Proof.Machine

/-! ### Local Accord copies (R279, R280) -/

/-- The local copy of a unit: the master and the copy's error. Units: cluster 0-255, 300 + site (memory controller), 400 +
site (stack engine), 500 + die (queue engine), 600 + x (I/O die). DESIGN CHOICE (log entry 8). -/
def localCopy (s : State) (u : Nat) : Nat := ((s.accord.master : Int) + sget 0 s.accord.copyErr u).toNat

/-- The stamp a LAUNCH_AT word names, or the one a stamped record launches at (R267). -/
def stampOf (c : Core) (w : W64) : Nat := c.startAt.getD (getG c (fld w 42 38)).toNat

/-! ### Scalar results (Table 4-2) -/

/-- Signed value of a general register. -/
def sgn (x : W64) : Int := sval 64 x.toNat

/-- IMM32 sign-extended to 64 bits. -/
def immOf (w : W64) : W64 := BitVec.ofInt 64 (sval 32 (fld w 31 0))

/-- Second operand: GB, or IMM32 sign-extended (R60). -/
def opnd2 (c : Core) (w : W64) : W64 := if bit w 32 then immOf w else getG c (fld w 37 33)

/-- What a scalar instruction writes to GD (Table 4-2). -/
def scalarVal (s : State) (n : Nat) (w : W64) : W64 :=
  let c := core s n
  let a := getG c (fld w 42 38)
  let b := opnd2 c w
  let sh := b.toNat % 64
  match opc w with
  | 0x01 => a + b
  | 0x02 => a - b
  | 0x03 => a * b
  | 0x04 => a &&& b
  | 0x05 => a ||| b
  | 0x06 => a ^^^ b
  | 0x07 => a <<< sh
  | 0x08 => a >>> sh
  | 0x09 => a.sshiftRight sh
  | 0x0A => if sgn a < sgn b then 1 else 0
  | 0x0B => if a.toNat < b.toNat then 1 else 0
  | 0x0C => BitVec.ofNat 64 (fld w 31 0 * 2 ^ 32 ||| fld a 31 0)
  | 0x0D => BitVec.ofNat 64 (getCtr c (fld w 4 0)).toNat
  | 0x0E => BitVec.ofNat 64 (localCopy s (n / 16))
  | _ => BitVec.ofNat 64 (coreCaps s n)

/-! ### Refusals and the end of an issue -/

/-- Refuse the instruction at PC: the core stops, ERR_INFO_HI holding its PC (R62, R97). DEDUCED (log entry 5). -/
def refuse (s : State) (n code lo : Nat) : State :=
  stopCore (modCore s n (fun c => { c with state := .running })) n code lo (core s n).pc

/-- The instruction at PC has issued: PC advances to `pc`, its wait target by its step, a hold ends (R82). -/
def issued (s : State) (n : Nat) (w : W64) (pc : Nat) : State :=
  modCore s n (fun c =>
    let k := waitCtr w
    { c with pc := pc, hold := none, state := .running,
             tgt := if waitEn w then sput c.tgt k (sget 0 c.tgt k + BitVec.ofNat 32 (sget (0 : Byte) c.stp k).toNat) else c.tgt })

/-- Error of a destination core named by SIGNAL or a credit (R85). -/
def destErr (s : State) (n dst : Nat) : Option Nat :=
  if !coreOn s dst then some 0x0101 else if partOfCore s dst != partOfCore s n then some 0x0102 else none

/-- Mover flights in progress, which a fenced increment waits for (R85). -/
def moverIds (c : Core) : List Nat := (unitFlights c .mover).map (·.id)

/-! ### What each class does at issue -/

/-- Does HSET refuse the entry for handle h (R73)? -/
def hsetBad (c : Core) (h : Nat) (e : W64) : Bool :=
  hBad e || (hValid e && hChecked e && (checkedHandles c).any (fun x => x.1 != h && hMeet x.2 e))

/-- Slots HREL releases. -/
def hrelN (w : W64) : Nat := if fld w 41 36 = 0 then 64 else fld w 41 36

/-- Does HREL still wait: an earlier instruction in flight reads a line of a slot it releases (R79)? -/
def hrelWaits (c : Core) (w : W64) : Bool :=
  let h := fld w 47 42
  let e := getH c h
  let sl := getSlots c h
  let rel := (List.range (min (hrelN w) (hSlots e))).map (fun i => (sl.rel + i) % hSlots e)
  c.flights.any (fun f => f.spans.any (fun x =>
    x.1 == h && !x.2.2.2 && (List.range x.2.2.1).any (fun i => rel.contains (slotOf e (x.2.1 + i)))))

/-- Does UFENCE still wait (R65)? -/
def ufenceWaits (c : Core) (w : W64) : Bool :=
  c.flights.any (fun f =>
    match f.unit with
    | .array => bit w 40
    | .merge => bit w 41
    | .vec => bit w 42
    | .mover => bit w 43)

/-- Tiles a chained MMA.D need not wait for: the tile of the MMA.D directly ahead of it in the array's queue (R111). See R134. -/
def chainTile (c : Core) (w : W64) : Option Nat :=
  match (unitFlights c .array).getLast? with
  | some f => if opc w = 0x40 && bit w 41 && fld f.word 47 42 == fld w 47 42 then some (fld w 47 42) else none
  | none => none

/-- Does R63 hold the instruction, given what it reads and writes? DESIGN CHOICE (log entry 2). -/
def hazards (c : Core) (w : W64) (rd wr : List Res) : Bool :=
  c.flights.any (fun f =>
    match chainTile c w with
    | some t => if f.unit = .array then hazard (rd.filter (· != .t t)) (wr.filter (· != .t t)) f else hazard rd wr f
    | none => hazard rd wr f)

/-- Is the unit's queue full (R56)? DESIGN CHOICE (log entry 2). -/
def queueFull (c : Core) (u : CUnit) : Bool := decide (4 ≤ (unitFlights c u).length)

/-- Scalar, control, handle and synchronisation instructions: checks, effect, next PC. HREL's credit destination is checked before its
handle and slots. DEDUCED (log entry 33). -/
def issueLocal (s : State) (n : Nat) (w : W64) : State :=
  let c := core s n
  let o := opc w
  let H := fld w 47 42
  let tgtPc : Int := (c.pc : Int) + sval 32 (fld w 31 0)
  if illegal w then refuse s n 0x0201 0
  else if o = 0x10 ∨ o = 0x11 ∨ o = 0x12 then
    if tgtPc < 0 ∨ (c.progLen : Int) ≤ tgtPc then refuse s n 0x0208 0
    else
      let z := getG c (fld w 42 38) == 0
      let taken := o = 0x10 ∨ (o = 0x11 ∧ z) ∨ (o = 0x12 ∧ !z)
      issued s n w (if taken then tgtPc.toNat else c.pc + 1)
  else if o = 0x13 then modCore (issued s n w (c.pc + 1)) n (fun c => { c with ended := true })
  else if 0x01 ≤ o ∧ o ≤ 0x0F then
    issued (setCore s n (setG c (fld w 47 43) (scalarVal s n w))) n w (c.pc + 1)
  else if o = 0x20 then
    let e := getG c (fld w 41 37)
    if hsetBad c H e then refuse s n 0x0205 0
    else issued (setCore s n { c with handles := sput c.handles H (e &&& 0xFFFFFFFFFFFFF000),
                                      slots := sput c.slots H { full := 0, fill := 0, rel := 0 } }) n w (c.pc + 1)
  else if o = 0x21 then
    let e := getH c H
    let dst := fld w 34 23
    match (if bit w 35 then destErr s n dst else none) with
    | some code => refuse s n code 0
    | none =>
      if !hValid e then refuse s n 0x0203 0
      else
        let r := relSlots (hSlots e) (hrelN w) (getSlots c H) false
        if hChecked e && r.2 then refuse s n 0x0206 0
        else
          let s1 := if hChecked e then setCore s n { c with slots := sput c.slots H r.1 } else s
          let s2 := issued s1 n w (c.pc + 1)
          if bit w 35 then sendInc s2 n dst (fld w 22 18) (hrelN w) [] else s2
  else if o = 0x29 then
    match destErr s n (fld w 47 36) with
    | some code => refuse s n code 0
    | none => sendInc (issued s n w (c.pc + 1)) n (fld w 47 36) (fld w 35 31) (fld w 15 0) (if bit w 30 then moverIds c else [])
  else if o = 0x2A then
    let x : W32 := BitVec.ofNat 32 (fld (getG c (fld w 42 38)) 31 0 + fld w 31 0)
    issued (setCore s n { c with ctr := sput c.ctr (fld w 47 43) x }) n w (c.pc + 1)
  else if o = 0x2B then
    let s1 := issued s n w (c.pc + 1)
    modCore s1 n (fun c1 => { c1 with
      tgt := sput c1.tgt (fld w 47 43) (BitVec.ofInt 32 ((fld (getG c (fld w 42 38)) 31 0 : Int) + sval 24 (fld w 23 0)))
      stp := sput c1.stp (fld w 47 43) (BitVec.ofNat 8 (fld w 31 24)) })
  else issued s n w (c.pc + 1)

/-- Spans of an array, merge or vector instruction. -/
def unitSpans (w : W64) (reg : W64) : List Span :=
  let o := opc w
  if o = 0x40 then (mmadRuns w reg).map (fun r => (r.1, r.2.1, r.2.2, false))
  else if o = 0x41 ∨ o = 0x42 then (mmasRuns w reg).map (fun r => (r.1, r.2.1, r.2.2, false))
  else if o = 0x72 ∨ o = 0x73 then [(fld w 37 32, (vmemOff w reg).toNat / 64, 2, o == 0x73)]
  else []

/-- The handle checks of a compute-port instruction; a VLD or VST adds the alignment of R88. -/
def unitHandleErr (c : Core) (w : W64) (reg : W64) (sp : List Span) : Option Nat :=
  let o := opc w
  if (o = 0x72 ∨ o = 0x73) ∧ hValid (getH c (fld w 37 32)) ∧ (vmemOff w reg < 0 ∨ vmemOff w reg % 128 ≠ 0) then some 0x0204
  else handleErr c sp

/-- The general register an array, merge or vector instruction names for offsets or values. -/
def regOf (c : Core) (w : W64) : W64 :=
  if 0x40 ≤ opc w ∧ opc w ≤ 0x42 then getG c (fld w 10 6) else getG c (fld w 42 38)

/-- Array, merge-engine and vector instructions: the waits of R63 and R56, the checks of R62, then the unit's queue. DEDUCED (log entry 33). -/
def issueUnit (s : State) (n : Nat) (w : W64) (u : CUnit) : State :=
  let c := core s n
  let reg := regOf c w
  let rd := readsOf w reg
  let wr := writesOf w
  if hazards c w rd wr || queueFull c u then s
  else
    match encErr (arrayCols s n) reg w with
    | some e => refuse s n e.1 e.2
    | none =>
      let sp := unitSpans w reg
      match unitHandleErr c w reg sp with
      | some code => refuse s n code 0
      | none => match slotErr c sp with
        | some code => refuse s n code 0
        | none =>
          let ls := spanLines c sp
          let bk := banksOf ls
          match bankErr c u bk with
          | some e => refuse s n 0x0202 (e.1 + e.2 * 16 + unitCode (opc w) * 256)
          | none =>
            let k := cluster s (n / 16)
            let f := { mkFlight u w c.pc reg rd wr with
              spans := sp, banks := bk, lines := if opc w = 0x73 then [] else ls,
              thresh := threshOf k (fld reg 60 59), rowSplit := rowSplitOf k }
            enqueue (issued s n w (c.pc + 1)) n f

/-! ### Movers -/

/-- The network writes of a mover flight to another core: one message per scratchpad line (R301), or one per element for a reduce-store
(R170). The mover injects them while later instructions issue (R309). DEDUCED (log entry 6). -/
def moveMsgs (s : State) (n id : Nat) (v : MoveView) : List NetMsg :=
  let d := v.dst
  let msg := fun (cs : List Host.Cell) (dst : Nat) (r : Option (Nat × Bool × Nat)) =>
    ({ src := n, flight := id, dst := dst, cells := cs, red := r, inc := none, fence := [], injected := false } : NetMsg)
  let coreAt := fun (a : Nat) => (a - coreWin) / 0x40000
  if opc v.word = 0x4B ∧ !d.ctile then
    let b := planeBase s n d.kind d.base
    (reduceContribs n v).map (fun x =>
      let a := planeAddr s n b (x.1 / 8)
      msg [(a, 0)] (coreAt a) (some (d.ty, fld v.word 20 19 == 1, x.2 s)))
  else
    let cs := if opc v.word = 0x4B then ctileFree s n v else moveCells s n v
    (linesOf (cs.map (·.1))).map (fun l => msg (cs.filter (fun c => c.1 / 64 == l)) (coreAt (64 * l)) none)

/-- Does a mover's destination lie in another core's scratchpad? -/
def toOtherCore (s : State) (n : Nat) (v : MoveView) : Bool :=
  (planes s n v.dst v.de true).any (fun p => decide (planePlace n p = .otherSpad))

/-- Is a mover's destination a global address on another endpoint (R169)? -/
def toRemote (s : State) (n : Nat) (v : MoveView) : Bool := !(remoteIds (planes s n v.dst v.de true)).isEmpty

/-- Counts the free values a move uses: the order of a source and destination that share bytes, the CTILE bytes of a MOVE.X. -/
def bumpMove (s : State) (n : Nat) (v : MoveView) : State :=
  if sharedBytes s n v || (opc v.word == 0x4B && v.dst.ctile) then bumpFree s else s

/-- Mover instructions: the descriptor reads with their handle and slot checks, the checks of Table 7-10, the places and
addresses, the waits of R63 and R123, then the mover queue (R137, R160, R168). DEDUCED (log entry 6). DEDUCED (log entry 33). -/
def issueMove (s : State) (n : Nat) (w : W64) : State :=
  let c := core s n
  let hd := fld w 47 42
  let g := getG c (fld w 41 37)
  let base : List Res := rG (fld w 41 37) ++ [.h hd]
  if hazards c w base [] || queueFull c .mover then s
  else if illegal w then refuse s n 0x0201 0
  else
    let dsp : List Span := [(hd, fld g 15 0, 2, false), (hd, fld g 31 16, 2, false)]
    match handleErr c dsp with
    | some code => refuse s n code 0
    | none => match slotErr c dsp with
      | some code => refuse s n code 0
      | none =>
        let rdLines := fun (first : Nat) =>
          readBytes s.mem (coreAddr n (64 * hLine (getH c hd) first)) 64
            ++ readBytes s.mem (coreAddr n (64 * hLine (getH c hd) (first + 1))) 64
        let sb := rdLines (fld g 15 0)
        let db := rdLines (fld g 31 16)
        let src := parseDesc sb
        let dst := parseDesc db
        let ctx : MoveCtx := { op := opc w, tr := bit w 22, split := fld w 24 23, seqOfs := fld g 38 32, src := src, dst := dst }
        match descErr s n ctx descCodes with
        | some e => refuse s n e.1 e.2
        | none =>
          let se := usedSeq s n src ctx.seqOfs
          let de := usedSeq s n dst ctx.seqOfs
          let ps := planes s n src se false ++ planes s n dst de true
          match targetErr n w src dst ps with
          | some e => refuse s n e.1 e.2
          | none =>
            let sp := planeSpans ps
            let tiles := fun (d : Bool) => (ps.filter (fun p => p.dst == d)).foldr (fun p acc => planeTiles n p ++ acc) []
            let rd := base ++ (sp.filter (fun x => !x.2.2.2)).map (fun x => Res.h x.1) ++ (tiles false).map Res.t
            let wr := (sp.filter (fun x => x.2.2.2)).map (fun x => Res.h x.1) ++ (tiles true).map Res.t
            if hazards c w rd wr then s
            else
              match addrErrs s n src dst ps with
              | some e => refuse s n e.1 e.2
              | none => match planeHandleErr s n ps with
                | some e => refuse s n e.1 e.2
                | none => match slotErr c (sp.filter (fun x => !x.2.2.2 || opc w == 0x48)) with
                  | some code => refuse s n code 0
                  | none =>
                    let f := { mkFlight .mover w c.pc g rd wr with
                      spans := dsp ++ sp, src := sb, dst := db, srcSeq := se, dstSeq := de, started := true }
                    let v := moveView f
                    let other := toOtherCore s n v
                    let s1 := enqueue (issued s n w (c.pc + 1)) n { f with sent := other }
                    if other then { bumpMove s1 n v with net := s1.net ++ moveMsgs s1 n c.nextId v } else s1

/-! ### Issue -/

/-- Try to issue word w at PC, its counter wait met: LAUNCH_AT may still hold it (R86); waits of R63, R65 and R79 leave
everything unchanged and the attempt is made again. DESIGN CHOICE (log entry 1). DESIGN CHOICE (log entry 2). DEDUCED (log entry 33). -/
def tryIssue (s : State) (n : Nat) (w : W64) : State :=
  let c := core s n
  let o := opc w
  match unitOf o with
  | some .mover => issueMove s n w
  | some u => if illegal w then refuse s n 0x0201 0 else issueUnit s n w u
  | none =>
    if illegal w then refuse s n 0x0201 0
    else if hazards c w (readsOf w 0) (writesOf w) then s
    else if o = 0x2D ∧ ufenceWaits c w then s
    else if o = 0x21 ∧ hrelWaits c w then s
    else if o = 0x2C ∧ localCopy s (n / 16) < stampOf c w then
      setCore s n (startHold s n { c with state := .waiting, hold := some { launch := true, since := now s, limited := false } })
    else issueLocal s n w

/-- The word at PC. DESIGN CHOICE (log entry 2). -/
def wordAt (c : Core) : W64 := c.prog.getD c.pc 0

/-- A core's attempt to issue the word at its PC when it has opcode o (R56, R57, R63). DESIGN CHOICE (log entry 2). -/
def coreRow (s : State) (n o : Nat) : State :=
  let c := core s n
  if !canIssue s n then s
  else if c.progLen ≤ c.pc then stopCore s n 0x0208 0 c.progLen
  else
    let w := wordAt c
    if opc w ≠ o then s
    else if waitEn w && !waitMet c (waitCtr w) then
      setCore s n (startHold s n { c with state := .waiting, hold := some { launch := false, since := now s, limited := false } })
    else tryIssue s n w

/-- A corrected error of a core's stores (R451, R452). DESIGN CHOICE (log entry 34). -/
def coreCe (s : State) (n : Nat) : State :=
  correctedBlotter (modCore s n (fun c => { c with sramCe := satInc c.sramCe 1 })) (pgCore n) (coreBlotter s 1 0 0 n)

/-- An uncorrectable read of a core's stores: error recorded, partition reset (R451, R125). DESIGN CHOICE (log entry 34). -/
def coreUe (s : State) (n code : Nat) : State :=
  resetByFault (recordErr s (pgCore n) code 0 0) (partOfCore s n) (coreBlotter (recordErr s (pgCore n) code 0 0) 9 code 3 n)

/-- Does core n attempt the word at its PC as an instruction of opcode o? -/
def attempts (s : State) (n o : Nat) : Bool :=
  let c := core s n
  canIssue s n && decide (c.pc < c.progLen) && opc (wordAt c) == o

/-- Has core n issued an instruction that reads accumulators between two states (R125)? -/
def readsAcc (s s1 : State) (n : Nat) : Bool :=
  (core s1 n).flights.any (fun f => f.id == (core s n).nextId && f.rd.any (fun r => match r with
    | .t _ => true
    | _ => false))

/-- The duplicated sequencer disagrees: the core stops with SEQ_CHECK (class 5, R443); nothing of the instruction takes
place. DESIGN CHOICE (log entry 34). -/
def seqCheck (s : State) (n : Nat) : State :=
  let c := core s n
  let s1 := stopCore s n 0x0256 0 0
  issueBlotter s1 { coreBlotter s1 5 0x0256 2 n with insn := (wordAt c).toNat, pcAt := c.pc }

/-- A core's attempt to issue with what it meets (R443, R451): the program buffer, handle table and scratchpad are read at any attempt,
the accumulators by an instruction that names them as a source. An uncorrectable read and a sequencer fault come before the
instruction takes effect. DESIGN CHOICE (log entry 34). -/
def coreRowMet (s : State) (n o : Nat) (m : Met) : State :=
  let s1 := coreRow s n o
  if !attempts s n o then s1
  else match m with
    | .clean => s1
    | .spadCorrected => coreCe s1 n
    | .spadUncorrectable => coreUe s n 0x0257
    | .accCorrected => if readsAcc s s1 n then coreCe s1 n else s1
    | .accUncorrectable => if readsAcc s s1 n then coreUe s n 0x0258 else s1
    | .seqFault => seqCheck s n

/-! ### Completion -/

/-- Destination core of a move to another core's scratchpad: that of its lowest touched byte (R140). -/
def moveDstCore (s : State) (n : Nat) (v : MoveView) : Option Nat :=
  match spanOf (localSpans (planes s n v.dst v.de true)) with
  | some x => match addrPlace x.1.toNat with
    | .spad m _ => some m
    | _ => none
  | none => match addrPlace (planeAddr s n (planeBase s n v.dst.kind v.dst.base) 0) with
    | .spad m _ => some m
    | _ => none

/-- What follows a move's completion: CMP_CTR, then RMT_CTR behind the core's earlier mover writes, as SIGNAL with FENCE (R85, R167). DEDUCED (log entry 6). -/
def moveDone (s : State) (n : Nat) (f : Flight) : State :=
  let v := moveView f
  let s1 := complete (releaseFence s n f.id) n f
  let s2 := if bit f.word 36 then applyInc s1 n (fld f.word 35 31) 1 else s1
  match (if bit f.word 30 then moveDstCore s n v else none) with
  | some m =>
    if f.xfer.isSome then s2
    else sendInc s2 n m (fld f.word 29 25) 1 ((moverIds (core s2 n)).filter (fun i => decide (i < f.id)))
  | none => s2

/-- Write the bytes of a local move: scratchpad bytes of core n through the mover port, HBM bytes through the controllers, the rest in
place. -/
def localWrite (s : State) (n : Nat) (cs : List Host.Cell) : State :=
  let mine := fun (c : Host.Cell) => match addrPlace c.1 with
    | .spad _ _ => true
    | _ => false
  let far := (cs.filter (fun c => decide (c.1 < 2 ^ 40))).map (·.1)
  let s0 := coreHbm s n far true
  let s1 := { s0 with mem := writeCells s0.mem (cs.filter (fun c => !mine c)) }
  if cs.any mine then portWrite s1 n (cs.filter mine) else s1

/-- A reduce-store into memory of the core's own scratchpad or HBM (R170). Where source and destination share bytes, each contribution
reads the bytes before the instruction or bytes it has written (R164). DEDUCED (log entry 6). -/
def localReduce (s : State) (n : Nat) (v : MoveView) : State :=
  let b := planeBase s n v.dst.kind v.dst.base
  let k := typeBits v.dst.ty / 8
  let sh := sharedBytes s n v
  (mapIx (fun i x => (i, x)) 0 (reduceContribs n v)).foldl (fun t x =>
    let a := planeAddr s n b (x.2.1 / 8)
    let val := x.2.2 (if sh && Config.pick s.freeCtr (2 * x.1 + 1) % 2 == 1 then t else s)
    let m := reduceAt t.mem v.dst.ty (fld v.word 20 19 == 1) a val
    localWrite t n ((List.range k).map (fun i => (a + i, readByte m (a + i))))) (bumpMove s n v)

/-- The lines of a move's destination in HBM that its write leaves in part: the controller reads them first (R202). -/
def mergedAddrs (s : State) (n : Nat) (v : MoveView) (cs : List Host.Cell) : List Nat :=
  let as := (cs.map (·.1)).filter (fun a => decide (a < 2 ^ 40))
  if opc v.word = 0x4B then (reduceContribs n v).map (fun x => planeAddr s n (planeBase s n v.dst.kind v.dst.base) (x.1 / 8))
  else as.filter (fun a => !((List.range 64).all (fun i => as.contains (a / 64 * 64 + i))))

/-- The reads of a move outside its own core: flits and requests, and what the codewords of HBM it reads meet (R203, R312). -/
def moveReads (s : State) (n : Nat) (v : MoveView) (merged : List Nat) (es : List (Nat × Ecc)) : State :=
  let as := srcAddrs s n v
  let hs := as.filter (fun a => decide (a < 2 ^ 40))
  let s1 := (linesOf as).foldl (fun s l => match addrPlace (64 * l) with
    | .spad m _ => if m = n then s else countPath (countPath s (corePath n m) 1) (corePath m n) 1
    | _ => s) (coreHbm s n hs false)
  hbmMeets s1 (hs ++ merged) es

/-- The routers of a path before cluster g. -/
def pathBefore (p : List (Nat × NetLink)) (g : Nat) : List (Nat × NetLink) := p.takeWhile (fun e => e.1 != g)

/-- Blotter of a cluster page. See R317. -/
def clusterBlotter (s : State) (cls code g : Nat) : Blotter :=
  { blank cls code 3 3 g with infoLo := (hdr s (pgCluster g)).infoLo.toNat, infoHi := (hdr s (pgCluster g)).infoHi.toNat }

/-- What became of the flits of an access on a path, k of them, for destination unit `dst` of partition q: `take` when they reach it; a
poisoned one reaches it and its partition is reset, one with an unreadable header is discarded and every partition on the die is reset, both
with NET_FLIT_UE (R314); a logic fault of the bridge or an edge crossbar resets every partition (R453). DESIGN
CHOICE (log entry 66). DESIGN CHOICE (log entry 7). -/
def flitMeets (s : State) (p : List (Nat × NetLink)) (k dst q : Nat) (o : FlitOut) (take : State → State) : State :=
  match o with
  | .good => take (countPath s p k)
  | .corrected g =>
    let s1 := modCluster (countPath s p k) g (fun k => { k with netCe := k.netCe + 1 })
    take (correctedBlotter s1 (pgCluster g) { clusterBlotter s1 1 0 g with action := 0 })
  | .payload g link =>
    let s1 := recordErr (take (countPath s p k)) (pgCluster g) 0x0301 link dst
    resetByFault s1 q (clusterBlotter s1 9 0x0301 g)
  | .header g link =>
    let s1 := recordErr (countPath s (pathBefore p g) k) (pgCluster g) 0x0301 link 0
    resetsByFault s1 (dieParts s (g / 128)) (clusterBlotter s1 9 0x0301 g)
  | .crossbar => resetsByFault s (List.range (nParts s)) (blank 9 0 3 4 0)

/-- Do a move's accesses leave its core: it reads another core's scratchpad or HBM, or writes HBM? -/
def moveOnNet (s : State) (n : Nat) (v : MoveView) (as : List Nat) : Bool :=
  (srcAddrs s n v ++ as).any (fun a => decide (a < 2 ^ 40) || (match addrPlace a with
    | .spad m _ => m != n
    | _ => false))

/-- MOVE_COMPLETE (R167, R168): mover instruction number `which` of the core writes its destination (or its writes through the
network have all landed) and completes. Poisoned data is not written: its partition is reset (R203). DEDUCED (log entry 6). -/
def moveComplete (s : State) (n which : Nat) (es : List (Nat × Ecc)) (o : FlitOut) : State :=
  match (unitFlights (core s n) .mover)[which]? with
  | none => s
  | some f =>
    let v := moveView f
    if toRemote s n v then s
    else if f.sent && s.net.any (fun m => m.src == n && m.flight == f.id) then s
    else
      let cs := if f.sent then [] else if opc f.word = 0x4B then (if v.dst.ctile then ctileFree s n v else []) else moveCells s n v
      let merged := if f.sent then [] else mergedAddrs s n v cs
      let rd := (srcAddrs s n v).filter (fun a => decide (a < 2 ^ 40)) ++ merged
      let work := fun (s : State) =>
        let s1 := moveReads s n v merged es
        if hbmPoison rd es then s1
        else if f.sent then moveDone s1 n f
        else if opc f.word = 0x4B ∧ !v.dst.ctile then moveDone (localReduce s1 n v) n f
        else moveDone (localWrite (bumpMove s1 n v) n cs) n f
      if moveOnNet s n v (cs.map (·.1) ++ merged) then flitMeets s [] 0 n (partOfCore s n) o work else work s

/-! ### The network's end at a core -/

/-- The data of a WR flit lands (R70, R170), then its increment is applied (R307). -/
def landMsg (s : State) (m : NetMsg) : State :=
  let s1 := match m.red, m.cells with
    | some r, c :: _ =>
      let k := typeBits r.1 / 8
      let mm := reduceAt s.mem r.1 r.2.1 c.1 r.2.2
      portWrite s m.dst ((List.range k).map (fun i => (c.1 + i, readByte mm (c.1 + i))))
    | _, [] => s
    | none, cs => portWrite s m.dst cs
  match m.inc with
  | some (i, k) => applyInc s1 m.dst i k
  | none => s1

/-- A flit reaches a core in TESTING: it is refused and its writer records CORE_TESTING (R93). DESIGN CHOICE (log entry 7). -/
def refuseTesting (s : State) (m : NetMsg) : State := recordErr s (srcPage m.src) 0x0209 0 0

/-- A flit reaches its core; a write is acknowledged by a response flit where its source is a core (R300). DESIGN CHOICE (log entry 67). -/
def arriveFlit (s : State) (m : NetMsg) : State :=
  let s1 := if m.src < 4096 ∧ !m.cells.isEmpty then countPath s (corePath m.dst m.src) 1 else s
  if (core s1 m.dst).state = .testing then refuseTesting s1 m else landMsg s1 m

/-- Message i comes off the network: what became of its flit (R314). DESIGN CHOICE (log entry 7). -/
def landFlit (s : State) (i : Nat) (m : NetMsg) (o : FlitOut) : State :=
  flitMeets (netDrop s i) (unitCorePath s m.src m.dst) 1 m.dst (partOfCore s m.dst) o (fun s => arriveFlit s m)

/-- REMOTE_WRITE_LAND (R70): write number `which` in flight to core n arrives. -/
def remoteWriteLand (s : State) (n which : Nat) (o : FlitOut) : State :=
  match netPick s n which (fun m => !m.cells.isEmpty) with
  | none => s
  | some i => match s.net[i]? with
    | some m => if mayArrive s i then landFlit s i m o else s
    | none => s

/-- COUNTER_INCREMENT (R81): increment number `which` in flight to core n arrives. -/
def counterIncrement (s : State) (n which : Nat) (o : FlitOut) : State :=
  match netPick s n which (fun m => m.cells.isEmpty) with
  | none => s
  | some i => match s.net[i]? with
    | some m => if mayArrive s i then landFlit s i m o else s
    | none => s

/-! ### Program end, waits and holds -/

/-- TILE_PROGRAM_END: END completes once every issued instruction has (Table 4-2); the record completes. -/
def tileProgramEnd (s : State) (n : Nat) : State :=
  let c := core s n
  if c.ended && c.flights.isEmpty && c.stopping.isNone then
    let s1 := setCore s n (startHold s n { c with ended := false, state := .idle, run := none })
    tryRotate (match c.run with
      | some r => report s1 r 0 (getG c 31)
      | none => s1) (n / 16)
  else s

/-- COUNTER_WAIT_MET (R82): a WAITING core's held instruction issues once its counter wait is met. -/
def counterWaitMet (s : State) (n : Nat) : State :=
  let c := core s n
  match c.hold with
  | some h =>
    if decide (c.state = .waiting) && !h.launch && waitMet c (heldCtr c) then
      tryIssue s n (wordAt c)
    else s
  | none => s

/-- LAUNCH_STAMP_REACHED (R86, R281): a WAITING core's held LAUNCH_AT issues once the local copy reaches its stamp. -/
def launchStampReached (s : State) (n : Nat) : State :=
  let c := core s n
  match c.hold with
  | some h =>
    if decide (c.state = .waiting) && h.launch && decide (stampOf c (wordAt c) ≤ localCopy s (n / 16)) then
      if c.startAt.isSome then setCore s n { c with state := .running, hold := none, startAt := none } else issueLocal s n (wordAt c)
    else s
  | none => s

/-- WAIT_LIMIT_EXPIRE (R87). -/
def waitLimitExpire (s : State) (n : Nat) : State :=
  let c := core s n
  match c.hold with
  | some h =>
    if c.waitLimit ≠ 0 ∧ !h.limited ∧ h.since + c.waitLimit.toNat * 1024 ≤ now s then
      let s1 := setCore s n { c with hold := some { h with limited := true } }
      recordErr (raiseEvt s1 (pgCore n) 0) (pgCore n) 0x020A (if h.launch then 256 else heldCtr c) c.pc
    else s
  | none => s

/-- HOLD_EXPIRE (R284, R285): a core idle or held for the hold period of its level enters ASLEEP, under SLEEP_CFG as its hold began
(R297). A held wait that is met ends the hold, and the core does not sleep. -/
def holdExpire (s : State) (n : Nat) : State :=
  let c := core s n
  let launchNear := match c.hold with
    | some h => h.launch && decide (stampOf c (wordAt c) ≤ localCopy s (n / 16) + 2250)
    | none => false
  let met := match c.hold with
    | some h => !h.launch && waitMet c (heldCtr c)
    | none => false
  if coreOn s n && bit c.holdCfg 31 && c.flights.isEmpty && !c.checker && c.stopping.isNone && !launchNear && !met
      && ((decide (c.state = .idle) && c.run.isNone) || (decide (c.state = .waiting) && c.hold.isSome))
      && decide (c.idleSince + 1500 * 2 ^ c.predLevel.toNat ≤ now s) then
    modCluster (setCore s n { c with state := .asleep, sleepSince := now s, wakeReq := false }) (n / 16)
      (fun k => { k with sleeps := k.sleeps + 1 })
  else s

/-- LAUNCH_WAKE_LEAD (R285): the local copy reaches a held stamp minus 2,250 and the sleeping core asks for a wake. -/
def launchWakeLead (s : State) (n : Nat) : State :=
  let c := core s n
  match c.hold with
  | some h =>
    if decide (c.state = .asleep) && h.launch && decide (stampOf c (wordAt c) ≤ localCopy s (n / 16) + 2250) then
      requestWake s n 2 false
    else s
  | none => s

/-- WAKE_WINDOW (R289). -/
def wakeWindow (s : State) : State := openWindow s

/-! ### The start of a record on its core (R267) -/

/-- The record a core runs, as its queue holds it. -/
def runRec (s : State) (r : Run) : Option QRec := (queue s r.queue).recs.find? (fun x => x.index == r.index)

/-- The argument line of a TILE_RUN (R267). -/
def argLine (s : State) (n : Nat) (r : Run) (b : List Byte) : List Host.Cell :=
  let a := coreAddr n (64 * (leAt b 28 2 % 4096))
  let bs := (b.drop 32).take 32 ++ toBytes 4 r.index ++ toBytes 4 r.queue ++ toBytes 8 (localCopy s (n / 16)) ++ toBytes 16 0
  mapIx (fun i x => (a + i, x)) 0 bs

/-- A stamped record launches: held as by LAUNCH_AT before its stamp, at once and counted late after it (R263, R267). -/
def launchRun (s : State) (n : Nat) : State :=
  let c := core s n
  match c.startAt with
  | none => s
  | some t =>
    let a := localCopy s (n / 16)
    if a < t then
      setCore s n (startHold s n { c with state := .waiting, hold := some { launch := true, since := now s, limited := false } })
    else
      modCluster (setCore s n { c with startAt := none, hold := none }) (n / 16)
        (fun k => { k with stampLate := if t < a then k.stampLate + 1 else k.stampLate })

/-- An awake core with its program loaded begins its record: argument line, then the launch (R267). DEDUCED (log entry 13). -/
def beginRun (s : State) (n : Nat) : State :=
  let c := core s n
  match c.run with
  | none => s
  | some r =>
    if c.starting && decide (c.state = .running) && !c.loading then
      let s1 := setCore s n { c with starting := false }
      let s2 := match runRec s r with
        | some q => if r.cls = 1 ∧ bit (q.bytes.getD 26 0) 5 then portWrite s1 n (argLine s n r q.bytes) else s1
        | none => s1
      if (core s2 n).stopping.isSome || decide ((core s2 n).state = .stopped) then s2 else launchRun s2 n
    else s

/-- PROGRAM_LOAD_DONE (R267): the last line of the program arrives on an awake core; a line that cannot be corrected is not run (R203). DEDUCED (log entry 13). -/
def programLoadDone (s : State) (n : Nat) (es : List (Nat × Ecc)) : State :=
  let c := core s n
  if c.loading && decide (c.state = .running) then
    let as := (List.range (8 * c.progLen)).map (fun i => c.progAddr.toNat + i)
    let s1 := hbmMeets (coreHbm s n as false) as es
    if hbmPoison as es then s1
    else
      let ws := (List.range c.progLen).map (fun i => BitVec.ofNat 64 (readLe s.mem (c.progAddr.toNat + 8 * i) 8))
      beginRun (modCore s1 n (fun c => { c with loading := false, prog := ws })) n
  else s

/-! ### Core commands (R66, R94) -/

/-- STOP written to CORE_CMD: a RUNNING or WAITING core stops with STOP_CMD (R66). -/
def coreStop (s : State) (n : Nat) : State :=
  let c := core s n
  if coreOn s n && (decide (c.state = .running) || decide (c.state = .waiting)) && c.stopping.isNone then
    stopCore (setCore s n { c with hold := none, state := .running }) n 0x020C 0 c.pc
  else s

/-- A core's registers after CORE_CMD RESET (R94); the PC, which the rule does not name, reads 0. DEDUCED (log entry 21). -/
def cleared (c : Core) : Core :=
  { c with ctr := [], tgt := [], stp := [], g := [], v := [], handles := [], slots := [], pc := 0, hold := none, run := none,
           ended := false, loading := false, starting := false, startAt := none, job := none, stopping := none,
           progLen := if c.loading then 0 else c.progLen }

/-- RESET written to CORE_CMD: accepted in IDLE, ASLEEP or STOPPED (R94); an ASLEEP core that holds a program abandons it with
RESET_CMD, drops a wake request that waits (R295), and wakes to IDLE. -/
def coreReset (s : State) (n : Nat) : State :=
  let c := core s n
  if !coreOn s n then s
  else if c.state = .idle ∨ c.state = .stopped then
    tryRotate (setCore s n (startHold s n { cleared c with state := .idle })) (n / 16)
  else if c.state = .asleep then
    let s0 := dropWake s n
    let s1 := match c.run with
      | some r => report (recordErr s0 (pgCore n) 0x020D 0 c.pc) r 0x020D 0
      | none => s0
    let s2 := setCore s1 n { cleared (core s1 n) with wakeTo := 0 }
    requestWake s2 n 0 false
  else s

end Sys2Proof.Machine
end

