-- ==== Sys2Proof/Machine/Accord.lean ====
section
/-! DEFINITION. The Accord counter (R277-R280), its modes, the wakes of cores (R287-R289), and the clock tick that an idle
step makes. -/

namespace Sys2Proof.Machine

/-- A REF edge with the modes' rules (R278): a switch to coarse mode that waits gives the master the value of the edge, a
switch to fine mode waits for the lock; each switch raises MODE once. DESIGN CHOICE (log entry 4). -/
def refEdge (s : State) : State :=
  let a := s.accord
  let m := a.edge + 60
  let a1 := { a with master := m, edge := m, phase := 0 }
  if a.toCoarse then
    raiseEvt { s with accord := { a1 with fine := false, holding := false, toCoarse := false } } pgAcc 1
  else if !a.fine && a.toFine && a.pllLock then
    raiseEvt { s with accord := { a1 with fine := true, toFine := false } } pgAcc 1
  else { s with accord := a1 }

/-- One tick of 1.5 GHz of the master (R277): fine mode counts up by 1, coarse mode by 60 at each REF edge, and the master
holds from the stop of the PLL to the next edge. DESIGN CHOICE (log entry 4). -/
def accTick (s : State) : State :=
  let a := s.accord
  if a.phase + 1 < 60 then
    { s with accord := { a with phase := a.phase + 1, master := if a.fine && !a.holding then a.master + 1 else a.master } }
  else refEdge s

/-- Activity of a core for R448: its array or merge engine runs an instruction that does not wait for the checker. -/
def coreActive (c : Core) : Bool :=
  c.flights.any (fun f => f.started && !f.sampleWait && (decide (f.unit = .array) || decide (f.unit = .merge)))

/-- One Accord tick of the counter and of the cores' sampling activity. DESIGN CHOICE (log entry 4). -/
def coreTick (s : State) : State :=
  accTick { s with
    time := s.time + 1
    cores := s.cores.map (fun e => if coreActive e.2 then (e.1, { e.2 with activity := e.2.activity + 1 }) else e) }

/-- Enter keep-alive as far as the counter goes: the PLL stops and the master holds to the next REF edge (R278). -/
def accStop (s : State) : State :=
  let a := s.accord
  { s with accord := { a with pllOn := false, pllLock := false, toFine := false,
                              holding := a.fine || a.holding, toCoarse := a.fine || a.toCoarse } }

/-- Start the ACC PLL (R278). -/
def accStart (s : State) : State := { s with accord := { s.accord with pllOn := true } }

/-- ACC_PLL_LOCK (R278): a started PLL locks, and the switch to fine mode waits for the next REF edge. -/
def execAccPllLock (s : State) : Host.Outcome State Fault Refusal :=
  .next (if s.accord.pllOn && !s.accord.pllLock then
    { s with accord := { s.accord with pllLock := true, toFine := true } } else s)

/-- ACC_MODE_SWITCH (R278): time runs to the next REF edge, where a waiting switch takes place. -/
def execAccModeSwitch (s : State) : Host.Outcome State Fault Refusal :=
  .next (if s.accord.toCoarse || (!s.accord.fine && s.accord.toFine && s.accord.pllLock) then
    refEdge { s with time := s.time + (60 - s.accord.phase) } else s)

/-- Is a unit with a local copy powered: a partition that uses it is not OFF and no fault has taken its domain away (R279)? DESIGN CHOICE (log entry 8). -/
def copyRuns (s : State) (u : Nat) : Bool :=
  s.accord.fine && (List.range (nParts s)).any (fun p =>
    decide ((part s p).state ≠ .off) &&
      (if u < 256 then (clustersOf s p).contains u && !dieDead s (u / 128)
       else if u < 400 then (partSites s p).contains (u - 300) && !siteDead s (u - 300)
       else if u < 500 then (partSites s p).contains (u - 400) && !siteDead s (u - 400)
       else if u < 600 then (partDies s p).contains (u - 500) && !dieDead s (u - 500)
       else iodPop s (u - 600) && !iodDead s (u - 600) && !(partPorts s p).isEmpty))

/-- May the copy of a unit stand e ticks from the master: within 2 of the master and of every other running copy (R279)? -/
def copyMay (s : State) (u : Nat) (e : Int) : Bool :=
  e.natAbs ≤ 2 && s.accord.copyErr.all (fun x => x.1 == u || !copyRuns s x.1 || decide ((x.2 - e).natAbs ≤ 2))

/-- The copies of units that have just been powered are loaded from the master (R279): those that run now and did not in the earlier
state. -/
def loadCopies (old s : State) : State :=
  { s with accord := { s.accord with copyErr := sdrop s.accord.copyErr (fun u => copyRuns s u && !copyRuns old u) } }

/-- The corrected blotter of a copy error (class 12, R443, R459). -/
def skewBlotter (s : State) : State :=
  correctedBlotter s pgAcc { blank 12 0x0A01 10 0 0 with
    infoLo := (hdr s pgAcc).infoLo.toNat, infoHi := (hdr s pgAcc).infoHi.toNat }

/-- ACC_COPY_COMPARE (R279): a copy more than 2 ticks from the master is reloaded and ACC_SKEW recorded; a running copy
within 2 ticks keeps its error, and one that would stand more than 2 ticks from another running copy is no error the hardware can have.
MAX_ERR holds the largest error found (Table 12-6). DESIGN CHOICE (log entry 8). -/
def execAccCopyCompare (unit : Nat) (err : Int) (s : State) : Host.Outcome State Fault Refusal :=
  .next (if copyRuns s unit && (copyMay s unit err || decide (2 < err.natAbs)) then
    let m := min 255 err.natAbs
    let s1 := { s with accord := { s.accord with maxErr := if s.accord.maxErr.toNat < m then BitVec.ofNat 8 m else s.accord.maxErr } }
    if 2 < err.natAbs then
      let s2 := { s1 with accord := { s1.accord with copyErr := sdel s1.accord.copyErr unit } }
      skewBlotter (raiseEvt (recordErr s2 pgAcc 0x0A01 unit m) pgAcc 0)
    else { s1 with accord := { s1.accord with copyErr := if err = 0 then sdel s1.accord.copyErr unit else sput s1.accord.copyErr unit err } }
  else s)

/-- WAKE_WINDOW (R289). -/
def execWakeWindow (s : State) : Host.Outcome State Fault Refusal := .next (wakeWindow s)

/-- HOLD_EXPIRE (R284). -/
def execHoldExpire (core : Nat) (s : State) : Host.Outcome State Fault Refusal := .next (holdExpire s core)

/-- LAUNCH_WAKE_LEAD (R285). -/
def execLaunchWakeLead (core : Nat) (s : State) : Host.Outcome State Fault Refusal := .next (launchWakeLead s core)

/-! ### The checker role and wakes (R287, R288, R447) -/

/-- Assign the role to the lowest-numbered free core of a cluster without a checker (R447). DEDUCED (log entry 27). -/
def assignChecker (s : State) (g : Nat) : State :=
  let k := cluster s g
  if bit k.dupCfg 31 && k.checker.isNone && checkerAble s g then
    match nextChecker s g 0 with
    | some i => takeRole s g i
    | none => setCluster s g { k with rotateDue := true }
  else s

/-- WAKE_COMPLETE (R287, R288): the wake of a WAKING core ends; a failed wake check leaves it STOPPED with WAKE_CHECK, its
record fails, and a checker role it was waking for passes on. -/
def wakeComplete (s : State) (n : Nat) (good : Bool) : State :=
  let c := core s n
  if c.state ≠ .waking then s
  else if good then
    let st := match c.wakeTo with
      | 1 => CState.running
      | 2 => CState.waiting
      | 3 => CState.testing
      | 4 => CState.running
      | _ => CState.idle
    let s1 := setCore s n (startHold s n { c with state := st, wakeReq := false, checker := c.wakeTo == 4,
                                                  job := c.job.map (fun j => { j with at_ := localCopy s (n / 16) }) })
    if c.wakeTo = 1 then beginRun s1 n
    else if c.wakeTo = 2 ∧ c.startAt.isSome then launchRun (modCore s1 n (fun c => { c with state := .running, hold := none })) n
    else if st = .idle then tryRotate s1 (n / 16)
    else s1
  else
    let s1 := setCore s n { c with state := .stopped, wakeReq := false, run := none, hold := none, loading := false,
                                   starting := false, startAt := none, job := none,
                                   progLen := if c.loading then 0 else c.progLen }
    let s2 := recordErr s1 (pgCore n) 0x020B 0 0
    let s3 := issueBlotter s2 (coreBlotter s2 6 0x020B 2 n)
    let s4 := match c.run with
      | some r => report s3 r 0x020B 0
      | none => s3
    if c.wakeTo = 4 then
      settleFull (passRole (modCluster s4 (n / 16) (fun k => { k with checker := none })) (n / 16) (n % 16 + 1))
    else s4

/-- WAKE_COMPLETE (R287). -/
def execWakeComplete (core : Nat) (good : Bool) (s : State) : Host.Outcome State Fault Refusal :=
  .next (wakeComplete s core good)

end Sys2Proof.Machine
end

