-- ==== Sys2Proof/Machine/Wxl.lean ====
section
/-! DEFINITION. Wenenaox Link (R344-R373): ports and training, flits and their retry, arbitration, messages, routes,
streams, transfers. What a delivered message does in its destination unit is in the units' own files. -/

namespace Sys2Proof.Machine

/-! ### Messages as bytes (Table 15-6) -/

/-- A message's bytes: header, then data. -/
def Msg.bytes (m : Msg) : List Byte :=
  toBytes 1 m.kind ++ toBytes 1 m.flags ++ toBytes 2 m.dst ++ toBytes 2 m.src ++ toBytes 1 m.hops ++ toBytes 1 m.svc
    ++ toBytes 4 m.sseq ++ toBytes 2 m.xtag ++ toBytes 2 m.xidx ++ toBytes 8 m.addr ++ toBytes 4 m.incSel
    ++ toBytes 2 m.data.length ++ toBytes 2 m.code ++ m.data

/-- Read a message from its bytes on a channel. -/
def parseMsg (vc : Nat) (b : List Byte) : Msg :=
  { vc := vc, kind := leAt b 0 1, flags := leAt b 1 1, dst := leAt b 2 2, src := leAt b 4 2, hops := leAt b 6 1,
    svc := leAt b 7 1, sseq := leAt b 8 4, xtag := leAt b 12 2, xidx := leAt b 14 2, addr := leAt b 16 8,
    incSel := leAt b 24 4, code := leAt b 30 2, data := (b.drop 32).take (leAt b 28 2 % 8192) }

/-- A message with nothing but its kind and destination. -/
def blankMsg (vc kind dst : Nat) : Msg :=
  { vc := vc, kind := kind, flags := 0, dst := dst, src := 0, hops := 0, svc := 0, sseq := 0, xtag := 0, xidx := 0, addr := 0,
    incSel := 0, code := 0, data := [] }

/-- MFLAGS OPEN. -/
def Msg.opens (m : Msg) : Bool := Nat.testBit m.flags 0
/-- MFLAGS FIRST. -/
def Msg.first (m : Msg) : Bool := Nat.testBit m.flags 1
/-- MFLAGS LAST. -/
def Msg.last (m : Msg) : Bool := Nat.testBit m.flags 2
/-- MFLAGS INC_EN. -/
def Msg.incEn (m : Msg) : Bool := Nat.testBit m.flags 3
/-- Destination module ID. -/
def Msg.dstId (m : Msg) : Nat := m.dst % 4096
/-- Destination I/O die, for the kinds that name one. -/
def Msg.dstIod (m : Msg) : Nat := m.dst / 4096 % 4
/-- Source module ID. -/
def Msg.srcId (m : Msg) : Nat := m.src % 4096
/-- Source I/O die. -/
def Msg.srcIod (m : Msg) : Nat := m.src / 4096 % 4

/-- Is a KIND one of Table 15-5? -/
def kindOk (k : Nat) : Bool := 1 ≤ k && k ≤ 14

/-! ### Errors and blotters of ports and link engines -/

/-- Record an error of a link engine (R380). -/
def linkErr (s : State) (x code dst xtag : Nat) : State :=
  let s1 := recordErr s (pgLink x) code (dst % 4096 + (xtag % 65536) * 2 ^ 16) 0
  if code = 0x0702 then raiseEvt (modIod s1 x (fun d => { d with noRoute := d.noRoute + 1 })) (pgLink x) 1 else s1

/-- A message of channel 0 that cannot be routed is discarded; its loss is counted in NO_ROUTE, with the event (R363, R379). -/
def lostCtl (s : State) (x : Nat) : State := raiseEvt (modIod s x (fun d => { d with noRoute := d.noRoute + 1 })) (pgLink x) 1

/-- n corrected link faults (class 7, R443, R459). -/
def portBlotter (s : State) (i action n : Nat) : State :=
  correctedMany s (pgPort i) n { blank 7 0 7 action i with
    partition := (portOwner s i).getD 0xFF, port := i, infoLo := (hdr s (pgPort i)).infoLo.toNat,
    infoHi := (hdr s (pgPort i)).infoHi.toNat }

/-! ### Power of an I/O die (R488) -/

/-- Does R488 power I/O die Lx for partition p? -/
def iodFor (s : State) (p x : Nat) : Bool :=
  iodPop s x && partExists s p
    && ((partDies s p).contains (iodDie x) || (List.range 8).any (fun y => portOwner s (8 * x + y) == some p))

/-- Is Lx powered: some partition it serves is not OFF, and its compute die is on (R488)? -/
def iodOn (s : State) (x : Nat) : Bool :=
  dieOn s (iodDie x) && !iodDead s x && (List.range (nParts s)).any (fun p => iodFor s p x && decide ((part s p).state ≠ .off))

/-! ### Ports (R346-R349) -/

/-- Does a port carry DATA flits: UP or DEGRADED? -/
def portUp (s : State) (i : Nat) : Bool := decide ((port s i).st = .up) || decide ((port s i).st = .degraded)

/-- May a port train: present, powered, EN set, its owner exists in the mode (R346, R21)? DEDUCED (log entry 48). -/
def trainable (s : State) (i : Nat) : Bool :=
  decide (i < 32) && iodOn s (i / 8) && bit (port s i).ctrl 0 && (portOwner s i).isSome

/-- The link state of a port after step 6 of training or when it leaves UP: nothing is held or counted (R346, R349). A
message part of which was sent is dropped; delivery resends it. DEDUCED (log entry 18). -/
def clearLink (p : Port) (t : Nat) : Port :=
  { p with
    tx := (List.range 7).foldl (fun m v => if sget false p.txPart v then sput m v ((sget [] m v).drop 1) else m) p.tx
    txPart := [], replay := [], resend := [], txSeq := 0, ackAt := t, replayRun := 0, rxSeq := 0, nakDue := false,
    nakSent := false, rx := [], rxSync := [], freed := [], given := [], taken := [], seen := [], used := [], slot := 0,
    turn := 1, turnLeft := 0 }

/-- A port starts to train (R346). -/
def trainStart (s : State) (i : Nat) (signal : Bool) : State :=
  if trainable s i && signal && decide ((port s i).st = .down) then modPort s i (fun p => { p with st := .training }) else s

/-- Width chosen from the good lanes, and the lanes used (R348). -/
def chooseLanes (g : Nat) : Nat × Nat :=
  if g % 16 = 15 then (4, 15)
  else if nfld g 1 0 = 3 then (2, 3)
  else if nfld g 3 2 = 3 then (2, 12)
  else match (List.range 4).find? (fun l => Nat.testBit g l) with
    | some l => (1, 2 ^ l)
    | none => (0, 0)

/-- Narrowest width kept (Table 15-12). -/
def minWidth (p : Port) : Nat := match fld p.ctrl 5 4 with
  | 0 => 4
  | 1 => 2
  | _ => 1

/-- The port goes DOWN. -/
def portDown (s : State) (i : Nat) : State :=
  raiseEvt (modPort s i (fun p => { clearLink p s.time with st := .down, lanes := 0, width := 0, peer := 0 })) (pgPort i) 1

/-- Training ends (R346, R348): the port takes the lanes good at both ends, or goes DOWN below MIN_LANES. -/
def trainDone (s : State) (i lanes peerId peerPort : Nat) : State :=
  let p := port s i
  if p.st ≠ .training || !(iod s (i / 8)).refClk then s
  else
    let w := chooseLanes lanes
    if !trainable s i then portDown s i
    else if w.1 < minWidth p then portDown (recordErr s (pgPort i) 0x0707 w.1 0) i
    else
      let peer : W32 := BitVec.ofNat 32 (2 ^ 31 + (peerPort % 32) * 2 ^ 12 + peerId % 4096)
      let s1 := setPort s i { clearLink p s.time with
        st := if w.1 = 4 then .up else .degraded, lanes := BitVec.ofNat 4 w.2, width := w.1, peer := peer }
      raiseEvt s1 (pgPort i) (if w.1 = 4 then 0 else 2)

/-- An UP or DEGRADED port retrains (R349): held flits are discarded, the messages are resent end to end. DEDUCED (log entry 18). -/
def retrain (s : State) (i : Nat) : State :=
  if portUp s i then
    let s1 := modPort s i (fun p => { clearLink p s.time with
      st := .training, lanes := 0, width := 0, peer := 0, retrains := p.retrains + 1 })
    portBlotter (raiseEvt s1 (pgPort i) 3) i 7 1
  else s

/-- WXL_PROTOCOL (R352). -/
def protocolErr (s : State) (i : Nat) : State := retrain (recordErr s (pgPort i) 0x0706 0 0) i

/-! ### CRC-32 (R350) -/

/-- One bit of the reflected CRC-32. -/
def crc32Bits : Nat → Nat → Nat
  | 0, c => c
  | k + 1, c => crc32Bits k (if c % 2 = 1 then (c / 2) ^^^ 0xEDB88320 else c / 2)

/-- CRC-32 of IEEE 802.3 over bytes. -/
def crc32 (bs : List Byte) : Nat := (bs.foldl (fun c b => crc32Bits 8 (c ^^^ b.toNat)) 0xFFFFFFFF) ^^^ 0xFFFFFFFF

/-! ### Sending flits (R351-R356) -/

/-- Receive buffers of a channel (Table 15-4). DEDUCED (log entry 18). -/
def vcBuffers (v : Nat) : Nat := if v = 0 ∨ v = 6 then 32 else if v < 7 then 128 else 0

/-- Does the port hold a credit and bytes for a channel? -/
def canSend (p : Port) (v : Nat) : Bool :=
  !(sget [] p.tx v).isEmpty && decide (sget 0 p.used v < vcBuffers v + sget 0 p.seen v)

/-- Weight of a channel (Table 15-14). -/
def vcWeight (d : Iod) (v : Nat) : Nat := fld d.vcWeight (4 * v + 3) (4 * v)

/-- The channel served in this slot, with the turn it leaves (R356). DEDUCED (log entry 18). -/
def arbitrate (d : Iod) (p : Port) : Option (Nat × Nat × Nat) :=
  if canSend p 0 then some (0, p.turn, p.turnLeft)
  else
    let able := fun v => canSend p v && decide (1 ≤ vcWeight d v)
    if able p.turn && decide (0 < p.turnLeft) then some (p.turn, p.turn, p.turnLeft - 1)
    else match ((List.range 6).map (fun i => (p.turn + i) % 6 + 1)).find? able with
      | some v => some (v, v, vcWeight d v - 1)
      | none => ((List.range 6).map (· + 1)).find? (canSend p) |>.map (fun v => (v, p.turn, p.turnLeft))

/-- Drop k bytes from the front of a channel's messages; the flag says that part of the first left has been sent. -/
def dropBytes : List (List Byte) → Nat → Bool → List (List Byte) × Bool
  | [], _, _ => ([], false)
  | m :: r, k, b => if k = 0 then (m :: r, b) else if k < m.length then (m.drop k :: r, true) else dropBytes r (k - m.length) false

/-- Offset of the first message header that begins in the next payload (Table 15-3). -/
def firstHdr (ms : List (List Byte)) (part : Bool) : Nat :=
  match ms with
  | [] => 0xFF
  | m :: r => if !part then 0 else if m.length < 236 && !r.isEmpty then m.length else 0xFF

/-- Credit field: channel, VALID, count (Table 15-3). DEDUCED (log entry 18). -/
def creditField (p : Port) (v : Nat) : List Byte :=
  if v < 7 then toBytes 1 (v + 128) ++ toBytes 1 0 ++ toBytes 2 (sget 0 p.freed v) else toBytes 4 0

/-- A whole flit (Table 15-3). -/
def flitBytes (p : Port) (ftype seq vc first ca cb : Nat) (payload : List Byte) : List Byte :=
  let b := toBytes 1 (ftype + (if p.nakDue then 4 else 0)) ++ toBytes 2 seq ++ toBytes 2 ((p.rxSeq + 4095) % 4096)
    ++ toBytes 1 vc ++ toBytes 1 first ++ toBytes 1 0 ++ creditField p ca ++ creditField p cb ++ payload
  b ++ toBytes 4 (crc32 b)

/-- Bytes the spec leaves open. -/
def freeBytes (s : State) (k : Nat) : List Byte := (List.range k).map (Config.freeByte (s.freeCtr + 1))

/-- Put a flit on the wire: its slot passes, its NAK and credits are given. -/
def putFlit (s : State) (i : Nat) (p : Port) (b : List Byte) (given : List Nat) : State :=
  let g := given.foldl (fun m v => if v < 7 then sput m v (sget 0 p.freed v) else m) p.given
  setPort { s with out := s.out ++ [.flit i b] } i
    { p with slot := (p.slot + 1) % 128, nakDue := false, given := g }

/-- Payload of a CONTROL flit (R351): the running credit counts, the lanes in use, and during training the identity exchange: module ID,
port index, width. The spec gives no places for the last two; what follows them is open. DESIGN CHOICE (log entry 63). -/
def controlPay (s : State) (i : Nat) (p : Port) : List Byte :=
  let id := match portOwner s i with
    | some q => (part s q).moduleId.toNat
    | none => 0
  (List.range 8).foldr (fun v acc => toBytes 2 (sget 0 p.freed v) ++ acc) [] ++ toBytes 1 p.lanes.toNat
    ++ (if p.st = .training then toBytes 2 id ++ toBytes 1 i ++ toBytes 1 p.width else toBytes 4 0) ++ freeBytes s 215

/-- FLIT_SEND (R351, R354-R356): slot 127, and a slot of step 5 of training, carry a CONTROL flit; every other slot a flit to be resent,
a new DATA flit, or IDLE. `ca`, `cb`: channels whose counts ride along, 8 for none. DESIGN CHOICE (log entry 59). -/
def flitSend (s : State) (i ca cb : Nat) : State :=
  let p := port s i
  let step5 := decide (p.st = .training) && trainable s i && (iod s (i / 8)).refClk
  if !portUp s i && !step5 then s
  else if p.slot = 127 || step5 then
    putFlit (bumpFree s) i p (flitBytes p 2 0 0 0xFF ca cb (controlPay s i p)) (ca :: cb :: List.range 7)
  else match p.resend with
    | f :: r =>
      putFlit s i { p with resend := r, flitsTx := p.flitsTx + 1 } (flitBytes p 0 f.seq f.vc f.first ca cb f.payload) [ca, cb]
    | [] =>
      match (if p.replay.length < 1024 then arbitrate (iod s (i / 8)) p else none) with
      | some (v, t, l) =>
        let ms := sget [] p.tx v
        let pay := (ms.foldr (fun m acc => m ++ acc) []).take 236
        let r := dropBytes ms 236 (sget false p.txPart v)
        let f : TxFlit := { seq := p.txSeq, vc := v, first := firstHdr ms (sget false p.txPart v),
                            payload := pay ++ List.replicate (236 - pay.length) 0 }
        let p1 := { p with tx := sput p.tx v r.1, txPart := sput p.txPart v r.2, used := sput p.used v (sget 0 p.used v + 1),
                           replay := p.replay ++ [f], txSeq := (p.txSeq + 1) % 4096, turn := t, turnLeft := l,
                           flitsTx := p.flitsTx + 1, ackAt := if p.replay.isEmpty then s.time else p.ackAt }
        putFlit s i p1 (flitBytes p 0 f.seq f.vc f.first ca cb f.payload) [ca, cb]
      | none => putFlit (bumpFree s) i p (flitBytes p 1 0 0 0xFF ca cb (freeBytes s 236)) [ca, cb]

/-! ### Receiving flits (R350-R354) -/

/-- Resend every held flit after the last acknowledged one; 16 replays in a row without progress retrain the port (R349,
R354). -/
def startReplay (s : State) (i : Nat) : State :=
  let p := port s i
  if p.replay.isEmpty then s
  else
    let s1 := portBlotter (setPort s i { p with
      resend := p.replay, replays := p.replays + 1, replayRun := p.replayRun + 1, ackAt := s.time }) i 7 1
    if 16 ≤ p.replayRun + 1 then retrain s1 i else s1

/-- Take an ACK_SEQ: held flits it covers are released (R354). -/
def takeAck (p : Port) (ack t : Nat) : Port :=
  match p.replay with
  | [] => p
  | f :: _ =>
    let k := (ack + 4096 - f.seq) % 4096 + 1
    if k ≤ p.replay.length then
      let rest := p.replay.drop k
      { p with replay := rest, resend := p.resend.filter (fun g => rest.contains g), ackAt := t, replayRun := 0 }
    else p

/-- Take a running credit count of a channel (R353). -/
def takeCount (p : Port) (v c : Nat) : Port :=
  let o := sget 0 p.seen v
  { p with seen := sput p.seen v (o + subMod 65536 c o) }

/-- Take a credit field. -/
def takeCredit (p : Port) (b : List Byte) (o : Nat) : Port :=
  if Nat.testBit (leAt b o 1) 7 && decide (leAt b o 1 % 8 < 7) then takeCount p (leAt b o 1 % 8) (leAt b (o + 2) 2) else p

/-- Cut whole messages off a channel's received bytes: messages, rest, and whether a reserved KIND stands at a header. -/
def cutMsgs (vc : Nat) : Nat → List Byte → List Msg × List Byte × Bool
  | 0, b => ([], b, false)
  | fuel + 1, b =>
    match b with
    | [] => ([], [], false)
    | k :: _ =>
      if k = 0 then ([], [], false)
      else if !kindOk k.toNat then ([], [], true)
      else
        let len := 32 + leAt b 28 2 % 8192
        if b.length < 32 ∨ b.length < len then ([], b, false)
        else
          let r := cutMsgs vc fuel (b.drop len)
          (parseMsg vc (b.take len) :: r.1, r.2)

/-- An accepted DATA flit: its payload joins its channel's stream, whole messages reach the I/O die (R352, R353). DEDUCED (log entry 18). DESIGN CHOICE (log entry 63). -/
def acceptFlit (s : State) (i vc first : Nat) (pay : List Byte) : State :=
  let p := port s i
  let sync := sget false p.rxSync vc
  let more := if sync then pay else if first < 236 then pay.drop first else []
  let r := cutMsgs vc 16 (sget [] p.rx vc ++ more)
  let p1 := { p with
    rxSeq := (p.rxSeq + 1) % 4096, flitsRx := p.flitsRx + 1, nakSent := false, taken := sput p.taken vc (sget 0 p.taken vc + 1),
    freed := sput p.freed vc (sget 0 p.freed vc + 1), rx := sput p.rx vc r.2.1, rxSync := sput p.rxSync vc (sync || first < 236) }
  let s1 := modIod (setPort s i p1) (i / 8) (fun d => { d with inbox := d.inbox ++ r.1.map (fun m => { port := some i, msg := m }) })
  if r.2.2 then protocolErr s1 i else s1

/-- A flit arrives at a port (R345, R350-R354): the symbols corrected and the codewords found uncorrectable with it are counted, a bad DATA
flit is discarded, acknowledgements, credits and NAKs are taken. `failed`: some of its bits lie in an uncorrectable codeword, one it begins
or one counted with an earlier flit. DESIGN CHOICE (log entry 63). -/
def flitIn (s : State) (i : Nat) (b : List Byte) (corr uncorr : Nat) (failed : Bool) : State :=
  if !portUp s i || b.length != 256 then s
  else
    let p := port s i
    let s0 := setPort s i { p with fecCorr := p.fecCorr + BitVec.ofNat 64 corr, fecUncorr := p.fecUncorr + BitVec.ofNat 64 uncorr }
    let s1 := if 0 < corr then portBlotter s0 i 0 corr else s0
    let discard := fun (s : State) => modPort s i (fun p => if p.nakSent then p else { p with nakDue := true, nakSent := true })
    let ft := leAt b 0 1 % 4
    let crcBad := decide (crc32 (b.take 252) ≠ leAt b 252 4)
    if crcBad || failed || decide (0 < uncorr) then
      if ft ≠ 0 then s1
      else discard (if crcBad then modPort s1 i (fun p => { p with crcFail := p.crcFail + 1 }) else s1)
    else
      let p1 := takeCredit (takeCredit (takeAck (port s1 i) (leAt b 3 2 % 4096) s.time) b 8) b 12
      let s2 := setPort s1 i p1
      let s3 := if Nat.testBit (leAt b 0 1) 2 then startReplay s2 i else s2
      if !portUp s3 i then s3
      else if ft = 1 then s3
      else if ft = 2 then modPort s3 i (fun p => (List.range 7).foldl (fun p v => takeCount p v (leAt b (16 + 2 * v) 2)) p)
      else if ft = 3 then protocolErr s3 i
      else
        let vc := leAt b 5 1 % 8
        let p3 := port s3 i
        if leAt b 1 2 % 4096 ≠ p3.rxSeq then discard s3
        else if vc = 7 ∨ vcBuffers vc + sget 0 p3.given vc < sget 0 p3.taken vc + 1 then protocolErr s3 i
        else acceptFlit s3 i vc (leAt b 6 1) ((b.drop 16).take 236)

/-! ### Module IDs and routes (R360-R365, R590) -/

/-- Is a partition an endpoint: ACTIVE or QUIESCED (R590)? -/
def endpoint (s : State) (p : Nat) : Bool := decide ((part s p).state = .active) || decide ((part s p).state = .quiesced)

/-- Partition of this module a message for an ID is for: the endpoint that holds it; else one that is not OFF, else one that is OFF, neither
of which receives anything (R363, R590). DEDUCED (log entry 46). -/
def idHolder (s : State) (id : Nat) : Option Nat :=
  let h := (List.range (nParts s)).filter (fun p => (part s p).moduleId.toNat == id)
  match h.find? (endpoint s) with
  | some p => some p
  | none => match h.find? (fun p => decide ((part s p).state ≠ .off)) with
    | some p => some p
    | none => h.head?

/-- The code a message is refused with when partition q, which it is for, is no endpoint: WXL_PEER_RESET when it needs a context that a
partition in INIT or RESETTING no longer has (R368, R373), WXL_NO_ROUTE otherwise (R590). DEDUCED (log entry 46). -/
def awayCode (s : State) (q : Nat) (m : Msg) : Nat := if m.opens || decide ((part s q).state = .off) then 0x0702 else 0x0705

/-- Landing dies of a partition in ascending order (R365). -/
def landingDies (s : State) (p : Nat) : List Nat := (List.range 4).filter (fun x => bit (part s p).landing x)

/-- Landing die of a partition for a source (R365). -/
def landDie (s : State) (p src : Nat) : Nat :=
  let l := landingDies s p
  nth l ((src % 4096 + src / 4096 % 4) % max 1 l.length)

/-- Hand a message to an I/O die of this module. DEDUCED (log entry 45). -/
def toInbox (s : State) (x : Nat) (pt : Option Nat) (m : Msg) : State :=
  modIod s x (fun d => { d with inbox := d.inbox ++ [{ port := pt, msg := m }] })

/-- Usable ports of die x for a destination and a routing partition (R362). DEDUCED (log entry 46). -/
def usable (s : State) (x dst p : Nat) : List Nat :=
  let e := sget (0 : W32) (iod s x).routes dst
  if bit e 31 then (List.range 8).filter (fun y => bit e y && portOwner s (8 * x + y) == some p && portUp s (8 * x + y)) else []

/-- Send a message out by a port of die x in rotation; none when no port may carry it (R362). -/
def outPort (s : State) (x p : Nat) (m : Msg) : Option State :=
  match usable s x m.dstId p with
  | [] => none
  | y0 :: r =>
    let last := sget 7 (iod s x).lastPort m.dstId
    let y := ((y0 :: r).find? (fun y => decide (last < y))).getD y0
    let i := 8 * x + y
    let s1 := modIod s x (fun d => { d with lastPort := sput d.lastPort m.dstId y })
    some (modPort s1 i (fun q => { q with tx := sput q.tx m.vc (sget [] q.tx m.vc ++ [m.bytes]) }))

/-- HOP_LIMIT, RESEND_US and RESEND_MAX in effect (Table 15-14). -/
def hopLimit (d : Iod) : Nat := max 1 (fld d.linkCfg 7 0)
/-- RESEND_US in ticks. -/
def resendTicks (d : Iod) : Nat := 1500 * max 1 (fld d.linkCfg 15 8)
/-- RESEND_MAX. -/
def resendMax (d : Iod) : Nat := max 1 (fld d.linkCfg 19 16)

/-- Send a message of partition p from its entry die: handed to another partition of this module, or out by a port (R360,
R362, R363). None: it is refused. DESIGN CHOICE (log entry 59). -/
def emit (s : State) (x p : Nat) (m : Msg) : Option State :=
  match idHolder s m.dstId with
  | some q =>
    if q = p ∨ !endpoint s q then none
    else some (toInbox s (if m.vc = 0 then m.dstIod else landDie s q m.src) none m)
  | none => outPort s x p { m with hops := hopLimit (iod s x) }

/-- Why a message is refused at its entry die (R362, R590). -/
def entryCode (s : State) (m : Msg) : Nat :=
  match idHolder s m.dstId with
  | some q => awayCode s q m
  | none => 0x0702

/-- The source field of a partition's messages from die x. -/
def srcField (s : State) (x p : Nat) : Nat := (part s p).moduleId.toNat + 4096 * x

/-- Send a message of channel 0 with a source field, routed for partition p: not routable, it is discarded and counted (R363). -/
def sendCtlAs (s : State) (x p src : Nat) (m : Msg) : State :=
  match emit s x p { m with src := src } with
  | some s1 => s1
  | none => lostCtl s x

/-- Send a message of channel 0 of partition p. -/
def sendCtl (s : State) (x p : Nat) (m : Msg) : State := sendCtlAs s x p (srcField s x p) m

/-! ### Source streams (R364, R367, R368) -/

/-- Kinds whose messages hold no tracker entry of their source (R372): READ_DATA, the Atomizers' kinds, DIAG. -/
def atomKind (k : Nat) : Bool := k == 3 || (5 ≤ k && k ≤ 8) || k == 14

/-- XTAG of a message that holds no tracker entry, which the spec leaves open: READ_DATA carries the requester's, any other one that names
its channel and the place of its row's first message in the stream. DEDUCED (log entry 45). -/
def entrylessTag (m : Msg) (seq : Nat) : Nat := if m.kind = 3 then m.xtag else 0x8000 + m.vc * 0x1000 + subMod 4096 seq m.xidx

/-- Refuse a message at its entry die: the code reaches its requester as a REFUSE (R362). -/
def refuseLocal (s : State) (x p code : Nat) (m : Msg) : State :=
  let s1 := linkErr s x code m.dstId m.xtag
  toInbox s1 x none { blankMsg 0 0x0A (srcField s x p) with xtag := m.xtag, code := code, src := m.dst % 4096 }

/-- Is it the stream of a partition, a destination and a channel? -/
def isStream (p dst vc : Nat) (t : SrcStream) : Bool := t.part == p && t.dst == dst && t.vc == vc

/-- Send what a stream's window allows (R364). A message that has no route is refused (R362). -/
def pumpStream : Nat → State → Nat → SrcStream → State × SrcStream
  | 0, s, _, t => (s, t)
  | k + 1, s, x, t =>
    match t.waiting with
    | [] => (s, t)
    | m :: r =>
      if 1024 ≤ t.sent.length then (s, t)
      else
        let m1 := { m with sseq := t.nextSeq, src := srcField s x t.part, hops := hopLimit (iod s x),
                           flags := m.flags / 2 * 2 + (if t.nextSeq = 0 then 1 else 0),
                           xtag := if atomKind m.kind then entrylessTag m t.nextSeq else m.xtag }
        match emit s x t.part m1 with
        | some s1 =>
          pumpStream k s1 x { t with
            waiting := r, sent := t.sent ++ [m1], nextSeq := (t.nextSeq + 1) % 2 ^ 32, sentAt := s.time,
            ackAt := if t.sent.isEmpty then s.time else t.ackAt }
        | none => pumpStream k (refuseLocal s x t.part (entryCode s m1) m1) x { t with waiting := r }

/-- A new source stream. -/
def newStream (p dst vc t : Nat) : SrcStream :=
  { part := p, dst := dst, vc := vc, nextSeq := 0, sent := [], waiting := [], ackAt := t, sentAt := t, resends := 0, kept := [],
    busy := [] }

/-- Pump stream number k of a die; only the first 16,384 hold a context (R368). -/
def pumpAt (s : State) (x k : Nat) : State :=
  match (iod s x).streams[k]? with
  | none => s
  | some t =>
    if k < 16384 then
      let r := pumpStream t.waiting.length s x t
      modIod r.1 x (fun d => { d with streams := d.streams.set k r.2 })
    else s

/-- Source contexts have come free: streams that waited for one and hold one now go on (R368). -/
def contextFreed (s : State) (x : Nat) : State :=
  ((List.range (min 16384 (iod s x).streams.length)).filter (fun k => match (iod s x).streams[k]? with
    | some t => t.sent.isEmpty && !t.waiting.isEmpty
    | none => false)).foldl (fun s k => pumpAt s x k) s

/-- Give messages of one partition, destination and channel to their stream. -/
def sendMsgs (s : State) (x p : Nat) (ms : List Msg) : State :=
  match ms with
  | [] => s
  | m :: _ =>
    let d := iod s x
    match d.streams.findIdx? (isStream p m.dstId m.vc) with
    | some k =>
      match d.streams[k]? with
      | some t => pumpAt (setIod s x { d with streams := d.streams.set k { t with waiting := t.waiting ++ ms } }) x k
      | none => s
    | none =>
      let t := { newStream p m.dstId m.vc s.time with waiting := ms }
      pumpAt (setIod s x { d with streams := d.streams ++ [t] }) x d.streams.length

/-! ### Transfers (R371, R372) -/

/-- A free transfer tag of a die. -/
def freeTag (d : Iod) : Option Nat := firstWhere (fun k => d.xfers.all (fun e => e.1 != k)) 0 8192

/-- Number messages of a transfer and mark the first and the last. -/
def numberMsgs (tag : Nat) (ms : List Msg) : List Msg :=
  mapIx (fun i m =>
    let f := m.flags / 8 * 8 + (if i = 0 then 2 else 0) + (if i + 1 = ms.length then 4 else 0)
    { m with xtag := tag, xidx := i, flags := f }) 0 ms

/-- Open a transfer: a tracker entry, then its messages (R371, R372). None while no entry is free. -/
def openXfer (s : State) (x p : Nat) (req : Requester) (want : Nat) (ms : List Msg) : Option (State × Nat) :=
  match freeTag (iod s x), ms with
  | some tag, m :: _ =>
    let ms1 := numberMsgs tag ms
    let s1 := modIod s x (fun d =>
      let xs := sput d.xfers tag { req := req, part := p, dst := m.dstId, vc := m.vc, msgs := ms1, busyAt := none, want := want, got := 0 }
      { d with xfers := xs, trkPeak := max d.trkPeak xs.length })
    some (sendMsgs s1 x p ms1, tag)
  | _, _ => none

/-- Cut bytes for an address into WRITE messages of at most 4,096 data bytes, the first led by the span (R358, R374). -/
def writeMsgs (vc dst addr : Nat) (bs : List Byte) : List Msg :=
  let span := toBytes 8 addr ++ toBytes 8 (addr + bs.length - 1)
  let m0 := { blankMsg vc 1 dst with addr := addr, data := span ++ bs.take 4080 }
  let rest := bs.drop 4080
  m0 :: (List.range (cdiv rest.length 4096)).map (fun i =>
    { blankMsg vc 1 dst with addr := addr + 4080 + 4096 * i, data := (rest.drop (4096 * i)).take 4096 })

/-- Take a message off a die's inbox. -/
def dropInbox (s : State) (x i : Nat) : State := modIod s x (fun d => { d with inbox := d.inbox.eraseIdx i })

/-- Position in a die's inbox of message number `which` among those of kind k, oldest first. -/
def inboxPick (s : State) (x k which : Nat) : Option Nat :=
  ((List.range (iod s x).inbox.length).filter (fun i => match (iod s x).inbox[i]? with
    | some m => m.msg.kind == k
    | none => false))[which]?

/-- Answer a message's transfer on channel 0: ACK, REFUSE or BUSY (R369, R371). -/
def answer (s : State) (x q kind code : Nat) (m : Msg) : State :=
  sendCtl s x q { blankMsg 0 kind m.src with xtag := m.xtag, code := code }

/-- Refuse a message at a die whose partition p speaks for it (R362, R363, R368). -/
def refuseMsg (s : State) (x p code : Nat) (m : Msg) : State := answer (linkErr s x code m.dstId m.xtag) x p 0x0A code m

/-- Refuse a message for partition q, which is no endpoint, on the way of the partition r that routes the answer. -/
def refuseAway (s : State) (x q r : Nat) (m : Msg) : State :=
  let code := awayCode s q m
  sendCtlAs (linkErr s x code m.dstId m.xtag) x r (m.dstId + 4096 * x) { blankMsg 0 0x0A m.src with xtag := m.xtag, code := code }

/-- What a die does with an arrived message before its landing: it goes on to another module, to another die, or stays. -/
inductive Arrival where
  /-- The message has been forwarded, passed on or refused. -/
  | gone (s : State)
  /-- It is for partition q, and this die takes it. -/
  | here (q : Nat)
  deriving DecidableEq, Repr

/-- Transit and the way to the landing die (R363, R365, R590). -/
def arrive (s : State) (x i : Nat) (im : InMsg) : Arrival :=
  let m := im.msg
  match idHolder s m.dstId with
  | some q =>
    if !endpoint s q then
      let s1 := dropInbox s x i
      .gone (if m.vc = 0 then lostCtl s1 x else refuseAway s1 x q ((im.port.bind (portOwner s)).getD q) m)
    else
      let d := if m.vc = 0 then m.dstIod else landDie s q m.src
      if d = x then .here q else .gone (toInbox (dropInbox s x i) d none m)
  | none =>
    let s1 := dropInbox s x i
    match im.port with
    | none => .gone s1
    | some pt =>
      match portOwner s pt with
      | none => .gone s1
      | some p =>
        if m.hops = 0 then
          .gone (if m.vc = 0 then lostCtl s1 x else refuseMsg s1 x p 0x0703 m)
        else match outPort s1 x p { m with hops := m.hops - 1 } with
          | some s2 => .gone s2
          | none => .gone (if m.vc = 0 then lostCtl s1 x else refuseMsg s1 x p 0x0702 m)

/-! ### Landing contexts (R366, R368) -/

/-- Is it the landing context of a partition, a source and a channel? -/
def isLand (q : Nat) (m : Msg) (c : LandCtx) : Bool := c.part == q && c.src == m.src && c.vc == m.vc

/-- Landing context of a message. -/
def landCtx (s : State) (x q : Nat) (m : Msg) : Option LandCtx := (iod s x).lands.find? (isLand q m)

/-- Put a landing context. -/
def putLand (s : State) (x q : Nat) (m : Msg) (c : LandCtx) : State :=
  modIod s x (fun d =>
    let l := if d.lands.any (isLand q m) then d.lands.map (fun e => if isLand q m e then c else e) else d.lands ++ [c]
    { d with lands := l })

/-- Bytes held in a die's reorder store. -/
def reorderBytes (d : Iod) : Nat := (d.lands.map (fun c => (c.early.map (fun m => 32 + m.data.length)).foldl (· + ·) 0)).foldl (· + ·) 0

/-- STREAM_ACK or STREAM_NAK for a stream (R366). -/
def streamCtl (s : State) (x q kind sseq : Nat) (m : Msg) : State :=
  sendCtl s x q { blankMsg 0 kind m.src with svc := m.vc, sseq := sseq }

/-- After a delivery: the context expects the next message, an early one that now has its turn goes back to the inbox, every
32nd delivery is acknowledged (R366). -/
def delivered (s : State) (x q : Nat) (m : Msg) : State :=
  match landCtx s x q m with
  | none => s
  | some c =>
    let e := (c.expect + 1) % 2 ^ 32
    let k := c.unacked + 1
    let c1 := { c with expect := e, early := c.early.filter (fun y => y.sseq != e), unacked := if k = 32 then 0 else k,
                       deliveredAt := if c.unacked = 0 then s.time else c.deliveredAt, msgAt := s.time }
    let s1 := putLand s x q m c1
    let s2 := match c.early.find? (fun y => y.sseq == e) with
      | some y => toInbox s1 x none y
      | none => s1
    if k = 32 then streamCtl s2 x q 0x0C c.expect m else s2

/-- Note a transfer whose FIRST message came: its messages are delivered, or passed over. -/
def noteXfer (s : State) (x q : Nat) (m : Msg) (refused : Bool) : State :=
  match landCtx s x q m with
  | some c => putLand s x q m { c with
      xfers := { tag := m.xtag, refused := refused, wrote := [] } :: c.xfers.filter (fun e => e.tag != m.xtag) }
  | none => s

/-- Has the transfer of a message been refused? -/
def xferRefused (s : State) (x q : Nat) (m : Msg) : Bool :=
  match landCtx s x q m with
  | some c => c.xfers.any (fun e => e.tag == m.xtag && e.refused)
  | none => false

/-- The transfer of a message has written a range of memory. -/
def noteWrote (s : State) (x q : Nat) (m : Msg) (a k : Nat) : State :=
  match landCtx s x q m with
  | some c => putLand s x q m { c with
      xfers := c.xfers.map (fun e => if e.tag = m.xtag then { e with wrote := (a, k) :: e.wrote } else e) }
  | none => s

/-- A refusal after the FIRST message: the bytes the transfer has written are undefined (R371). -/
def loseXfer (s : State) (x q : Nat) (m : Msg) : State :=
  match landCtx s x q m with
  | some c => loseRanges s ((c.xfers.filter (fun e => e.tag == m.xtag)).foldr (fun e acc => e.wrote ++ acc) [])
  | none => s

/-- Forget a transfer after its LAST message. -/
def endXferAt (s : State) (x q : Nat) (m : Msg) : State :=
  match landCtx s x q m with
  | some c => putLand s x q m { c with xfers := c.xfers.filter (fun e => e.tag != m.xtag) }
  | none => s

/-- Answer a transfer busy; the rest of its messages are passed over (R369, R559). DEDUCED (log entry 45). -/
def answerBusy (s : State) (x q : Nat) (m : Msg) : State :=
  if m.first then noteXfer (answer s x q 0x0B 0 m) x q m true
  else if xferRefused s x q m then s else answer s x q 0x0B 0 m

/-- A fresh landing context. -/
def newLand (q : Nat) (m : Msg) (t : Nat) : LandCtx :=
  { part := q, src := m.src, vc := m.vc, expect := 0, early := [], unacked := 0, deliveredAt := t, msgAt := t, xfers := [], cont := none,
    opened := some { m with hops := 0 } }

/-- Delivery of a message of channels 1 to 6 in stream order (R366, R368, R559). An OPEN message replaces the context its stream still
holds, unless it is the one that opened it, come again. `deliver` is the destination unit's part; it says whether the unit has taken the
message, or holds it back. DEDUCED (log entry 45). -/
def landStream (s : State) (x i q : Nat) (m : Msg) (deliver : State → State × Bool) : State :=
  let s0 := dropInbox s x i
  let take := if (part s q).state = .quiesced then (fun s => (answerBusy s x q m, true)) else deliver
  let old := landCtx s x q m
  let fresh := m.opens && (match old with
    | some c => c.opened != some { m with hops := 0 }
    | none => true)
  if fresh && old.isNone && decide (16384 ≤ (iod s x).lands.length) then answer s0 x q 0x0B 0 m
  else match (if fresh then some (newLand q m s.time) else old) with
    | none => refuseMsg s0 x q 0x0705 m
    | some c =>
      let ahead := subMod (2 ^ 32) m.sseq c.expect
      let s1 := putLand s x q m { c with msgAt := s.time }
      if ahead = 0 then
        let r := take (dropInbox s1 x i)
        if r.2 then delivered r.1 x q m else (take s1).1
      else if 2 ^ 31 ≤ ahead then dropInbox s1 x i
      else if 1024 < ahead ∨ 4 * 2 ^ 20 < reorderBytes (iod s x) + 32 + m.data.length then
        streamCtl (modIod (dropInbox s1 x i) x (fun d => { d with reorderDrop := d.reorderDrop + 1 })) x q 0x0D c.expect m
      else
        putLand (dropInbox s1 x i) x q m { c with msgAt := s.time, early := m :: c.early.filter (fun y => y.sseq != m.sseq) }

/-- A row of a stream message: message number `which` of kind k at die x. -/
def streamRow (s : State) (x k which : Nat) (deliver : State → Nat → Msg → State × Bool) : State :=
  match inboxPick s x k which with
  | none => s
  | some i => match (iod s x).inbox[i]? with
    | none => s
    | some im =>
      match arrive s x i im with
      | .gone s1 => s1
      | .here q => landStream s x i q im.msg (fun s1 => deliver s1 q im.msg)

/-- A row of a channel 0 message. -/
def ctlRow (s : State) (x k which : Nat) (take : State → Nat → Msg → State) : State :=
  match inboxPick s x k which with
  | none => s
  | some i => match (iod s x).inbox[i]? with
    | none => s
    | some im =>
      match arrive s x i im with
      | .gone s1 => s1
      | .here q => take (dropInbox s x i) q im.msg

end Sys2Proof.Machine
end

