-- ==== Sys2Proof/Machine/Queue.lean ====
section
/-! DEFINITION. The queue engines ("Queues and dispatch"): bindings, doorbells, the checks and conditions of a record's
start, completion, retirement and halts, the control classes, and the ready scheduler of a cluster. -/

namespace Sys2Proof.Machine

/-! ### Counter selectors (Table 11-4) -/

/-- Does a selector set a reserved space or reserved bits? -/
def selBad (x : Nat) : Bool :=
  match nfld x 31 30 with
  | 0 => nfld x 29 28 != 0 || nfld x 15 5 != 0
  | 1 => nfld x 29 20 != 0 || nfld x 15 12 != 0
  | 2 => nfld x 29 12 != 0
  | _ => true

/-- Is the selector's counter outside partition p, or its core disabled (R255)? -/
def selOut (s : State) (p x : Nat) : Bool :=
  match nfld x 31 30 with
  | 0 => !(inPart s p (nfld x 27 16) && coreOn s (nfld x 27 16))
  | 1 => !(partSites s p).contains (nfld x 19 16)
  | _ => !inPart s p (nfld x 11 0)

/-- Memory counter c of a site (R220). -/
def memCtr (s : State) (i c : Nat) : W32 := sget 0 (se s i).ctrs c

/-- Add to a memory counter (R220). -/
def addMemCtr (s : State) (i c k : Nat) : State :=
  modSe s i (fun e => { e with ctrs := sput e.ctrs c (sget 0 e.ctrs c + BitVec.ofNat 32 k) })

/-- Value a wait on a selector compares (Table 11-4). -/
def selVal (s : State) (x : Nat) : W32 :=
  match nfld x 31 30 with
  | 0 => getCtr (core s (nfld x 27 16)) (nfld x 4 0)
  | 1 => memCtr s (nfld x 19 16) (nfld x 11 0)
  | _ => (queue s (nfld x 11 0)).head

/-- Is a wait met: counter - target, signed, 0 or more (R262)? -/
def selMet (s : State) (x v : Nat) : Bool := !bit (selVal s x - BitVec.ofNat 32 v) 31

/-- A write or an increment to a core in TESTING is refused: the writer records CORE_TESTING in its page (R93, R97), an Atomizer with its
event (R342). -/
def refuseAt (s : State) (pg : Nat) : State :=
  let s1 := recordErr s pg 0x0209 0 0
  if (pageType pg).map (·.1) = some 8 then raiseEvt s1 pg 0 else s1

/-- Add k to an arrival or memory counter for unit u, whose page is pg; a core in TESTING refuses it (R93). The increment of a core is a WR
flit, which the routers on its way count (R316). -/
def selAdd (s : State) (u pg x k : Nat) : State :=
  match nfld x 31 30 with
  | 0 =>
    let n := nfld x 27 16
    let s1 := countPath s (unitCorePath s u n) 1
    if (core s n).state = .testing then refuseAt s1 pg else applyInc s1 n (nfld x 4 0) k
  | 1 => addMemCtr s (nfld x 19 16) (nfld x 11 0) k
  | _ => s

/-! ### Queue registers (Tables 11-1, 11-2) -/

/-- DEPTH (R247). -/
def qDepth (q : Queue) : Nat := 64 * 2 ^ fld q.cfg 11 8
/-- RING_BASE. -/
def qBase (q : Queue) : Nat := fld q.cfg 47 12 * 4096
/-- CORE_MASK bit of core i of the bound cluster. -/
def qMask (q : Queue) (i : Nat) : Bool := bit q.cfg (48 + i)
/-- ENABLE. -/
def qOn (q : Queue) : Bool := bit q.bind 31
/-- PRODUCER. -/
def qProducer (q : Queue) : Nat := fld q.bind 29 28
/-- CONSUMER. -/
def qConsumer (q : Queue) : Nat := fld q.bind 27 25
/-- PRIORITY. -/
def qPriority (q : Queue) : Nat := fld q.bind 24 23
/-- HALT_ON_ERR. -/
def qHaltOnErr (q : Queue) : Bool := bit q.bind 22
/-- TARGET. -/
def qTarget (q : Queue) : Nat := fld q.bind 11 0
/-- Q_BIND as read: HALTED from the queue's state, SKIP and reserved bits 0. -/
def qBindRead (q : Queue) : W32 := setBit (setFld q.bind 21 12 0) 30 q.halted
/-- Partition of a queue (R246). -/
def qPart (s : State) (q : Nat) : Nat := partOfCore s q
/-- Is the queue an expert queue (R326)? -/
def qExpert (q : Queue) : Bool := qProducer q == 2 && qConsumer q == 0
/-- Is (TAIL - HEAD) above 0 (BUSY_MAP)? -/
def qBusy (q : Queue) : Bool := q.head != q.tail

/-- Record an error of a queue: number in ERR_INFO_LO [11:0], a consumer's code in [31:16], record index in ERR_INFO_HI
(R248, R260, R568). -/
def queueErr (s : State) (q code extra idx : Nat) : State :=
  let s1 := recordErr s (pgQueue q) code (q + extra * 2 ^ 16) idx
  if code = 0x0404 then raiseEvt s1 (pgQueue q) 1 else s1

/-- Is a byte range inside partition p's HBM range? -/
def inHbm (s : State) (p a len : Nat) : Bool :=
  decide (hbmBase s p * gib64 ≤ a) && decide (a + len ≤ (hbmBase s p + hbmSize s p) * gib64)

/-- Does a target lie inside partition p (R249)? -/
def targetIn (s : State) (p q : Nat) (x : Queue) : Bool :=
  match qConsumer x with
  | 0 => decide (qTarget x < 256) && inPart s p (16 * qTarget x) && qTarget x / 128 == q / 2048
  | 1 => (partSites s p).contains (qTarget x)
  | _ => decide (qTarget x < 4) && iodFor s p (qTarget x)

/-- Does ENABLE 1 meet a case of QE_BIND (R249)? DEDUCED (log entry 37). -/
def bindBad (s : State) (q : Nat) (x : Queue) : Bool :=
  decide (10 < fld x.cfg 11 8) || qProducer x == 3 || decide (3 < qConsumer x)
    || !inHbm s (qPart s q) (qBase x) (64 * qDepth x) || !targetIn s (qPart s q) q x
    || (qConsumer x == 0 && fld x.cfg 63 48 == 0)

/-! ### Doorbells (R250-R252) -/

/-- New TAIL a doorbell asks for: a set or an addition (R251). -/
def bellTail (x : Queue) (v : W64) : W32 := if bit v 63 then x.tail + BitVec.ofNat 32 (fld v 16 0) else BitVec.ofNat 32 (fld v 31 0)

/-- Error of a doorbell of a producer class (0 host, 1 core, 2 remote), in the order of Table 11-8 (R251, R252). DEDUCED (log entry 39). -/
def bellErr (x : Queue) (v : W64) (cls : Nat) : Option Nat :=
  let t := bellTail x v
  if qDepth x < (t - x.head).toNat ∨ qDepth x < (t - x.tail).toNat then some 0x0404
  else if qProducer x ≠ cls then some 0x0405
  else none

/-- A doorbell: accepted, TAIL moves; refused, TAIL stays and the error is recorded (R251, R252). DEDUCED (log entry 39). -/
def doorbell (s : State) (q : Nat) (v : W64) (cls : Nat) : State :=
  match bellErr (queue s q) v cls with
  | some code => queueErr s q code 0 (queue s q).tail.toNat
  | none => modQueue s q (fun x => { x with tail := bellTail x v })

/-! ### Records (R254-R256) -/

/-- OPCLASS. -/
def recCls (b : List Byte) : Nat := leAt b 0 1
/-- HFLAGS. -/
def recFlag (b : List Byte) (i : Nat) : Bool := Nat.testBit (leAt b 1 1) i
/-- STAMP. -/
def recStamp (b : List Byte) : Nat := leAt b 10 6
/-- Bytes lo to hi - 1 of a record are 0. -/
def recZero (b : List Byte) (lo hi : Nat) : Bool := ((b.drop lo).take (hi - lo)).all (· == 0)

/-- Ring address of record index i (R247). -/
def ringAddr (x : Queue) (i : Nat) : Nat := qBase x + (i % qDepth x) * 64

/-- Does a class have a consumer (Table 11-5)? -/
def classTaken (c consumer : Nat) : Bool :=
  match c with
  | 1 => consumer == 0
  | 2 => consumer == 1 || consumer == 2
  | 3 => consumer == 1
  | 4 => consumer == 0
  | 5 => consumer == 3
  | 6 => consumer == 0
  | 0xB => consumer == 0
  | 0xC => consumer == 1
  | _ => true

/-- Is a TILE_RUN body outside Table 11-7? -/
def tileRunBad (s : State) (p : Nat) (b : List Byte) : Bool :=
  let addr := leAt b 16 8
  let len := leAt b 24 2
  decide (2 ^ 48 ≤ addr) || addr % 64 != 0 || len == 0 || decide (4096 < len) || !inHbm s p addr (64 * cdiv len 8)
    || Nat.testBit (leAt b 26 1) 4 || leAt b 27 1 != 0 || decide (4096 ≤ leAt b 28 2)
    || (Nat.testBit (leAt b 26 1) 5 && decide (3071 < leAt b 28 2)) || nfld (leAt b 30 2) 14 12 != 0

/-- Is a TEST body outside R434 and Table 18-7? DEDUCED (log entry 40). -/
def testBad (s : State) (p : Nat) (b : List Byte) : Bool :=
  leAt b 16 2 == 0 || decide (64 ≤ leAt b 16 2) || decide (1 < leAt b 18 1) || decide (4 ≤ leAt b 19 1)
    || !recZero b 24 26 || nfld (leAt b 26 1) 7 4 != 0 || leAt b 27 1 != 0 || !recZero b 34 64
    || (Nat.testBit (leAt b 19 1) 0 && (selBad (leAt b 20 4) || decide (1 < nfld (leAt b 20 4) 31 30)))
    || (Nat.testBit (leAt b 19 1) 1 && (leAt b 28 6 % 64 != 0 || !inHbm s p (leAt b 28 6) 64))

/-- Is a SIGNAL body outside Table 11-6? -/
def signalBad (b : List Byte) : Bool :=
  let amount := leAt b 20 4
  let sel := leAt b 24 4
  !recZero b 17 20 || !recZero b 28 48
    || (match leAt b 16 1 with
        | 0 => amount == 0 || selBad sel || (nfld sel 31 30 == 2 && decide (65536 < amount))
        | 1 => decide (128 ≤ amount)
        | _ => true)

/-- Does a stack-engine body (Table 10-2, 10-4) set a reserved bit? -/
def seReserved (b : List Byte) : Bool :=
  nfld (leAt b 18 2) 5 0 != 0 || nfld (leAt b 20 2) 14 12 != 0 || nfld (leAt b 22 2) 14 12 != 0 || nfld (leAt b 60 4) 30 17 != 0

/-- QE_BAD_RECORD (R254-R256, R264-R266, R434): of the bodies a consumer has a code of its own for, what the table of the body calls
reserved; bits it gives as 0 beside a field's are the consumer's to refuse. DEDUCED (log entry 14). -/
def recBad (s : State) (q : Nat) (b : List Byte) : Bool :=
  let x := queue s q
  let c := recCls b
  c == 0 || decide (0xC < c) || decide (16 ≤ leAt b 1 1) || (recFlag b 1 && selBad (leAt b 2 4))
    || (match c with
        | 1 => tileRunBad s (qPart s q) b
        | 2 =>
          (qConsumer x == 1 && seReserved b)
            || (qConsumer x == 2 && !(recZero b 22 24 && recZero b 39 40 && recZero b 48 64))
        | 3 => seReserved b
        | 4 => nfld (leAt b 26 1) 5 4 != 0 || leAt b 27 1 != 0 || !recZero b 32 64
        | 5 => !recZero b 58 64
        | 6 => !recZero b 50 64
        | 0xC => seReserved b
        | 7 => !recZero b 16 64
        | 8 => !recFlag b 1 || !recZero b 16 64
        | 9 => signalBad b
        | 0xA => !recFlag b 0 || !recZero b 18 64 || (qConsumer x != 0 && leAt b 16 2 != 0)
        | 0xB => testBad s (qPart s q) b
        | _ => false)

/-- Does byte 26 name a core that may not run the record (R266)? -/
def coreNamedBad (s : State) (x : Queue) (b : List Byte) : Bool :=
  let f := leAt b 26 1
  !Nat.testBit f 7 && !(qMask x (f % 16) && coreOn s (16 * qTarget x + f % 16))

/-- QE_TARGET (R246, R255, R265, R266). -/
def recTargetBad (s : State) (q : Nat) (b : List Byte) : Bool :=
  let x := queue s q
  let p := qPart s q
  (recFlag b 1 && selOut s p (leAt b 2 4))
    || (match recCls b with
        | 1 => coreNamedBad s x b || (Nat.testBit (leAt b 30 2) 15 && !inPart s p (leAt b 30 2 % 4096))
        | 4 => coreNamedBad s x b
        | 6 => coreNamedBad s x b
        | 9 =>
          if leAt b 16 1 = 0 then selOut s p (leAt b 24 4)
          else
            let sh := seqShare s p (q / 2048)
            !(decide (sh.1 ≤ leAt b 20 4) && decide (leAt b 20 4 < sh.1 + sh.2))
        | 0xB => coreNamedBad s x b || (Nat.testBit (leAt b 19 1) 0 && selOut s p (leAt b 20 4))
        | _ => false)

/-- The checks of R258 in the order of Table 11-8. See R274. DEDUCED (log entry 14). DEDUCED (log entry 40). -/
def recErr (s : State) (q : Nat) (b : List Byte) : Option Nat :=
  if recBad s q b then some 0x0401
  else if !classTaken (recCls b) (qConsumer (queue s q)) then some 0x0402
  else if recTargetBad s q b then some 0x0403
  else none

/-! ### Start conditions (R257, R263, R267) -/

/-- May a partition's queues start records: ACTIVE with no QUIESCE pending (R559, Table 24-8)? -/
def startsOpen (s : State) (p : Nat) : Bool := decide ((part s p).state = .active) && (part s p).pendOp != 3

/-- The queue's next record: index and ring bytes; one to run again goes first, also ahead of a record refused behind it (R261). None while
the queue starts nothing (R257). See R253. DEDUCED (log entry 14). -/
def nextRec (s : State) (q : Nat) : Option (Nat × List Byte) :=
  let x := queue s q
  if !startsOpen s (qPart s q) || !qOn x || x.halted || decide (4096 ≤ q) then none
  else
    match x.recs.find? (fun r => match r.st with
      | .again => true
      | _ => false) with
    | some r => some (r.index, readBytes s.mem (ringAddr x r.index) 64)
    | none =>
      if x.recs.any (fun r => match r.st with
          | .refused => true
          | _ => false) then none
      else if x.recs.length < 32 ∧ x.recs.length < (x.tail - x.head).toNat then
        let i := (x.head.toNat + x.recs.length) % 2 ^ 32
        some (i, readBytes s.mem (ringAddr x i) 64)
      else none

/-- Ticks from a local copy to a 48-bit stamp: none when the stamp is past (R263). -/
def stampAhead (a st : Nat) : Option Nat :=
  let d := subMod (2 ^ 48) st a
  if d = 0 ∨ d ≤ 2 ^ 47 then some d else none

/-- Is a stamp reached for a consumer, `lead` ticks early (R257, R267)? See R282. -/
def stampDue (a st lead : Nat) : Bool :=
  match stampAhead a st with
  | none => true
  | some d => decide (d ≤ lead)

/-- LEAD of a cluster (Table 11-10). -/
def schedLead (s : State) (g : Nat) : Nat := fld (cluster s g).schedCfg 15 0

/-- Is a class run on a core group (Table 11-5)? -/
def coreClass (c : Nat) : Bool := c == 1 || c == 4 || c == 6 || c == 0xB

/-- Do FENCE, wait and stamp let a record start (R257)? -/
def recReady (s : State) (q : Nat) (b : List Byte) : Bool :=
  let x := queue s q
  let prior := x.recs.filter (fun r => match r.st with
    | .again => false
    | _ => true)
  let copy := if qConsumer x = 0 then localCopy s (qTarget x) else localCopy s (500 + q / 2048)
  (!(recFlag b 2 || recCls b == 7) || prior.isEmpty || x.recs.any (fun r => match r.st with
      | .again => true
      | _ => false))
    && (!recFlag b 1 || selMet s (leAt b 2 4) (leAt b 6 4))
    && (!recFlag b 0 || stampDue copy (recStamp b) (if coreClass (recCls b) then schedLead s (qTarget x) else 0))

/-- The queue's next record when every check passes and every condition but the consumer's holds. -/
def readyRec (s : State) (q : Nat) : Option (Nat × List Byte) :=
  match nextRec s q with
  | none => none
  | some r => if (recErr s q r.2).isNone && recReady s q r.2 then some r else none

/-- Put a record's state in its queue. -/
def putRec (s : State) (q i : Nat) (b : List Byte) (st : RecSt) : State :=
  modQueue s q (fun x =>
    let r : QRec := { index := i, bytes := b, st := st }
    { x with recs := if x.recs.any (fun y => y.index == i) then x.recs.map (fun y => if y.index = i then r else y) else x.recs ++ [r],
             waited := 0, aged := false })

/-- Change a started record's state. -/
def setRecSt (s : State) (q i : Nat) (st : RecSt) : State :=
  modQueue s q (fun x => { x with recs := x.recs.map (fun y => if y.index = i then { y with st := st } else y) })

/-! ### Retirement and halts (R258-R261) -/

/-- Halt a queue (R258). -/
def haltQueue (s : State) (q : Nat) : State := raiseEvt (modQueue s q (fun x => { x with halted := true })) (pgQueue q) 0

/-- Retire the record at HEAD. -/
def retireHead (s : State) (q : Nat) (b : List Byte) : State :=
  let s1 := modQueue s q (fun x => { x with recs := x.recs.drop 1, head := x.head + 1 })
  if recFlag b 3 then setComp s1 q else s1

/-- Retire completed records from HEAD on; a failed or refused record at HEAD halts the queue (R258-R260). DEDUCED (log entry 14). -/
def settleQueue : Nat → State → Nat → State
  | 0, s, _ => s
  | k + 1, s, q =>
    match (queue s q).recs with
    | [] => s
    | r :: _ =>
      match r.st with
      | .done => settleQueue k (retireHead s q r.bytes) q
      | .failed _ => if (queue s q).halted then s else haltQueue s q
      | .refused => if (queue s q).halted then s else haltQueue s q
      | _ => s

/-- Settle a queue after a change. -/
def settleQ (s : State) (q : Nat) : State := settleQueue ((queue s q).recs.length + 1) s q

/-- A record completes (R259). -/
def recDone (s : State) (q i : Nat) : State := settleQ (setRecSt s q i .done) q

/-- A record fails with its consumer's code (R260). -/
def recFailed (s : State) (q i code : Nat) : State :=
  let s1 := queueErr s q 0x0406 code i
  settleQ (setRecSt s1 q i (if qHaltOnErr (queue s q) then .failed code else .done)) q

/-- A row that starts records: the queue's next record when it is of the row's kind is checked, and started when it is ready
(R257, R258). DESIGN CHOICE (log entry 1). DEDUCED (log entry 14). -/
def recRow (s : State) (q : Nat) (kind : List Byte → Bool) (start : State → Nat → List Byte → State) : State :=
  match nextRec s q with
  | none => s
  | some (i, b) =>
    if !kind b then s
    else match recErr s q b with
      | some code => settleQ (putRec (queueErr s q code 0 i) q i b .refused) q
      | none => if recReady s q b then start s i b else s

/-! ### Control classes (R264, R265) -/

/-- STAMP_LATE of the queue's cluster counts a stamped record that runs after its stamp (R263). Only a core-group queue has a
cluster. DEDUCED (log entry 38). -/
def countLate (s : State) (q : Nat) (b : List Byte) : State :=
  let x := queue s q
  if recFlag b 0 && decide (qConsumer x = 0) && (stampAhead (localCopy s (qTarget x)) (recStamp b)).isNone then
    modCluster s (qTarget x) (fun k => { k with stampLate := k.stampLate + 1 })
  else s

/-- A record the queue engine executes itself completes at once. -/
def control (s : State) (q i : Nat) (b : List Byte) : State := recDone (putRec (countLate s q b) q i b .running) q i

/-- FENCE. -/
def fenceRecord (s : State) (q : Nat) : State := recRow s q (fun b => recCls b == 7) (fun s i b => control s q i b)

/-- WAIT_COUNT. -/
def waitCount (s : State) (q : Nat) : State := recRow s q (fun b => recCls b == 8) (fun s i b => control s q i b)

/-- Wake the cores of a cluster named by WAKE_MASK (R264, R285, R286). DEDUCED (log entry 38). -/
def wakeMask (s : State) (g m : Nat) : State :=
  (List.range 16).foldl (fun s i =>
    let n := 16 * g + i
    if Nat.testBit m i && coreOn s n then requestWake s n (if (core s n).run.isSome then 2 else 0) false else s) s

/-- LAUNCH_AT record. DEDUCED (log entry 38). -/
def launchRecord (s : State) (q : Nat) : State :=
  recRow s q (fun b => recCls b == 0xA) (fun s i b => control (wakeMask s (qTarget (queue s q)) (leAt b 16 2)) q i b)

/-- SIGNAL with KIND ADD: its effect is delivered and it completes; a refused doorbell fails it (R264, R265). DEDUCED (log entry 14). DEDUCED (log entry 39). -/
def signalAdd (s : State) (q : Nat) : State :=
  recRow s q (fun b => recCls b == 9 && leAt b 16 1 != 1) (fun s i b =>
    let sel := leAt b 24 4
    let k := leAt b 20 4
    let s1 := putRec (countLate s q b) q i b .running
    if nfld sel 31 30 = 2 then
      let t := sel % 4096
      let x := queue s t
      let e := if qDepth x < k + (x.tail - x.head).toNat then some 0x0404 else if qProducer x ≠ 1 then some 0x0405 else none
      match e with
      | some code => recFailed (queueErr s1 t code 0 x.tail.toNat) q i code
      | none => recDone (modQueue s1 t (fun x => { x with tail := x.tail + BitVec.ofNat 32 k })) q i
    else recDone (selAdd s1 (7000 + q / 2048) (pgQueue q) sel k) q i)

/-- SIGNAL with KIND SEQ_WRITE: the entry of the queue's die is written (R265, R174). DEDUCED (log entry 14). -/
def seqWrite (s : State) (q : Nat) : State :=
  recRow s q (fun b => recCls b == 9 && leAt b 16 1 == 1) (fun s i b =>
    control { s with seq := sput s.seq (128 * (q / 2048) + leAt b 20 4 % 128) (BitVec.ofNat 128 (leAt b 48 16)) } q i b)

/-- A record of a reserved OPCLASS (R256). -/
def reservedClass (s : State) (q : Nat) : State :=
  recRow s q (fun b => recCls b == 0 || decide (0xC < recCls b)) (fun s _ _ => s)

/-! ### Rank (R268-R270) -/

/-- Effective priority (R269). -/
def effPriority (x : Queue) : Nat := if x.aged then 3 else qPriority x

/-- Rank of a candidate: higher goes first (R268). `last` is the queue served last. See R271. DEDUCED (log entry 61). -/
def rankOf (s5 : Bool) (x : Queue) (q cls last : Nat) : Nat :=
  let top := if s5 && cls == 4 then 2 else if cls == 0xB then 0 else 1
  top * 2 ^ 20 + effPriority x * 2 ^ 16 + (4095 - (q + 4096 - (last + 1) % 4096) % 4096)

/-- May core n take a record: IDLE, or ASLEEP, with none assigned (R268)? TEST needs it ASLEEP (R93). -/
def coreFree (s : State) (n : Nat) (test : Bool) : Bool :=
  let c := core s n
  coreOn s n && c.run.isNone && c.stopping.isNone && !c.checker && !(c.wakeReq && c.wakeTo == 4)
    && (decide (c.state = .asleep) || (!test && decide (c.state = .idle)))

/-- Core a record would go to (R268): a named one, or the lowest IDLE, else the lowest ASLEEP one of the mask. -/
def pickCore (s : State) (q : Nat) (b : List Byte) : Option Nat :=
  let x := queue s q
  let f := leAt b 26 1
  let t := recCls b == 0xB
  let n := fun i => 16 * qTarget x + i
  if !Nat.testBit f 7 then (if coreFree s (n (f % 16)) t then some (n (f % 16)) else none)
  else
    let l := ((List.range 16).filter (fun i => qMask x i && coreFree s (n i) t)).map n
    match l.find? (fun n => decide ((core s n).state = .idle)) with
    | some n => some n
    | none => l.head?

/-- A queue's candidate: record index, bytes, core (R268). DEDUCED (log entry 61). -/
def candidate (s : State) (q : Nat) : Option (Nat × List Byte × Nat) :=
  if qConsumer (queue s q) ≠ 0 then none
  else match readyRec s q with
    | none => none
    | some (i, b) => if coreClass (recCls b) then (pickCore s q b).map (fun n => (i, b, n)) else none

/-- Is queue q's candidate the one the scheduler of its cluster picks (R268)? DEDUCED (log entry 61). -/
def schedPick (s : State) (q : Nat) : Bool :=
  let x := queue s q
  let k := cluster s (qTarget x)
  let rank := fun j => (candidate s j).map (fun c => rankOf (bit k.schedCfg 31) (queue s j) j (recCls c.2.1) k.lastQueue)
  match rank q with
  | none => false
  | some r => (s.queues.map (·.1)).all (fun j =>
      j == q || qConsumer (queue s j) != 0 || qTarget (queue s j) != qTarget x || (match rank j with
        | some t => decide (t < r)
        | none => true))

/-- Is queue q's ready record the one handed over to its consumer next (R270)? DEDUCED (log entry 61). -/
def handPick (s : State) (q last : Nat) : Bool :=
  let x := queue s q
  (s.queues.map (·.1)).all (fun j =>
    let y := queue s j
    j == q || qConsumer y != qConsumer x || qTarget y != qTarget x
      || (match readyRec s j with
          | some (_, b) => recCls b == 7 || recCls b == 8 || recCls b == 9 || recCls b == 0xA
              || decide (rankOf false y j 0 last < rankOf false x q 0 last)
          | none => true))

/-! ### A record goes to a core (R267) -/

/-- Accord value a stamped record launches at: 0 when the stamp is past (R263). -/
def launchValue (s : State) (g : Nat) (b : List Byte) : Option Nat :=
  if recFlag b 0 then
    some (match stampAhead (localCopy s g) (recStamp b) with
      | some d => localCopy s g + d
      | none => 0)
  else none

/-- Does R57 require the program to be loaded? -/
def reloads (c : Core) (b : List Byte) : Bool :=
  Nat.testBit (leAt b 26 1) 6 || c.progLen != leAt b 24 2 || c.progAddr.toNat != leAt b 16 8

/-- Assign a record to core n: an ASLEEP core asks for its wake, an IDLE one begins (R267, R268). -/
def assign (s : State) (q i : Nat) (b : List Byte) (n : Nat) : State :=
  let c := core s n
  let g := n / 16
  let cls := recCls b
  let job : Job := { bytes := b, desc := [], grad := [], done := 0, begun := false, tainted := false, at_ := 0 }
  let c1 := { c with run := some { queue := q, index := i, cls := cls }, starting := true, hold := none, ended := false,
                     startAt := launchValue s g b }
  let c2 := if cls = 1 then { c1 with g := [], pc := 0, loading := reloads c b, progAddr := BitVec.ofNat 64 (leAt b 16 8),
                                      progLen := leAt b 24 2 } else { c1 with job := some job }
  let s1 := modCluster (putRec s q i b .running) g (fun k => { k with starts := k.starts + 1, lastQueue := q })
  if c.state = .asleep then
    let toState := if cls = 0xB then 3 else 1
    if c.wakeReq then setCore s1 n { c2 with wakeTo := toState } else requestWake (setCore s1 n c2) n toState (cls != 0xB)
  else beginRun (setCore s1 n { c2 with state := .running }) n

/-- A row that starts a core-group record of a class. -/
def coreRecRow (s : State) (q cls : Nat) : State :=
  recRow s q (fun b => recCls b == cls) (fun s i b =>
    match candidate s q with
    | some (_, _, n) => if schedPick s q then assign s q i b n else s
    | none => s)

/-- TILE_RUN (R267). -/
def tileRun (s : State) (q : Nat) : State := coreRecRow s q 1

/-- SCHED_AGING (R269): a candidate that waited 2^AGE ticks while a core was available to it is raised to priority 3. -/
def schedAging (s : State) (q : Nat) : State :=
  let x := queue s q
  let g := qTarget x
  let age := fld (cluster s g).schedCfg 21 16
  match candidate s q with
  | some (_, b, _) =>
    if age ≠ 0 ∧ !x.aged ∧ recCls b ≠ 0xB ∧ 2 ^ min 40 age ≤ x.waited then
      modCluster (setQueue s q { x with aged := true }) g (fun k => { k with aged := k.aged + 1 })
    else s
  | none => s

/-- Candidates grow older by one tick (R269). DESIGN CHOICE (log entry 4). -/
def ageQueues (s : State) : State :=
  { s with queues := s.queues.map (fun e => if (candidate s e.1).isSome then (e.1, { e.2 with waited := e.2.waited + 1 }) else e) }

/-! ### Q_CFG and Q_BIND (R249, R261) -/

/-- A write of Q_CFG (R249). -/
def writeQcfg (s : State) (q : Nat) (v : W64) : State :=
  let x := queue s q
  let v1 := setFld v 7 0 0
  if v1 = x.cfg then s
  else if qOn x then queueErr s q 0x0408 0 x.head.toNat
  else setQueue s q { x with cfg := v1 }

/-- Bits of Q_BIND other than ENABLE, HALTED and SKIP. -/
def bindFields (v : W32) : W32 := setBit (setFld v 21 12 0) 30 false &&& 0x7FFFFFFF

/-- SKIP on a halted queue: its halted record is retired unrun and the queue resumes (R261). -/
def skipHead (s : State) (q : Nat) : State :=
  let x := queue s q
  match x.halted, x.recs with
  | true, r :: _ => settleQ (retireHead (setQueue s q { x with halted := false }) q r.bytes) q
  | _, _ => s

/-- ENABLE 1 on a halted queue: the halted record is to run again from its ring bytes (R261). -/
def rerunHead (s : State) (q : Nat) : State :=
  modQueue s q (fun x =>
    match x.recs with
    | r :: rest => { x with halted := false, recs := { r with st := .again } :: rest }
    | [] => { x with halted := false })

/-- DOORBELL_WRITE (R251) from the host's BAR2: the value a doorbell read returns. -/
def bellRead (s : State) (q : Nat) : W64 := BitVec.ofNat 64 ((queue s q).tail.toNat + (queue s q).head.toNat * 2 ^ 32)

end Sys2Proof.Machine
end

