-- ==== Sys2Proof/Machine/StackEngine.lean ====
section
/-! DEFINITION. Stack engines (R214-R229, R237-R245): records and their checks, memory counters, the transposer, the
compressor, the checkpoint mover and the scrubber. The reduce unit is in Reduce. -/

namespace Sys2Proof.Machine

/-! ### The record body (Tables 10-2 to 10-4) -/

/-- SE_OP. -/
def seOp (b : List Byte) : Nat := leAt b 16 2
/-- SE_FLAGS. -/
def seFlags (b : List Byte) : Nat := leAt b 18 2
/-- FORM. -/
def seForm (b : List Byte) : Nat := nfld (seFlags b) 15 14
/-- TOPK_K. -/
def seTopk (b : List Byte) : Nat := nfld (seFlags b) 13 7
/-- RESID_INIT. -/
def seResidInit (b : List Byte) : Bool := Nat.testBit (seFlags b) 6
/-- WAIT_CTR. -/
def seWait (b : List Byte) : Nat := leAt b 20 2
/-- DONE_CTR. -/
def seDone (b : List Byte) : Nat := leAt b 22 2
/-- SRC. -/
def seSrc (b : List Byte) : Nat := leAt b 24 8
/-- DST. -/
def seDst (b : List Byte) : Nat := leAt b 32 8
/-- AUX0. -/
def seAux0 (b : List Byte) : Nat := leAt b 40 8
/-- AUX1. -/
def seAux1 (b : List Byte) : Nat := leAt b 48 8
/-- WAIT_VALUE. -/
def seWaitValue (b : List Byte) : Nat := leAt b 56 4
/-- CORE_SIG. -/
def seSig (b : List Byte) : Nat := leAt b 60 4

/-- Unit of an operation (Table 10-1): 0 front end, 1 transposer, 2 compressor, 3 reduce unit, 4 checkpoint mover. -/
def seUnit (op : Nat) : Nat :=
  if op = 1 then 1 else if op = 2 ∨ op = 3 then 2 else if op = 4 then 3 else if op = 5 ∨ op = 6 then 4 else 0

/-- Classes an operation may stand in (Table 10-3). -/
def seClassOk (cls op : Nat) : Bool :=
  match op with
  | 1 => cls == 2
  | 2 => cls == 2
  | 3 => cls == 2
  | 4 => cls == 3
  | 5 => cls == 0xC
  | 6 => cls == 0xC
  | 7 => cls == 2 || cls == 3 || cls == 0xC
  | _ => false

/-- Fields that Table 10-3 gives as 0, or in part reserved, are not 0; a checkpoint length off its multiple of 256. -/
def seUnusedSet (b : List Byte) : Bool :=
  match seOp b with
  | 1 => seAux0 b != 0 || seAux1 b != 0
  | 2 => seAux1 b != 0
  | 3 => seAux1 b != 0
  | 4 => decide (2 ^ 30 ≤ seAux0 b)
  | 5 => seAux0 b % 256 != 0
  | 6 => seAux0 b % 256 != 0
  | _ => seSrc b != 0 || seDst b != 0 || seAux1 b != 0 || nfld (seAux0 b) 31 12 != 0

/-- SE_OP: reserved operation, wrong class, or reserved bits set. DEDUCED (log entry 16). -/
def seOpBad (b : List Byte) : Bool :=
  !seClassOk (recCls b) (seOp b) || nfld (seFlags b) 5 0 != 0 || nfld (seWait b) 14 12 != 0 || nfld (seDone b) 14 12 != 0
    || nfld (seSig b) 30 17 != 0 || seUnusedSet b

/-! ### The local region (R199, R215) -/

/-- Local region of a site: first module address and bytes. -/
def localRegion (s : State) (i : Nat) : Nat × Nat :=
  match partOfSite s i with
  | none => (0, 0)
  | some p =>
    let ss := partSites s p
    let L := (part s p).placedGib.toNat
    (hbmBase s p * gib64 + (ss.length * (64 - L) + (ss.findIdx (· == i)) * L) * 2 ^ 30, L * 2 ^ 30)

/-- Does a byte range lie in the local region of a site? -/
def isLocal (s : State) (i : Nat) (a : Int) (len : Nat) : Bool :=
  let r := localRegion s i
  decide ((r.1 : Int) ≤ a) && decide (a + len ≤ ((r.1 + r.2 : Nat) : Int))

/-- A descriptor as an engine command takes it: of the flags only PAD_WRITE has effect. DEDUCED (log entry 16). -/
def seDesc (bs : List Byte) : Desc :=
  let d := parseDesc bs
  { d with flags := d.flags % 2 }

/-- Touched span of a descriptor as module addresses (R589). -/
def seSpan (d : Desc) (dst : Bool) : Option (Int × Int) :=
  (spanOf ((touchedTuples d [] dst).map (elTouch d 0))).map (fun x => ((d.base : Int) + x.1, (d.base : Int) + x.2))

/-- Is a touched span local? -/
def spanLocal (s : State) (i : Nat) (x : Option (Int × Int)) : Bool :=
  match x with
  | none => true
  | some y => isLocal s i y.1 (y.2 - y.1 + 1).toNat

/-- Do two spans share a byte? -/
def spansMeet (x y : Option (Int × Int)) : Bool :=
  match x, y with
  | some a, some b => decide (a.1 ≤ b.2) && decide (b.1 ≤ a.2)
  | _, _ => false

/-- A span of len bytes from a. -/
def rangeSpan (a len : Nat) : Option (Int × Int) := if len = 0 then none else some ((a : Int), ((a + len - 1 : Nat) : Int))

/-- Elements of a descriptor. -/
def Desc.count (d : Desc) : Nat := d.sizes.foldl (· * ·) 1

/-- A plain tensor of an engine command: STRIDED, module address, VALID equal to SIZE. -/
def plainDesc (d : Desc) : Bool :=
  decide (1 ≤ d.rank) && decide (d.rank ≤ 6) && d.strided && d.kind == 0 && d.sizes.all (fun n => n != 0) && d.valids == d.sizes

/-- Module address of an element. -/
def Desc.elemAddr (d : Desc) (ix : List Nat) : Nat := ((d.base : Int) + elemOff d 0 ix * ((typeBits d.ty / 8 : Nat) : Int)).toNat

/-- FP32 values of a plain tensor in linear index order (R166). -/
def descVals (s : State) (d : Desc) : List Nat :=
  (tuples d.sizes).map (fun ix => widen d.ty (readLe s.mem (d.elemAddr ix) (typeBits d.ty / 8)) 0)

/-- Write FP32 values to a plain FP32 tensor in linear index order. -/
def putVals (m : Mem) (d : Desc) (vs : List Nat) : Mem :=
  ((tuples d.sizes).zip vs).foldl (fun m e => writeLe m (d.elemAddr e.1) 4 e.2) m

/-! ### CRC-64 (R389) -/

/-- Eight bits of CRC-64/ECMA-182. -/
def crc64Bits : Nat → Nat → Nat
  | 0, c => c
  | k + 1, c => crc64Bits k (if 2 ^ 63 ≤ c then (c * 2 % 2 ^ 64) ^^^ 0x42F0E1EBA9EA3693 else c * 2)

/-- CRC-64 over bytes from a running value. -/
def crc64From (c : Nat) (bs : List Byte) : Nat := bs.foldl (fun c b => crc64Bits 8 (c ^^^ (b.toNat * 2 ^ 56))) c

/-- CRC-64/ECMA-182. -/
def crc64 (bs : List Byte) : Nat := crc64From 0 bs

/-! ### Commands -/

/-- The oldest command of a unit. -/
def seHead (s : State) (i u : Nat) : Option SeCmd := (se s i).cmds.find? (fun c => c.unit == u)

/-- Is it the command of this record? -/
def sameCmd (c d : SeCmd) : Bool := c.queue == d.queue && c.index == d.index

/-- Take a command off its engine. -/
def dropCmd (s : State) (i : Nat) (c : SeCmd) : State :=
  modSe s i (fun e => { e with cmds := e.cmds.filter (fun d => !sameCmd c d) })

/-- Replace a command of an engine. -/
def putCmd (s : State) (i : Nat) (c : SeCmd) : State :=
  modSe s i (fun e => { e with cmds := e.cmds.map (fun d => if sameCmd c d then c else d) })

/-- Report a command's end to its queue engine (R219). -/
def seReport (s : State) (q idx code : Nat) : State :=
  { s with reports := s.reports ++ [{ queue := q, index := idx, code := code, g31 := 0 }] }

/-- A command ends in error (R218, R245). -/
def seFail (s : State) (i : Nat) (c : SeCmd) (code : Nat) : State :=
  let s1 := recordErr (dropCmd s i c) (pgSe i) code (seOp c.bytes + c.queue * 2 ^ 16) 0
  seReport (raiseEvt s1 (pgSe i) 0) c.queue c.index code

/-- A completed command's signals: the report, DONE_CTR, then the increment of CORE_SIG (R219, R220). -/
def seSignals (s : State) (i q idx : Nat) (b : List Byte) : State :=
  let s1 := seReport s q idx 0
  let s2 := if Nat.testBit (seDone b) 15 then addMemCtr s1 i (seDone b % 4096) 1 else s1
  if Nat.testBit (seSig b) 31 then
    { s2 with net := s2.net ++ [{ src := 5000 + i, flight := 0, dst := seSig b % 4096, cells := [], red := none,
                                  inc := some (nfld (seSig b) 16 12, 1), fence := [], injected := true }] }
  else s2

/-- A command completes (R219). -/
def seFinish (s : State) (i : Nat) (c : SeCmd) : State := seSignals (dropCmd s i c) i c.queue c.index c.bytes

/-- Is a command's wait met (R218)? -/
def seWaitMet (s : State) (i : Nat) (b : List Byte) : Bool :=
  !Nat.testBit (seWait b) 15 || !bit (memCtr s i (seWait b % 4096) - BitVec.ofNat 32 (seWaitValue b)) 31

/-! ### Start checks (Table 10-12) -/

/-- Does CORE_SIG name a core that is disabled or outside partition p (R219)? -/
def seSigBad (s : State) (p : Nat) (b : List Byte) : Bool :=
  Nat.testBit (seSig b) 31 && !(inPart s p (seSig b % 4096) && coreOn s (seSig b % 4096))

/-- SE_DESC of a TRANSPOSE (R223). DEDUCED (log entry 16). -/
def transposeDescBad (s : State) (x y : Desc) : Bool :=
  let c : MoveCtx := { op := 0x48, tr := true, split := 0, seqOfs := 0, src := x, dst := y }
  !(x.strided && y.strided && x.kind == 0 && y.kind == 0 && x.ty == y.ty && (decide (x.ty ≤ 4) || x.ty == 10))
    || (descErr s 0 c [0x0220, 0x0221, 0x0222, 0x0223, 0x0224, 0x0225]).isSome

/-- Bytes of packed output for N elements (Table 10-5). -/
def packedLen (b : List Byte) (n : Nat) : Nat := if seOp b = 2 then 36 * (n / 256) else 3 * seTopk b * (n / 256)

/-- SE_DESC of a packing command (R225); l0 and l1 say which descriptors can be read. DEDUCED (log entry 16). -/
def packDescBad (b : List Byte) (l0 l1 : Bool) (x y : Desc) : Bool :=
  (l0 && !(plainDesc x && decide (x.ty ≤ 1) && x.count % 256 == 0))
    || (seAux0 b != 0 && l1 && !(plainDesc { y with valid := y.size } && y.ty == 0))
    || (seAux0 b != 0 && l0 && l1 && y.sizes != x.sizes)
    || (seOp b == 3 && !(decide (1 ≤ seTopk b) && decide (seTopk b ≤ 64)))

/-- Is a region of no bytes local? Only where the stack has a local region at all (R215). -/
def noRegion (s : State) (i : Nat) : Bool := (localRegion s i).2 == 0

/-- Start checks of a TRANSPOSE or packing command, in the order of Table 10-12: the code of the first that fails. A descriptor outside the
local region is not read (R215), so of SE_DESC only what needs no such descriptor is judged before it. DEDUCED (log entry 16). -/
def localErr (s : State) (i p : Nat) (b : List Byte) (d0 d1 : List Byte) : Option Nat :=
  let x := seDesc d0
  let y := seDesc d1
  let tr := seOp b == 1
  let second := if tr then seDst b else seAux0 b
  let l0 := isLocal s i (seSrc b) 128
  let l1 := !(tr || second != 0) || isLocal s i second 128
  if seOpBad b then some 0x0501
  else if (if tr then l0 && l1 && transposeDescBad s x y else packDescBad b l0 l1 x y) then some 0x0503
  else if !l0 || !l1 then some 0x0502
  else
    let sx := seSpan x false
    let sy := if tr then seSpan y true else if second != 0 then seSpan { y with valid := y.size } true else none
    let out := if tr then none else rangeSpan (seDst b) (packedLen b x.count)
    if !spanLocal s i sx || !spanLocal s i sy || !spanLocal s i out then some 0x0502
    else if (tr && spansMeet sx sy) || spansMeet out sx || spansMeet out sy then some 0x0504
    else if seSigBad s p b then some 0x0505 else none

/-- Module ID, module address and reserved bits of a global address (R27). -/
def globalId (g : Nat) : Nat := nfld g 59 48

/-- Start checks of a checkpoint command. -/
def ckptErr (s : State) (i p : Nat) (b : List Byte) : Option Nat :=
  let push := seOp b == 5
  if seOpBad b then some 0x0501
  else if noRegion s i || !spanLocal s i (rangeSpan (if push then seSrc b else seDst b) (seAux0 b)) then some 0x0502
  else if seSigBad s p b || globalId (if push then seDst b else seSrc b) == (part s p).moduleId.toNat then some 0x0505
  else none

/-- Entry I/O die of a stack engine (R359). -/
def seEntry (s : State) (i : Nat) : Nat :=
  if s.variant = .m8l4 then i / 8 + (if i % 8 < 4 then 0 else 2) else i / 8

/-! ### Packing (R225-R228) -/

/-- |x| as an exact value. -/
def fabs : FVal → FVal
  | .nan => .nan
  | .inf _ => .inf false
  | .fin _ m e => .fin false m e

/-- What packing a block gives: packed bytes, new residuals, whether every element is finite. -/
abbrev Packed := List Byte × List Nat × Bool

/-- Bytes of 8 bits each, bit i of the block at bit i mod 8 of byte i / 8 (R228). -/
def bitBytes (bs : List Bool) : List Byte :=
  (List.range (bs.length / 8)).map (fun k => BitVec.ofNat 8 (unlanes 1 (((bs.drop (8 * k)).take 8).map b2n)))

/-- x of R226: the rounded sum of gradient and residual. -/
def packSums (gs rs : List Nat) : List Nat := List.zipWith add32 gs rs

/-- SIGN_PACK of one block of x (R226). -/
def signBlock (xs : List Nat) : Packed :=
  let vs := xs.map dec32
  let fin := vs.all fisFin
  let signs := xs.map (fun x => Nat.testBit x 31)
  let sum := vs.foldl (fun a v => fadd a (fabs v)) fZero
  let scale := if fin then enc32 (fscale (-8) sum) else nan32
  let rnew := xs.map (fun x => if fin then sub32 x (withSign 31 (Nat.testBit x 31) scale) else 0)
  (bitBytes signs ++ toBytes 4 scale, rnew, fin)

/-- Rank key of TOPK_PACK: NaN over infinity over finite magnitude (R227). -/
def topkKey (x : Nat) : Nat := if fisNan (dec32 x) then 2 ^ 31 else x % 2 ^ 31

/-- Kept indices, ascending: the k of greatest key, ties to the lower index (R227). -/
def topkKept (k : Nat) (xs : List Nat) : List Nat :=
  let ks := mapIx (fun i x => (i, topkKey x)) 0 xs
  let ord := (sortBy (fun e => 2 ^ 31 - e.2) ks).map (·.1)
  sortBy (fun i => i) (ord.take k)

/-- TOPK_PACK of one block of x (R227). -/
def topkBlock (k : Nat) (xs : List Nat) : Packed :=
  let kept := topkKept k xs
  let v := fun (x : Nat) => enc16b (dec32 x)
  let rnew := mapIx (fun i x =>
    if kept.contains i then (if fisFin (dec32 x) then enc32 (fadd (dec32 x) (fneg (dec16b (v x)))) else 0) else x) 0 xs
  (kept.foldr (fun i acc => toBytes 1 i ++ acc) [] ++ kept.foldr (fun i acc => toBytes 2 (v (nth xs i)) ++ acc) [],
    rnew, xs.all (fun x => fisFin (dec32 x)))

/-- Cut a list into blocks of 256. -/
def blocks256 (xs : List Nat) : List (List Nat) := (List.range (xs.length / 256)).map (fun i => (xs.drop (256 * i)).take 256)

/-- A TRANSPOSE as a move (R223). -/
def transposeView (c : SeCmd) : MoveView :=
  { word := BitVec.ofNat 64 (2 ^ 22), src := seDesc c.d0, dst := seDesc c.d1, se := [], de := [] }

/-- What a TRANSPOSE writes (R223). -/
def transposeEffect (s : State) (c : SeCmd) : State :=
  let cs := moveCells s 0 (transposeView c)
  hbmTouch { s with mem := writeCells s.mem cs } (cs.map (·.1)) true

/-! ### The engine's requests (R216) -/

/-- An address in each line of a byte range. -/
def rangeLines (a len : Nat) : List Nat :=
  if len = 0 then [] else (List.range ((a + len - 1) / 64 - a / 64 + 1)).map (fun k => 64 * (a / 64 + k))

/-- The first and last byte of each element of a descriptor. -/
def descAddrs (d : Desc) : List Nat :=
  (tuples d.sizes).foldr (fun ix acc => d.elemAddr ix :: (d.elemAddr ix + typeBits d.ty / 8 - 1) :: acc) []

/-- The descriptors a command reads at its start. -/
def seDescReads (b : List Byte) : List Nat :=
  let second := if seOp b = 1 ∨ seOp b = 4 then seDst b else seAux0 b
  if 5 ≤ seOp b then []
  else (if seOp b = 4 ∧ 2 ≤ seForm b then [] else rangeLines (seSrc b) 128) ++ (if second = 0 then [] else rangeLines second 128)

/-- The operands a command of the transposer or the compressor reads. -/
def seDataReads (s : State) (c : SeCmd) : List Nat :=
  let b := c.bytes
  if seOp b = 1 then srcAddrs s 0 (transposeView c)
  else descAddrs (seDesc c.d0) ++ (if seAux0 b != 0 && !seResidInit b then descAddrs (seDesc c.d1) else [])

/-- Everything in HBM a command of a local unit has read: its descriptors and operands; of a push, its range. -/
def seReads (s : State) (c : SeCmd) : List Nat :=
  let b := c.bytes
  if c.unit = 4 then (if seOp b = 5 then rangeLines (seSrc b) (seAux0 b) else [])
  else seDescReads b ++ seDataReads s c

/-- What a packing command writes (R226-R228): the packed output, the residual, the NONFINITE count. -/
def packEffect (s : State) (i : Nat) (c : SeCmd) : State :=
  let b := c.bytes
  let x := seDesc c.d0
  let y := seDesc c.d1
  let res := seAux0 b != 0
  let gs := descVals s x
  let rs := if res && !seResidInit b then descVals s y else gs.map (fun _ => 0)
  let ps := (blocks256 (packSums gs rs)).map (fun l => if seOp b = 2 then signBlock l else topkBlock (seTopk b) l)
  let out := ps.foldr (fun p acc => p.1 ++ acc) []
  let m1 := if res then putVals s.mem y (ps.foldr (fun p acc => p.2.1 ++ acc) []) else s.mem
  let s0 := { s with mem := writeBytes m1 (seDst b) out }
  let s1 := hbmTouch s0 (rangeLines (seDst b) out.length ++ (if res then descAddrs y else [])) true
  let bad := ps.countP (fun p => !p.2.2)
  if bad = 0 then s1
  else raiseEvt (modSe s1 i (fun e => { e with nonfinite := e.nonfinite + BitVec.ofNat 64 bad })) (pgSe i) 2

/-! ### The checkpoint mover (R237-R239) -/

/-- Data transfers of a checkpoint command. -/
def ckptPieces (b : List Byte) : Nat := cdiv (seAux0 b) (2 ^ 20)

/-- Bytes of data transfer k. -/
def pieceLen (b : List Byte) (k : Nat) : Nat := min (2 ^ 20) (seAux0 b - k * 2 ^ 20)

/-- The trailer (Table 10-8). -/
def trailer (s : State) (i p : Nat) (c : SeCmd) : List Byte :=
  toBytes 4 0x5A434B50 ++ toBytes 2 ((part s p).moduleId.toNat + i * 4096) ++ toBytes 2 0 ++ toBytes 8 (seAux0 c.bytes)
    ++ toBytes 8 (seAux1 c.bytes) ++ toBytes 8 c.dig ++ List.replicate 32 0

/-- A READ_REQ of one transfer (R358). -/
def readReq (dst addr len home : Nat) : List Msg :=
  [{ blankMsg 2 2 dst with addr := addr, data := toBytes 8 addr ++ toBytes 8 (addr + len - 1) ++ toBytes 8 home }]

/-- Messages of transfer k of a checkpoint command as its granules read now, and its bytes (R239). -/
def ckptMsgs (s : State) (i p : Nat) (c : SeCmd) (k : Nat) : List Msg × List Byte :=
  let b := c.bytes
  let n := ckptPieces b
  let off := if k = n then seAux0 b else k * 2 ^ 20
  let len := if k = n then 64 else pieceLen b k
  if seOp b = 5 then
    let data := if k = n then trailer s i p c else readBytes s.mem (seSrc b + off) len
    (writeMsgs 2 (globalId (seDst b)) (seDst b % 2 ^ 48 + off) data, data)
  else (readReq (globalId (seSrc b)) (seSrc b % 2 ^ 48 + off) len (seDst b + off), List.replicate len 0)

/-- Open the next transfer of a checkpoint command; none while it must wait. The trailer of a push goes out once every data
transfer has been acknowledged. DEDUCED (log entry 41). -/
def ckptNext (s : State) (i p : Nat) (c : SeCmd) : Option State :=
  let push := seOp c.bytes == 5
  let n := ckptPieces c.bytes
  let k := c.sent
  if c.err ≠ 0 ∨ n < k ∨ 16 ≤ c.sent - c.ended ∨ (k = n ∧ push ∧ c.ended < n) then none
  else
    let r := ckptMsgs s i p c k
    (openXfer s (seEntry s i) p (.ckpt i k) (if push then 0 else r.2.length) r.1).map (fun x =>
      let s1 := if push && k != n then hbmTouch x.1 (rangeLines (seSrc c.bytes + k * 2 ^ 20) (pieceLen c.bytes k)) false else x.1
      putCmd (countPath s1 (iodHbmPath s (seEntry s i) i) (if push then cdiv r.2.length 64 else 1)) i { c with sent := k + 1, dig := if push && k != n then crc64From c.dig r.2 else c.dig })

/-- Open as many transfers as the rules allow. DEDUCED (log entry 41). -/
def ckptPump : Nat → State → Nat → State
  | 0, s, _ => s
  | k + 1, s, i =>
    match seHead s i 4, partOfSite s i with
    | some c, some p =>
      if !c.started then s
      else match ckptNext s i p c with
        | some s1 => ckptPump k s1 i
        | none => s
    | _, _ => s

/-- A transfer of the running checkpoint command ended, with an error code or 0. DEDUCED (log entry 41). -/
def ckptEnded (s : State) (i code : Nat) : State :=
  match seHead s i 4 with
  | some c => if c.started then
      ckptPump 16 (putCmd s i { c with ended := c.ended + 1, err := if code = 0 then c.err else 0x050C }) i else s
  | none => s

/-- READ_DATA for the running pull: the trailer is kept, other bytes land in the local range and enter the digest (R238). -/
def ckptData (s : State) (i piece addr : Nat) (data : List Byte) : State :=
  match seHead s i 4 with
  | some c =>
    if c.started && piece == ckptPieces c.bytes then
      putCmd s i { c with d0 := c.d0 ++ data }
    else if c.started then
      hbmTouch (putCmd { s with mem := writeBytes s.mem addr data } i { c with pulled := sput c.pulled addr data }) (rangeLines addr data.length) true
    else s
  | none => s

/-- Does a pulled trailer match (R238)? See R423. DEDUCED (log entry 41). -/
def ckptGood (c : SeCmd) : Bool :=
  let t := c.d0
  leAt t 0 4 == 0x5A434B50 && leAt t 8 8 == seAux0 c.bytes && leAt t 16 8 == seAux1 c.bytes
    && leAt t 24 8 == c.pulled.foldl (fun d e => crc64From d e.2) 0

/-! ### Records and starts -/

/-- Hand the queue's next record over to its stack engine (R257, R270). -/
def seForward (s : State) (q : Nat) (kind : List Byte → Bool) : State :=
  let i := qTarget (queue s q)
  if qConsumer (queue s q) ≠ 1 then s
  else recRow s q (fun b => (recCls b == 2 || recCls b == 3 || recCls b == 0xC) && kind b) (fun s idx b =>
    if handPick s q (se s i).lastQueue then
      modSe (putRec s q idx b .running) i (fun e =>
        { e with cmds := e.cmds ++ [{ queue := q, index := idx, bytes := b, unit := seUnit (seOp b), started := false, d0 := [], d1 := [],
                                      sent := 0, ended := 0, err := 0, dig := 0, pulled := [] }], lastQueue := q })
    else s)

/-- Is a command the oldest of its unit? -/
def isHead (s : State) (i : Nat) (c : SeCmd) : Bool :=
  match seHead s i c.unit with
  | some d => sameCmd c d
  | none => false

/-- Start the oldest command of a kind that heads its unit, when its wait is met and the stack is out of self-refresh (R211,
R218). -/
def seStart (s : State) (i : Nat) (kind : List Byte → Bool) (start : State → SeCmd → State) : State :=
  match (se s i).cmds.find? (fun c => kind c.bytes && !c.started && isHead s i c) with
  | none => s
  | some c =>
    if !seWaitMet s i c.bytes || !siteOn s i then s
    else if !mcServes s i then startExit s i
    else start s c

/-- A row of stack-engine commands of one kind: hand over, then start. On a queue of another consumer only the checks of R258
are made, which refuse a class that consumer does not take. -/
def seRow (s : State) (q : Nat) (kind : List Byte → Bool) (start : State → Nat → SeCmd → State) : State :=
  let i := qTarget (queue s q)
  if qConsumer (queue s q) ≠ 1 then recRow s q kind (fun s _ _ => s)
  else seStart (seForward s q kind) i kind (fun s c => start s i c)

/-- Partition of a command's queue. -/
def cmdPart (s : State) (c : SeCmd) : Nat := qPart s c.queue

/-- The blotter of a check failure of an engine: SE_ARITH with the error information of its page (R446, R458). -/
def seFault (s : State) (i : Nat) : Blotter :=
  { blank 9 0x050E 5 3 i with site := i, infoLo := (hdr s (pgSe i)).infoLo.toNat, infoHi := (hdr s (pgSe i)).infoHi.toNat }

/-- A check failure of the engine's arithmetic: the command ends with SE_ARITH and the partition is reset (R446). DEDUCED (log entry 42). -/
def seArith (s : State) (i : Nat) (c : SeCmd) : State :=
  let s1 := seFail s i c 0x050E
  resetByFault s1 (cmdPart s c) (seFault s1 i)

/-- Start of a TRANSPOSE, SIGN_PACK or TOPK_PACK: descriptors are read and the checks made (R218). -/
def startLocal (chk : Chk) (s : State) (i : Nat) (c : SeCmd) : State :=
  let b := c.bytes
  let second := if seOp b = 1 then seDst b else seAux0 b
  let d0 := readBytes s.mem (seSrc b) 128
  let d1 := readBytes s.mem second 128
  match localErr s i (cmdPart s c) b d0 d1 with
  | some code => seFail s i c code
  | none =>
    let s1 := hbmTouch s (seDescReads b) false
    if chk ≠ .pass && bit s.glob.integCfg 0 then seArith s1 i c
    else putCmd s1 i { c with started := true, d0 := d0, d1 := d1 }

/-- Start of CKPT_PUSH or CKPT_PULL. A global address with [63:60] not 0 is refused by the entry die (R359). -/
def startCkpt (s : State) (i : Nat) (c : SeCmd) : State :=
  let b := c.bytes
  let g := if seOp b = 5 then seDst b else seSrc b
  match ckptErr s i (cmdPart s c) b with
  | some code => seFail s i c code
  | none =>
    if nfld g 63 60 ≠ 0 then seFail (linkErr s (seEntry s i) 0x0701 (globalId g) 0) i c 0x050C
    else ckptPump 16 (putCmd s i { c with started := true, d0 := [], pulled := [] }) i

/-- CTR_SET writes its counter at once and completes (R220). -/
def startCtrSet (s : State) (i : Nat) (c : SeCmd) : State :=
  let b := c.bytes
  if seOpBad b then seFail s i c 0x0501
  else if seSigBad s (cmdPart s c) b then seFail s i c 0x0505
  else
    let k := seAux0 b % 4096
    seFinish (modSe s i (fun e => { e with ctrs := sput e.ctrs k (BitVec.ofNat 32 (seAux0 b / 2 ^ 32)) })) i c

/-- May a unit's running command end: one of the checkpoint mover once its transfers have (R237, R238)? -/
def seMayEnd (c : SeCmd) : Bool :=
  c.started && (c.unit == 1 || c.unit == 2
    || (c.unit == 4 && (if c.err ≠ 0 then c.sent == c.ended else c.ended == ckptPieces c.bytes + 1)))

/-- The end of a unit's running command: what it writes, and whether it has completed. -/
def seEnd (s : State) (i : Nat) (c : SeCmd) : State :=
  if c.unit = 1 then seFinish (transposeEffect s c) i c
  else if c.unit = 2 then seFinish (packEffect s i c) i c
  else if c.err ≠ 0 then seFail s i c c.err
  else if seOp c.bytes = 5 || ckptGood c then seFinish s i c
  else seFail s i c 0x050B

/-- SE_COMMAND_COMPLETE (R219): the running command of a unit has written its last byte. Its reads of HBM have gone through the site's
controller, with what they met there (R201, R203, R216); data with an error that cannot be corrected is never used: the owning partition is
reset. DEDUCED (log entry 16). DESIGN CHOICE (log entry 34). -/
def seCommandComplete (s : State) (i u : Nat) (es : List (Nat × Ecc)) : State :=
  match seHead s i u with
  | none => s
  | some c =>
    if !seMayEnd c then s
    else
      let rd := seReads s c
      let s1 := hbmMeets (if u = 4 then s else hbmTouch s (seDataReads s c) false) rd es
      if hbmPoison rd es then s1 else seEnd s1 i c

/-- A command completes, with what the reads of the engine's microprogram store meet (R451): a corrected error is counted in ERR_COUNT of
the engine's page; one that cannot be corrected is SE_ARITH and resets the partition (R446). DESIGN CHOICE (log entry 66). -/
def seStoreRead (s : State) (i u : Nat) (e : Ecc) (es : List (Nat × Ecc)) : State :=
  match e with
  | .clean => seCommandComplete s i u es
  | .corrected =>
    match seHead s i u with
    | none => s
    | some _ => seCommandComplete (correctedBlotter (countCorrected s (pgSe i)) (pgSe i) { blank 1 0 5 0 i with site := i }) i u es
  | .uncorrectable =>
    match seHead s i u with
    | none => s
    | some c => if c.started then seArith s i c else s

/-- Kind of a MOVE record on a stack engine: the row that takes it (log entry 15). DEDUCED (log entry 15). -/
def isTranspose (b : List Byte) : Bool := recCls b == 2 && seOp b != 2 && seOp b != 3 && seOp b != 7
/-- SIGN_PACK records. DEDUCED (log entry 15). -/
def isSignPack (b : List Byte) : Bool := recCls b == 2 && seOp b == 2
/-- TOPK_PACK records. DEDUCED (log entry 15). -/
def isTopkPack (b : List Byte) : Bool := recCls b == 2 && seOp b == 3
/-- REDUCE_JOIN records other than CTR_SET. DEDUCED (log entry 15). -/
def isReduce (b : List Byte) : Bool := recCls b == 3 && seOp b != 7
/-- CKPT_PUSH records, and CHECKPOINT records with an operation the class does not take. DEDUCED (log entry 15). -/
def isPush (b : List Byte) : Bool := recCls b == 0xC && seOp b != 6 && seOp b != 7
/-- CKPT_PULL records. DEDUCED (log entry 15). -/
def isPull (b : List Byte) : Bool := recCls b == 0xC && seOp b == 6
/-- CTR_SET records. DEDUCED (log entry 15). -/
def isCtrSet (b : List Byte) : Bool := seOp b == 7

/-- SE_TRANSPOSE. -/
def execSeTranspose (queue : Nat) (s : State) : Host.Outcome State Fault Refusal :=
  .next (seRow s queue isTranspose (startLocal .pass))

/-- SIGN_PACK. -/
def execSignPack (queue : Nat) (chk : Chk) (s : State) : Host.Outcome State Fault Refusal :=
  .next (seRow s queue isSignPack (startLocal chk))

/-- TOPK_PACK. -/
def execTopkPack (queue : Nat) (chk : Chk) (s : State) : Host.Outcome State Fault Refusal :=
  .next (seRow s queue isTopkPack (startLocal chk))

/-- CKPT_PUSH. -/
def execCkptPush (queue : Nat) (s : State) : Host.Outcome State Fault Refusal := .next (seRow s queue isPush startCkpt)

/-- CKPT_PULL. -/
def execCkptPull (queue : Nat) (s : State) : Host.Outcome State Fault Refusal := .next (seRow s queue isPull startCkpt)

/-- CTR_SET. -/
def execCtrSet (queue : Nat) (s : State) : Host.Outcome State Fault Refusal := .next (seRow s queue isCtrSet startCtrSet)

/-- SE_COMMAND_COMPLETE. -/
def execSeCommandComplete (site unit : Nat) (ecc : Ecc) (hbm : List (Nat × Ecc)) (s : State) : Host.Outcome State Fault Refusal :=
  .next (seStoreRead s site unit ecc hbm)

/-! ### The patrol scrubber (R240-R242) -/

/-- Module address of codeword k (of 16) of a place: the inverse of R199 under the placement in force. -/
def physAddr (s : State) (p : HbmPlace) (k : Nat) : Nat :=
  match partOfSite s p.site with
  | none => 0
  | some x =>
    let ss := partSites s x
    let n := ss.length
    let j := ss.findIdx (· == p.site)
    let key := (part s x).placedKey
    let L := (part s x).placedGib.toNat
    let qb := (p.bank + 128 - ((p.row * keyMul key) / 64) % 64 - fld key 5 0) % 64
    let q := p.row * 256 + qb * 4 + p.col
    let a := if q < (64 - L) * 2 ^ 16 then
        (q * (64 * n) + (p.pc * n + j + 64 * n - rot key q (64 * n)) % (64 * n)) * 256
      else
        let q2 := q - (64 - L) * 2 ^ 16
        n * (64 - L) * 2 ^ 30 + j * L * 2 ^ 30 + (q2 * 64 + (p.pc + 64 - rot key q2 64) % 64) * 256
    hbmBase s x * gib64 + a + (k % 4) * 64

/-- SCRUB_CODEWORD (R240, R241): the next codeword is read; a corrected error is rewritten and counted. -/
def scrubCodeword (s : State) (i : Nat) (e : Ecc) : State :=
  let x := se s i
  if !x.scrubEn || !siteOn s i || !mcServes s i then s
  else
    let w := x.scrubPos.toNat
    let p : HbmPlace := { site := i, pc := nfld w 29 24, bank := nfld w 23 18, row := nfld w 17 4, col := nfld w 3 2 }
    let last := decide (w = 2 ^ 30 - 1)
    let s1 := setSe s i { x with
      scrubPos := x.scrubPos + 1
      scrubPasses := if last then x.scrubPasses + 1 else x.scrubPasses
      scrubFixed := if e = .corrected then x.scrubFixed + 1 else x.scrubFixed }
    let s2 := if last then raiseEvt s1 (pgSe i) 3 else s1
    eccResult s2 p (physAddr s2 p (w % 16)) e

/-- SCRUB_CODEWORD. -/
def execScrubCodeword (site : Nat) (ecc : Ecc) (s : State) : Host.Outcome State Fault Refusal :=
  .next (scrubCodeword s site ecc)

end Sys2Proof.Machine
end

