-- ==== Sys2Proof/Machine/Reduce.lean ====
section
/-! DEFINITION. The reduce unit and gradient exchange (R230-R236, R381-R403), with the sillage log (R427-R433). -/

namespace Sys2Proof.Machine

/-! ### Group entries (Tables 16-1, 16-2) -/

/-- LATE_POLICY: 0 WAIT, 1 CARRY, 2 DROP. -/
def latePolicy (g : Group) : Nat := fld g.cfg 7 6
/-- OWN_RANK. -/
def ownRank (g : Group) : Nat := fld g.cfg 5 0
/-- SHARE of a rank in the active plane. -/
def share (g : Group) (p : Nat) : Nat := fld (sget (0 : W32) g.active p) 15 0
/-- MODULE_ID of a rank in the active plane. -/
def rankId (g : Group) (p : Nat) : Nat := fld (sget (0 : W32) g.active p) 27 16
/-- Sum of the shares of the ranks below p. -/
def sharesBelow (g : Group) (p : Nat) : Nat := ((List.range p).map (share g)).foldl (· + ·) 0
/-- Ranks of a mask, ascending. -/
def ranksOf (m : W64) : List Nat := (List.range 64).filter (bit m)

/-- Slots of a site for a pair: open (not carry), or carry. -/
def isSlot (g b : Nat) (carry : Bool) (r : RSlot) : Bool := r.group == g && r.bucket == b && r.carrySlot == carry

/-- A slot of an engine. -/
def slotAt (s : State) (i g b : Nat) (carry : Bool) : Option RSlot := (se s i).slots.find? (isSlot g b carry)

/-- Put a slot of an engine in place of the one of its pair and kind. -/
def putSlot (s : State) (i : Nat) (r : RSlot) : State :=
  modSe s i (fun e => { e with slots := e.slots.map (fun t => if isSlot r.group r.bucket r.carrySlot t then r else t) })

/-- Take a slot off an engine. -/
def dropSlot (s : State) (i : Nat) (r : RSlot) : State :=
  modSe s i (fun e => { e with slots := e.slots.filter (fun t => !isSlot r.group r.bucket r.carrySlot t) })

/-- The pair directory (R390): the engine of partition p that holds a slot of the pair. -/
def findSlot (s : State) (p g b : Nat) (carry : Bool) : Option (Nat × RSlot) :=
  (partSites s p).findSome? (fun i => (slotAt s i g b carry).map (fun r => (i, r)))

/-- OPEN of a group: its open and carry slots in its partition. -/
def grpOpen (s : State) (g : Nat) : Nat :=
  ((partSites s (partOfGroup s g)).map (fun i => (se s i).slots.countP (fun r => r.group == g))).foldl (· + ·) 0

/-- GRP_STATE as read. -/
def grpStateRead (s : State) (g : Nat) : W32 := BitVec.ofNat 32 (grpOpen s g * 2 ^ 16 + (group s g).st.toNat)

/-- Record an error on the reduction-group page of partition p (R403). DEDUCED (log entry 17). -/
def grpErr (s : State) (p code g b rank peer : Nat) : State :=
  raiseEvt (recordErr s (pgGrp p) code (g + b * 2 ^ 12) (rank + peer * 2 ^ 16)) (pgGrp p) 1

/-- Group and bucket a REDUCE names. DEDUCED (log entry 43). -/
def redGroup (b : List Byte) : Nat := nfld (seAux0 b) 29 20
/-- Bucket. -/
def redBucket (b : List Byte) : Nat := nfld (seAux0 b) 19 0
/-- Hold area bytes. -/
def redHold (b : List Byte) : Nat := nfld (seAux1 b) 63 48 * 2 ^ 20

/-- Length of a contribution of N elements (R231). -/
def contribLen (form k n : Nat) : Nat :=
  match form with
  | 0 => 4 * n
  | 1 => 2 * n
  | 2 => 36 * n / 256
  | _ => 3 * k * n / 256

/-! ### The checks of a REDUCE (R230, R385, R386) -/

/-- SE_DESC of a REDUCE (R230); l0 and l1 say which of the descriptors of SRC and of the result can be read. -/
def reduceDescBad (b : List Byte) (l0 l1 : Bool) (src res : Desc) : Bool :=
  (l1 && !(plainDesc res && res.ty == 0)) || (l1 && decide (2 ≤ seForm b) && res.count % 256 != 0)
    || (seForm b == 3 && !(decide (1 ≤ seTopk b) && decide (seTopk b ≤ 64)))
    || (decide (seForm b ≤ 1) && l0 && !(plainDesc src && src.ty == seForm b))

/-- Bytes of the packed bucket SRC names, by the active plane: M elements (R384, R386). -/
def bucketLen (g : Group) (b : List Byte) (n : Nat) : Nat :=
  contribLen (seForm b) (seTopk b) (n / max 1 (share g (ownRank g)) * sharesBelow g 64)

/-- The checks of Table 10-12 on a REDUCE, in its order. Only the entry of a group of its own partition is read (R381). DEDUCED (log entry 16). DEDUCED (log entry 17). DEDUCED (log entry 42). -/
def reduceErr (s : State) (i p : Nat) (b d0 d1 : List Byte) : Option Nat :=
  let src := seDesc d0
  let res := seDesc d1
  let plain := decide (seForm b ≤ 1)
  let len := contribLen (seForm b) (seTopk b) res.count
  let l0 := !plain || isLocal s i (seSrc b) 128
  let l1 := isLocal s i (seDst b) 128
  if seOpBad b then some 0x0501
  else if reduceDescBad b l0 l1 src res then some 0x0503
  else if !l0 || !l1 then some 0x0502
  else
    let sx := if plain then seSpan src false
      else if partOfGroup s (redGroup b) = p then rangeSpan (seSrc b) (bucketLen (group s (redGroup b)) b res.count)
      else none
    if !spanLocal s i sx || !spanLocal s i (seSpan res true) || !spanLocal s i (rangeSpan (seAux1 b % 2 ^ 48) (redHold b)) then some 0x0502
    else if seSigBad s p b then some 0x0505
    else if (slotAt s i (redGroup b) (redBucket b) false).isSome then some 0x0506
    else if redHold b < len then some 0x0507 else none

/-- The checks of R385 (2 to 4) and R386. -/
def joinErr (s : State) (i p : Nat) (b d0 d1 : List Byte) : Option Nat :=
  let gn := redGroup b
  let g := group s gn
  let n := (seDesc d1).count
  let own := share g (ownRank g)
  let U := n / max 1 own
  if partOfGroup s gn ≠ p then some 0x0904
  else if g.st ≠ 1 then some 0x0904
  else if !bit g.mask (ownRank g) || (ranksOf g.mask).any (fun r => share g r == 0) then some 0x0902
  else if n % own ≠ 0 || (decide (2 ≤ seForm b) && U % 256 != 0) then some 0x0902
  else if (partSites s p).any (fun j => j != i && ((slotAt s j gn (redBucket b) false).isSome || (slotAt s j gn (redBucket b) true).isSome))
    then some 0x0903
  else if decide (seForm b ≤ 1) && (seDesc d0).count != U * sharesBelow g 64 then some 0x0902
  else none

/-! ### Contributions as bytes (R231, R388) -/

/-- Contribution bytes of rank p's shard of SRC (R384, R386). -/
def shardBytes (s : State) (r : RSlot) (p : Nat) : List Byte :=
  let g := group s r.group
  let U := r.elems / max 1 (share g r.own)
  let first := U * sharesBelow g p
  let k := U * share g p
  if r.form ≤ 1 then
    let d := seDesc r.src
    (((tuples d.sizes).drop first).take k).foldr (fun ix acc => readBytes s.mem (d.elemAddr ix) (typeBits d.ty / 8) ++ acc) []
  else readBytes s.mem (seSrc r.bytes + contribLen r.form r.topk first) (contribLen r.form r.topk k)

/-- The 32-byte header (Table 16-3). -/
def contribHeader (r : RSlot) (digest : Bool) (len : Nat) : List Byte :=
  toBytes 2 r.group ++ toBytes 3 r.bucket ++ toBytes 1 r.own ++ toBytes 1 (r.form + (if digest then 4 else 0))
    ++ toBytes 1 (if r.form = 3 then r.topk else 0) ++ toBytes 4 r.epoch ++ toBytes 4 0 ++ toBytes 8 r.tag ++ toBytes 6 len ++ toBytes 2 0

/-- Messages of a contribution to rank p (R388). -/
def contribMsgs (s : State) (r : RSlot) (p : Nat) : List Msg :=
  let g := group s r.group
  let body := shardBytes s r p
  let dig := bit g.cfg 9
  let all := contribHeader r dig body.length ++ body ++ toBytes 8 (if dig then crc64 body else 0)
  (List.range (cdiv all.length 4096)).map (fun k => { blankMsg 1 4 (rankId g p) with data := (all.drop (4096 * k)).take 4096 })

/-- A value as the module produces it: every NaN is the canonical one (R47). -/
def canon32 (x : Nat) : Nat := if fisNan (dec32 x) then nan32 else x

/-- Module addresses of the lines of the own part of SRC that rank p's shard takes (R384, R386). -/
def shardLines (s : State) (r : RSlot) (p : Nat) : List Nat :=
  let g := group s r.group
  let U := r.elems / max 1 (share g r.own)
  let first := U * sharesBelow g p
  let k := U * share g p
  if r.form ≤ 1 then
    let d := seDesc r.src
    (((tuples d.sizes).drop first).take k).foldr (fun ix acc => d.elemAddr ix :: (d.elemAddr ix + typeBits d.ty / 8 - 1) :: acc) []
  else rangeLines (seSrc r.bytes + contribLen r.form r.topk first) (contribLen r.form r.topk k)

/-- Elements of contribution bytes: the FP32 value of each element present (R233). -/
def contribVals (form k n : Nat) (bs : List Byte) : List (Option Nat) :=
  (List.range n).map (fun e =>
    match form with
    | 0 => some (leAt bs (4 * e) 4)
    | 1 => some (widen 1 (leAt bs (2 * e) 2) 0)
    | 2 =>
      let o := e / 256 * 36
      some (withSign 31 (Nat.testBit (leAt bs (o + e % 256 / 8) 1) (e % 8)) (leAt bs (o + 32) 4))
    | _ =>
      let o := e / 256 * (3 * k)
      ((List.range k).find? (fun j => leAt bs (o + j) 1 == e % 256)).map (fun j => widen 1 (leAt bs (o + k + 2 * j) 2) 0))

/-! ### Sends (R387) -/

/-- Ranks of a slot's sends in order from OWN_RANK + 1, wrapping. -/
def sendOrder (r : RSlot) : List Nat :=
  ((List.range 63).map (fun k => (r.own + 1 + k) % 64)).filter (bit r.mask)

/-- Is a send in flight? -/
def inFlight : SendSt → Bool
  | .inFlight _ => true
  | _ => false
/-- Has a send not begun? -/
def sendWaits : SendSt → Bool
  | .waiting => true
  | _ => false
/-- Has a send ended, in error or not? -/
def sendOver : SendSt → Bool
  | .ended => true
  | .failed _ _ => true
  | _ => false

/-- Sends of an engine in flight. -/
def sendsInFlight (s : State) (i : Nat) : Nat :=
  ((se s i).slots.map (fun r => r.sends.countP (fun e => inFlight e.2))).foldl (· + ·) 0

/-- Open the transfers of an engine's waiting sends, at most 16 in flight (R387). -/
def sendPump : Nat → State → Nat → State
  | 0, s, _ => s
  | k + 1, s, i =>
    if 16 ≤ sendsInFlight s i then s
    else
      let next := (se s i).slots.findSome? (fun r =>
        ((sendOrder r).find? (fun p => sendWaits (sget .ended r.sends p))).map (fun p => (r, p)))
      match next, partOfSite s i with
      | some (r, p), some q =>
        match openXfer s (seEntry s i) q (.contrib i r.group r.bucket p) 0 (contribMsgs s r p) with
        | some (s1, tag) =>
          let s2 := countPath (hbmTouch s1 (shardLines s r p) false) (iodHbmPath s (seEntry s i) i) (linesOf (shardLines s r p)).length
          sendPump k (putSlot s2 i { r with sends := sput r.sends p (.inFlight tag) }) i
        | none => s
      | _, _ => s

/-- Forget the transfers of sends that satisfy a test: they end without error (R396, R399). -/
def dropSends (s : State) (p : Nat → Nat → Nat → Nat → Bool) : State :=
  { s with iods := s.iods.map (fun e => (e.1, { e.2 with xfers := e.2.xfers.filter (fun x => match x.2.req with
      | .contrib i g b r => !p i g b r
      | _ => true) })) }

/-! ### The sequence of R393 -/

/-- Items of a slot's sequence not yet added: rank, and whether it is the rank's carry. -/
def seqItems (r : RSlot) : List (Nat × Bool) :=
  (List.range 64).foldr (fun p acc =>
    let cur := bit r.mask p && !bit r.added p && !bit r.settled p
    let car := r.held.any (fun c => c.rank == p && c.carry)
    (if cur then [(p, false)] else []) ++ (if car then [(p, true)] else []) ++ acc) []

/-- A held contribution. -/
def heldOf (r : RSlot) (it : Nat × Bool) : Option Contrib := r.held.find? (fun c => c.rank == it.1 && c.carry == it.2)

/-- Is an item ready for a pass? -/
def itemReady (r : RSlot) (it : Nat × Bool) : Bool :=
  (!it.2 && it.1 == r.own) || (match heldOf r it with
    | some c => c.ready
    | none => false)

/-- Leading elements that satisfy a test. DEDUCED (log entry 17). -/
def leading {α : Type} (p : α → Bool) : List α → List α
  | [] => []
  | x :: r => if p x then x :: leading p r else []

/-- Bytes of an item: the own shard of SRC, or the hold area. -/
def itemBytes (s : State) (r : RSlot) (it : Nat × Bool) : List Byte :=
  match heldOf r it with
  | some c => if !it.2 && it.1 == r.own then shardBytes s r r.own else readBytes s.mem (r.holdBase + c.off) c.len
  | none => if !it.2 && it.1 == r.own then shardBytes s r r.own else []

/-! ### The sillage log (R427-R431) -/

/-- Start of a site's ring. -/
def ringStart (s : State) (i p : Nat) : Nat := (localRegion s i).1 + (part s p).sillageOfs.toNat
/-- Bytes of the entry area. -/
def ringArea (s : State) (p : Nat) : Nat := (part s p).sillageLen.toNat - 64
/-- WRITE_POS. -/
def ringWritePos (s : State) (i p : Nat) : Nat := readLe s.mem (ringStart s i p + 8) 8
/-- READ_POS. -/
def ringReadPos (s : State) (i p : Nat) : Nat := readLe s.mem (ringStart s i p + 16) 8
/-- Module address of an entry position. -/
def ringAt (s : State) (i p pos : Nat) : Nat := ringStart s i p + 64 + pos % max 1 (ringArea s p)

/-- The header a ring takes when the mode changes to 1 or 2 (R428). -/
def ringHeader (s : State) (i p : Nat) : State :=
  let h := toBytes 4 0x5A534C47 ++ toBytes 2 i ++ toBytes 2 0 ++ toBytes 8 0 ++ toBytes 8 0 ++ toBytes 8 0 ++ List.replicate 32 0
  { s with mem := writeBytes s.mem (ringStart s i p) h }

/-- Pad to a multiple of 64. -/
def pad64 (bs : List Byte) : List Byte := bs ++ List.replicate ((64 - bs.length % 64) % 64) 0

/-- Is there room for an entry (R431)? -/
def ringRoom (s : State) (i p size : Nat) : Bool :=
  decide (subMod (2 ^ 64) (ringWritePos s i p) (ringReadPos s i p) + size ≤ ringArea s p)

/-- Write an entry; it may continue at the start of the area (R428, R430). -/
def ringWrite (s : State) (i p : Nat) (e : List Byte) : State :=
  let w := ringWritePos s i p
  let a := ringStart s i p
  let m := writeCells s.mem (mapIx (fun k b => (ringAt s i p (w + k), b)) 0 e)
  let n := readLe m (a + 24) 8
  hbmTouch { s with mem := writeLe (writeLe m (a + 8) 8 (w + e.length)) (a + 24) 8 (n + 1) }
    (a :: (List.range (e.length / 64)).map (fun k => ringAt s i p (w + 64 * k))) true

/-- Entry bytes (Table 18-6). DEDUCED (log entry 43). -/
def silEntry (r : RSlot) (ety rank srcTag order : Nat) (bytes : Bool) (body : List Byte) (mask : W64) : List Byte :=
  toBytes 1 ety ++ toBytes 1 (b2n bytes + r.form * 2) ++ toBytes 2 r.group ++ toBytes 3 r.bucket ++ toBytes 1 rank ++ toBytes 4 r.epoch
    ++ toBytes 4 (if r.form = 3 then r.topk else 0) ++ toBytes 8 r.tag ++ toBytes 8 srcTag ++ toBytes 8 body.length
    ++ toBytes 8 (if ety = 2 then 0 else crc64 body) ++ toBytes 8 mask.toNat ++ toBytes 4 order ++ toBytes 4 0
    ++ (if bytes then pad64 body else [])

/-- MODE of the partition's log. -/
def silMode (s : State) (p : Nat) : Nat := (part s p).sillageMode.toNat

/-- The entry of an item a pass adds (R430). -/
def itemEntry (s : State) (p : Nat) (r : RSlot) (it : Nat × Bool) (order : Nat) : List Byte :=
  let own := !it.2 && it.1 == r.own
  let srcTag := match heldOf r it with
    | some c => if own then r.tag else c.tag
    | none => r.tag
  silEntry r (if it.2 then 3 else 1) it.1 srcTag order (!own && silMode s p == 2) (itemBytes s r it) 0

/-- Write the entries of a pass's items while they fit: the state and the items logged. -/
def logItems (s : State) (i p : Nat) (r : RSlot) : Nat → List (Nat × Bool) → State × List (Nat × Bool)
  | _, [] => (s, [])
  | k, it :: rest =>
    let e := itemEntry s p r it k
    if ringRoom s i p e.length then
      let x := logItems (ringWrite s i p e) i p r (k + 1) rest
      (x.1, it :: x.2)
    else (s, [])

/-- Waiting SETTLE entries are written, oldest first, while they fit: the state and the slot. DEDUCED (log entry 43). -/
def logSettles (s : State) (i p : Nat) (r : RSlot) : List W64 → State × RSlot
  | [] => (s, { r with silSettle := [] })
  | w :: rest =>
    let e := silEntry r 2 0 r.tag r.order false [] w
    if ringRoom s i p e.length then logSettles (ringWrite s i p e) i p { r with order := r.order + 1, silHeld := false } rest
    else if r.silHeld then (s, { r with silSettle := w :: rest })
    else (raiseEvt s (pgPart p) 0, { r with silSettle := w :: rest, silHeld := true })

/-- The SETTLE entries of a slot that wait go to the ring (R430, R431). -/
def logSettle (s : State) (i p : Nat) (r : RSlot) : State × RSlot := logSettles s i p r r.silSettle

/-! ### Replay (R432) -/

/-- Entries of a ring from a position: position and header. -/
def ringEntries (s : State) (i p : Nat) : Nat → Nat → Nat → List (Nat × List Byte)
  | 0, _, _ => []
  | fuel + 1, pos, left =>
    if left < 64 then []
    else
      let h := (List.range 64).map (fun k => readByte s.mem (ringAt s i p (pos + k)))
      let size := 64 + (if Nat.testBit (leAt h 1 1) 0 then cdiv (leAt h 32 8) 64 * 64 else 0)
      (pos, h) :: ringEntries s i p fuel (pos + size) (left - size)

/-- The entries not consumed. -/
def ringLeft (s : State) (i p : Nat) : List (Nat × List Byte) :=
  let n := subMod (2 ^ 64) (ringWritePos s i p) (ringReadPos s i p)
  ringEntries s i p (n / 64 + 1) (ringReadPos s i p) n

/-- Entries of a slot's pair with its tag and epoch. -/
def slotEntries (s : State) (i p : Nat) (r : RSlot) : List (Nat × List Byte) :=
  (ringLeft s i p).filter (fun e => !(se s i).silUsed.contains e.1 && leAt e.2 2 2 % 1024 == r.group && leAt e.2 4 3 % 2 ^ 20 == r.bucket
    && leAt e.2 16 8 == r.tag && leAt e.2 8 4 == r.epoch)

/-- The entry of an ORDER. -/
def entryAt (s : State) (i p : Nat) (r : RSlot) (k : Nat) : Option (Nat × List Byte) :=
  (slotEntries s i p r).find? (fun e => leAt e.2 56 4 == k)

/-- Contribution bytes of an entry. -/
def entryBytes (s : State) (i p : Nat) (e : Nat × List Byte) : List Byte :=
  (List.range (leAt e.2 32 8)).map (fun k => readByte s.mem (ringAt s i p (e.1 + 64 + k)))

/-- Advance READ_POS past consumed entries. DEDUCED (log entry 43). -/
def advanceRead : Nat → State → Nat → Nat → State
  | 0, s, _, _ => s
  | k + 1, s, i, p =>
    match ringLeft s i p with
    | [] => s
    | (pos, h) :: _ =>
      if (se s i).silUsed.contains pos then
        let size := 64 + (if Nat.testBit (leAt h 1 1) 0 then cdiv (leAt h 32 8) 64 * 64 else 0)
        advanceRead k (modSe { s with mem := writeLe s.mem (ringStart s i p + 16) 8 (pos + size) } i
          (fun e => { e with silUsed := e.silUsed.filter (· != pos) })) i p
      else s

/-! ### Closing (R394, R397) -/

/-- End a slot's REDUCE in error: the engine's page, CMD_ERROR, the report (R218); group codes go to the group's page too. -/
def redFail (s : State) (i : Nat) (r : RSlot) (code hi : Nat) : State :=
  let s1 := raiseEvt (recordErr s (pgSe i) code (4 + r.queue * 2 ^ 16) hi) (pgSe i) 0
  seReport s1 r.queue r.index code

/-- Count discarded carries in LATE_MISSED (R397). -/
def missed (s : State) (p k : Nat) : State :=
  if k = 0 then s
  else raiseEvt (modGrpPage s p (fun x => { x with lateMissed := x.lateMissed + BitVec.ofNat 64 k })) (pgGrp p) 4

/-- Discard the carry slots of a group and their carries (R397). -/
def discardCarry (s : State) (p g : Nat) : State :=
  (partSites s p).foldl (fun s i =>
    let mine := (se s i).slots.filter (fun r => r.group == g && r.carrySlot)
    let k := (mine.map (fun r => r.held.length)).foldl (· + ·) 0
    missed (modSe s i (fun e => { e with slots := e.slots.filter (fun r => !(r.group == g && r.carrySlot)) })) p k) s

/-- Close an open slot when R394 lets it: the REDUCE ends, and under CARRY with a settled rank the slot stays as a carry slot. In replay
an entry of the slot's next ORDER, the carry of its last rank, belongs to the recorded slot and is taken first (R432). DEDUCED (log entry 43). -/
def tryClose (s : State) (i g b : Nat) : State :=
  match slotAt s i g b false, partOfSite s i with
  | some r, some p =>
    let open_ := (ranksOf r.mask).any (fun x => !bit r.added x && !bit r.settled x) || r.held.any (fun c => c.carry)
      || r.sends.any (fun e => !sendOver e.2) || r.pass || !r.silSettle.isEmpty
      || (silMode s p == 3 && (entryAt s i p r r.order).isSome)
    if open_ then s
    else
      let s0 := if silMode s p = 3 then
          let used := (slotEntries s i p r).filter (fun e => decide (leAt e.2 56 4 < r.order))
          advanceRead (used.length + (se s i).silUsed.length + 1)
            (modSe s i (fun e => { e with silUsed := e.silUsed ++ used.map (·.1) })) i p
        else s
      let s1 := if latePolicy (group s0 g) = 1 && r.settled != 0 then
          putSlot0 s0 i r { r with carrySlot := true, held := [], carried := 0, sends := [], fails := [] }
        else dropSlot s0 i r
      match r.sends.findSome? (fun e => match e.2 with
          | .failed code peer => some (e.1, code, peer)
          | _ => none) with
      | some (rank, code, peer) => redFail (grpErr s1 p 0x090B g b rank peer) i r 0x090B code
      | none => seSignals s1 i r.queue r.index r.bytes
  | _, _ => s
where
  putSlot0 (s : State) (i : Nat) (old new : RSlot) : State :=
    modSe s i (fun e => { e with slots := e.slots.map (fun t => if isSlot old.group old.bucket false t then new else t) })

/-! ### Opening a slot -/

/-- Start of a REDUCE (R230, R385-R387, R397): it waits for a free slot and for a DRAINING group; otherwise its checks are
made, the slot opens or adopts its carry slot, and the sends begin. DEDUCED (log entry 17). -/
def startReduce (s : State) (i : Nat) (c : SeCmd) : State :=
  let b := c.bytes
  let p := cmdPart s c
  let gn := redGroup b
  let bk := redBucket b
  let g := group s gn
  let d0 := readBytes s.mem (seSrc b) 128
  let d1 := readBytes s.mem (seDst b) 128
  let carry := match slotAt s i gn bk true with
    | some r => if g.tag = g.lateTag + 1 then some r else none
    | none => none
  match reduceErr s i p b d0 d1 with
  | some code => seFail s i c code
  | none =>
    if partOfGroup s gn = p && g.st == 2 then s
    else match joinErr s i p b d0 d1 with
      | some code => seFail (grpErr s p code gn bk 0 0) i c code
      | none =>
        if 256 ≤ (se s i).slots.length && carry.isNone then s
        else
          let replay := silMode s p == 3
          let r : RSlot := {
            group := gn, bucket := bk, queue := c.queue, index := c.index, bytes := b, res := d1, src := d0, mask := g.mask,
            own := ownRank g, epoch := g.epoch.toNat, tag := g.tag.toNat, deadline := fld g.cfg 31 16, form := seForm b,
            topk := seTopk b, elems := (seDesc d1).count, holdBase := (match carry with | some r => r.holdBase | none => seAux1 b % 2 ^ 48),
            holdSize := (match carry with | some r => r.holdSize | none => redHold b), openedAt := now s, lateRaised := false,
            added := 0, settled := 0, carried := 0, held := (match carry with | some r => r.held | none => []), fails := [],
            sends := if replay then [] else (ranksOf (setBit g.mask (ownRank g) false)).map (fun x => (x, SendSt.waiting)),
            pass := false, ownPass := false, any := false, seen := [], order := 0, silSettle := [], silHeld := false, carrySlot := false }
          let s0 := hbmTouch s (seDescReads b) false
          let s1 := match carry with
            | some k => dropSlot s0 i k
            | none => s0
          sendPump 16 (modSe (dropCmd s1 i c) i (fun e => { e with slots := e.slots ++ [r] })) i

/-- REDUCE. -/
def execReduce (queue : Nat) (s : State) : Host.Outcome State Fault Refusal := .next (seRow s queue isReduce startReduce)

/-- REDUCE_SLOT_AVAILABLE (R230): a REDUCE held at the head of the reduce unit starts. -/
def execReduceSlotAvailable (site : Nat) (s : State) : Host.Outcome State Fault Refusal :=
  .next (seStart s site isReduce (fun s c => startReduce s site c))

/-! ### Epoch abort (R399) -/

/-- Epoch abort of a group of partition p. DEDUCED (log entry 44). -/
def epochAbort (s : State) (g : Nat) : State :=
  let p := partOfGroup s g
  let s1 := (partSites s p).foldl (fun s i =>
    let mine := (se s i).slots.filter (fun r => r.group == g && !r.carrySlot)
    let s1 := modSe s i (fun e => { e with slots := e.slots.filter (fun r => r.group != g || r.carrySlot) })
    let s2 := mine.foldl (fun s r => redFail (grpErr s p 0x090A g r.bucket r.own 0) i r 0x090A 0) s1
    match seHead s2 i 3 with
    | some c => if redGroup c.bytes = g && seOp c.bytes = 4 && seWaitMet s2 i c.bytes then
        seFail (grpErr s2 p 0x090A g (redBucket c.bytes) 0 0) i c 0x090A else s2
    | none => s2) s
  let s2 := dropSends (discardCarry s1 p g) (fun _ k _ _ => k == g)
  raiseEvt (modGroup s2 g (fun x => { x with st := 3 })) (pgGrp p) 2

/-- A send's transfer ended: code 0 acknowledged, otherwise refused or timed out (R387, R394, R399). -/
def sendEnded (s : State) (i g b rank code peer : Nat) : State :=
  match slotAt s i g b false with
  | none => s
  | some r =>
    let s1 := putSlot s i { r with sends := sput r.sends rank (if code = 0 then .ended else .failed code peer) }
    if code = 0x090A ∨ code = 0x0705 then epochAbort s1 g
    else tryClose (sendPump 16 s1 i) i g b

/-! ### Arriving contributions (R231, R232, R390-R392) -/

/-- Decision on a contribution. -/
inductive Verdict where
  | refuse (code : Nat)
  | busy
  /-- Acknowledged and discarded: LATE_DROPPED, or LATE_MISSED. -/
  | discard (dropped : Bool)
  /-- Held at a site, in its open or its carry slot, as a carry or not; the flag counts SKEW_ACCEPTED. -/
  | hold (site : Nat) (inCarry asCarry skew : Bool)
  deriving DecidableEq, Repr

/-- The room rule (R232): is there room for a contribution of an item in a slot? -/
def roomFor (r : RSlot) (it : Nat × Bool) : Bool :=
  let len := max 1 (contribLen r.form r.topk r.elems)
  let used := r.held.countP (fun c => c.fits)
  let cap := r.holdSize / len
  let probe : Contrib := { rank := it.1, carry := it.2, off := 0, len := 0, got := 0, dig := none, tag := 0, form := 0, topk := 0,
                           fits := false, last := false, ready := false, passing := false, die := 0, src := 0, xtag := 0 }
  if !r.carrySlot && (seqItems { r with held := probe :: r.held }).head? == some it then decide (used < cap) else decide (used + 2 ≤ cap)

/-- The procedure of R390 on a header. DEDUCED (log entry 43). -/
def verdict (s : State) (q : Nat) (h : List Byte) : Verdict :=
  let gn := leAt h 0 2 % 1024
  let bk := leAt h 2 3 % 2 ^ 20
  let p := leAt h 5 1 % 64
  let e := BitVec.ofNat 32 (leAt h 8 4)
  let t := BitVec.ofNat 64 (leAt h 16 8)
  let g := group s gn
  let sl := findSlot s q gn bk false
  let E := match sl with
    | some x => BitVec.ofNat 32 x.2.epoch
    | none => g.epoch
  if silMode s q = 3 then .busy
  else if partOfGroup s gn ≠ q || g.st == 0 || share g p == 0 then .refuse 0x0905
  else if g.st == 3 then .refuse 0x090A
  else if bit (e - E) 31 then .refuse 0x0906
  else if bit g.lateSet p && t == g.lateTag then
    if latePolicy g = 2 then .discard true
    else
      let free := fun (r : RSlot) => !(r.held.any (fun c => c.rank == p && c.carry) || bit r.carried p)
      match findSlot s q gn bk true with
      | some (i, r) => if free r then .hold i true true false else later g t
      | none => match sl with
        | some (i, r) => if BitVec.ofNat 64 r.tag == t + 1 && free r then .hold i false true false else later g t
        | none => later g t
  else match sl with
    | none => .busy
    | some (i, r) =>
      if e ≠ E then .busy
      else if !bit r.mask p then .refuse 0x0905
      else if bit r.added p || r.held.any (fun c => c.rank == p && !c.carry) then .busy
      else if t ≠ BitVec.ofNat 64 r.tag then
        if !bit g.cfg 8 then .refuse 0x0907 else .hold i false false true
      else .hold i false false false
where
  later (g : Group) (t : W64) : Verdict := if (t + 1).toNat < g.tag.toNat then .discard false else .busy

/-- Answer a contribution BUSY and count it. -/
def contribBusy (s : State) (x q : Nat) (m : Msg) : State :=
  modGrpPage (answer s x q 0x0B 0 m) q (fun y => { y with busyOut := y.busyOut + 1 })

/-- Refuse a contribution with a group code. -/
def contribRefuse (s : State) (x q code g b rank : Nat) (m : Msg) : State :=
  answer (grpErr s q code g b rank m.srcId) x q 0x0A code m

/-- Lowest free place of the hold area. DEDUCED (log entry 17). -/
def freePlace (r : RSlot) : Nat :=
  let len := contribLen r.form r.topk r.elems
  (((List.range (r.held.length + 1)).find? (fun k => r.held.all (fun c => !c.fits || c.off != k * len))).getD 0) * len

/-- The FIRST message of a contribution decides (R390). -/
def contribFirst (s : State) (x q : Nat) (m : Msg) : State :=
  let h := m.data.take 32
  let gn := leAt h 0 2 % 1024
  let bk := leAt h 2 3 % 2 ^ 20
  let p := leAt h 5 1 % 64
  match verdict s q h with
  | .refuse code => noteXfer (contribRefuse s x q code gn bk p m) x q m true
  | .busy => noteXfer (contribBusy s x q m) x q m true
  | .discard dropped =>
    let s1 := if dropped then modGrpPage s q (fun y => { y with lateDropped := y.lateDropped + 1 }) else missed s q 1
    noteXfer s1 x q m false
  | .hold i inCarry asCarry skew =>
    match slotAt s i gn bk inCarry with
    | none => s
    | some r =>
      let form := leAt h 6 1 % 4
      let k := leAt h 7 1 % 128
      let len := leAt h 24 6
      let fits := form == r.form && (form != 3 || k == r.topk) && len == contribLen r.form r.topk r.elems
      if fits && !roomFor r (p, asCarry) then
        noteXfer (contribBusy (modSe s i (fun e => { e with holdRefused := e.holdRefused + 1 })) x q m) x q m true
      else
        let c : Contrib := { rank := p, carry := asCarry, off := freePlace r, len := len, got := 0,
                             dig := if Nat.testBit (leAt h 6 1) 2 then some 0 else none, tag := leAt h 16 8, form := form, topk := k,
                             fits := fits, last := false, ready := false, passing := false, die := x, src := m.src, xtag := m.xtag }
        let s1 := if skew then modGrpPage s q (fun y => { y with skewAccepted := y.skewAccepted + 1 }) else s
        noteXfer (putSlot s1 i { r with held := r.held ++ [c] }) x q m false

/-- Is it the contribution a message belongs to? -/
def isFeed (x : Nat) (m : Msg) (c : Contrib) : Bool := c.die == x && c.src == m.src && c.xtag == m.xtag && !c.last

/-- Bytes of a contribution's transfer land: data in the hold area, the digest with the contribution (R388). -/
def feedSlot (s : State) (i x : Nat) (m : Msg) (r : RSlot) (c : Contrib) : State :=
  let body := (c.len + 32)
  let cells := (mapIx (fun k b => (c.got + k, b)) 0 m.data).filterMap (fun e =>
    if c.fits && decide (32 ≤ e.1) && decide (e.1 < body) then some (r.holdBase + c.off + (e.1 - 32), e.2) else none)
  let dig := c.dig.map (fun d => (mapIx (fun k b => (c.got + k, b)) 0 m.data).foldl (fun d e =>
    if body ≤ e.1 && decide (e.1 < body + 8) then d + e.2.toNat * 256 ^ (e.1 - body) else d) d)
  let c1 := { c with got := c.got + m.data.length, dig := dig, last := m.last }
  let r1 := { r with held := r.held.map (fun d => if isFeed x m d then c1 else d) }
  putSlot (hbmTouch { s with mem := writeCells s.mem cells } (cells.map (·.1)) true) i r1

/-- A CONTRIB message is delivered (R388-R391). -/
def contribMessage (s : State) (x q : Nat) (m : Msg) : State :=
  let s1 := if m.first then contribFirst s x q m else s
  let refused := xferRefused s1 x q m
  let s2 := if refused then s1
    else
      match (partSites s1 q).findSome? (fun i => (se s1 i).slots.findSome? (fun r =>
          (r.held.find? (isFeed x m)).map (fun c => (i, r, c)))) with
      | some (i, r, c) => feedSlot s1 i x m r c
      | none => if m.last then answer s1 x q 0x09 0 m else s1
  if m.last then endXferAt s2 x q m else s2

/-- CONTRIB_MESSAGE. -/
def execContribMessage (die which : Nat) (s : State) : Host.Outcome State Fault Refusal :=
  .next (streamRow s die 4 which (fun s q m => (contribMessage s die q m, true)))

/-- CONTRIB_LANDED (R231, R392, R401): the last byte has landed; form, length and digest are checked and the transfer is
answered. DEDUCED (log entry 17). -/
def contribLanded (s : State) (i g b rank : Nat) : State :=
  match (se s i).slots.findSome? (fun r => if r.group = g ∧ r.bucket = b then
      (r.held.find? (fun c => c.rank == rank && c.last && !c.ready)).map (fun c => (r, c)) else none), partOfSite s i with
  | some (r, c), some q =>
    let m := { blankMsg 1 4 0 with src := c.src, xtag := c.xtag }
    let without := fun (r : RSlot) => { r with held := r.held.filter (fun d => !(d.rank == rank && d.carry == c.carry)) }
    let lo := 4 + r.queue * 2 ^ 16
    if !c.fits || c.got != c.len + 40 then
      let s1 := recordErr (putSlot s i (without r)) (pgSe i) 0x0509 lo 0
      contribRefuse s1 c.die q 0x0905 g b rank m
    else
      let body := readBytes s.mem (r.holdBase + c.off) c.len
      let need := c.dig.isSome || bit (group s g).cfg 9
      if need && c.dig != some (crc64 body) then
        let k := sget 0 r.fails rank + 1
        let s1 := putSlot s i { without r with fails := sput r.fails rank k }
        let s2 := raiseEvt (recordErr (modSe s1 i (fun e => { e with digestFail := e.digestFail + 1 })) (pgSe i) 0x0508 lo 0) (pgSe i) 1
        if 3 ≤ k then contribRefuse s2 c.die q 0x0908 g b rank m else contribBusy s2 c.die q m
      else
        let r1 := { r with held := r.held.map (fun d => if d.rank == rank && d.carry == c.carry then { d with ready := true } else d) }
        let s1 := putSlot s i r1
        let s2 := if c.carry then modGrpPage s1 q (fun y => { y with carried := y.carried + 1 }) else s1
        answer s2 c.die q 0x09 0 m
  | _, _ => s

/-- CONTRIB_LANDED. -/
def execContribLanded (site group bucket rank : Nat) (s : State) : Host.Outcome State Fault Refusal :=
  .next (contribLanded s site group bucket rank)

/-! ### Passes (R233, R234) -/

/-- Does a pass run on the engine? -/
def passRuns (s : State) (i : Nat) : Bool := (se s i).slots.any (fun r => r.pass)

/-- Mark a pass's items. -/
def markPass (r : RSlot) (items : List (Nat × Bool)) : RSlot :=
  { r with pass := true, ownPass := items.contains (r.own, false),
           held := r.held.map (fun c => { c with passing := items.contains (c.rank, c.carry) && !(c.rank == r.own && !c.carry) }),
           silHeld := false }

/-- What a pass reads in HBM: the shares it adds, v when some share has been added, and for a slot's first pass the descriptors its start
read. -/
def passReads (s : State) (r : RSlot) (items : List (Nat × Bool)) : List Nat :=
  items.foldr (fun it acc => (match heldOf r it with
    | some c => rangeLines (r.holdBase + c.off) c.len
    | none => shardLines s r r.own) ++ acc) (if r.any then descAddrs (seDesc r.res) else seDescReads r.bytes)

/-- The reads of a pass go through the controllers, with what they meet there; then the pass is under way, unless a datum cannot be
corrected, which resets the partition (R203, R216). DESIGN CHOICE (log entry 34). -/
def passBegin (s : State) (rd : List Nat) (es : List (Nat × Ecc)) (next : State → State) : State :=
  let s1 := hbmMeets (hbmTouch s rd false) rd es
  if hbmPoison rd es then s1 else next s1

/-- Start a pass on a slot (R234, R430, R431): up to 8 ready contributions from the next rank upward. -/
def startPass (s : State) (i g b : Nat) (chk : Chk) (es : List (Nat × Ecc)) : State :=
  match slotAt s i g b false, partOfSite s i with
  | some r0, some p =>
    if passRuns s i || !siteOn s i then s
    else if silMode s p = 3 then
      (if (entryAt s i p r0 r0.order).isSome then putSlot s i { r0 with pass := true } else s)
    else
      let log := silMode s p == 1 || silMode s p == 2
      let x := if log then logSettle s i p r0 else (s, r0)
      let r := x.2
      let s1 := putSlot x.1 i r
      let items := (leading (itemReady r) (seqItems r)).take 8
      if items.isEmpty || !r.silSettle.isEmpty then tryClose s1 i g b
      else if chk ≠ .pass && bit s.glob.integCfg 0 then
        let s2 := redFail (dropSends (dropSlot s1 i r) (fun j k c _ => j == i && k == g && c == b)) i r 0x050E 0
        resetByFault s2 p (seFault s2 i)
      else if log then
        let y := logItems s1 i p r r.order items
        if y.2.isEmpty then (if r.silHeld then y.1 else raiseEvt (putSlot y.1 i { r with silHeld := true }) (pgPart p) 0)
        else passBegin y.1 (passReads s r y.2) es (fun s => putSlot s i { markPass r y.2 with order := r.order + y.2.length })
      else passBegin s1 (passReads s r items) es (fun s => putSlot s i (markPass r items))
  | _, _ => s

/-- REDUCE_PASS. -/
def execReducePass (site group bucket : Nat) (chk : Chk) (hbm : List (Nat × Ecc)) (s : State) : Host.Outcome State Fault Refusal :=
  .next (startPass s site group bucket chk hbm)

/-- SILLAGE_RESUME (R431): software has advanced READ_POS, and a held entry and its pass go on. -/
def execSillageResume (site group bucket : Nat) (s : State) : Host.Outcome State Fault Refusal :=
  .next (match slotAt s site group bucket false with
    | some r => if r.silHeld then startPass s site group bucket .pass [] else s
    | none => s)

/-- Add one contribution to the elements (R233); a NaN taken as the first value is the canonical one (R47). -/
def addVals (vs xs : List (Option Nat)) : List (Option Nat) :=
  List.zipWith (fun v x => match v, x with
    | none, y => y.map canon32
    | some a, some b => some (add32 a b)
    | some a, none => some a) vs xs

/-- v of the result tensor before a pass: empty elements are absent. -/
def slotVals (s : State) (r : RSlot) : List (Option Nat) :=
  let d := seDesc r.res
  if !r.any then List.replicate r.elems none
  else mapIx (fun e v => if r.form != 3 || r.seen.contains e then some v else none) 0 (descVals s d)

/-- Contributions added to a slot, in order: their elements join the result. -/
def addAll (s : State) (i : Nat) (r : RSlot) (bodies : List (List Byte)) : State :=
  let vs := bodies.foldl (fun v bs => addVals v (contribVals r.form r.topk r.elems bs)) (slotVals s r)
  let seen := if r.form = 3 then (mapIx (fun e v => (e, v)) 0 vs).filterMap (fun x => x.2.map (fun _ => x.1)) else []
  let s1 := hbmTouch { s with mem := putVals s.mem (seDesc r.res) (vs.map (fun v => v.getD 0)) } (descAddrs (seDesc r.res)) true
  putSlot s1 i { r with any := r.any || !bodies.isEmpty, seen := seen }

/-- Replay: what the next entries of a slot add (R432): settled ranks, added ranks, bodies, entries used; none on a mismatch. -/
def replayItems (s : State) (i p : Nat) : Nat → RSlot → List (List Byte) → Option (RSlot × List (List Byte))
  | 0, r, acc => some (r, acc)
  | k + 1, r, acc =>
    match entryAt s i p r r.order with
    | none => some (r, acc)
    | some e =>
      let ety := leAt e.2 0 1
      let rank := leAt e.2 7 1 % 64
      let bytes := Nat.testBit (leAt e.2 1 1) 0
      let r1 := { r with order := r.order + 1 }
      if ety = 2 then replayItems s i p k { r1 with settled := r.settled ||| BitVec.ofNat 64 (leAt e.2 48 8) } acc
      else if ety = 1 ∧ rank = r.own then
        let body := shardBytes s r r.own
        if crc64 body = leAt e.2 40 8 then replayItems s i p k { r1 with added := setBit r.added rank true } (acc ++ [body]) else none
      else if !bytes then none
      else
        let r2 := if ety = 3 then { r1 with carried := setBit r.carried rank true } else { r1 with added := setBit r.added rank true }
        replayItems s i p k r2 (acc ++ [entryBytes s i p e])

/-- The contributions that the running pass of a slot adds, in their sequence (R234, R394). -/
def ranItems (r : RSlot) : List (Nat × Bool) :=
  (seqItems r).filter (fun it => if !it.2 && it.1 == r.own then r.ownPass
    else match heldOf r it with
      | some c => c.passing
      | none => false)

/-- The ranks of w and those of the items that are (carry) or are not carried shares. -/
def markItems (w : W64) (items : List (Nat × Bool)) (carry : Bool) : W64 :=
  items.foldl (fun w it => if it.2 = carry then setBit w it.1 true else w) w

/-- REDUCE_PASS_DONE (R234, R394): the pass's sums are in the result; the slot closes when it may. -/
def passDone (s : State) (i g b : Nat) : State :=
  match slotAt s i g b false, partOfSite s i with
  | some r, some p =>
    if !r.pass then s
    else if silMode s p = 3 then
      match replayItems s i p 8 r [] with
      | none =>
        let s1 := redFail (dropSlot s i r) i r 0x050D 0
        raiseEvt s1 (pgPart p) 1
      | some (r1, bodies) =>
        let s1 := addAll s i { r1 with pass := false } bodies
        tryClose (modGrpPage s1 p (fun y => { y with contribIn := y.contribIn + BitVec.ofNat 64 bodies.length })) i g b
    else
      let items := ranItems r
      let bodies := items.map (itemBytes s r)
      let r1 := { r with pass := false, ownPass := false, added := markItems r.added items false, carried := markItems r.carried items true,
                         held := r.held.filter (fun c => !c.passing) }
      let s1 := addAll s i r1 bodies
      let s2 := modGrpPage s1 p (fun y => { y with contribIn := y.contribIn + BitVec.ofNat 64 bodies.length })
      tryClose s2 i g b
  | _, _ => s

/-- REDUCE_PASS_DONE. -/
def execReducePassDone (site group bucket : Nat) (s : State) : Host.Outcome State Fault Refusal :=
  .next (passDone s site group bucket)

/-- LATE_RANK_DEADLINE (R395). DEDUCED (log entry 44). -/
def lateRank (s : State) (i g b : Nat) : State :=
  match slotAt s i g b false, partOfSite s i with
  | some r, some p =>
    let miss := r.mask &&& ~~~ r.added &&& ~~~ r.settled
    if r.deadline = 0 || r.lateRaised || decide (now s < r.openedAt + r.deadline * 1024) || miss == 0 then s
    else
      let s1 := modGrpPage (putSlot s i { r with lateRaised := true }) p (fun y => { y with
        lateGroup := BitVec.ofNat 32 (2 ^ 31 + g), lateBucket := BitVec.ofNat 32 b, lateMissing := miss })
      raiseEvt s1 (pgGrp p) 0
  | _, _ => s

/-- LATE_RANK_DEADLINE. -/
def execLateRankDeadline (site group bucket : Nat) (s : State) : Host.Outcome State Fault Refusal :=
  .next (lateRank s site group bucket)

/-! ### Group commands (R396-R399) -/

/-- SETTLE on one slot of an engine (R396, R430). -/
def settleSlot (s : State) (i p : Nat) (arg : W64) (r : RSlot) : State :=
  let heldMask := r.held.foldl (fun w c => if c.carry then w else setBit w c.rank true) (0 : W64)
  let now_ := arg &&& r.mask &&& ~~~ r.added &&& ~~~ heldMask &&& ~~~ r.settled
  if now_ = 0 then s
  else
    let s1 := dropSends s (fun j g b k => j == i && g == r.group && b == r.bucket && bit now_ k)
    let sends := r.sends.map (fun e => if bit now_ e.1 && !sendOver e.2 then (e.1, SendSt.ended) else e)
    let log := silMode s p == 1 || silMode s p == 2
    let r1 := { r with settled := r.settled ||| now_, sends := sends, silSettle := if log then r.silSettle ++ [now_] else [] }
    let x := if log then logSettle s1 i p r1 else (s1, r1)
    putSlot x.1 i x.2

/-- GRP_CMD SETTLE (R396). -/
def grpSettle (s : State) (gn : Nat) : State :=
  let g := group s gn
  let p := partOfGroup s gn
  if latePolicy g = 0 || bit g.arg (ownRank g) then grpErr s p 0x0909 gn 0 (ownRank g) 0
  else
    let t := g.tag - 1
    let s0 := if g.lateTag = t then s else discardCarry s p gn
    let s1 := (partSites s0 p).foldl (fun s i =>
      ((se s i).slots.filter (fun r => r.group == gn && !r.carrySlot && BitVec.ofNat 64 r.tag == t)).foldl (fun s r => settleSlot s i p g.arg r) s) s0
    let s2 := modGroup s1 gn (fun x => { x with lateSet := g.arg, lateTag := t })
    (partSites s2 p).foldl (fun s i =>
      ((se s i).slots.filter (fun r => r.group == gn && !r.carrySlot)).foldl (fun s r => tryClose s i gn r.bucket) s) s2

/-- GRP_CMD RESHARD (R398). -/
def grpReshard (s : State) (gn : Nat) : State :=
  let g := group s gn
  let e := BitVec.ofNat 32 (fld g.arg 31 0)
  let newer := e != g.epoch && !bit (e - g.epoch) 31
  if g.st = 2 || !(newer || g.st == 0) then grpErr s (partOfGroup s gn) 0x090C gn 0 (ownRank g) 0
  else setGroup s gn { g with st := 2, newEpoch := e }

/-- RESHARD_DRAIN_DONE (R398 steps 2-5). -/
def reshardDone (s : State) (gn : Nat) : State :=
  let g := group s gn
  let p := partOfGroup s gn
  let busy := (partSites s p).any (fun i => (se s i).slots.any (fun r => r.group == gn && !r.carrySlot))
  if g.st ≠ 2 || busy then s
  else
    let s1 := modGroup (discardCarry s p gn) gn (fun x => { x with active := x.staged, epoch := x.newEpoch, lateSet := 0, st := 1 })
    raiseEvt s1 (pgGrp p) 3

/-- RESHARD_DRAIN_DONE. -/
def execReshardDrainDone (group : Nat) (s : State) : Host.Outcome State Fault Refusal := .next (reshardDone s group)

/-- A write of GRP_CMD (Table 16-2). -/
def grpCmd (s : State) (gn op : Nat) : State :=
  match op with
  | 1 => grpSettle s gn
  | 2 => grpReshard s gn
  | 3 => epochAbort s gn
  | _ => grpErr s (partOfGroup s gn) 0x090C gn 0 (ownRank (group s gn)) 0

/-- A write of GRP_CFG (R382). -/
def grpCfgWrite (s : State) (gn : Nat) (v : W32) : State :=
  let g := group s gn
  let v1 := setFld v 15 10 0
  let fixed := fld v1 9 0 != fld g.cfg 9 0
  if (fixed && grpOpen s gn != 0) || fld v1 7 6 == 3 then grpErr s (partOfGroup s gn) 0x0901 gn 0 (ownRank g) 0
  else setGroup s gn { g with cfg := v1, lateSet := if fld v1 7 6 = latePolicy g then g.lateSet else 0 }

/-- LAYOUT_SEL after an access to LAYOUT_DATA. -/
def layoutStep (g : Group) : Group :=
  if bit g.sel 31 then { g with sel := setFld g.sel 5 0 ((fld g.sel 5 0 + 1) % 64) } else g

/-- A write of LAYOUT_DATA (R383). -/
def layoutWrite (s : State) (gn : Nat) (v : W32) : State :=
  modGroup s gn (fun g =>
    let g1 := if bit g.sel 30 then g else { g with staged := sput g.staged (fld g.sel 5 0) (setFld v 31 28 0) }
    layoutStep g1)

/-- LAYOUT_DATA as read. -/
def layoutRead (g : Group) : W32 := sget 0 (if bit g.sel 30 then g.active else g.staged) (fld g.sel 5 0)

end Sys2Proof.Machine
end

