-- ==== Sys2Proof/Machine/LinkEngine.lean ====
section
/-! DEFINITION. The I/O dies' link engines (R357-R374): transfers and their ends, remote moves of cores, link-engine MOVE
records, messages delivered to memory, stream control, and the rows of the ports. -/

namespace Sys2Proof.Machine

/-! ### Remote MOVE.R (R169, R359) -/

/-- Entry I/O die of a core (R359). -/
def coreEntry (s : State) (n : Nat) : Nat :=
  if s.variant = .m8l4 then n / 2048 + (if n / 16 % 128 / 8 < 8 then 0 else 2) else n / 2048

/-- Cut listed bytes into runs of consecutive addresses. -/
def byteRuns : List Host.Cell → List (Nat × List Byte)
  | [] => []
  | (a, b) :: r =>
    match byteRuns r with
    | (c, bs) :: rest => if c = a + 1 then (a, b :: bs) :: rest else (a, [b]) :: (c, bs) :: rest
    | [] => [(a, [b])]

/-- WRITE messages for listed bytes, the first led by the span of the transfer (R358). -/
def cellMsgs (vc dst : Nat) (span : Nat × Nat) (cs : List Host.Cell) : List Msg :=
  let sorted := sortBy (fun (c : Host.Cell) => c.1) cs
  let lead := toBytes 8 span.1 ++ toBytes 8 span.2
  let cut := (byteRuns sorted).foldr (fun r acc =>
    (List.range (cdiv r.2.length 4080)).map (fun k => (r.1 + 4080 * k, (r.2.drop (4080 * k)).take 4080)) ++ acc) []
  mapIx (fun i r => { blankMsg vc 1 dst with addr := r.1, data := if i = 0 then lead ++ r.2 else r.2 }) 0 cut

/-- Global address a remote move names, of its elements or of its scales. -/
def remoteBase (s : State) (n : Nat) (v : MoveView) : Nat :=
  ((planes s n v.dst v.de true).findSome? (fun p => match p.base with
    | .remote g => some g
    | _ => none)).getD 0

/-- Messages of a remote move: its bytes as they read now, under the span it touches (R169, R358, R589), on the channel for state
traffic where VC_STATE says so (R158). -/
def moveRemoteMsgs (s : State) (n : Nat) (v : MoveView) : List Msg :=
  cellMsgs (if bit v.word 21 then 2 else 5) (globalId (remoteBase s n v)) ((remoteSpan s n v).getD (0, 0)) (moveCells s n v)

/-- Replace a flight of a core. -/
def setFlight (s : State) (n : Nat) (f : Flight) : State := modCore s n (fun c => putFlight c f)

/-- A remote move ends in error: MOVE_REMOTE with the remote code, and the core stops (R169). -/
def moveRefused (s : State) (n code : Nat) (f : Flight) : State :=
  complete (stopCore s n 0x022E code 0) n f

/-- Open the transfer of a remote move that has none, its flits on their way to the entry die: the entry die refuses reserved address bits; without a free tracker
entry the mover waits (R169, R359, R372). -/
def moveOpen (s : State) (n : Nat) (f : Flight) : State :=
  let v := moveView f
  let g := remoteBase s n v
  let x := coreEntry s n
  if nfld g 63 60 ≠ 0 then moveRefused (linkErr s x 0x0701 (globalId g) 0) n 0x0701 f
  else
    let ms := moveRemoteMsgs s n v
    if ms.isEmpty then setFlight s n { f with sent := true }
    else match openXfer (moveReads (bumpMove s n v) n v [] []) x (partOfCore s n) (.move n f.id) 0 ms with
      | some r => setFlight (countPath r.1 (coreIodPath s n x) ms.length) n { f with sent := true, xfer := some r.2 }
      | none => s

/-- Open the transfers of a core's remote moves, oldest first. DEDUCED (log entry 47). -/
def movesOpen (s : State) (n : Nat) : State :=
  ((core s n).flights.filter (fun f => decide (f.unit = .mover) && !f.sent && toRemote s n (moveView f))).foldl (fun s f => moveOpen s n f) s

/-- MOVE.R (R167, R169): issue; a remote destination opens its transfer. -/
def moveR (s : State) (n : Nat) (m : Met) : State :=
  let s1 := coreRowMet s n 0x4A m
  if (core s1 n).pc = (core s n).pc then s1 else movesOpen s1 n

/-- MOVE.R. -/
def execMoveR (core : Nat) (met : Met) (s : State) : Host.Outcome State Fault Refusal := .next (moveR s core met)

/-- COUNTER_WAIT_MET (R82): the held instruction issues; a held MOVE.R opens its transfer (R169). -/
def waitMetIssue (s : State) (n : Nat) : State :=
  let s1 := counterWaitMet s n
  if opc (wordAt (core s n)) = 0x4A then movesOpen s1 n else s1

/-- COUNTER_WAIT_MET. -/
def execCounterWaitMet (core : Nat) (s : State) : Host.Outcome State Fault Refusal := .next (waitMetIssue s core)

/-- Open the transfers of the increments that wait at a die for nothing else (R85, R167, R372). -/
def rmtPump : Nat → State → Nat → State
  | 0, s, _ => s
  | k + 1, s, x =>
    match (iod s x).rmtWait.findIdx? (fun r => r.fence.isEmpty) with
    | none => s
    | some j => match (iod s x).rmtWait[j]? with
      | none => s
      | some r => match openXfer s x (partOfCore s r.core) (.rmt r.core) 0 [r.msg] with
        | none => s
        | some y => rmtPump k (modIod (countPath y.1 (coreIodPath s r.core x) 1) x (fun d => { d with rmtWait := d.rmtWait.eraseIdx j })) x

/-- A remote move whose endpoint has acknowledged completes: CMP_CTR, then with RMT_EN the remote increment, behind the core's earlier
mover writes as SIGNAL with FENCE (R85, R167). -/
def remoteComplete (s : State) (n : Nat) (f : Flight) : State :=
  let v := moveView f
  let g := remoteBase s n v
  let x := coreEntry s n
  if !(f.sent && f.xfer.isNone) then s
  else
    let s1 := complete (releaseFence s n f.id) n f
    let s2 := if bit f.word 36 then applyInc s1 n (fld f.word 35 31) 1 else s1
    match bit f.word 30, addrPlace (match remoteSpan s n v with | some y => y.1 | none => g % 2 ^ 48) with
    | true, .spad m _ =>
      let inc := { blankMsg 5 1 (globalId g) with flags := 8, incSel := m * 2 ^ 16 + fld f.word 29 25 }
      let w : RmtWait := { core := n, msg := inc, fence := (moverIds (core s2 n)).filter (fun i => decide (i < f.id)) }
      modIod s2 x (fun d => { d with rmtWait := d.rmtWait ++ [w] })
    | _, _ => s2

/-- MOVE_COMPLETE (R167): a move to another endpoint completes once acknowledged, with what its reads of HBM met; any other writes its
destination. Increments that waited for it go on. DESIGN CHOICE (log entry 34). -/
def moveEnd (s : State) (n which : Nat) (es : List (Nat × Ecc)) (o : FlitOut) : State :=
  match (unitFlights (core s n) .mover)[which]? with
  | none => s
  | some f =>
    let v := moveView f
    let rd := (srcAddrs s n v).filter (fun a => decide (a < 2 ^ 40))
    let s1 := if toRemote s n v then
        (if f.sent && f.xfer.isNone then
          (let s0 := hbmMeets s rd es
           if hbmPoison rd es then s0 else flitMeets s0 [] 0 n (partOfCore s n) o (fun s => remoteComplete s n f))
         else s)
      else moveComplete s n which es o
    rmtPump (iod s1 (coreEntry s1 n)).rmtWait.length s1 (coreEntry s1 n)

/-- MOVE_COMPLETE. -/
def execMoveComplete (core which : Nat) (ecc : List (Nat × Ecc)) (flit : FlitOut) (s : State) : Host.Outcome State Fault Refusal :=
  .next (moveEnd s core which ecc flit)

/-! ### The way between an I/O die and memory (R313) -/

/-- The path of a write from Lx to an address (R313). -/
def iodPath (s : State) (x a : Nat) : List (Nat × NetLink) :=
  match addrPlace a with
  | .spad n _ => iodCorePath s x n
  | _ => match hbmPlace s a with
    | some p => iodHbmPath s x p.site
    | none => []

/-- Lx reads or writes bytes at these addresses: the flits of its way, and the requests at the controllers where they lie in HBM (R216, R313). -/
def iodTouch (s : State) (x : Nat) (as : List Nat) (write : Bool) : State :=
  hbmTouch ((linesOf as).foldl (fun s l => countPath s (iodPath s x (64 * l)) 1) s) as write

/-! ### Link-engine MOVE (R374) -/

/-- SRC_ADDR. -/
def lmSrc (b : List Byte) : Nat := leAt b 16 6
/-- DST. -/
def lmDst (b : List Byte) : Nat := leAt b 24 8
/-- LENGTH. -/
def lmLen (b : List Byte) : Nat := leAt b 32 6
/-- LFLAGS. -/
def lmFlag (b : List Byte) (i : Nat) : Bool := Nat.testBit (leAt b 38 1) i

/-- Is a body outside Table 15-8? -/
def linkMoveBad (s : State) (p : Nat) (b : List Byte) : Bool :=
  leAt b 22 2 != 0 || nfld (leAt b 38 1) 7 3 != 0 || leAt b 39 1 != 0 || !recZero b 48 64 || lmSrc b % 64 != 0
    || !inHbm s p (lmSrc b) (lmLen b) || lmLen b % 64 != 0 || lmLen b == 0 || decide (2 ^ 40 < lmLen b) || lmDst b % 64 != 0
    || globalId (lmDst b) == (part s p).moduleId.toNat
    || (lmFlag b 0 && (selBad (leAt b 40 4) || decide (1 < nfld (leAt b 40 4) 31 30)))
    || (lmFlag b 2 && (selBad (leAt b 44 4) || decide (1 < nfld (leAt b 44 4) 31 30) || selOut s p (leAt b 44 4)))

/-- Transfers of a record. -/
def lmPieces (b : List Byte) : Nat := cdiv (lmLen b) (2 ^ 20)

/-- Messages of transfer k of a record. -/
def lmMsgs (s : State) (b : List Byte) (k : Nat) : List Msg :=
  let off := k * 2 ^ 20
  let ms := writeMsgs (if lmFlag b 1 then 2 else 5) (globalId (lmDst b)) (lmDst b % 2 ^ 48 + off)
    (readBytes s.mem (lmSrc b + off) (min (2 ^ 20) (lmLen b - off)))
  if lmFlag b 0 && k + 1 == lmPieces b then ms.map (fun m => { m with flags := 8, incSel := leAt b 40 4 }) else ms

/-- Is it the record's move? DEDUCED (log entry 15). -/
def isMove (q i : Nat) (m : LinkMove) : Bool := m.queue == q && m.index == i

/-- Lines that transfer k of a record reads. -/
def lmLines (b : List Byte) (k : Nat) : List Nat :=
  rangeLines (lmSrc b + k * 2 ^ 20) (min (2 ^ 20) (lmLen b - k * 2 ^ 20))

/-- May a record open its next transfer: at most 16 unacknowledged, the last alone (R374)? -/
def lmAble (m : LinkMove) : Bool :=
  let n := lmPieces m.bytes
  decide (m.sent < n) && decide (m.sent - m.acked < 16) && (decide (m.sent + 1 < n) || decide (m.acked + 1 = n))

/-- A record opens its next transfer: none when Lx can take no more. -/
def linkOpen (s : State) (x : Nat) (m : LinkMove) : Option State :=
  match openXfer s x (qPart s m.queue) (.link m.queue m.index m.sent) 0 (lmMsgs s m.bytes m.sent) with
  | none => none
  | some r => some (modIod (iodTouch r.1 x (lmLines m.bytes m.sent) false) x (fun d => { d with moves := d.moves.map (fun y =>
      if isMove m.queue m.index y then { y with sent := y.sent + 1 } else y) }))

/-- Open the transfers the running records may open. -/
def linkPump : Nat → State → Nat → State
  | 0, s, _ => s
  | k + 1, s, x =>
    match (iod s x).moves.find? lmAble with
    | none => s
    | some m =>
      match linkOpen s x m with
      | none => s
      | some t => linkPump k t x

/-- Start waiting records of a link engine while fewer than 4 run; a body that breaks the table fails (R374). -/
def linkStart : Nat → State → Nat → State
  | 0, s, x => linkPump 64 s x
  | k + 1, s, x =>
    match (iod s x).waiting with
    | [] => linkPump 64 s x
    | m :: r =>
      if 4 ≤ (iod s x).moves.length then linkPump 64 s x
      else
        let s1 := modIod s x (fun d => { d with waiting := r })
        if linkMoveBad s1 (qPart s1 m.queue) m.bytes then
          linkStart k (seReport (linkErr s1 x 0x0708 (globalId (lmDst m.bytes)) 0) m.queue m.index 0x0708) x
        else if nfld (lmDst m.bytes) 63 60 ≠ 0 then
          linkStart k (seReport (linkErr s1 x 0x0701 (globalId (lmDst m.bytes)) 0) m.queue m.index 0x0701) x
        else linkStart k (modIod s1 x (fun d => { d with moves := d.moves ++ [m] })) x

/-- LINK_ENGINE_MOVE (R270, R374). -/
def linkEngineMove (s : State) (q : Nat) : State :=
  let x := qTarget (queue s q)
  if qConsumer (queue s q) ≠ 2 then s
  else recRow s q (fun b => recCls b == 2) (fun s i b =>
    if handPick s q (iod s x).lastQueue then
      linkStart 8 (modIod (putRec s q i b .running) x (fun d =>
        { d with waiting := d.waiting ++ [{ queue := q, index := i, bytes := b, sent := 0, acked := 0 }], lastQueue := q })) x
    else s)

/-- LINK_ENGINE_MOVE. -/
def execLinkEngineMove (queue : Nat) (s : State) : Host.Outcome State Fault Refusal := .next (linkEngineMove s queue)

/-- A transfer of a record ended (R374). -/
def linkEnded (s : State) (x q i code : Nat) : State :=
  match (iod s x).moves.find? (isMove q i) with
  | none => s
  | some m =>
    let drop := fun (s : State) => modIod s x (fun d => { d with moves := d.moves.filter (fun y => !isMove q i y) })
    if code ≠ 0 then linkStart 8 (seReport (drop s) q i code) x
    else if m.acked + 1 = lmPieces m.bytes then
      let s1 := seReport (drop s) q i 0
      linkStart 8 (if lmFlag m.bytes 2 then selAdd s1 (6000 + x) (pgLink x) (leAt m.bytes 44 4) 1 else s1) x
    else
      linkPump 64 (modIod s x (fun d => { d with moves := d.moves.map (fun y => if isMove q i y then { y with acked := y.acked + 1 } else y) })) x

/-! ### Transfers end (R371) -/

/-- A transfer of die x ends, completed (code 0) or in error: its entry is freed and its requester told; after an error no
further message of it is sent (R371). -/
def endXfer (s : State) (x tag code : Nat) : State :=
  match (iod s x).xfers.find? (fun e => e.1 == tag) with
  | none => s
  | some (_, t) =>
    let s1 := modIod s x (fun d => { d with
      xfers := sdel d.xfers tag
      xferDone := if code = 0 then d.xferDone + 1 else d.xferDone
      xferFail := if code = 0 then d.xferFail else d.xferFail + 1
      streams := if code = 0 then d.streams else d.streams.map (fun y =>
        if isStream t.part t.dst t.vc y then { y with waiting := y.waiting.filter (fun m => atomKind m.kind || m.xtag != tag) } else y) })
    let s2 := if code = 0 then s1 else raiseEvt s1 (pgLink x) 0
    match t.req with
    | .move n f =>
      match (core s2 n).flights.find? (fun g => g.id == f && g.xfer == some tag) with
      | some g => if code = 0 then setFlight s2 n { g with xfer := none } else moveRefused s2 n code g
      | none => s2
    | .rmt n => if code = 0x0209 then recordErr s2 (pgCore n) 0x0209 0 0 else s2
    | .ckpt i _ => ckptEnded s2 i code
    | .contrib i g b r => sendEnded s2 i g b r code t.dst
    | .link q i _ => linkEnded s2 x q i code

/-- End every transfer with messages among those sent on a stream. -/
def endSent (s : State) (x code : Nat) (ms : List Msg) : State :=
  (((ms.filter (fun m => !atomKind m.kind)).map (fun m => m.xtag)).eraseDups).foldl (fun s tag =>
    endXfer (if code = 0x0704 then linkErr s x code ((iod s x).xfers.find? (fun e => e.1 == tag) |>.map (fun e => e.2.dst) |>.getD 0) tag else s) x tag code) s

/-- Close a stream after an error (R368, R371): its transfers end, messages that hold no entry go out again on a new stream, and its context is
free. A stream that times out with only such messages records it too. DEDUCED (log entry 45). -/
def closeStream (s : State) (x p dst vc code : Nat) : State :=
  match (iod s x).streams.find? (isStream p dst vc) with
  | none => s
  | some t =>
    let keep := t.sent.filter (fun m => atomKind m.kind) ++ t.waiting
    let s1 := modIod s x (fun d => { d with streams := d.streams.filter (fun y => !isStream p dst vc y) })
    let ended := ((t.sent.filter (fun m => !atomKind m.kind)).map (fun m => m.xtag))
    let s2 := endSent (if code = 0x0704 && ended.isEmpty then linkErr s1 x code dst 0 else s1) x code t.sent
    contextFreed (sendMsgs s2 x p (keep.filter (fun m => atomKind m.kind || !ended.contains m.xtag))) x

/-! ### Channel 0 at the requester (R366-R371) -/

/-- Progress on a transfer's stream (R371). -/
def progress (s : State) (x p dst vc : Nat) : State :=
  modIod s x (fun d => { d with streams := d.streams.map (fun y => if isStream p dst vc y then { y with resends := 0 } else y) })

/-- A read of the tracker or the reorder store of I/O die Lx (R451, R453): a corrected error is counted in ERR_COUNT of the link engine's
page; one that cannot be corrected is IOD_PARITY, class 9, and resets every partition that owns one of the die's ports. DESIGN CHOICE (log entry 66). -/
def trackerRead (s : State) (x : Nat) (e : Ecc) (take : State → State) : State :=
  match e with
  | .clean => take s
  | .corrected => take (correctedBlotter (countCorrected s (pgLink x)) (pgLink x) (blank 1 0 7 0 (32 + x)))
  | .uncorrectable =>
    resetsByFault (recordErr s (pgLink x) 0x0709 0 0)
      ((List.range (nParts s)).filter (fun p => (partPorts s p).any (fun i => i / 8 == x))) (blank 9 0x0709 7 3 (32 + x))

/-- ACK_MESSAGE: the transfer has completed (R371). -/
def execAckMessage (die which : Nat) (ecc : Ecc) (s : State) : Host.Outcome State Fault Refusal :=
  .next (ctlRow s die 0x09 which (fun s _ m => trackerRead s die ecc (fun s => endXfer s die m.xtag 0)))

/-- The transfer an answer to partition q is about: its tag, from its destination, or refused on the way there. DEDUCED (log entry 45). -/
def answered (s : State) (x q : Nat) (m : Msg) : Option (Nat × Xfer) :=
  match (iod s x).xfers.find? (fun e => e.1 == m.xtag && e.2.part == q && e.2.dst == m.srcId) with
  | some e => some e
  | none => if m.code = 0x0702 ∨ m.code = 0x0703 then (iod s x).xfers.find? (fun e => e.1 == m.xtag && e.2.part == q) else none

/-- The stream with a message that holds no tracker entry and carries a tag: its place at the die, of those to the answering endpoint. -/
def entryless (s : State) (x q : Nat) (m : Msg) : Option SrcStream :=
  (iod s x).streams.find? (fun t => t.part == q && t.dst == m.srcId && (t.sent ++ t.kept).any (fun y => atomKind y.kind && y.xtag == m.xtag))

/-- A REFUSE: the transfer has ended in error; WXL_PEER_RESET closes its stream, also that of a message without an entry (R368, R371). -/
def refused (s : State) (x q : Nat) (m : Msg) : State :=
  match answered s x q m with
  | some (tag, t) =>
    let s1 := endXfer s x tag m.code
    if m.code = 0x0705 then closeStream s1 x t.part t.dst t.vc 0x0705 else s1
  | none =>
    match entryless s x q m with
    | some t => if m.code = 0x0705 then closeStream s x t.part t.dst t.vc 0x0705 else s
    | none => s

/-- REFUSE_MESSAGE. -/
def execRefuseMessage (die which : Nat) (s : State) : Host.Outcome State Fault Refusal :=
  .next (ctlRow s die 0x0A which (fun s q m => refused s die q m))

/-- A BUSY answer counts as progress; the transfer, or the row of messages that holds no tracker entry, is resent RESEND_US later (R369,
R371, R372). -/
def busied (s : State) (x q : Nat) (m : Msg) : State :=
  match (iod s x).xfers.find? (fun e => e.1 == m.xtag && e.2.part == q && e.2.dst == m.srcId) with
  | some (tag, t) =>
    progress (modIod s x (fun d => { d with xfers := sput d.xfers tag { t with busyAt := some s.time } })) x t.part t.dst t.vc
  | none =>
    match entryless s x q m with
    | some t => modIod s x (fun d => { d with streams := d.streams.map (fun y => if isStream t.part t.dst t.vc y then
        { y with resends := 0, busy := y.busy.filter (fun e => e.1 != m.xtag) ++ [(m.xtag, s.time)] } else y) })
    | none => s

/-- BUSY_MESSAGE. -/
def execBusyMessage (die which : Nat) (s : State) : Host.Outcome State Fault Refusal :=
  .next (ctlRow s die 0x0B which (fun s q m => busied s die q m))

/-- Messages of a transfer read again from their source (R367, R387). A checkpoint's granules are read once (R239): its messages are kept. DEDUCED (log entry 45). -/
def xferMsgs (s : State) (t : Xfer) (tag : Nat) : List Msg :=
  match t.req with
  | .contrib i g b r => match slotAt s i g b false with
    | some k => numberMsgs tag (contribMsgs s k r)
    | none => t.msgs
  | .link q i k => match (queue s q).recs.find? (fun r => r.index == i) with
    | some r => numberMsgs tag (lmMsgs s r.bytes k)
    | none => t.msgs
  | .move n f => match (core s n).flights.find? (fun g => g.id == f) with
    | some g => numberMsgs tag (moveRemoteMsgs s n (moveView g))
    | none => t.msgs
  | _ => t.msgs

/-- A sent message as its source reads now (R367). -/
def freshMsg (s : State) (x : Nat) (m : Msg) : Msg :=
  if atomKind m.kind then m
  else match (iod s x).xfers.find? (fun e => e.1 == m.xtag) with
    | some (tag, t) => match (xferMsgs s t tag)[m.xidx]? with
      | some y => { m with data := y.data }
      | none => m
    | none => m

/-- A row of messages that holds no tracker entry is due to be resent: the stream and its messages (R372). -/
def entrylessDue (s : State) (x tag : Nat) : Option (SrcStream × List Msg) :=
  ((iod s x).streams.find? (fun t => t.busy.any (fun e => e.1 == tag && decide (e.2 + resendTicks (iod s x) ≤ s.time)))).map (fun t =>
    (t, (t.sent ++ t.kept).filter (fun y => atomKind y.kind && y.xtag == tag)))

/-- TRANSFER_RESEND (R369, R372): RESEND_US after BUSY the whole transfer, or row, goes out again as new messages at the end of its stream. DEDUCED (log entry 45). -/
def transferResend (s : State) (x tag : Nat) : State :=
  match (iod s x).xfers.find? (fun e => e.1 == tag && (match e.2.busyAt with
    | some b => decide (b + resendTicks (iod s x) ≤ s.time)
    | none => false)) with
  | some (_, t) =>
    let s1 := modIod s x (fun d => { d with xfers := sput d.xfers tag { t with busyAt := none, got := 0 }, busyRx := d.busyRx + 1 })
    sendMsgs s1 x t.part (xferMsgs s t tag)
  | none =>
    match entrylessDue s x tag with
    | some (t, ms) =>
      let s1 := modIod s x (fun d =>
        { d with busyRx := d.busyRx + 1,
                 streams := d.streams.map (fun y => if isStream t.part t.dst t.vc y then
                   { y with busy := y.busy.filter (fun e => e.1 != tag), kept := y.kept.filter (fun k => k.xtag != tag) } else y) })
      sendMsgs s1 x t.part ms
    | none => s

/-- TRANSFER_RESEND. -/
def execTransferResend (die tag : Nat) (s : State) : Host.Outcome State Fault Refusal := .next (transferResend s die tag)

/-- A STREAM_ACK covers messages up to its SSEQ (R364, R366). -/
def streamAck (s : State) (x q : Nat) (m : Msg) : State :=
  match (iod s x).streams.findIdx? (isStream q m.srcId m.svc) with
  | none => s
  | some k => match (iod s x).streams[k]? with
    | none => s
    | some t => match t.sent with
      | [] => s
      | f :: _ =>
        let n := subMod (2 ^ 32) m.sseq f.sseq + 1
        if n ≤ t.sent.length then
          let t1 := { t with sent := t.sent.drop n, kept := t.kept ++ (t.sent.take n).filter (fun y => atomKind y.kind), ackAt := s.time,
                             resends := 0 }
          pumpAt (modIod s x (fun d => { d with streams := d.streams.set k t1 })) x k
        else s

/-- STREAM_ACK_MESSAGE. -/
def execStreamAckMessage (die which : Nat) (s : State) : Host.Outcome State Fault Refusal :=
  .next (ctlRow s die 0x0C which (fun s q m => streamAck s die q m))

/-- Send messages of a stream again from position k on, their bytes read again (R367); one that has no route any more is refused (R362). DEDUCED (log entry 45). -/
def resendFrom (s : State) (x : Nat) (t : SrcStream) (k : Nat) : State :=
  let ms := (t.sent.drop k).map (freshMsg s x)
  let s1 := ms.foldl (fun s m => match emit s x t.part m with
    | some s1 => s1
    | none => refuseLocal s x t.part (entryCode s m) m) s
  modIod s1 x (fun d => { d with resends := d.resends + BitVec.ofNat 64 ms.length,
                                 streams := d.streams.map (fun y => if isStream t.part t.dst t.vc y then { y with sentAt := s.time } else y) })

/-- A STREAM_NAK: the stream's messages go out again from the SSEQ named (R367). -/
def streamNak (s : State) (x q : Nat) (m : Msg) : State :=
  match (iod s x).streams.find? (isStream q m.srcId m.svc) with
  | none => s
  | some t => match t.sent with
    | [] => s
    | f :: _ =>
      let n := subMod (2 ^ 32) m.sseq f.sseq
      if n < t.sent.length then resendFrom s x t n else s

/-- STREAM_NAK_MESSAGE. -/
def execStreamNakMessage (die which : Nat) (s : State) : Host.Outcome State Fault Refusal :=
  .next (ctlRow s die 0x0D which (fun s q m => streamNak s die q m))

/-- STREAM_RESEND_TIMEOUT (R367, R371, R426): no acknowledgement for RESEND_US; at the RESEND_MAX-th in a row, RESEND_MAX times RESEND_US
after the last progress, the transfers end with WXL_TIMEOUT and the stream closes. DEDUCED (log entry 45). -/
def streamResend (s : State) (x k : Nat) : State :=
  match (iod s x).streams[k]? with
  | none => s
  | some t =>
    if t.sent.isEmpty || decide (s.time < t.ackAt + resendTicks (iod s x)) then s
    else
      let s1 := resendFrom (modIod s x (fun d => { d with streams := d.streams.set k { t with resends := t.resends + 1, ackAt := s.time } })) x t 0
      if resendMax (iod s x) ≤ t.resends + 1 then closeStream s1 x t.part t.dst t.vc 0x0704 else s1

/-- STREAM_RESEND_TIMEOUT. -/
def execStreamResendTimeout (die stream : Nat) (s : State) : Host.Outcome State Fault Refusal := .next (streamResend s die stream)

/-- SOURCE_STREAM_CLOSE (R368): everything acknowledged and nothing sent for 100 µs. -/
def execSourceStreamClose (die stream : Nat) (s : State) : Host.Outcome State Fault Refusal :=
  .next (match (iod s die).streams[stream]? with
    | some t => if t.sent.isEmpty && t.waiting.isEmpty && decide (t.sentAt + 150000 ≤ s.time) then
        contextFreed (modIod s die (fun d => { d with streams := d.streams.eraseIdx stream })) die else s
    | none => s)

/-- LANDING_CONTEXT_FREE (R368): 200 µs without a message. -/
def execLandingContextFree (die context : Nat) (s : State) : Host.Outcome State Fault Refusal :=
  .next (match (iod s die).lands[context]? with
    | some c => if c.msgAt + 300000 ≤ s.time then modIod s die (fun d => { d with lands := d.lands.eraseIdx context }) else s
    | none => s)

/-- STREAM_ACK_TIMER (R366): 2 µs after a delivery not yet acknowledged. -/
def streamAckTimer (s : State) (x k : Nat) : State :=
  match (iod s x).lands[k]? with
  | none => s
  | some c =>
    if c.unacked = 0 || decide (s.time < c.deliveredAt + 3000) then s
    else
      let s1 := modIod s x (fun d => { d with lands := d.lands.set k { c with unacked := 0 } })
      streamCtl s1 x c.part 0x0C (subMod (2 ^ 32) c.expect 1) { blankMsg c.vc 0 0 with src := c.src }

/-- STREAM_ACK_TIMER. -/
def execStreamAckTimer (die context : Nat) (s : State) : Host.Outcome State Fault Refusal := .next (streamAckTimer s die context)

/-! ### Delivery to memory (R358, R371) -/

/-- Does an address lie at or past the first accumulator part? -/
def pastAcc (a : Nat) : Bool := accPart a || (decide (coreWin + 0x40000 ≤ a) && decide (a < coreWin + 4096 * 0x40000))

/-- The span check of the destination endpoint (R26, R169, R358): the code it refuses with. DEDUCED (log entry 36). DEDUCED (log entry 42). -/
def spanErr (s : State) (q lo hi : Nat) : Option Nat :=
  match addrErr s q lo with
  | some c => some c
  | none =>
    match addrPlace lo with
    | .acc _ _ => some 0x0103
    | .spad n _ =>
      if hi < lo ∨ regionEnd s lo ≤ hi then some 0x0103 else if (core s n).state = .testing then some 0x0209 else none
    | _ =>
      if hi < lo then some 0x022C
      else if regionEnd s lo ≤ hi then some (if pastAcc hi then 0x0103 else (addrErr s q hi).getD 0x022C)
      else none

/-- Check of an increment's selector at its destination. DEDUCED (log entry 46). -/
def incErr (s : State) (q sel : Nat) : Option Nat :=
  if selBad sel || decide (1 < nfld sel 31 30) then some 0x0101
  else if selOut s q sel then some 0x0102
  else if nfld sel 31 30 = 0 ∧ (core s (nfld sel 27 16)).state = .testing then some 0x0209
  else none

/-- Bytes of an inbound write of Lx land, with the flits of its way counted: a scratchpad through its mover port, HBM by requests at the
controllers (R216, R313). DEDUCED (log entry 47). -/
def inboundWrite (s : State) (x a : Nat) (bs : List Byte) : State :=
  let s0 := iodTouch s x (rangeLines a bs.length) true
  match addrPlace a with
  | .spad n _ => portWrite s0 n (mapIx (fun k b => (a + k, b)) 0 bs)
  | _ => { s0 with mem := writeBytes s0.mem a bs }

/-- The destination refuses a write of Lx: a message after the FIRST leaves the bytes written undefined (R371); the rest is passed over. -/
def writeRefused (s : State) (x q code : Nat) (m : Msg) : State :=
  let s1 := noteXfer (answer (if m.first then s else loseXfer s x q m) x q 0x0A code m) x q m true
  if m.last then endXferAt s1 x q m else s1

/-- The LAST message of a write: the increment, then the ACK (R371). DEDUCED (log entry 47). -/
def writeLast (s : State) (x q : Nat) (m : Msg) : State :=
  if m.incEn then
    match incErr s q m.incSel with
    | some code => endXferAt (answer (loseXfer s x q m) x q 0x0A code m) x q m
    | none => answer (selAdd (endXferAt s x q m) (6000 + x) (pgLink x) m.incSel 1) x q 0x09 0 m
  else answer (endXferAt s x q m) x q 0x09 0 m

/-- The code a WRITE message is refused with: the span that the FIRST names, and the bytes that any message brings, are checked. -/
def writeErr (s : State) (q : Nat) (m : Msg) (spanned : Bool) (data : List Byte) : Option Nat :=
  match (if spanned then spanErr s q (leAt m.data 0 8) (leAt m.data 8 8) else none) with
  | some c => some c
  | none => if data.isEmpty then none else spanErr s q m.addr (m.addr + data.length - 1)

/-- A WRITE message is delivered (R358, R371); its flits may meet an error on the die's network (R313, R314). -/
def writeMessage (s : State) (x q : Nat) (m : Msg) (o : FlitOut) : State :=
  let spanned := m.first && !m.data.isEmpty
  let data := if spanned then m.data.drop 16 else m.data
  if !m.first && xferRefused s x q m then (if m.last then endXferAt s x q m else s)
  else match writeErr s q m spanned data with
    | some code => writeRefused s x q code m
    | none =>
      flitMeets (if m.first then noteXfer s x q m false else s) [] 0 (m.addr / 64) q o (fun s =>
        let s1 := if data.isEmpty then s else noteWrote (inboundWrite s x m.addr data) x q m m.addr data.length
        if m.last then writeLast s1 x q m else s1)

/-- WRITE_MESSAGE. -/
def execWriteMessage (die which : Nat) (flit : FlitOut) (s : State) : Host.Outcome State Fault Refusal :=
  .next (streamRow s die 1 which (fun s q m => (writeMessage s die q m flit, true)))

/-- A READ_REQ is delivered: the bytes go back as READ_DATA (R358). -/
def readReqMessage (s : State) (x q : Nat) (m : Msg) : State :=
  let lo := leAt m.data 0 8
  let hi := leAt m.data 8 8
  match spanErr s q lo hi with
  | some code => answer s x q 0x0A code m
  | none =>
    let home := leAt m.data 16 8
    let bs := readBytes s.mem lo (hi + 1 - lo)
    let ms := (List.range (cdiv bs.length 4096)).map (fun k =>
      { blankMsg 2 3 m.srcId with addr := home + 4096 * k, data := (bs.drop (4096 * k)).take 4096 })
    sendMsgs (iodTouch s x (rangeLines lo (hi + 1 - lo)) false) x q (numberMsgs m.xtag ms)

/-- READ_REQ_MESSAGE. -/
def execReadReqMessage (die which : Nat) (s : State) : Host.Outcome State Fault Refusal :=
  .next (streamRow s die 2 which (fun s q m => (readReqMessage s die q m, true)))

/-- Where a READ_REQ asked its data to go. -/
def homeOf (t : Xfer) : Nat := (t.msgs.head?.map (fun m => leAt m.data 16 8)).getD 0

/-- READ_DATA lands at the requester: its transfer ends when every byte has (R371). DEDUCED (log entry 46). -/
def readDataMessage (s : State) (q : Nat) (m : Msg) : State :=
  let mine := fun (e : Nat × Xfer) => e.1 == m.xtag && e.2.part == q && e.2.dst == m.srcId && decide (e.2.got < e.2.want)
    && decide (homeOf e.2 ≤ m.addr) && decide (m.addr + m.data.length ≤ homeOf e.2 + e.2.want)
  match (List.range 4).findSome? (fun y => ((iod s y).xfers.find? mine).map (fun e => (y, e))) with
  | none => s
  | some (y, tag, t) =>
    let s1 := match t.req with
      | .ckpt i k => ckptData s i k m.addr m.data
      | _ => s
    let s2 := modIod s1 y (fun d => { d with xfers := sput d.xfers tag { t with got := t.got + m.data.length } })
    if t.got + m.data.length = t.want then endXfer s2 y tag 0 else s2

/-- READ_DATA_MESSAGE. -/
def execReadDataMessage (die which : Nat) (s : State) : Host.Outcome State Fault Refusal :=
  .next (streamRow s die 3 which (fun s q m => (readDataMessage s q m, true)))

/-- DIAG_MESSAGE: returned unchanged (Table 15-5). DEDUCED (log entry 45). -/
def execDiagMessage (die which : Nat) (s : State) : Host.Outcome State Fault Refusal :=
  .next (streamRow s die 14 which (fun s q m => (sendMsgs s die q [{ blankMsg 6 14 m.srcId with data := m.data }], true)))

/-- TRACKER_ENTRY_AVAILABLE (R372): requesters of a die that wait for an entry go on: its link engine, the checkpoint movers and
reduce units of its sites, the movers of its cores, the increments that follow their moves; streams that waited for a context. DEDUCED
(log entry 47). DEDUCED (log entry 47). -/
def trackerFree (s : State) (x : Nat) : State :=
  let s1 := linkPump 64 s x
  let mine := (sites s1).filter (fun i => seEntry s1 i == x)
  let s2 := mine.foldl (fun s i => sendPump 16 (ckptPump 16 s i) i) s1
  let s3 := ((s2.cores.map (·.1)).filter (fun n => coreEntry s2 n == x)).foldl movesOpen s2
  contextFreed (rmtPump (iod s3 x).rmtWait.length s3 x) x

/-- TRACKER_ENTRY_AVAILABLE. -/
def execTrackerEntryAvailable (die : Nat) (s : State) : Host.Outcome State Fault Refusal := .next (trackerFree s die)

/-! ### Rows of the ports -/

/-- PORT_TRAIN_START (R346). -/
def execPortTrainStart (port : Nat) (signal : Bool) (s : State) : Host.Outcome State Fault Refusal := .next (trainStart s port signal)

/-- PORT_TRAIN_DONE (R346, R348). DESIGN CHOICE (log entry 63). -/
def execPortTrainDone (port lanes peerId peerPort : Nat) (s : State) : Host.Outcome State Fault Refusal :=
  .next (trainDone s port lanes peerId peerPort)

/-- LANE_LOCK_LOSS (R349). -/
def execLaneLockLoss (port : Nat) (s : State) : Host.Outcome State Fault Refusal := .next (retrain s port)

/-- LANE_ERROR_WINDOW (R349): a window of 1 ms ends, with a lane above the error limit or not. -/
def execLaneErrorWindow (port : Nat) (overLimit : Bool) (s : State) : Host.Outcome State Fault Refusal :=
  .next (if overLimit then retrain s port else s)

/-- FLIT_SEND (R351, R356). -/
def execFlitSend (port ca cb : Nat) (s : State) : Host.Outcome State Fault Refusal := .next (flitSend s port ca cb)

/-- DATA_FLIT_RECEIVE (R354): a DATA flit, or one of a reserved type. -/
def execDataFlitReceive (port : Nat) (bytes : List Byte) (corr uncorr : Nat) (failed : Bool) (s : State) : Host.Outcome State Fault Refusal :=
  .next (if leAt bytes 0 1 % 4 = 1 ∨ leAt bytes 0 1 % 4 = 2 then s else flitIn s port bytes corr uncorr failed)

/-- CONTROL_FLIT_RECEIVE (R353): a CONTROL or IDLE flit. -/
def execControlFlitReceive (port : Nat) (bytes : List Byte) (corr uncorr : Nat) (failed : Bool) (s : State) : Host.Outcome State Fault Refusal :=
  .next (if leAt bytes 0 1 % 4 = 1 ∨ leAt bytes 0 1 % 4 = 2 then flitIn s port bytes corr uncorr failed else s)

/-- NAK_RECEIVE (R354): a flit that carries a NAK. -/
def execNakReceive (port : Nat) (bytes : List Byte) (corr uncorr : Nat) (failed : Bool) (s : State) : Host.Outcome State Fault Refusal :=
  .next (if Nat.testBit (leAt bytes 0 1) 2 then flitIn s port bytes corr uncorr failed else s)

/-- REPLAY_TIMEOUT (R354): no progress of ACK_SEQ for 2 µs. -/
def execReplayTimeout (port : Nat) (s : State) : Host.Outcome State Fault Refusal :=
  .next (if portUp s port && !(Machine.port s port).replay.isEmpty && decide ((Machine.port s port).ackAt + 3000 ≤ s.time) then startReplay s port else s)

end Sys2Proof.Machine
end

