-- ==== Sys2Proof/Machine/Atomizer.lean ====
section
/-! DEFINITION. Expert routing (R318-R343): the Atomizers, DISPATCH records, expert queues and their rounds, returns and drop
notices, cancelled batches. -/

namespace Sys2Proof.Machine

/-! ### DISPATCH body (Table 14-3) -/

/-- CHOICE_ADDR. -/
def dpChoice (b : List Byte) : Nat := leAt b 16 6
/-- ROW_ADDR. -/
def dpRow (b : List Byte) : Nat := leAt b 22 6
/-- RET_BASE. -/
def dpRet (b : List Byte) : Nat := leAt b 28 6
/-- MAP_ADDR. -/
def dpMap (b : List Byte) : Nat := leAt b 34 6
/-- RET_CTR. -/
def dpCtr (b : List Byte) : Nat := leAt b 40 4
/-- Tokens. -/
def dpTokens (b : List Byte) : Nat := leAt b 44 2 + 1
/-- NCH. -/
def dpNch (b : List Byte) : Nat := leAt b 46 1 % 16
/-- END. -/
def dpEnd (b : List Byte) : Bool := Nat.testBit (leAt b 47 1) 0
/-- GEN. -/
def dpGen (b : List Byte) : Nat := leAt b 48 2
/-- CTX. -/
def dpCtx (b : List Byte) : Nat := leAt b 50 1
/-- SRC_SLOT. -/
def dpSlot (b : List Byte) : Nat := leAt b 51 1 % 64
/-- Bytes of a token row. -/
def dpRowLen (b : List Byte) : Nat := (leAt b 52 1 + 1) * 64
/-- Bytes of a returned row. -/
def dpOutLen (b : List Byte) : Nat := (leAt b 53 1 + 1) * 64
/-- EXP_LO. -/
def dpLo (b : List Byte) : Nat := leAt b 54 2 % 4096
/-- EXP_N. -/
def dpN (b : List Byte) : Nat := leAt b 56 2 % 8192

/-- ATOM_BODY: a field outside Table 14-3 (R321, R322). DEDUCED (log entry 19). -/
def atomBodyBad (s : State) (p : Nat) (b : List Byte) : Bool :=
  anyOf [dpChoice b % 64 != 0, dpMap b % 4 != 0, decide (dpNch b < 1), decide (8 < dpNch b), decide (16 ≤ leAt b 46 1),
    decide (2 ≤ leAt b 47 1), decide (64 ≤ leAt b 51 1), decide (4096 ≤ leAt b 54 2), decide (8192 ≤ leAt b 56 2),
    decide (dpN b < 1), decide (4096 < dpLo b + dpN b), !recZero b 58 64,
    selBad (dpCtr b), decide (1 < nfld (dpCtr b) 31 30), selOut s p (dpCtr b)]

/-- ATOM_TARGET: a span outside the partition's HBM range. -/
def atomTargetBad (s : State) (p : Nat) (b : List Byte) : Bool :=
  !inHbm s p (dpChoice b) (dpTokens b * 64) || !inHbm s p (dpRow b) (dpTokens b * dpRowLen b)
    || !inHbm s p (dpRet b) (dpTokens b * dpNch b * dpOutLen b) || !inHbm s p (dpMap b + dpLo b * 4) (dpN b * 4)

/-- Is a return context open? -/
def ctxOpen (a : Atom) (k : Nat) : Bool := a.ctxs.any (fun e => e.1 == k)

/-- The checks of Table 14-11. -/
def atomErr (s : State) (x p : Nat) (b : List Byte) : Option Nat :=
  if atomBodyBad s p b then some 0x0801
  else if atomTargetBad s p b then some 0x0802
  else if ctxOpen (atom s x) (dpCtx b) then some 0x0803
  else if sget 0x10000 (atom s x).cancelled (dpCtx b) = dpGen b then some 0x0804
  else none

/-- Record an Atomizer error (R343). -/
def atomNote (s : State) (x code ctx reason t rank : Nat) : State :=
  raiseEvt (recordErr s (pgAtom x) code (ctx + reason * 256) (t % 65536 + rank * 65536)) (pgAtom x) 0

/-! ### Tags (Table 14-5) -/

/-- A tag. -/
def mkTag (src ctx rank gen t row : Nat) : List Byte :=
  toBytes 2 src ++ toBytes 1 ctx ++ toBytes 1 rank ++ toBytes 2 gen ++ toBytes 2 t ++ toBytes 6 row ++ toBytes 2 0
/-- SRC. DEDUCED (log entry 46). -/
def tagSrc (t : List Byte) : Nat := leAt t 0 2
/-- CTX. -/
def tagCtx (t : List Byte) : Nat := leAt t 2 1
/-- RANK. -/
def tagRank (t : List Byte) : Nat := leAt t 3 1 % 8
/-- GEN. -/
def tagGen (t : List Byte) : Nat := leAt t 4 2
/-- T. -/
def tagT (t : List Byte) : Nat := leAt t 6 2

/-- Cut a message's data into messages of at most 4,096 bytes under one set of header fields; they hold no tracker entry. -/
def cutData (m : Msg) (d : List Byte) : List Msg :=
  numberMsgs 0xFFFF ((List.range (max 1 (cdiv d.length 4096))).map (fun k => { m with data := (d.drop (4096 * k)).take 4096 }))

/-! ### Returns and drops at the dispatching Atomizer (R335) -/

/-- The open context a tag names. -/
def tagContext (s : State) (x p : Nat) (t : List Byte) : Option Ctx :=
  ((atom s x).ctxs.find? (fun e => e.1 == tagCtx t && e.2.gen == tagGen t && e.2.part == p)).map (·.2)

/-- A stale return or notice. -/
def staleIn (s : State) (x : Nat) : State := raiseEvt (modAtom s x (fun a => { a with stale := a.stale + 1 })) (pgAtom x) 1

/-- One choice of a context is settled: RET_CTR rises, the pending count falls, at 0 the context closes (R335). -/
def settleChoice (s : State) (x : Nat) (t : List Byte) (c : Ctx) : State :=
  let s1 := selAdd s (6000 + x) (pgAtom x) c.retCtr 1
  modAtom s1 x (fun a => { a with ctxs := if c.pend ≤ 1 then sdel a.ctxs (tagCtx t) else sput a.ctxs (tagCtx t) { c with pend := c.pend - 1 } })

/-- Slot address of a return. DEDUCED (log entry 19). -/
def retSlot (c : Ctx) (t : List Byte) : Nat := c.retBase + (tagT t * c.nch + tagRank t) * (c.outLines * 64)

/-- The whole row of a return has landed. DEDUCED (log entry 19). -/
def applyReturn (s : State) (x : Nat) (t : List Byte) (c : Ctx) : State :=
  settleChoice (modAtom s x (fun a => { a with returned := a.returned + 1 })) x t c

/-- A drop applied to a choice entry (R335); reasons 2, 3 and 5 also count in MAP_MISS and record ATOM_MAP (Table 14-6). -/
def applyDrop (s : State) (x p reason : Nat) (t : List Byte) : State :=
  match tagContext s x p t with
  | none => staleIn s x
  | some c =>
    let a := c.choiceAddr + tagT t * 64 + tagRank t * 8
    let e := readLe s.mem a 4
    let s1 := iodTouch { s with mem := writeLe s.mem a 8 (if Nat.testBit e 16 then e else e + 2 ^ 16) } x [a] true
    let s2 := raiseEvt (modAtom s1 x (fun y => { y with dropped := y.dropped + 1 })) (pgAtom x) 2
    let s3 := if reason = 2 ∨ reason = 3 ∨ reason = 5 then
        atomNote (modAtom s2 x (fun y => { y with mapMiss := y.mapMiss + 1 })) x 0x0805 (tagCtx t) reason (tagT t) (tagRank t)
      else s2
    settleChoice s3 x t c

/-- A drop notice from die x of partition p: applied directly in the partition, else sent on channel 4 (R334). DEDUCED (log entry 19). -/
def sendNotice (s : State) (x p reason : Nat) (t : List Byte) : State :=
  if tagSrc t % 4096 = (part s p).moduleId.toNat then applyDrop s (tagSrc t / 4096 % 4) p reason t
  else sendMsgs s x p (cutData (blankMsg 4 8 (tagSrc t % 16384)) (t ++ toBytes 1 reason))

/-- Return of a slot from die x: its row is written to the dispatching Atomizer's slot, or sent on channel 4 (R334). -/
def sendReturn (s : State) (x p : Nat) (t row : List Byte) : State :=
  if tagSrc t % 4096 = (part s p).moduleId.toNat then
    let y := tagSrc t / 4096 % 4
    match tagContext s y p t with
    | none => staleIn s y
    | some c =>
      applyReturn (iodTouch { s with mem := writeBytes s.mem (retSlot c t) (row.take (c.outLines * 64)) } y
        (rangeLines (retSlot c t) (c.outLines * 64)) true) y t c
  else sendMsgs s x p (cutData (blankMsg 4 7 (tagSrc t % 16384)) (t ++ row))

/-- Remember where the rest of a row in several messages goes. DEDUCED (log entry 47). -/
def setCont (s : State) (x q : Nat) (m : Msg) (c : Option (Nat × List Byte)) : State :=
  match landCtx s x q m with
  | some l => putLand s x q m { l with cont := c }
  | none => s

/-- A RETURN message is delivered (R335). -/
def returnMessage (s : State) (x q : Nat) (m : Msg) : State :=
  let y := m.dstIod
  if m.first then
    let t := m.data.take 16
    match tagContext s y q t with
    | none => setCont (staleIn s y) x q m none
    | some c =>
      let row := (m.data.drop 16).take (c.outLines * 64)
      let s1 := iodTouch { s with mem := writeBytes s.mem (retSlot c t) row } x (rangeLines (retSlot c t) row.length) true
      if m.last then applyReturn s1 y t c else setCont s1 x q m (some (retSlot c t + row.length, t))
  else
    match (landCtx s x q m).bind (fun l => l.cont) with
    | none => s
    | some (a, t) =>
      match tagContext s y q t with
      | none => setCont (staleIn s y) x q m none
      | some c =>
        let row := m.data.take (retSlot c t + c.outLines * 64 - a)
        let s1 := iodTouch { s with mem := writeBytes s.mem a row } x (rangeLines a row.length) true
        if m.last then setCont (applyReturn s1 y t c) x q m none else setCont s1 x q m (some (a + row.length, t))

/-- RETURN_MESSAGE. -/
def execReturnMessage (die which : Nat) (s : State) : Host.Outcome State Fault Refusal :=
  .next (streamRow s die 7 which (fun s q m => (returnMessage s die q m, true)))

/-- DROP_MESSAGE. -/
def execDropMessage (die which : Nat) (s : State) : Host.Outcome State Fault Refusal :=
  .next (streamRow s die 8 which (fun s q m => (applyDrop s m.dstIod q (leAt m.data 16 1) (m.data.take 16), true)))

/-! ### Expert queues (R326-R330) -/

/-- Address of a queue's expert entry. -/
def expEntry (s : State) (q : Nat) : Nat :=
  let p := qPart s q
  (part s p).expTable.toNat + (q - (partCores s p).1) * 256

/-- ROW_BASE. -/
def exRow (e : List Byte) : Nat := leAt e 0 6
/-- OUT_BASE. -/
def exOut (e : List Byte) : Nat := leAt e 6 6
/-- TAG_BASE. -/
def exTag (e : List Byte) : Nat := leAt e 12 6
/-- Bytes of a row. -/
def exRowLen (e : List Byte) : Nat := (leAt e 18 1 + 1) * 64
/-- Bytes of a result. -/
def exOutLen (e : List Byte) : Nat := (leAt e 19 1 + 1) * 64
/-- Quota mode. -/
def exQuota (e : List Byte) : Bool := Nat.testBit (leAt e 20 1) 0
/-- SRC_COUNT. -/
def exSrc (e : List Byte) : Nat := leAt e 21 1 % 128
/-- RET_IOD. -/
def exIod (e : List Byte) : Nat := leAt e 22 1 % 4
/-- CAPACITY. -/
def exCap (e : List Byte) : Nat := leAt e 24 2
/-- QUOTA. -/
def exPer (e : List Byte) : Nat := leAt e 26 2

/-- QE_EXPERT_ENTRY: the cases of R327, with those of EXP_TABLE (R341). What they do not name (PROG_ADDR, ARG_LINE) the check of each token
record finds (R258). -/
def expertBad (s : State) (q : Nat) (e : List Byte) : Bool :=
  let p := qPart s q
  let x := queue s q
  let f := leAt e 36 1
  let base := (part s p).expTable.toNat
  qConsumer x != 0 || base % 256 != 0 || !inHbm s p base 256 || !inHbm s p (expEntry s q) 256
    || leAt e 23 1 != 0 || leAt e 37 1 != 0 || !recZero e 40 64
    || !inHbm s p (exRow e) (exCap e * exRowLen e) || !inHbm s p (exOut e) (exCap e * exOutLen e) || !inHbm s p (exTag e) (exCap e * 16)
    || !iodPop s (exIod e) || exSrc e == 0 || exCap e == 0
    || (exQuota e && (exPer e == 0 || decide (exCap e < exSrc e * exPer e)))
    || decide (qDepth x < cdiv (exCap e) 16)
    || leAt e 34 2 == 0 || decide (4096 < leAt e 34 2) || nfld f 5 4 != 0
    || (!Nat.testBit f 7 && !(qMask x (f % 16) && coreOn s (16 * qTarget x + f % 16)))

/-- The engine's part of the entry: offsets of Table 14-4 in HBM. -/
def exGet (s : State) (q off n : Nat) : Nat := readLe s.mem (expEntry s q + off) n
/-- Write a field of the engine's part. -/
def exPut (s : State) (q off n v : Nat) : State := { s with mem := writeLe s.mem (expEntry s q + off) n v }
/-- Add 1 to a field of the engine's part. -/
def exInc (s : State) (q off n : Nat) : State := exPut s q off n (exGet s q off n + 1)

/-- ROUND_OPEN. -/
def roundOpen (s : State) (q : Nat) : Bool := Nat.testBit (exGet s q 68 1) 0
/-- ROUND_SEEN. -/
def roundSeen (s : State) (q : Nat) : Bool := Nat.testBit (exGet s q 68 1) 1

/-- The token record of a group (R330). -/
def tokenRecord (e : List Byte) (g : List Nat) : List Byte :=
  toBytes 16 1 ++ toBytes 8 (leAt e 28 6) ++ toBytes 2 (leAt e 34 2) ++ toBytes 1 (leAt e 36 1 ||| 0x20) ++ toBytes 1 0 ++ toBytes 2 (leAt e 38 2)
    ++ toBytes 2 0 ++ (List.range 16).foldr (fun i acc => toBytes 2 (g.getD i 0xFFFF) ++ acc) []

/-- Publish the open group when it is full, or partial in a closed round, and the ring has room (R330). -/
def flushGroup (s : State) (q : Nat) : State :=
  let x := queue s q
  let due := decide (16 ≤ x.group.length) || (!x.group.isEmpty && !roundOpen s q)
  if qExpert x && qOn x && due && decide ((x.tail - x.head).toNat < qDepth x) then
    let s1 := { s with mem := writeBytes s.mem (ringAddr x x.tail.toNat) (tokenRecord x.entry x.group) }
    setQueue s1 q { x with group := [], tail := x.tail + 1 }
  else s

/-- Open a round of generation g (R328). -/
def openRound (s : State) (q g : Nat) : State :=
  let s1 := exPut (exPut (exPut s q 64 2 g) q 66 2 0) q 68 1 3
  let s2 := exPut s1 q 72 8 0
  modQueue { s2 with mem := writeBytes s2.mem (expEntry s q + 128) (List.replicate 128 0) } q (fun x => { x with heldGen := none })

/-- Close the round: its partial group is published when the ring has room (R328, R330). -/
def closeRound (s : State) (q : Nat) : State := flushGroup (exPut s q 68 1 2) q

/-- Has the old round drained? -/
def roundDrained (s : State) (q : Nat) : Bool :=
  let x := queue s q
  x.group.isEmpty && x.head == x.tail

/-- What an arrival of generation g meets (R328): held, stale, or the current round. -/
inductive Entry where
  | held (s : State)
  | stale
  | current (s : State)
  deriving DecidableEq, Repr

/-- Rules 1 to 3 of R328. -/
def enterRound (s : State) (q g : Nat) : Entry :=
  if (queue s q).heldGen.isSome then .held s
  else if !roundSeen s q then .current (openRound s q g)
  else
    let d := subMod 65536 g (exGet s q 64 2)
    if d = 0 then (if roundOpen s q then .current s else .stale)
    else if 32768 ≤ d then .stale
    else
      let s1 := if roundOpen s q then closeRound s q else s
      if roundDrained s1 q then .current (openRound s1 q g)
      else .held (modQueue s1 q (fun x => { x with heldGen := some g }))

/-- ROUND_OPEN_AFTER_DRAIN (R328): every token record of the old round has retired, and the held arrival's round opens. -/
def roundAfterDrain (s : State) (q : Nat) : State :=
  let s1 := flushGroup s q
  match (queue s1 q).heldGen with
  | some g => if roundDrained s1 q then openRound s1 q g else s1
  | none => s1

/-- ROUND_OPEN_AFTER_DRAIN. -/
def execRoundOpenAfterDrain (queue : Nat) (s : State) : Host.Outcome State Fault Refusal := .next (roundAfterDrain s queue)

/-- Is queue q of partition p one that takes choices: enabled and an expert queue (Table 14-6)? -/
def takesChoices (s : State) (p q : Nat) : Bool := inPart s p q && qOn (queue s q) && qExpert (queue s q)

/-- What becomes of a choice: held with back-pressure, dropped for a reason, or admitted to a slot. -/
inductive Admit where
  | held (s : State)
  | drop (s : State) (reason : Nat)
  | slot (s : State) (k : Nat)
  deriving DecidableEq, Repr

/-- Admission of a choice of generation g and source slot r (R328, R329). -/
def admitRow (s : State) (q g r : Nat) : Admit :=
  let s0 := flushGroup s q
  if 16 ≤ (queue s0 q).group.length then .held s0
  else match enterRound s0 q g with
    | .held s1 => .held s1
    | .stale => .drop (exInc s0 q 96 8) 1
    | .current s1 =>
      let e := (queue s1 q).entry
      let give := fun (s : State) (k : Nat) =>
        let s2 := exInc (exInc s q 66 2) q 88 8
        Admit.slot (flushGroup (modQueue s2 q (fun x => { x with group := x.group ++ [k] })) q) k
      if exQuota e then
        if exSrc e ≤ r then .drop s1 5
        else
          let f := exGet s1 q (128 + 2 * r) 2
          if f < exPer e then give (exPut s1 q (128 + 2 * r) 2 (f + 1)) (r * exPer e + f) else .drop (exInc s1 q 80 8) 0
      else
        let a := exGet s1 q 66 2
        if a < exCap e then give s1 a else .drop (exInc s1 q 80 8) 0

/-- An end marker of generation g and source slot r (R328 rules 1 to 4); none while it is held. DEDUCED (log entry 19). -/
def endMark (s : State) (q g r : Nat) : State × Bool :=
  match enterRound (flushGroup s q) q g with
  | .held s1 => (s1, false)
  | .stale => (exInc (flushGroup s q) q 96 8, true)
  | .current s1 =>
    let m := exGet s1 q 72 8
    let m1 := if Nat.testBit m r then m else m + 2 ^ r
    let s2 := exPut s1 q 72 8 m1
    let n := exSrc (queue s2 q).entry
    (if m1 % 2 ^ n = 2 ^ n - 1 then closeRound s2 q else s2, true)

/-- A DISPATCH message is delivered (R323, R328, R329); held back while its choice is. The source slot stands in ADDR [17:12]. -/
def dispatchMessage (s : State) (x p : Nat) (m : Msg) : State × Bool :=
  if m.first then
    let t := m.data.take 16
    let q := m.addr % 4096
    if !takesChoices s p q then (setCont (sendNotice s x p 3 t) x p m none, true)
    else match admitRow s q (tagGen t) (nfld (m.addr / 4096) 5 0) with
      | .held s1 => (s1, false)
      | .drop s1 reason => (setCont (sendNotice s1 x p reason t) x p m none, true)
      | .slot s1 k =>
        let e := (queue s q).entry
        let a := exRow e + k * exRowLen e
        let t1 := t.take 8 ++ toBytes 6 a ++ toBytes 2 0
        let row := (m.data.drop 16).take (exRowLen e)
        let s2 := iodTouch { s1 with mem := writeBytes (writeBytes s1.mem (exTag e + k * 16) t1) a row } x (rangeLines a row.length) true
        (setCont s2 x p m (if m.last then none else some (a + row.length, toBytes 6 (a + exRowLen e))), true)
  else
    (match (landCtx s x p m).bind (fun l => l.cont) with
      | none => s
      | some (a, lim) =>
        let row := m.data.take (leAt lim 0 6 - a)
        setCont (iodTouch { s with mem := writeBytes s.mem a row } x (rangeLines a row.length) true) x p m (if m.last then none else some (a + row.length, lim)), true)

/-- DISPATCH_MESSAGE. -/
def execDispatchMessage (die which : Nat) (s : State) : Host.Outcome State Fault Refusal :=
  .next (streamRow s die 5 which (fun s q m => dispatchMessage s die q m))

/-- END_MARK_MESSAGE (R328). An end marker for a queue that takes no choices is discarded. -/
def execEndMarkMessage (die which : Nat) (s : State) : Host.Outcome State Fault Refusal :=
  .next (streamRow s die 6 which (fun s p m =>
    let q := m.addr % 4096
    if !takesChoices s p q then (s, true) else endMark s q (leAt m.data 0 2) (leAt m.data 2 1 % 64)))

end Sys2Proof.Machine
end

