-- ==== Sys2Proof/Machine/Checker.lean ====
section
/-! DEFINITION. Sampled duplicate execution (R447-R450): the comparison, the rotation of the checker role, DUP_CFG. -/

namespace Sys2Proof.Machine

/-- ROT_SHIFT in effect (Table 19-8). -/
def rotShift (k : Cluster) : Nat := max 16 (min 36 (fld k.dupCfg 23 16))

/-- CHECKER_ROTATE (R447, R463): a rotation point of an ACTIVE partition is reached, where the next one is set by ROT_SHIFT as it
now stands, or a role that waits for a free core finds one. -/
def checkerRotate (s : State) (g : Nat) : State :=
  let k := cluster s g
  let due := clusterActive s g && decide (k.rotateAt ≤ now s)
  tryRotate (if due then
    setCluster s g { k with rotateDue := k.rotateDue || (bit k.dupCfg 30 && k.checker.isSome), rotateAt := now s + 2 ^ rotShift k }
    else s) g

/-- CHECKER_ROTATE. -/
def execCheckerRotate (cluster : Nat) (s : State) : Host.Outcome State Fault Refusal := .next (checkerRotate s cluster)

/-- What follows the end of a sample: a checker that is stopping stops and passes the role on, the next waiting core is served, a checker
whose duplicates are off leaves the role, a waiting rotation takes place. -/
def afterSample (s : State) (g : Nat) : State :=
  let s1 := match (cluster s g).checker with
    | some i => settleStop s (16 * g + i)
    | none => s
  let s3 := nextSample s1 g
  let k := cluster s3 g
  if !bit k.dupCfg 31 && k.sample.isNone then dropRole s3 g else if k.checker.isSome then tryRotate s3 g else s3

/-- The tiles differ (R450). -/
def dupMismatch (s : State) (g i : Nat) (x : Sample) : State :=
  let m := 16 * g + i
  let s1 := raiseEvt (stopCore s x.core 0x0254 0 0) (pgCluster g) 10
  let s2 := recordErr s1 (pgCore m) 0x0255 0 0
  let s3 := modCore s2 m (fun c => { c with checker := false, state := .stopped, stopping := none, hold := none })
  let s4 := modCluster s3 g (fun k => { k with checker := none })
  let s5 := issueBlotter s4 { coreBlotter s4 4 0x0254 2 x.core with peer := m, insn := x.word.toNat, pcAt := x.pc }
  nextSample (settleFull (passRole s5 g (i + 1))) g

/-- Does the tile the checker forms differ from the tile the sampled core wrote, in the columns written (R449)? A fault in either core is
the command's operand. -/
def tilesDiffer (x : Sample) (mismatch : Bool) : Bool :=
  mismatch || (!x.reads.isEmpty && !x.tile.isEmpty && !tilesAgree (fld x.word 5 2) (checkerTile x) x.tile)

/-- DUP_COMPARE (R450): the checker's tile is compared with the tile the sampled core has written. DEDUCED (log entry 27). -/
def dupCompare (s : State) (g : Nat) (mismatch : Bool) : State :=
  let k := cluster s g
  match k.checker, k.sample with
  | some i, some x =>
    if !x.written then s
    else
      let s1 := setCluster s g { k with sample := none, dupSamples := k.dupSamples + 1 }
      if tilesDiffer x mismatch then dupMismatch s1 g i x else afterSample s1 g
  | _, _ => s

/-- DUP_COMPARE. -/
def execDupCompare (cluster : Nat) (mismatch : Bool) (s : State) : Host.Outcome State Fault Refusal :=
  .next (dupCompare s cluster mismatch)

/-- A write of DUP_CFG (R447, R463). -/
def dupCfgWrite (s : State) (g : Nat) (v : W32) : State :=
  let k := cluster s g
  let v1 := setFld (setFld v 29 24 0) 15 4 0
  let s1 := settleFull (setCluster s g { k with dupCfg := v1 })
  if bit v1 31 && k.checker.isNone then passRole s1 g 0
  else if !bit v1 31 && k.sample.isNone then dropRole s1 g
  else s1

end Sys2Proof.Machine
end

