-- ==== Sys2Proof/Machine/Records.lean ====
section
/-! DEFINITION. The records that end on a core or at an Atomizer, and what the queue engine does with a consumer's report:
UPDATE (R404-R420), COMBINE (R336-R338), TEST (R434, R435), DISPATCH (R321-R323), completion and failure (R259, R260). -/

namespace Sys2Proof.Machine

/-! ### Records the queue engine starts or executes -/

/-- A record read from a queue's prefetch (R451, R453): a corrected error is counted in ERR_COUNT of the queue engine's page; one that
cannot be corrected is QE_PARITY, class 9, and resets the queue's partition. DESIGN CHOICE (log entry 66). -/
def prefetchRead (s : State) (q : Nat) (e : Ecc) (take : State → State) : State :=
  match e with
  | .clean => take s
  | .corrected =>
    if (nextRec s q).isNone then s
    else take (correctedBlotter (countCorrected s (pgQueue q)) (pgQueue q) { blank 1 0 4 0 (q / 128) with partition := partOfCore s q })
  | .uncorrectable =>
    match nextRec s q with
    | none => s
    | some (i, _) => resetByFault (queueErr s q 0x040A 0 i) (partOfCore s q) { blank 9 0x040A 4 3 (q / 128) with infoLo := q, infoHi := i }

/-- TILE_RUN (R267). -/
def execTileRun (queue : Nat) (ecc : Ecc) (s : State) : Host.Outcome State Fault Refusal :=
  .next (prefetchRead s queue ecc (fun s => tileRun s queue))
/-- FENCE (R264). -/
def execFenceRecord (queue : Nat) (s : State) : Host.Outcome State Fault Refusal := .next (fenceRecord s queue)
/-- WAIT_COUNT (R264). -/
def execWaitCount (queue : Nat) (s : State) : Host.Outcome State Fault Refusal := .next (waitCount s queue)
/-- LAUNCH_AT record (R264). -/
def execLaunchAtRecord (queue : Nat) (s : State) : Host.Outcome State Fault Refusal := .next (launchRecord s queue)
/-- SIGNAL, KIND ADD (R265). -/
def execSignalAdd (queue : Nat) (s : State) : Host.Outcome State Fault Refusal := .next (signalAdd s queue)
/-- SIGNAL, KIND SEQ_WRITE (R265). -/
def execSeqWrite (queue : Nat) (s : State) : Host.Outcome State Fault Refusal := .next (seqWrite s queue)
/-- SCHED_AGING (R269). -/
def execSchedAging (queue : Nat) (s : State) : Host.Outcome State Fault Refusal := .next (schedAging s queue)
/-- A record of a reserved OPCLASS (R256). -/
def execReservedOpclassRecord (queue : Nat) (s : State) : Host.Outcome State Fault Refusal := .next (reservedClass s queue)
/-- PROGRAM_LOAD_DONE (R267). -/
def execProgramLoadDone (core : Nat) (ecc : List (Nat × Ecc)) (s : State) : Host.Outcome State Fault Refusal :=
  .next (programLoadDone s core ecc)

/-! ### A record that runs on a core in place of a tile program -/

/-- Is core n running a record of queue q and class c that has launched? DEDUCED (log entry 38). -/
def jobRuns (s : State) (n q c : Nat) : Bool :=
  let k := core s n
  match k.run, k.job with
  | some r, some _ => r.queue == q && r.cls == c && decide (k.state = .running) && k.startAt.isNone && k.hold.isNone
      && !k.starting && k.stopping.isNone
  | _, _ => false

/-- Registers V0-V31 become undefined (R338). DEDUCED (log entry 21). -/
def loseV (s : State) (n : Nat) : State :=
  bumpFree (modCore s n (fun c => { c with v := (List.range 32).map (fun i => (i, Config.freeV s.freeCtr i)) }))

/-- The registers and scratchpad bytes the record uses become undefined (R338). DEDUCED (log entry 21). -/
def loseJob (s : State) (n : Nat) : State :=
  loseV { s with mem := loseRange s.mem (coreAddr n 0x2C000) 0x4000 s.freeCtr } n

/-- The record's work is done: the core is IDLE, takes the checker role where it waits, and reports completion (R259, R338). -/
def endJob (s : State) (n : Nat) : State :=
  let s1 := loseJob s n
  let c := core s1 n
  let s2 := setCore s1 n (startHold s1 n { c with run := none, job := none, state := .idle })
  tryRotate (match c.run with
    | some r => report s2 r 0 0
    | none => s2) (n / 16)

/-- The outputs of a tainted record that it has written so far, be it before the remote write, are undefined (R338). DEDUCED (log entry 21). -/
def taintOut (s : State) (n lo len : Nat) : State :=
  match (core s n).job with
  | some j => if j.tainted then bumpFree { s with mem := loseRange s.mem lo len s.freeCtr } else s
  | none => s

/-! ### COMBINE (R336-R338) -/

/-- Bytes of an element of a COMBINE type (Table 14-7). -/
def cbSize (t : Nat) : Nat := if t = 0 then 4 else 2
/-- ELEMS. -/
def cbElems (b : List Byte) : Nat := leAt b 22 2
/-- Tokens. -/
def cbTokens (b : List Byte) : Nat := leAt b 28 2 + 1
/-- First token. -/
def cbFirst (b : List Byte) : Nat := leAt b 24 2
/-- RET_TYPE, IN_TYPE, OUT_TYPE. -/
def cbType (b : List Byte) (i : Nat) : Nat := nfld (leAt b 27 1) (2 * i + 1) (2 * i)
/-- ADD_IN. -/
def cbAdd (b : List Byte) : Bool := Nat.testBit (leAt b 26 1) 6
/-- NCH. -/
def cbNch (b : List Byte) : Nat := leAt b 30 1
/-- Bytes of a return slot. -/
def cbSlot (b : List Byte) : Nat := (leAt b 31 1 + 1) * 64
/-- CHOICE_ADDR. -/
def cbChoice (b : List Byte) : Nat := leAt b 16 6
/-- RET_BASE. -/
def cbRet (b : List Byte) : Nat := leAt b 32 6
/-- IN_BASE. -/
def cbIn (b : List Byte) : Nat := leAt b 38 6
/-- OUT_BASE. -/
def cbOut (b : List Byte) : Nat := leAt b 44 6
/-- Bytes of a row of a type. -/
def cbRow (b : List Byte) (t : Nat) : Nat := cbElems b * cbSize t

/-- Does the body break Table 14-7? DEDUCED (log entry 21). -/
def combineBad (b : List Byte) : Bool :=
  let e := cbElems b
  cbChoice b % 64 != 0 || decide (2 ^ 14 ≤ e) || decide (e < 32) || decide (8192 < e) || e % 32 != 0 || nfld (leAt b 26 1) 5 4 != 0
    || decide (64 ≤ leAt b 27 1) || decide (1 < cbType b 0) || decide (1 < cbType b 1) || decide (1 < cbType b 2)
    || decide (65536 < cbFirst b + cbTokens b) || decide (cbNch b < 1) || decide (8 < cbNch b)
    || decide (cbSlot b < cbRow b (cbType b 0)) || (!cbAdd b && cbIn b != 0) || !recZero b 50 64

/-- Spans a COMBINE touches: lowest address and bytes. -/
def combineSpans (b : List Byte) : List (Nat × Nat) :=
  let f := cbFirst b
  let k := cbTokens b
  [(cbChoice b + f * 64, k * 64), (cbRet b + f * cbNch b * cbSlot b, k * cbNch b * cbSlot b)]
    ++ (if cbAdd b then [(cbIn b + f * cbRow b (cbType b 1), k * cbRow b (cbType b 1))] else [])
    ++ [(cbOut b + f * cbRow b (cbType b 2), k * cbRow b (cbType b 2))]

/-- R24's code of the first span of partition p that is not HBM of the partition. -/
def spansErr (s : State) (p : Nat) (l : List (Nat × Nat)) : Option Nat :=
  match l.find? (fun x => !inHbm s p x.1 x.2) with
  | some x => some ((addrErr s p x.1).getD ((addrErr s p (x.1 + x.2 - 1)).getD 0x0101))
  | none => none

/-- One element of a token's output before conversion (R337): the choices' weights and values in rank order. -/
def combineSum : Option Nat → List (Nat × Nat) → Option Nat
  | v, [] => v
  | none, (w, r) :: rest => combineSum (some (mul32 w r)) rest
  | some v, (w, r) :: rest => combineSum (some (fma32 w r v)) rest

/-- Output row of token t (R337). -/
def combineRow (m : Mem) (b : List Byte) (t : Nat) : List Byte :=
  let ch := (List.range (cbNch b)).map (fun j => (j, readLe m (cbChoice b + t * 64 + 8 * j) 8))
  let live := ch.filter (fun c => !Nat.testBit c.2 16)
  let rt := cbType b 0
  let it := cbType b 1
  let ot := cbType b 2
  let rows := live.map (fun c => (c.2 / 2 ^ 32, readBytes m (cbRet b + (t * cbNch b + c.1) * cbSlot b) (cbRow b rt)))
  let inRow := if cbAdd b then readBytes m (cbIn b + t * cbRow b it) (cbRow b it) else []
  (List.range (cbElems b)).foldr (fun i acc =>
    let v0 := if cbAdd b then some (widen it (leAt inRow (i * cbSize it) (cbSize it)) 0) else none
    let v := combineSum v0 (rows.map (fun r => (r.1, widen rt (leAt r.2 (i * cbSize rt) (cbSize rt)) 0)))
    toBytes (cbSize ot) (narrow ot (dec32 (v.getD 0))) ++ acc) []

/-- Tokens i to i + k - 1 of the record are formed. -/
def combineTokens (s : State) (n : Nat) (b : List Byte) (i : Nat) : Nat → State
  | 0 => s
  | k + 1 =>
    let t := cbFirst b + i
    let a := cbOut b + t * cbRow b (cbType b 2)
    combineTokens { s with mem := writeBytes s.mem a (combineRow s.mem b t) } n b (i + 1) k

/-- Mark a record's work as begun, with its descriptor and its gradient; what it uses is undefined from here on (R338). -/
def beginJob (s : State) (n : Nat) (d g : List Byte) : State :=
  modCore (loseJob s n) n (fun c => { c with job := c.job.map (fun j => { j with begun := true, desc := d, grad := g }) })

/-- Count the tokens or blocks done. -/
def jobDone (s : State) (n k : Nat) : State :=
  modCore s n (fun c => { c with job := c.job.map (fun j => { j with done := j.done + k }) })

/-- Lines of HBM that k tokens from the i-th on read: choices, return slots and rows added. -/
def combineReads (b : List Byte) (i k : Nat) : List Nat :=
  let f := cbFirst b + i
  rangeLines (cbChoice b + f * 64) (k * 64) ++ rangeLines (cbRet b + f * cbNch b * cbSlot b) (k * cbNch b * cbSlot b)
    ++ (if cbAdd b then rangeLines (cbIn b + f * cbRow b (cbType b 1)) (k * cbRow b (cbType b 1)) else [])

/-- A COMBINE on core n takes its checks, then `count` tokens; after the last it ends. DEDUCED (log entry 21). -/
def combineWork (s : State) (n count : Nat) : State :=
  match (core s n).job with
  | none => s
  | some j =>
    let b := j.bytes
    if !j.begun && combineBad b then stopCore s n 0x0250 0 0
    else match (if j.begun then none else spansErr s (partOfCore s n) (combineSpans b)) with
      | some code => stopCore s n code 0 0
      | none =>
        let s0 := if j.begun then s else beginJob s n [] []
        let k := min count (cbTokens b - j.done)
        let out := cbOut b + cbFirst b * cbRow b (cbType b 2)
        let s1 := coreHbm (coreHbm s0 n (combineReads b j.done k) false) n (rangeLines (out + j.done * cbRow b (cbType b 2)) (k * cbRow b (cbType b 2))) true
        let s2 := taintOut (jobDone (combineTokens s1 n b j.done k) n k) n out ((j.done + k) * cbRow b (cbType b 2))
        if j.done + k = cbTokens b then endJob s2 n else s2

/-- COMBINE (R337): a record of the queue starts on its core, or the core that runs one forms further tokens. -/
def execCombine (queue core count : Nat) (s : State) : Host.Outcome State Fault Refusal :=
  .next (if jobRuns s core queue 6 then combineWork s core count else coreRecRow s queue 6)

/-! ### UPDATE (R404-R420) -/

/-- SHARD_ADDR. -/
def upShard (b : List Byte) : Nat := leAt b 16 6
/-- BLK_FIRST. -/
def upFirst (b : List Byte) : Nat := leAt b 22 4
/-- BLK_COUNT. -/
def upCount (b : List Byte) : Nat := leAt b 28 4
/-- ADVANCE. -/
def upAdvance (b : List Byte) : Bool := Nat.testBit (leAt b 26 1) 6
/-- A 64-bit address of the shard descriptor: MASTER 0, MASTER_SC 1, AVG 2, AVG_SC 3, GRAD 4, WORK 5 (Table 17-1). -/
def sdAddr (d : List Byte) (i : Nat) : Nat := leAt d (8 * i) 8
/-- NBLK. -/
def sdBlk (d : List Byte) : Nat := leAt d 0x30 4
/-- SFLAGS. -/
def sdFlag (d : List Byte) (i : Nat) : Bool := Nat.testBit (leAt d 0x34 4) i
/-- STEP. -/
def sdStep (d : List Byte) : Nat := leAt d 0x38 8
/-- LR, BETA, EPS, DECAY, GSCALE by number. -/
def sdNum (d : List Byte) (i : Nat) : Nat := leAt d (0x40 + 4 * i) 4
/-- SR_SEED. -/
def sdSeed (d : List Byte) : Nat := leAt d 0x60 8

/-- Check 1 of Table 17-3 on the body. -/
def upBodyBad (b : List Byte) : Bool :=
  upShard b % 128 != 0 || nfld (leAt b 26 1) 5 4 != 0 || leAt b 27 1 != 0 || !recZero b 32 64

/-- Check 1 on the descriptor. -/
def upDescBad (d : List Byte) : Bool :=
  decide (2 ^ 48 ≤ sdAddr d 0) || decide (256 ≤ leAt d 0x34 4) || nfld (leAt d 0x34 4) 1 0 != 0 || leAt d 0x54 4 != 0 || !recZero d 0x68 0x80

/-- Check 2. -/
def upRangeBad (b d : List Byte) : Bool :=
  sdBlk d == 0 || upCount b == 0 || decide (sdBlk d < upFirst b + upCount b) || sdStep d == 2 ^ 64 - 1

/-- Spans of the shard's tensors. -/
def upSpans (d : List Byte) : List (Nat × Nat) :=
  let n := sdBlk d
  [(sdAddr d 0, 64 * n), (sdAddr d 1, n), (sdAddr d 2, 64 * n), (sdAddr d 3, n),
   (sdAddr d 4, if sdFlag d 2 then 64 * n else 128 * n)] ++ (if sdFlag d 5 then [(sdAddr d 5, 64 * n)] else [])

/-- Check 3. -/
def upAlignBad (d : List Byte) : Bool :=
  sdAddr d 0 % 64 != 0 || sdAddr d 2 % 64 != 0 || sdAddr d 4 % 64 != 0 || sdAddr d 5 % 64 != 0 || (!sdFlag d 5 && sdAddr d 5 != 0)

/-- Check 4. -/
def upNumBad (d : List Byte) : Bool :=
  let v := fun i => dec32 (sdNum d i)
  fisNan (v 1) || flt (v 1) fZero || !flt (v 1) (dec32 0x3F800000) || !fisFin (v 0) || !fisFin (v 2) || !fisFin (v 3) || !fisFin (v 4)
    || (sdFlag d 6 && !flt fZero (v 2))

/-- Do two spans share a byte? -/
def bytesMeet (x y : Nat × Nat) : Bool := decide (x.1 < y.1 + y.2) && decide (y.1 < x.1 + x.2)

/-- Do any two spans of a list share a byte? -/
def anyMeet : List (Nat × Nat) → Bool
  | [] => false
  | x :: r => r.any (bytesMeet x) || anyMeet r

/-- What the checks of Table 17-3 find: a code and its ERR_INFO_LO, the frozen case, or nothing. -/
inductive UpCheck where
  | bad (code lo : Nat)
  | frozen
  | good
  deriving DecidableEq, Repr

/-- The checks of Table 17-3 in order (R406). DEDUCED (log entry 21). -/
def upCheck (s : State) (p : Nat) (b d : List Byte) : UpCheck :=
  if upBodyBad b then .bad 0x0251 1
  else match spansErr s p [(upShard b, 128)] with
    | some code => .bad code 0
    | none =>
      if upDescBad d then .bad 0x0251 1
      else if upRangeBad b d then .bad 0x0251 2
      else if sdFlag d 7 then .frozen
      else match spansErr s p (upSpans d) with
        | some code => .bad code 0
        | none => if upAlignBad d then .bad 0x0251 3 else if upNumBad d then .bad 0x0251 4
            else if anyMeet (upSpans d) then .bad 0x0251 5 else .good

/-- The constants of R410: a, ld, r. -/
structure UpConst where
  a : Nat
  ld : Nat
  r : Nat
  deriving DecidableEq, Repr

/-- R410, for step count t. -/
def upConst (d : List Byte) (t : Nat) : UpConst :=
  let beta := sdNum d 1
  let p := vexp2 (mul32 (enc32 (.fin false t 0)) (vlog2 beta))
  { a := sub32 0x3F800000 beta, ld := mul32 (sdNum d 0) (sdNum d 3), r := if p = 0 then 0x3F800000 else vrcp (sub32 0x3F800000 p) }

/-- FP32 values of a stored SB32 block (R41). -/
def sbRead (bs : List Byte) (sc : Nat) : List Nat := (List.range 32).map (fun i => enc32 (decSb (leAt bs (2 * i) 2) sc))

/-- An SB32 block of FP32 values from element index n0 on, rounded stochastically when sr is set (R42, R412). -/
def sbStore (xs : List Nat) (sr : Bool) (seed stream n0 : Nat) : Nat × List Byte :=
  let r := sbBlock (xs.map dec32) (mapIx (fun i _ => if sr then some (srBits seed stream (n0 + i)) else none) 0 xs)
  (r.1, r.2.foldr (fun q acc => toBytes 2 q ++ acc) [])

/-- Bytes of a block of the gradient. -/
def gradSize (d : List Byte) : Nat := if sdFlag d 2 then 64 else 128

/-- The stores of block k of a shard with step count t and the block's gradient; none when R413 skips it. -/
def updBlock (m : Mem) (d gr : List Byte) (t k : Nat) : Option (List (Nat × List Byte)) :=
  let c := upConst d t
  let lr := sdNum d 0
  let g := (List.range 32).map (fun i =>
    if sdFlag d 2 then widen 1 (leAt gr (2 * i) 2) 0 else enc32 (dec32 (leAt gr (4 * i) 4)))
  let gs := g.map (fun x => mul32 x (sdNum d 4))
  if gs.any (fun x => !fisFin (dec32 x)) then none
  else
    let w := sbRead (readBytes m (sdAddr d 0 + 64 * k) 64) (readLe m (sdAddr d 1 + k) 1)
    let mv := if sdStep d = 0 then List.replicate 32 0 else sbRead (readBytes m (sdAddr d 2 + 64 * k) 64) (readLe m (sdAddr d 3 + k) 1)
    let m1 := (gs.zip mv).map (fun x => fma32 c.a x.1 (mul32 (sdNum d 1) x.2))
    let st := sbStore m1 (sdFlag d 3) (sdSeed d ^^^ 2 ^ 63) (t % 2 ^ 32) (32 * k)
    let mh := (sbRead st.2 st.1).map (fun x => mul32 x c.r)
    let ss := tree32 0 (mh.map (fun x => mul32 x x))
    let rho := sqrt32 (mul32 ss (pow32 (-5)))
    let kk := if sdFlag d 6 then div32 lr (add32 rho (sdNum d 2)) else lr
    let w1 := w.map (fun x => fma32 (neg32 c.ld) x x)
    let w2 := (w1.zip mh).map (fun x => fma32 (neg32 kk) x.2 x.1)
    let sw := sbStore w2 (sdFlag d 4) (sdSeed d) (t % 2 ^ 32) (32 * k)
    let w3 := sbRead sw.2 sw.1
    some ([(sdAddr d 2 + 64 * k, st.2), (sdAddr d 3 + k, toBytes 1 st.1), (sdAddr d 0 + 64 * k, sw.2), (sdAddr d 1 + k, toBytes 1 sw.1)]
      ++ (if sdFlag d 5 then [(sdAddr d 5 + 64 * k, w3.foldr (fun x acc => toBytes 2 (enc16b (dec32 x)) ++ acc) [])] else []))

/-- Blocks k onward, `cnt` of them, are updated on core n with the gradient from block k on (R411-R413, R419). DEDUCED (log entry 21). -/
def updBlocks (s : State) (n : Nat) (d gr : List Byte) (k : Nat) : Nat → State
  | 0 => s
  | cnt + 1 =>
    let g := n / 16
    let s1 := match updBlock s.mem d (gr.take (gradSize d)) (sdStep d + 1) k with
      | none => raiseEvt (modCluster s g (fun c => { c with updNonfinite := c.updNonfinite + 1 })) (pgCluster g) 8
      | some ws =>
        let s2 := modCluster { s with mem := ws.foldl (fun m x => writeBytes m x.1 x.2) s.mem } g (fun c => { c with updBlocks := c.updBlocks + 1 })
        coreHbm s2 n (ws.foldr (fun x acc => rangeLines x.1 x.2.length ++ acc) []) true
    updBlocks s1 n d (gr.drop (gradSize d)) (k + 1) cnt

/-- What the tensors of blocks k onward hold, cnt of them, of which the record reads master and average: first addresses and bytes. -/
def updRanges (d : List Byte) (k cnt : Nat) : List (Nat × Nat) :=
  [(sdAddr d 0 + 64 * k, 64 * cnt), (sdAddr d 1 + k, cnt), (sdAddr d 2 + 64 * k, 64 * cnt), (sdAddr d 3 + k, cnt)]

/-- The outputs of a tainted record so far: master, average, and the working copy. -/
def updTaint (s : State) (n : Nat) (d : List Byte) (k cnt : Nat) : State :=
  (updRanges d k cnt ++ (if sdFlag d 5 then [(sdAddr d 5 + 64 * k, 64 * cnt)] else [])).foldl (fun s x => taintOut s n x.1 x.2) s

/-- A frozen shard (R407). -/
def updFrozen (s : State) (n : Nat) (b d : List Byte) : State :=
  let s1 := modCluster s (n / 16) (fun c => { c with updFrozen := c.updFrozen + 1 })
  endJob (if upAdvance b then { s1 with mem := writeLe s1.mem (upShard b + 0x58) 8 (leAt d 0x58 8 + 1) } else s1) n

/-- An UPDATE on core n takes its checks, then `count` blocks; after the last, STEP is written with ADVANCE and it ends (R408). DEDUCED (log entry 21). -/
def updateWork (s : State) (n count : Nat) : State :=
  match (core s n).job with
  | none => s
  | some j =>
    let b := j.bytes
    let d := if j.begun then j.desc else readBytes s.mem (upShard b) 128
    match (if j.begun then .good else upCheck s (partOfCore s n) b d) with
    | .bad code lo => stopCore s n code lo 0
    | .frozen => updFrozen s n b d
    | .good =>
      let gr := if j.begun then j.grad else readBytes s.mem (sdAddr d 4 + gradSize d * upFirst b) (gradSize d * upCount b)
      let s0 := if j.begun then s
        else coreHbm (beginJob s n d gr) n (rangeLines (upShard b) 128 ++ rangeLines (sdAddr d 4 + gradSize d * upFirst b) gr.length) false
      let k := min count (upCount b - j.done)
      let s1 := coreHbm s0 n ((updRanges d (upFirst b + j.done) k).foldr (fun x acc => rangeLines x.1 x.2 ++ acc) []) false
      let s2 := updTaint (jobDone (updBlocks s1 n d (gr.drop (gradSize d * j.done)) (upFirst b + j.done) k) n k) n d (upFirst b) (j.done + k)
      if j.done + k = upCount b then
        endJob (if upAdvance b then { s2 with mem := writeLe s2.mem (upShard b + 0x38) 8 (sdStep d + 1) } else s2) n
      else s2

/-- UPDATE (R406): a record of the queue starts on its core, or the core that runs one updates further blocks. -/
def execUpdate (queue core count : Nat) (s : State) : Host.Outcome State Fault Refusal :=
  .next (if jobRuns s core queue 4 then updateWork s core count else coreRecRow s queue 4)

/-! ### TEST (R434, R435) -/

/-- TEST: the record starts on its sleeping core, which wakes into TESTING. -/
def execTest (queue : Nat) (s : State) : Host.Outcome State Fault Refusal := .next (coreRecRow s queue 0xB)

/-- A core after a TEST: counters and handles clear, no program (R93, R267); the wait targets and steps, which the rule does not name, clear
with the counters they belong to. DEDUCED (log entry 21). -/
def testedCore (c : Core) : Core :=
  { c with ctr := [], tgt := [], stp := [], handles := [], slots := [], prog := [], progLen := 0, progAddr := 0, job := none, run := none,
           hold := none, starting := false, startAt := none, loading := false }

/-- The 64-byte result of a TEST (R435). -/
def testResult (n : Nat) (failing : Option Nat) (from_ to_ : Nat) : List Byte :=
  toBytes 2 n ++ toBytes 1 (b2n failing.isNone) ++ toBytes 1 (failing.getD 0xFF) ++ toBytes 4 0 ++ toBytes 8 from_ ++ toBytes 8 to_
    ++ List.replicate 40 0

/-- A TEST ends on core n (R435); `failing` is the first failing part, one of the selected parts. A core that returns to ASLEEP is counted
in SLEEPS (R297). DEDUCED (log entry 21). -/
def testComplete (s : State) (n : Nat) (failing : Option Nat) : State :=
  let c := core s n
  match c.run, c.job with
  | some r, some j =>
    let b := j.bytes
    let okPart := match failing with
      | none => true
      | some k => decide (k < 6) && Nat.testBit (leAt b 16 2) k
    if r.cls ≠ 0xB ∨ c.state ≠ .testing ∨ !okPart then s
    else
      let a := localCopy s (n / 16)
      let s1 := setCore { s with mem := clearRange s.mem (coreAddr n 0) 0x40000 } n
        { testedCore c with state := if failing.isNone then .asleep else .stopped, sleepSince := now s }
      let f := leAt b 19 1
      let s2 := if Nat.testBit f 1 then
          coreHbm { s1 with mem := writeBytes s1.mem (leAt b 28 6) (testResult n failing j.at_ a) } n [leAt b 28 6] true else s1
      let s3 := if Nat.testBit f 0 then selAdd s2 n (pgCore n) (leAt b 20 4) 1 else s2
      match failing with
      | none => report (modCluster s3 (n / 16) (fun k => { k with sleeps := k.sleeps + 1 })) r 0 0
      | some k =>
        let s4 := recordErr s3 (pgCore n) 0x0252 k 0
        report (issueBlotter s4 (coreBlotter s4 6 0x0252 2 n)) r 0x0252 0
  | _, _ => s

/-- TEST_COMPLETE. -/
def execTestComplete (core : Nat) (failing : Option Nat) (s : State) : Host.Outcome State Fault Refusal :=
  .next (testComplete s core failing)

/-! ### DISPATCH (R321-R323) -/

/-- Expert map entry of an expert ID, 0 outside the layer. -/
def mapEntry (s : State) (b : List Byte) (e : Nat) : Nat :=
  if dpLo b ≤ e ∧ e < dpLo b + dpN b then readLe s.mem (dpMap b + 4 * e) 4 else 0

/-- Put back the DISPATCH an Atomizer runs. DEDUCED (log entry 19). -/
def putDisp (s : State) (x : Nat) (d : Disp) : State := modAtom s x (fun a => { a with disps := [d] })

/-- The DISPATCH ends with a report. -/
def endDisp (s : State) (x : Nat) (d : Disp) (code : Nat) : State :=
  report (modAtom s x (fun a => { a with disps := [] })) { queue := d.queue, index := d.index, cls := 5 } code 0

/-- An admitted local choice: its tag, with the token's own row (R323). -/
def localTag (s : State) (q k : Nat) (t : List Byte) : State :=
  { s with mem := writeBytes s.mem (exTag (queue s q).entry + k * 16) t }

/-- The destination I/O die that DST of a DISPATCH or END_MARK names (Table 15-6): the destination's landing die, which it chooses itself
(R365), and no field tells the dispatcher; any one. DEDUCED (log entry 46). -/
def anyIod (s : State) : Nat := Config.pick s.freeCtr 2 % 4

/-- One choice is dispatched (R323 steps 1 to 3); the flag says that it is held with back-pressure. DEDUCED (log entry 19). -/
def dispatchChoice (s : State) (x p : Nat) (b : List Byte) (k : Nat) : State × Bool :=
  let t := k / dpNch b
  let j := k % dpNch b
  let row := dpRow b + t * dpRowLen b
  let tag := mkTag (srcField s x p) (dpCtx b) j (dpGen b) t row
  let m := mapEntry s b (readLe s.mem (dpChoice b + t * 64 + 8 * j) 4 % 4096)
  let q := nfld m 23 12
  let sent := fun (s : State) => modAtom s x (fun a => { a with dispatched := a.dispatched + 1 })
  if !Nat.testBit m 31 then (applyDrop s x p 2 tag, false)
  else if m % 4096 = (part s p).moduleId.toNat then
    if !takesChoices s p q then (applyDrop (sent s) x p 3 tag, false)
    else match admitRow s q (dpGen b) (dpSlot b) with
      | .held s1 => (s1, true)
      | .drop s1 reason => (applyDrop (sent s1) x p reason tag, false)
      | .slot s1 i => (localTag (sent s1) q i tag, false)
  else
    let msg := { blankMsg 3 5 (m % 4096 + 4096 * anyIod s) with addr := q + dpSlot b * 4096 }
    (sendMsgs (iodTouch (bumpFree (sent s)) x (rangeLines row (dpRowLen b)) false) x p (cutData msg (tag ++ readBytes s.mem row (dpRowLen b))), false)

/-- One end marker is sent, to expert e when its map entry is valid (R323 step 4); the flag says that it is held. -/
def dispatchMark (s : State) (x p : Nat) (b : List Byte) (e : Nat) : State × Bool :=
  let m := mapEntry s b e
  let q := nfld m 23 12
  if !Nat.testBit m 31 then (s, false)
  else if m % 4096 = (part s p).moduleId.toNat then
    if !takesChoices s p q then (s, false)
    else
      let r := endMark s q (dpGen b) (dpSlot b)
      (r.1, !r.2)
  else
    let msg := { blankMsg 3 6 (m % 4096 + 4096 * anyIod s) with addr := q + dpSlot b * 4096 }
    (sendMsgs (bumpFree s) x p (cutData msg (toBytes 2 (dpGen b) ++ toBytes 2 (dpSlot b))), false)

/-- A DISPATCH starts: its checks, then its return context opens (R322, R323). DEDUCED (log entry 46). -/
def startDisp (s : State) (x p : Nat) (d : Disp) : State :=
  let b := d.bytes
  match atomErr s x p b with
  | some code => endDisp (atomNote s x code (dpCtx b) 0 0 0) x d code
  | none =>
    let c : Ctx := { gen := dpGen b, retBase := dpRet b, choiceAddr := dpChoice b, nch := dpNch b, outLines := dpOutLen b / 64,
                     retCtr := dpCtr b, pend := dpTokens b * dpNch b, part := p }
    modAtom (putDisp s x { d with started := true }) x (fun a => { a with ctxs := sput a.ctxs (dpCtx b) c })

/-- Has every message that the Atomizer of die x gave to its streams been sent (R323)? -/
def dispSent (s : State) (x p : Nat) : Bool :=
  (iod s x).streams.all (fun t => t.part != p || t.vc != 3 || t.waiting.isEmpty)

/-- The Atomizer takes the next choice or end marker of the DISPATCH it runs; past the last one the record completes once every message
has been sent. -/
def stepDisp (s : State) (x p : Nat) (d : Disp) : State :=
  let b := d.bytes
  if d.next < dpTokens b * dpNch b then
    let r := dispatchChoice s x p b d.next
    if r.2 then r.1 else putDisp r.1 x { d with next := d.next + 1 }
  else if dpEnd b && decide (d.ends < dpN b) then
    let r := dispatchMark s x p b (dpLo b + d.ends)
    if r.2 then r.1 else putDisp r.1 x { d with ends := d.ends + 1 }
  else if dispSent s x p then endDisp s x d 0
  else s

/-- DISPATCH: the queue's next record goes to its idle Atomizer and starts, or the Atomizer goes on with the one it runs. -/
def dispatchRow (s : State) (q : Nat) : State :=
  let x := qTarget (queue s q)
  let p := qPart s q
  if qConsumer (queue s q) ≠ 3 then recRow s q (fun b => recCls b == 5) (fun s _ _ => s)
  else match (atom s x).disps with
  | d :: _ => if d.queue = q then stepDisp s x p d else s
  | [] =>
    recRow s q (fun b => recCls b == 5) (fun s i b =>
      if handPick s q (atom s x).lastQueue then
        startDisp (modAtom (putRec s q i b .running) x (fun a => { a with lastQueue := q })) x p
          { queue := q, index := i, bytes := b, started := false, next := 0, ends := 0 }
      else s)

/-- DISPATCH (R323). -/
def execDispatch (queue : Nat) (s : State) : Host.Outcome State Fault Refusal := .next (dispatchRow s queue)

/-! ### Completion and failure (R259, R260, R332) -/

/-- Slots a token record names. -/
def recSlots (b : List Byte) : List Nat := ((List.range 16).map (fun i => leAt b (32 + 2 * i) 2)).filter (fun k => k != 0xFFFF)

/-- Slots of a completed token record are handed to the Atomizer of RET_IOD for return, in ARGS order (R332). -/
def returnSlots (s : State) (q : Nat) (b : List Byte) : State :=
  let e := (queue s q).entry
  (recSlots b).foldl (fun s k =>
    sendReturn s (exIod e) (qPart s q) (readBytes s.mem (exTag e + k * 16) 16) (readBytes s.mem (exOut e + k * exOutLen e) (exOutLen e))) s

/-- EXPERT_FAILED notices for the slots of a token record that failed or is skipped (R332). DEDUCED (log entry 19). -/
def noticeSlots (s : State) (q : Nat) (b : List Byte) : State :=
  let e := (queue s q).entry
  (recSlots b).foldl (fun s k => sendNotice s (exIod e) (qPart s q) 4 (readBytes s.mem (exTag e + k * 16) 16)) s

/-- Take the first report of a queue that is a completion (fail false) or a failure. -/
def takeReport (s : State) (q : Nat) (fail : Bool) : Option (Report × State) :=
  match s.reports.findIdx? (fun r => r.queue == q && (r.code != 0) == fail) with
  | none => none
  | some i => (s.reports[i]?).map (fun r => (r, { s with reports := s.reports.eraseIdx i }))

/-- Bytes of a started record. -/
def recBytes (s : State) (q i : Nat) : List Byte := (((queue s q).recs.find? (fun r => r.index == i)).map (·.bytes)).getD []

/-- Failure of a record: recorded; an expert queue that goes on sends its notices (R260, R332). -/
def failRecord (s : State) (q i code : Nat) : State :=
  let b := recBytes s q i
  let s1 := if qExpert (queue s q) && !qHaltOnErr (queue s q) then noticeSlots s q b else s
  flushGroup (recFailed s1 q i code) q

/-- RECORD_COMPLETE (R259, R267): the first completion reported for the queue. DEDUCED (log entry 39). -/
def recordComplete (s : State) (q : Nat) : State :=
  match takeReport s q false with
  | none => s
  | some (r, s1) =>
    let b := recBytes s1 q r.index
    let post := leAt b 30 2
    let v := BitVec.ofNat 64 (2 ^ 63 + fld r.g31 16 0)
    let t := post % 4096
    let refusal := if recCls b = 1 ∧ Nat.testBit post 15 then bellErr (queue s1 t) v 1 else none
    match refusal with
    | some code => failRecord (doorbell s1 t v 1) q r.index code
    | none =>
      let s2 := if recCls b = 1 ∧ Nat.testBit post 15 then doorbell s1 t v 1 else s1
      let s3 := if qExpert (queue s2 q) then returnSlots s2 q b else s2
      flushGroup (recDone s3 q r.index) q

/-- RECORD_COMPLETE. -/
def execRecordComplete (queue : Nat) (s : State) : Host.Outcome State Fault Refusal := .next (recordComplete s queue)

/-- RECORD_FAILED (R260): the first failure reported for the queue. -/
def recordFailed (s : State) (q : Nat) : State :=
  match takeReport s q true with
  | none => s
  | some (r, s1) => failRecord s1 q r.index r.code

/-- RECORD_FAILED. -/
def execRecordFailed (queue : Nat) (s : State) : Host.Outcome State Fault Refusal := .next (recordFailed s queue)

/-! ### Q_BIND (R249, R261, R327) -/

/-- SKIP: a halted token record of an expert queue sends its notices first (R261, R332). DEDUCED (log entry 37). -/
def bindSkip (s : State) (q : Nat) : State :=
  let x := queue s q
  match x.halted, x.recs with
  | true, r :: _ => flushGroup (skipHead (if qExpert x then noticeSlots s q r.bytes else s) q) q
  | _, _ => s

/-- ENABLE 1 on a queue with the binding `y`: halted, its record runs again; otherwise the checks of R249 and R327 refuse the
write or the binding is on. DEDUCED (log entry 37). -/
def bindEnable (s : State) (q : Nat) (y : W32) : State :=
  let x := queue s q
  let s1 := setQueue s q { x with bind := y ||| 0x80000000 }
  let e := readBytes s.mem (expEntry s q) 256
  if x.halted then rerunHead s1 q
  else if bindBad s1 q (queue s1 q) then queueErr s q 0x0407 0 x.head.toNat
  else if qProducer (queue s1 q) = 2 then
    if expertBad s1 q e then queueErr s q 0x0409 0 x.head.toNat
    else modQueue { s1 with mem := writeBytes s1.mem (expEntry s q + 64) (List.replicate 192 0) } q
      (fun x => { x with entry := e.take 64, group := [], heldGen := none })
  else s1

/-- A write of Q_BIND (R249, R261): fields that change on an enabled queue are refused; SKIP and ENABLE take effect in every
case. A write that sets both on a halted queue skips the halted record and keeps ENABLE: the two act on one record, so a
later failed record that HEAD reaches is not run again by it. DEDUCED (log entry 37). -/
def writeQbind (s : State) (q : Nat) (v : W32) : State :=
  let x := queue s q
  let y := if qOn x then x.bind &&& 0x7FFFFFFF else bindFields v
  let s1 := if qOn x && bindFields v != bindFields x.bind then queueErr s q 0x0408 0 x.head.toNat else s
  let s2 := if bit v 21 then bindSkip s1 q else s1
  if bit v 21 && x.halted && qOn x then modQueue s2 q (fun x => { x with bind := if bit v 31 then y ||| 0x80000000 else y })
  else if bit v 31 then bindEnable s2 q y
  else modQueue s2 q (fun x => { x with bind := y })

end Sys2Proof.Machine
end

