-- ==== Sys2Proof/Machine/Vial.lean ====
section
/-! DEFINITION. The vial (R465-R485): blocks and wear, configuration records, critical sets, the blotter log, mount, patrol. -/

namespace Sys2Proof.Machine

/-- Put the vial. -/
def setVial (s : State) (v : Vial) : State := { s with vial := v }

/-- Does the Nose work on the vial: mounted, no drydown, no restart (R456, R480)? DESIGN CHOICE (log entry 23). -/
def vialIdle (s : State) : Bool := s.vial.mounted && decide (s.pwr.st.toNat < 2) && s.nose.mode != 3

/-! ### Regions and blocks (R467, Table 20-3) -/

/-- First block of a region in each LUN, and the region's blocks in each LUN, as made; the places within a LUN are the model's, but
for ANCHOR's. DESIGN CHOICE (log entry 23). -/
def regionSpan (r : Nat) : Nat × Nat :=
  match r with
  | 0 => (0, 2)
  | 1 => (2, 8)
  | 2 => (10, 8)
  | 3 => (18, 4)
  | 4 => (22, 32)
  | 5 => (54, 1536)
  | _ => (1590, 458)

/-- Blocks a region owns. -/
def fixedBlocks (r : Nat) : Nat := 8 * (regionSpan r).2

/-- LUN of a block. DESIGN CHOICE (log entry 23). -/
def lunOf (b : Nat) : Nat := b / 2048

/-- Blocks of a region as made. -/
def factoryBlocks (r : Nat) : List Nat :=
  (List.range 8).flatMap (fun l => (List.range (regionSpan r).2).map (fun i => l * 2048 + (regionSpan r).1 + i))

/-- Region a block belongs to as it leaves the factory. -/
def factoryRegion (b : Nat) : Nat :=
  let i := b % 2048
  if i < 2 then 0 else if i < 10 then 1 else if i < 18 then 2 else if i < 22 then 3 else if i < 54 then 4 else if i < 1590 then 5 else 6

/-- Logical block of a block that belongs to no half of DRYDOWN. -/
def noUnit : Nat := 2 ^ 20

/-- Logical block as made: a copy of ANCHOR, a stripe position of IMAGE or CONFIG, a block of a half of DRYDOWN. -/
def factoryUnit (b : Nat) : Nat :=
  let l := lunOf b
  let i := b % 2048 - (regionSpan (factoryRegion b)).1
  match factoryRegion b with
  | 0 => 2 * l + i
  | 1 => 8 * i + l
  | 2 => 8 * i + l
  | 3 => 16 * (i / 2) + 2 * l + i % 2
  | _ => noUnit

/-- A block as it leaves the factory: ANCHOR, CONFIG and half of IMAGE hold data. -/
def factoryBlock (b : Nat) : VBlock :=
  let r := factoryRegion b
  { region := r, erases := 0, retired := false, live := r == 0 || r == 2 || (r == 1 && decide (factoryUnit b < 32)), stale := false,
    unit := factoryUnit b, born := 0 }

/-- Block b of 16,384. -/
def vblock (v : Vial) (b : Nat) : VBlock := sget (factoryBlock b) v.map.blocks b

/-- Put the map. -/
def setMap (v : Vial) (m : VMap) : Vial := { v with map := m }

/-- Put a block. -/
def putBlock (v : Vial) (b : Nat) (x : VBlock) : Vial := setMap v { v.map with blocks := sput v.map.blocks b x }

/-- Good blocks in a region now. -/
def regionCount (v : Vial) (r : Nat) : Nat :=
  let gone := (v.map.blocks.filter (fun e => factoryRegion e.1 == r && (e.2.region != r || e.2.retired))).length
  let come := (v.map.blocks.filter (fun e => factoryRegion e.1 != r && e.2.region == r && !e.2.retired)).length
  fixedBlocks r + come - gone

/-- FREE: good blocks left in SPARE. -/
def spareFree (v : Vial) : Nat := regionCount v 6

/-- Good blocks of a region. -/
def regionBlocks (v : Vial) (r : Nat) : List Nat :=
  (factoryBlocks r ++ (v.map.blocks.filter (fun e => factoryRegion e.1 != r)).map (·.1)).filter (fun b => (vblock v b).region == r && !(vblock v b).retired)

/-- Is a block free in its region: no data, not awaiting an erase, not part of a half of DRYDOWN, not retired? -/
def blockFree (v : Vial) (b : Nat) : Bool :=
  let x := vblock v b
  !x.live && !x.stale && !x.retired && (x.region != 3 || x.unit == noUnit)

/-- The block of lowest erase count among some (R470). -/
def leastErased (v : Vial) (l : List Nat) : Option Nat :=
  l.foldl (fun a b =>
    match a with
      | none => some b
      | some c => if (vblock v b).erases < (vblock v c).erases then some b else a) none

/-- The free block of lowest erase count in region r (R470). -/
def lowestFree (v : Vial) (r : Nat) : Option Nat := leastErased v ((regionBlocks v r).filter (blockFree v))

/-- May region r take a block from SPARE (R483)? -/
def mayTakeSpare (v : Vial) (r : Nat) : Bool :=
  if r = 4 ∨ r = 5 then decide (64 < spareFree v) else decide (0 < spareFree v)

/-- A block of SPARE joins region r. -/
def joinSpare (v : Vial) (r : Nat) : Vial :=
  match mayTakeSpare v r, lowestFree v 6 with
  | true, some b => putBlock v b { vblock v b with region := r, unit := noUnit }
  | _, _ => v

/-- A new block for region r: its own free blocks first, then one of SPARE, for which the region gives a block back at its next
erase (R467, R470). DESIGN CHOICE (log entry 23). -/
def takeBlock (v : Vial) (r : Nat) : Option Nat × Vial :=
  match lowestFree v r with
  | some b => (some b, v)
  | none =>
    let w := joinSpare v r
    (lowestFree w r, w)

/-- Blocks that hold data: those made so, and those written since. -/
def liveBlocks (v : Vial) : List Nat :=
  ([0, 1, 2].flatMap factoryBlocks ++ (v.map.blocks.filter (fun e => 2 < factoryRegion e.1)).map (·.1)).filter (fun b => (vblock v b).live)

/-- Highest and mean erase count of the blocks in use (Table 20-8). -/
def eraseStat (v : Vial) : Nat × Nat :=
  let used := v.map.blocks.filter (fun e => e.2.region != 6 && !e.2.retired)
  let n := ((List.range 6).map (regionCount v)).foldl (· + ·) 0
  (used.foldl (fun a e => max a e.2.erases) 0, (used.foldl (fun a e => a + e.2.erases) 0) / max 1 n)

/-! ### Errors and ANCHOR -/

/-- Record a vial error (R485). -/
def vialErr (s : State) (code region lun : Nat) : State := recordErr s pgVial code (region + lun * 16) 0

/-- A forgotten codeword (R468). -/
def forgot (s : State) (region lun : Nat) : State :=
  raiseEvt (vialErr (setVial s { s.vial with uncorr := s.vial.uncorr + 1 }) 0x0D01 region lun) pgVial 1

/-- Several forgotten codewords. -/
def forgotMany (s : State) (region lun n : Nat) : State := (List.range n).foldl (fun s _ => forgot s region lun) s

/-- Counts of a read of the vial, and its forgotten codewords, which lie in one region (R468). -/
def vialRead (s : State) (r : VRead) (region lun : Nat) : State :=
  let v := s.vial
  forgotMany (setVial s { v with corrected := v.corrected + BitVec.ofNat 64 r.corr, retries := v.retries + BitVec.ofNat 64 r.retry }) region lun
    r.lost.length

/-- A region needed a block and none was left: it becomes read-only (R483). -/
def wornRegion (s : State) (r lun : Nat) : State :=
  raiseEvt (vialErr (setVial s { s.vial with roRegions := setBit s.vial.roRegions r true }) 0x0D02 r lun) pgVial 2

/-- LOW_SPARES is raised once per fall through 256 (R483). -/
def settleSpares (s : State) : State :=
  let low := decide (spareFree s.vial ≤ 256)
  let s1 := setVial s { s.vial with lowSpares := low }
  if low && !s.vial.lowSpares then raiseEvt s1 pgVial 0 else s1

/-- The changed map, with the powered time so far, is written to the next of ANCHOR's 16 blocks, each erased when its 256 pages
are full (R467, R469). DESIGN CHOICE (log entry 23). -/
def anchorWrite (s : State) : State :=
  let v := s.vial
  let q := v.anchorSeq + 1
  let full := decide (4096 ≤ q) && decide (q / 16 % 256 = 0)
  let w := (regionBlocks v 0).foldl (fun v b =>
    if full && (vblock v b).unit == q % 16 then putBlock v b { vblock v b with erases := (vblock v b).erases + 1 } else v) v
  let m := { w.map with powered := w.map.powered + (s.time - v.poweredAt) }
  settleSpares (setVial s { w with
    map := m, poweredAt := s.time, anchorSeq := q, anchor := sput v.anchor (q % 16) { seq := q, good := true, map := m } })

/-! ### Erase, retirement, moving (R469-R471) -/

/-- A block is retired: SPARE gives its region a replacement (R467, R471). -/
def retireBlock (v : Vial) (b : Nat) : Vial :=
  let x := vblock v b
  let w := putBlock v b { x with retired := true, stale := false }
  joinSpare (setMap w { w.map with retired := w.map.retired + 1 }) x.region

/-- Erase a block that holds no live data: at 50,000 erases it is retired; where its region owns more than its blocks it goes to
SPARE (R467, R471). -/
def eraseBlock (s : State) (b : Nat) : State :=
  let x := vblock s.vial b
  let v := s.vial
  let e := { x with erases := x.erases + 1, live := false, stale := false }
  let v1 := { putBlock v b e with flash := clearRange v.flash (b * 2 ^ 22) (2 ^ 22), logPages := sdel v.logPages b }
  let v2 := if 50000 ≤ e.erases then retireBlock v1 b
    else if x.region < 6 ∧ fixedBlocks x.region < regionCount v1 x.region then putBlock v1 b { e with region := 6, unit := noUnit } else v1
  anchorWrite (setVial s v2)

/-- The bytes of a block stand in another. -/
def copyBlock (m : Mem) (b c : Nat) : Mem :=
  let d := c * 2 ^ 22
  let o := b * 2 ^ 22
  let mine := m.holes.filter (fun h => decide (o ≤ h.lo) && decide (h.lo < o + 2 ^ 22))
  let m1 := mine.foldr (fun h m => coverHole m { h with lo := h.lo - o + d }) (clearRange m d (2 ^ 22))
  (m.cells.filter (fun x => decide (o ≤ x.1) && decide (x.1 < o + 2 ^ 22))).foldl (fun m x => writeByte m (x.1 - o + d) x.2) m1

/-- A block's data stand in block c of its region, which the map names from then on; the old block waits for its erase, or is
retired. -/
def placeBlock (v : Vial) (b c : Nat) : Vial :=
  let x := vblock v b
  let v1 := putBlock v c { vblock v c with region := x.region, live := true, unit := x.unit, born := v.map.births }
  let v2 := putBlock v1 b { x with live := false, stale := !x.retired, unit := noUnit }
  { setMap v2 { v2.map with
      births := v.map.births + 1
      place := smapIf v2.map.place (fun u => (sget (16384, 0) v2.map.place u).1 == b) (fun e => (c, e.2))
      openBlock := v2.map.openBlock.map (fun e => if e.1 = b then (c, e.2) else e) } with
    flash := if x.region = 5 then copyBlock v.flash b c else v.flash
    logPages := match v.logPages.find? (fun e => e.1 == b) with
      | some e => sput (sdel v.logPages b) c e.2
      | none => v.logPages }

/-- Move a block's data to a new block of its region (R470, R471, R473). -/
def moveBlock (s : State) (b : Nat) (retire : Bool) : State :=
  let v := if retire then retireBlock s.vial b else s.vial
  let x := vblock v b
  if !x.live then anchorWrite (setVial s v)
  else match takeBlock v x.region with
    | (some c, w) => anchorWrite (setVial s (placeBlock w b c))
    | (none, _) => anchorWrite (wornRegion (setVial s v) x.region (lunOf b))

/-! ### Configuration records (R474-R477) -/

/-- Key of a record. -/
def recKey (ty inst : Nat) : Nat := ty * 64 + inst

/-- A record, if one is present. DESIGN CHOICE (log entry 23). -/
def cfgRec (v : Vial) (ty inst : Nat) : Option CfgRec := (v.records.find? (fun e => e.1 == recKey ty inst)).map (·.2)

/-- Generation a new pair of a record takes (R475). -/
def nextGen (v : Vial) (ty inst : Nat) : Nat := ((cfgRec v ty inst).map (·.gen)).getD 0 + 1

/-- Write a record at the next generation (R475). DESIGN CHOICE (log entry 23). -/
def writeRec (s : State) (ty inst : Nat) (payload : List Byte) : State :=
  setVial s { s.vial with records := sput s.vial.records (recKey ty inst) { gen := nextGen s.vial ty inst, payload := payload } }

/-- A record's header, bytes 0-23 (R474). -/
def recHeader (ty inst gen len : Nat) : List Byte :=
  toBytes 4 0x5A565243 ++ toBytes 2 ty ++ toBytes 2 inst ++ toBytes 8 gen ++ toBytes 4 len ++ toBytes 4 0

/-- HMAC-SHA-384. DESIGN CHOICE (log entry 64). -/
def hmac384 (key msg : List Byte) : List Byte := (List.range 48).map (Config.hmac key msg)

/-- MAC of a minimum-version payload (R477). -/
def versionMac (key : List Byte) (gen version : Nat) : List Byte :=
  hmac384 key (recHeader 6 0 gen 64 ++ toBytes 4 version ++ toBytes 12 0)

/-- Minimum-version record whose MAC verifies, if one is present (R477). -/
def versionRec (s : State) : Option Nat :=
  match cfgRec s.vial 6 0, s.nose.kMin with
  | some r, some k => if (r.payload.drop 16).take 48 = versionMac k r.gen (leAt r.payload 0 4) then some (leAt r.payload 0 4) else none
  | _, _ => none

/-- MIN_VERSION in force: 0 when no copy of the record verifies (R477, R557). -/
def minVersion (s : State) : Nat := (versionRec s).getD 0

/-! ### The blotter log (R482) -/

/-- Blocks of the log, oldest first. -/
def logList (v : Vial) : List Nat := sortBy (fun b => (vblock v b).unit) ((regionBlocks v 4).filter (fun b => (vblock v b).live))

/-- Pages of a block of the log. -/
def pagesOf (v : Vial) (b : Nat) : List (List Blotter) := sget [] v.logPages b

/-- Blotters in the log, oldest first. -/
def vialLog (v : Vial) : List Blotter := (logList v).flatMap (fun b => (pagesOf v b).flatten)

/-- The oldest block of the log is erased, which drops its blotters (R482). -/
def dropOldest (s : State) : State :=
  match logList s.vial with
  | [] => s
  | b :: _ =>
    let v := s.vial
    let n := ((pagesOf v b).flatten).length
    eraseBlock (setVial s (setMap v { v.map with blotOver := v.map.blotOver + BitVec.ofNat 64 n })) b

/-- The log's newest block begins: a free block of BLOTTER, the oldest erased when none is free (R482). -/
def openLog (s : State) : State :=
  let s1 := if (lowestFree s.vial 4).isSome then s else dropOldest s
  let v := s1.vial
  match lowestFree v 4 with
  | none => wornRegion s1 4 0
  | some b =>
    let v1 := putBlock v b { vblock v b with live := true, unit := v.map.logBlocks, born := v.map.births }
    setVial s1 (setMap v1 { v1.map with births := v.map.births + 1, logBlocks := v.map.logBlocks + 1 })

/-- Program one page of blotters. A block whose program fails is retired first, its pages copied (R471, R482). -/
def logPage (s : State) (page : List Blotter) (failed : Bool) : State :=
  let room := match (logList s.vial).getLast? with
    | some b => decide ((pagesOf s.vial b).length < 256)
    | none => false
  let s1 := if room then s else openLog s
  let s2 := match failed, (logList s1.vial).getLast? with
    | true, some b => moveBlock s1 b true
    | _, _ => s1
  match (logList s2.vial).getLast? with
  | none => s2
  | some b =>
    let v := s2.vial
    anchorWrite (setVial s2 { setMap v { v.map with blotWritten := v.map.blotWritten + BitVec.ofNat 64 page.length } with
      logPages := sput v.logPages b (pagesOf v b ++ [page]) })

/-- Append blotters to the log, eight to a page (R482). -/
def logBlotters (s : State) (bs : List Blotter) : State :=
  (List.range (cdiv bs.length 8)).foldl (fun s i => logPage s ((bs.drop (8 * i)).take 8) false) s

/-- BLOTTER_LOG_PROGRAM: a page is programmed when the Nose holds eight blotters, or 50 ms after it received the oldest (R482). -/
def execBlotterLogProgram (failed : Bool) (s : State) : Host.Outcome State Fault Refusal :=
  .next (if vialIdle s && !s.nose.unlogged.isEmpty && (decide (8 ≤ s.nose.unlogged.length) || decide (s.nose.loggedAt + 75000000 ≤ s.time)) then
    let s1 := logPage s (s.nose.unlogged.take 8) failed
    { s1 with nose := { s1.nose with unlogged := s1.nose.unlogged.drop 8, loggedAt := s.time } }
  else s)

/-! ### Patrol, wear levelling, garbage collection -/

/-- Invalidate a half of DRYDOWN. -/
def spoilHalf (v : Vial) (inB : Bool) : Vial :=
  if inB then { v with halfB := v.halfB.map (fun x => { x with good := false }) } else { v with halfA := v.halfA.map (fun x => { x with good := false }) }

/-- What forgotten codewords of block b cost, by region (Table 20-6): the first of them lies at `at_`. ANCHOR loses the copy;
IMAGE is rebuilt from its stripe, or with two of them lost becomes unusable; a CONFIG record gets a new pair; a slot of the log is
skipped; STORE loses the bytes. DESIGN CHOICE (log entry 23). -/
def loseAt (s : State) (b lost at_ : Nat) : State :=
  let v := s.vial
  let x := vblock v b
  match x.region with
  | 0 => setVial s { v with anchor := smapIf v.anchor (fun k => k == x.unit) (fun c => { c with good := false }) }
  | 1 => if 2 ≤ lost then setVial s (setMap v { v.map with image := none }) else moveBlock s b false
  | 2 => (match v.records.find? (fun e => e.1 == at_) with
    | some e => writeRec s (at_ / 64) (at_ % 64) (if at_ = 384 then (match s.nose.kMin with
        | some k => e.2.payload.take 16 ++ versionMac k (e.2.gen + 1) (leAt e.2.payload 0 4)
        | none => e.2.payload) else e.2.payload)
    | none => s)
  | 3 => setVial s (spoilHalf v (decide (16 ≤ x.unit)))
  | 4 => setVial s { v with logPages := sput v.logPages b ((pagesOf v b).map (fun l => l.filter (fun e => e.seq != at_))) }
  | 5 => bumpFree (setVial s { v with flash := loseRange v.flash (b * 2 ^ 22 + at_ * 1024) (lost * 1024) s.freeCtr })
  | _ => s

/-- Order in which patrol reads blocks: oldest written first. -/
def patrolKey (v : Vial) (b : Nat) : Nat × Nat := ((vblock v b).born, b)

/-- Is key a before key c? -/
def keyLt (a c : Nat × Nat) : Bool := decide (a.1 < c.1) || (decide (a.1 = c.1) && decide (a.2 < c.2))

/-- Is block b the one whose pages patrol reads now: the one it reads already, or the next (R473)? -/
def patrolTurn (v : Vial) (b : Nat) : Bool :=
  let k := patrolKey v b
  match v.patrolAt with
  | none => (liveBlocks v).all (fun c => !keyLt (patrolKey v c) k)
  | some p => p == k || (keyLt p k && (liveBlocks v).all (fun c => !(keyLt p (patrolKey v c) && keyLt (patrolKey v c) k)))

/-- VIAL_PATROL (R473): a written page is read. `corr` codewords were corrected, the worst by `worst` bits; `retry` needed a read
retry; `lost` are forgotten. The pass ends with the last page of the block written last. -/
def vialPatrol (s : State) (b corr worst retry lost at_ : Nat) (lastPage : Bool) : State :=
  let x := vblock s.vial b
  if !vialIdle s || decide (16384 ≤ b) || !x.live || !patrolTurn s.vial b then s
  else
    let v := s.vial
    let ends := lastPage && (liveBlocks v).all (fun c => !keyLt (patrolKey v b) (patrolKey v c))
    let s1 := setVial s { setMap v { v.map with patrolPasses := if ends then v.map.patrolPasses + 1 else v.map.patrolPasses } with
      corrected := v.corrected + BitVec.ofNat 64 corr, retries := v.retries + BitVec.ofNat 64 retry
      patrolAt := if ends then none else some (patrolKey v b) }
    let s2 := if lost = 0 then s1 else loseAt (forgotMany s1 x.region (lunOf b) lost) b lost at_
    if (24 < worst ∨ retry ≠ 0) ∧ (vblock s2.vial b).live then
      moveBlock (setVial s2 { s2.vial with refreshed := s2.vial.refreshed + 1 }) b false
    else if ends then anchorWrite s2 else s2

/-- VIAL_PATROL. -/
def execVialPatrol (block corr worst retry lost where_ : Nat) (lastPage : Bool) (s : State) : Host.Outcome State Fault Refusal :=
  .next (vialPatrol s block corr worst retry lost where_ lastPage)

/-- VIAL_WEAR_LEVEL (R470): when erase counts of blocks in use within a region differ by more than 2,000, the data of its
least-erased block moves into a more-erased free block. DESIGN CHOICE (log entry 23). -/
def wearLevel (s : State) (region : Nat) : State :=
  let v := s.vial
  let l := regionBlocks v region
  let hi := l.foldl (fun a b => max a (vblock v b).erases) 0
  match leastErased v (l.filter (fun b => (vblock v b).live)) with
  | none => s
  | some b =>
    let lo := (vblock v b).erases
    match leastErased v (l.filter (fun c => blockFree v c && decide (lo < (vblock v c).erases))) with
    | some c => if 2000 < hi - lo then anchorWrite (setVial s (placeBlock v b c)) else s
    | none => s

/-- VIAL_WEAR_LEVEL. -/
def execVialWearLevel (region : Nat) (s : State) : Host.Outcome State Fault Refusal :=
  .next (if vialIdle s && decide (region < 6) then wearLevel s region else s)

/-! ### STORE (R466, R469, R480, R483) -/

/-- May STORE be written? -/
def storeWritable (v : Vial) : Bool := decide (64 < spareFree v) && !bit v.roRegions 5

/-- Units of STORE in block b. -/
def unitsIn (v : Vial) (b : Nat) : List Nat := (v.map.place.filter (fun e => e.2.1 == b)).map (·.1)

/-- Bytes of a unit of STORE; a unit never written reads 0. DESIGN CHOICE (log entry 23). -/
def unitBytes (v : Vial) (u : Nat) : List Byte :=
  match v.map.place.find? (fun e => e.1 == u) with
  | some (_, b, k) => readBytes v.flash (b * 2 ^ 22 + k * 2 ^ 18) (2 ^ 18)
  | none => List.replicate (2 ^ 18) 0

/-- The block STORE fills, with the units in it: the open one, or a new one. -/
def storeOpen (v : Vial) : Option (Nat × Nat) × Vial :=
  match v.map.openBlock with
  | some (b, k) => if k < 16 then (some (b, k), v) else
      let r := takeBlock v 5
      (r.1.map (fun b => (b, 0)), r.2)
  | none =>
      let r := takeBlock v 5
      (r.1.map (fun b => (b, 0)), r.2)

/-- Write one unit of STORE to a new place; a block the map names no longer awaits its erase (R469). DESIGN CHOICE (log entry 23). -/
def storeUnit (s : State) (u : Nat) (bs : List Byte) : State :=
  match storeOpen s.vial with
  | (none, v) => wornRegion (setVial s v) 5 0
  | (some (b, k), v) =>
    let old := v.map.place.find? (fun e => e.1 == u)
    let x := vblock v b
    let v1 := putBlock v b { x with live := true, born := if k = 0 then v.map.births else x.born }
    let v2 := setMap v1 { v1.map with
      place := sput v1.map.place u (b, k), openBlock := some (b, k + 1), births := if k = 0 then v1.map.births + 1 else v1.map.births }
    let v3 := match old with
      | some (_, o, _) => if o != b && (unitsIn v2 o).isEmpty then putBlock v2 o { vblock v2 o with live := false, stale := true } else v2
      | none => v2
    anchorWrite (setVial s { v3 with flash := writeBytes v3.flash (b * 2 ^ 22 + k * 2 ^ 18) bs })

/-- Does block b hold places that no map entry names any longer (R469)? -/
def reclaimable (v : Vial) (b : Nat) : Bool :=
  let x := vblock v b
  !x.retired && (x.stale || (x.region == 5 && x.live && decide (v.map.openBlock.map (·.1) ≠ some b) && decide ((unitsIn v b).length < 16)))

/-- GARBAGE_COLLECTION (R469): the units still live in a block go to new places; then no entry names it, and it is erased, or
retired where the erase fails. -/
def execGarbageCollection (block : Nat) (failed : Bool) (s : State) : Host.Outcome State Fault Refusal :=
  .next (
    if vialIdle s && decide (block < 16384) && reclaimable s.vial block then
      let s1 := (unitsIn s.vial block).foldl (fun t u => storeUnit t u (unitBytes t.vial u)) s
      if (unitsIn s1.vial block).isEmpty then
        (if failed then anchorWrite (setVial s1 (retireBlock (putBlock s1.vial block { vblock s1.vial block with live := false }) block))
          else eraseBlock s1 block)
      else s1
    else s)

/-! ### Mount (R479, R481, R504) -/

/-- A set whose commit page and payload read. DESIGN CHOICE (log entry 23). -/
def setValid (c : Option CritSet) (reads : Bool) : Option CritSet :=
  match c with
  | some x => if x.good && reads then some x else none
  | none => none

/-- SEQ of a set, torn or not; 0 when the half is erased. -/
def seqOf (c : Option CritSet) : Nat := (c.map (·.seq)).getD 0

/-- What mount finds in DRYDOWN: newest valid set, whether it is in half B, and whether R481 applies. -/
def newestSet (v : Vial) (aReads bReads : Bool) : Option (CritSet × Bool) × Bool :=
  let a := setValid v.halfA aReads
  let b := setValid v.halfB bReads
  match a, b with
  | some x, some y => (some (if x.seq < y.seq then (y, true) else (x, false)), false)
  | some x, none => (some (x, false), v.halfB.isSome && decide (x.seq < seqOf v.halfB))
  | none, some y => (some (y, true), v.halfA.isSome && decide (y.seq < seqOf v.halfA))
  | none, none => (none, false)

/-- Blocks of a half of DRYDOWN. -/
def halfBlocks (v : Vial) (half : Bool) : List Nat :=
  (regionBlocks v 3).filter (fun b => (vblock v b).unit / 16 == b2n half)

/-- The blocks of a half hold data. -/
def fillHalf (v : Vial) (half : Bool) : Vial :=
  let w := (halfBlocks v half).foldl (fun w b => putBlock w b { vblock w b with live := true, born := v.map.births }) v
  setMap w { w.map with births := v.map.births + 1 }

/-- Erase a half of DRYDOWN: its sixteen blocks. -/
def eraseHalf (s : State) (half : Bool) : State :=
  let s1 := (halfBlocks s.vial half).foldl eraseBlock s
  setVial s1 (if half then { s1.vial with halfB := none } else { s1.vial with halfA := none })

/-- OUTCOME and CAUSE of DRY_STATUS (R504). -/
def outcomeOf (v : Vial) (n : Option (CritSet × Bool)) (stale : Bool) : Nat × Nat :=
  let sq := (n.map (fun x => x.1.seq)).getD 0
  match v.marker with
  | some (c, k) => if sq ≤ k then (2, c) else if stale then (3, (n.map (fun x => x.1.cause)).getD 0) else (1, (n.map (fun x => x.1.cause)).getD 0)
  | none => if stale then (3, (n.map (fun x => x.1.cause)).getD 0) else match n with
    | some x => (1, x.1.cause)
    | none => (0, 0)

/-- Codewords of a half that no longer read, of a set that had been committed (R468, R481). -/
def halfForgot (s : State) (c : Option CritSet) (reads : Bool) : State :=
  if !reads && (c.map (·.good)).getD false then forgot s 3 0 else s

/-- The parts of mount that concern DRYDOWN and the drydown buffer (R479, R481, R482, R504). -/
def mountDry (s0 : State) (aReads bReads : Bool) : State :=
  let s := halfForgot (halfForgot s0 s0.vial.halfA aReads) s0.vial.halfB bReads
  let r := newestSet s.vial aReads bReads
  let oc := outcomeOf s.vial r.1 r.2
  let s1 := if r.2 then raiseEvt (vialErr s 0x0D04 3 0) pgVial 3 else s
  let s2 := match r.1 with
    | some (_, inB) => eraseHalf s1 (!inB)
    | none => eraseHalf (eraseHalf s1 false) true
  let v := { s2.vial with
    dryValid := r.1.isSome, dryTarget := (r.1.map (fun x => !x.2)).getD false, dryReady := true, marker := none }
  let s3 := setVial s2 v
  let s4 := match r.1 with
    | some (c, _) => logBlotters s3 (c.blotters.filter (fun b => !(vialLog s3.vial).contains b))
    | none => s3
  let p := { s4.pwr with outcome := BitVec.ofNat 3 oc.1, cause := BitVec.ofNat 3 oc.2, keepBuffer := false }
  if s.pwr.keepBuffer then { s4 with pwr := p }
  else match oc.1 == 1, r.1 with
    | true, some (c, _) =>
      { s4 with pwr := { p with dryCfg := BitVec.ofNat 12 c.driverLen }, nose := { s4.nose with buffer := c.area, restored := some c } }
    | _, _ => { s4 with pwr := { p with dryCfg := 0 }, nose := { s4.nose with buffer := { cells := [], holes := [] }, restored := none } }

/-- Records of which no copy reads, or verifies, are forgotten (R475, R477). -/
def dropRecords (s : State) (keys : List Nat) : State :=
  keys.foldl (fun s k =>
    if s.vial.records.any (fun e => e.1 == k) then forgot (setVial s { s.vial with records := sdel s.vial.records k }) 2 0 else s) s

/-- Records one copy of which is forgotten get a new pair (Table 20-6). -/
def mendRecords (s : State) (keys : List Nat) : State :=
  keys.foldl (fun s k => match s.vial.records.find? (fun e => e.1 == k) with
    | some e => writeRec (forgot s 2 0) (k / 64) (k % 64) (if k = 384 then (match s.nose.kMin with
        | some q => e.2.payload.take 16 ++ versionMac q (e.2.gen + 1) (leAt e.2.payload 0 4)
        | none => e.2.payload) else e.2.payload)
    | none => s) s

/-- The ROM's verdict on the image: the first condition of R549 that fails, 0 none. `verdict` is what its reading and signature
checks find; the version check is made here. DESIGN CHOICE (log entry 64). -/
def imageVerdict (s : State) (verdict : Nat) : Nat :=
  match s.vial.map.image with
  | none => if 1 ≤ verdict ∧ verdict ≤ 4 then verdict else 4
  | some i => if 1 ≤ verdict ∧ verdict ≤ 4 then verdict else if i.version < minVersion s then 5 else 0

/-- BODY_DIGEST of an image (Table 24-3). DESIGN CHOICE (log entry 64). -/
def imageDigest (i : Image) : List Byte := readBytes i.bytes 16 48

/-- The Nose starts the image, or enters RECOVERY (R541, R549). DEDUCED (log entry 54). -/
def startImage (s : State) (verdict : Nat) : State :=
  let c := imageVerdict s verdict
  let n := { s.nose with minVersion := BitVec.ofNat 32 (minVersion s), spdm := [] }
  match c, s.vial.map.image with
  | 0, some i => { s with nose := { n with mode := 1, running := BitVec.ofNat 32 i.version, staged := BitVec.ofNat 32 i.version } }
  | _, _ => recordErr { s with nose := { n with mode := 2 } } pgNose 0x0C0E c 0

/-! ### Keys (R551, R552) -/

/-- Helper data of record 0x07. -/
def helperData (v : Vial) : List Byte := ((cfgRec v 7 0).map (·.payload)).getD []

/-- 48 bytes of a derived value. -/
def keyBytes (f : Nat → Byte) : List Byte := (List.range 48).map f

/-- CDI_1 of an image: HMAC-SHA-384 of its BODY_DIGEST and VERSION under CDI_0, itself the HMAC of the ROM layer's digest under the
UDS (Table 24-4). -/
def cdi1Of (uds : List Byte) (i : Image) : List Byte :=
  hmac384 (hmac384 uds (keyBytes (Config.sha ((List.range 48).map Config.romLayer)))) (imageDigest i ++ toBytes 4 i.version)

/-- Stage 2: the ROM reconstructs the UDS with the helper data of record 0x07 and derives K_wrap and K_min by HKDF-SHA-384 (R551). DESIGN CHOICE (log entry 64). -/
def deriveKeys (s : State) : State :=
  let u := keyBytes (Config.puf (helperData s.vial))
  { s with nose := { s.nose with
      uds := some u, kWrap := some (keyBytes (Config.hkdf u 0)), kMin := some (keyBytes (Config.hkdf u 1)), keyLock := false } }

/-- The alias keys are those of the image that runs; the UDS and K_wrap are locked (R551, R552). -/
def keysMade (s : State) : State :=
  { s with nose := { s.nose with
      keysReady := true, keysFor := s.vial.map.image.map imageDigest, keyLock := true
      cdi1 := match s.nose.uds, s.vial.map.image with
        | some u, some i => some (cdi1Of u i)
        | _, _ => none } }

/-! ### The end of a mailbox operation (R524, R543) -/

/-- A mailbox operation ends: response, length, CODE, DONE, MB_COMPLETED, the message on vector 0, the event-log entry; a code other
than 0 is recorded as an error of the Nose block. -/
def mbFinish (s : State) (op code : Nat) (resp : List Byte) : State :=
  let n := s.nose
  let s1 := { s with nose := { n with
    window := writeBytes n.window 0 resp, mbRespLen := BitVec.ofNat 21 resp.length, mbCode := BitVec.ofNat 16 code, mbDone := true,
    mb := none, mbCompleted := n.mbCompleted + 1 } }
  let s2 := addEvent s1 0xC0000 3 0 code op
  let s3 := if s.pcie.msixEn then sendMsi s2 0 else { s2 with pcie := { s2.pcie with mbUnsent := true } }
  if code = 0 then s3 else recordErr s3 pgNose code 0 0

/-- An operation that a restart ended (R523). -/
def mbEnded (s : State) : State :=
  match s.nose.mb with
  | some m => mbFinish s m.op 0x0C03 []
  | none => s

/-- The copy of ANCHOR that mount takes: of those whose digest is good, the one of highest sequence (R469). -/
def newestAnchor (v : Vial) : Option Anchor :=
  v.anchor.foldl (fun a e => if !e.2.good then a else match a with
    | none => some e.2
    | some c => if c.seq < e.2.seq then some e.2 else a) none

/-- Mount reads ANCHOR: copies in `anchors` do not read; the map of the newest good copy comes into force (R469). -/
def mountAnchor (s : State) (anchors : List Nat) : State × Option Anchor :=
  let gone := (s.vial.anchor.filter (fun e => anchors.contains e.1 && e.2.good)).length
  let s1 := setVial s { s.vial with anchor := smapIf s.vial.anchor anchors.contains (fun c => { c with good := false }) }
  (forgotMany s1 0 0 gone, newestAnchor s1.vial)

/-- Blocks whose program failed in the last drydown are retired (Table 20-6). -/
def retireFailed (s : State) : State :=
  let s1 := s.vial.dryFailed.foldl (fun t b => moveBlock t b true) s
  setVial s1 { s1.vial with dryFailed := [] }

/-- VIAL_MOUNT: boot stages 2 to 4 after a power-up or restart: the vial is mounted, the keys are derived, the image verified, the
firmware started (R469, R479, R504, R544, R549, R551). With no good copy of ANCHOR the mount does not end. DESIGN CHOICE (log entry 23). -/
def vialMount (s : State) (anchors : List Nat) (aReads bReads : Bool) (bad worn : List Nat) (verdict : Nat) : State :=
  if s.glob.stage ≠ 2 || s.vial.mounted then s
  else
    let s1 := setVial s { s.vial with mounted := true, corrected := 0, retries := 0, uncorr := 0, refreshed := 0, patrolAt := none, poweredAt := s.time }
    match mountAnchor s1 anchors with
    | (_, none) => s
    | (t, some c) =>
      let s2 := setVial t { t.vial with map := c.map, anchorSeq := c.seq }
      let s3 := { s2 with nose := { s2.nose with sensors := [], levels := [] }, pwr := { s2.pwr with minMv := 0 } }
      let s4 := deriveKeys (retireFailed (mountDry s3 aReads bReads))
      let s5 := mendRecords (dropRecords s4 (bad ++ (if (versionRec s4).isNone then [384] else []))) worn
      let s6 := startImage s5 verdict
      mbEnded (releaseBlotters (if s6.nose.mode = 1 then keysMade { s6 with glob := { s6.glob with stage := 5 } } else s6))

/-- VIAL_MOUNT. -/
def execVialMount (anchors : List Nat) (aReads bReads : Bool) (bad worn : List Nat) (verdict : Nat) (s : State) :
    Host.Outcome State Fault Refusal := .next (vialMount s anchors aReads bReads bad worn verdict)

end Sys2Proof.Machine
end

