-- ==== Sys2Proof/Machine/Parts.lean ====
section
/-! DEFINITION. Partitions: their states and commands (R558, R559), reset completion (R454), power domains (R488, R513), and the
registers locked by partition state (R20-R23, R198, R341, R427). -/

namespace Sys2Proof.Machine

/-- Record an error in the module global page. -/
def globErr (s : State) (code : Nat) : State := recordErr s pgGlob code 0 0

/-! ### Domains (R488, R489, R513) -/

/-- Does a base-note rail fault hold every partition OFF (R457)? DEDUCED (log entry 50). -/
def baseFault (s : State) : Bool := s.pwr.dead.any (fun r => decide (1 ≤ r) && decide (r ≤ 3))

/-- May the domains partition p needs be powered: its compute dies and its stacks (R457, R495)? -/
def domainsOk (s : State) (p : Nat) : Bool :=
  !baseFault s && (partDies s p).all (fun d => !dieDead s d) && (partSites s p).all (fun i => !siteDead s i)

/-- Headers of the pages whose number satisfies f take their reset values. -/
def dropHdrs (s : State) (f : Nat → Bool) : State := { s with hdrs := sdrop s.hdrs f }

/-- Page of compute die d: core, cluster, queue-engine and memory-controller pages. -/
def diePage (d pg : Nat) : Bool :=
  match pageType pg with
  | some (2, i) => i / 2048 == d
  | some (3, i) => i / 128 == d
  | some (4, i) => i / 16 == d
  | some (6, i) => i / 8 == d
  | _ => false

/-- A compute die's domain powers on: every register of its pages takes its reset value (R513). A stack's self-test result stays. -/
def powerDie (s : State) (d : Nat) : State :=
  let s1 := { s with
    cores := sdrop s.cores (fun n => n / 2048 == d)
    clusters := sdrop s.clusters (fun g => g / 128 == d)
    queues := sdrop s.queues (fun q => q / 2048 == d)
    mcs := smapIf s.mcs (fun i => i / 8 == d) (fun m => { Mc.reset with ok := m.ok }) }
  dropHdrs s1 (diePage d)

/-- A stack's domain powers on. -/
def powerSite (s : State) (i : Nat) : State := dropHdrs { s with ses := sdel s.ses i } (fun pg => pg == pgSe i)

/-- An I/O die's domain powers on. -/
def powerIod (s : State) (x : Nat) : State :=
  let clk := (iod s x).refClk
  let s1 := { s with
    ports := sdrop s.ports (fun i => i / 8 == x)
    iods := if clk then sdel s.iods x else sput s.iods x { Iod.reset with refClk := false }
    atoms := sdel s.atoms x }
  dropHdrs s1 (fun pg => decide (pgIod x ≤ pg) && decide (pg < pgIod x + 16))

/-- The domains that are on in `s` and were off in `old` take their reset values. -/
def powerNew (old s : State) : State :=
  let ds := [0, 1].filter (fun d => dieOn s d && !dieOn old d)
  let ss := (sites s).filter (fun i => siteOn s i && !siteOn old i)
  let xs := (List.range 4).filter (fun x => iodOn s x && !iodOn old x)
  loadCopies old (xs.foldl powerIod (ss.foldl powerSite (ds.foldl powerDie s)))

/-- Source contexts of the link engines have come free with a partition's streams: other partitions' streams go on (R368). -/
def contextsFreed (s : State) : State := (s.iods.map (·.1)).foldl contextFreed s

/-- Is every partition OFF? DEDUCED (log entry 50). -/
def allOff (s : State) : Bool := (List.range 4).all (fun p => decide ((part s p).state = .off))

/-- The module enters keep-alive when every partition is OFF (R278, R489). -/
def settlePower (s : State) : State :=
  if s.pwr.st = 1 && s.glob.ready && allOff s then accStop { s with pwr := { s.pwr with st := 0 } } else s

/-- Ports of I/O dies that are on in `old` and off in `s` are down: their domain has no power. -/
def downPorts (old s : State) : State :=
  { s with ports := smapIf s.ports (fun i => iodOn old (i / 8) && !iodOn s (i / 8)) (fun p =>
      { clearLink p s.time with st := .down, lanes := 0, width := 0, peer := 0 }) }

/-- Partition p goes OFF by steps 1 to 4 of Table 19-3: its work is abandoned and its HBM contents are lost; `cause` is what
RESET_CAUSE holds. DEDUCED (log entry 49). -/
def takeOff (s : State) (p : Nat) (cause : W32) : State :=
  if (part s p).state = .off then modPart s p (fun x => { x with pendOp := 0, pendReason := 0 })
  else
    let s1 := modPart s p (fun x => { x with resetCause := cause, resets := x.resets + 1, pendOp := 0, pendReason := 0, resetHeld := false })
    let s2 := modPart (abandonPart s1 p) p (fun x => { x with state := .off })
    let s3 := bumpFree { s2 with mem := loseRange s2.mem (hbmBase s p * gib64) (hbmSize s p * gib64) s2.freeCtr }
    settlePower (contextsFreed (downPorts s s3))

/-! ### PART_CMD (R558, Table 24-8) -/

/-- Does the module operation that runs name partition p (R438)? -/
def opHolds (s : State) (p : Nat) : Bool := s.glob.moduleOp != 0 && bit s.glob.moduleOpParts p

/-- Is an OP listed for the partition's state (Table 24-8)? -/
def opListedFor (st : PState) (op : Nat) : Bool :=
  match st with
  | .off => op == 1
  | .init => op == 2 || op == 4
  | .active => op == 3
  | .quiesced => op == 2 || op == 4
  | .resetting => false

/-- Is an OP refused with PART_CMD_BAD? -/
def cmdBad (s : State) (p op : Nat) : Bool :=
  !s.glob.ready || !partExists s p || !opListedFor (part s p).state op || (op == 1 && baseFault s)

/-- Does another partition that is not OFF hold the partition's module ID? DEDUCED (log entry 50). -/
def idClash (s : State) (p : Nat) : Bool :=
  (List.range (nParts s)).any (fun q => q != p && decide ((part s q).state ≠ .off) && (part s q).moduleId == (part s p).moduleId)

/-- A refused OP changes nothing but the error record. -/
def cmdRefusal (s : State) (p op : Nat) : Option Nat :=
  if cmdBad s p op then some 0x010B else if op = 2 ∧ idClash s p then some 0x0106 else none

/-- An accepted OP is pending, with the reason it waits for. -/
def pendCmd (s : State) (p op reason : Nat) : State :=
  modPart s p (fun x => { x with pendOp := BitVec.ofNat 4 op, pendReason := BitVec.ofNat 2 reason })

/-- Landing dies of a partition that enters ACTIVE (R365). -/
def landingOf (s : State) (p : Nat) : BitVec 4 :=
  let own := (List.range 4).filter (fun x => iodPop s x && (List.range 8).any (fun y => portOwner s (8 * x + y) == some p))
  let l := if own.isEmpty then (List.range 4).filter (fun x => iodPop s x && (partDies s p).contains (iodDie x)) else own
  l.foldl (fun a x => setBit a x true) 0

/-- Does a partition leave INIT with another K or LOCAL_GIB than its HBM was placed by: the bytes of its range are undefined from then
on (R200)? -/
def moved (s : State) (p : Nat) : Bool :=
  let x := part s p
  decide (x.state = .init) && (x.hbmKey != x.placedKey || x.localGib != x.placedGib)

/-- A partition enters ACTIVE: from INIT it places HBM; landing dies are latched, the imbalance window starts, checkers are assigned
(Table 24-8, R198, R208, R365, R447). -/
def activate (s : State) (p : Nat) : State :=
  let s1 := modPart s p (fun x => { x with
    state := .active, pendOp := 0, pendReason := 0, landing := landingOf s p
    placedKey := if x.state = .init then x.hbmKey else x.placedKey
    placedGib := if x.state = .init then x.localGib else x.placedGib })
  let s2 := if moved s p then loseRanges s1 [(hbmBase s p * gib64, hbmSize s p * gib64)] else s1
  let fresh := decide ((part s p).state = .init)
  let s3 := (partSites s p).foldl (fun t i =>
    if fresh then imbStart t i else modMc t i (fun m => { m with running := [], winStart := now t })) s2
  settleFull ((clustersOf s p).foldl (fun s g =>
    assignChecker (modCluster s g (fun k => { k with rotateAt := now s + 2 ^ rotShift k })) g) s3)

/-- Reason an ACTIVATE waits: 1 BANK_OK clear, 2 a module operation, 0 none. -/
def activateWait (s : State) (p : Nat) : Nat := if !s.pwr.bankOk then 1 else if opHolds s p then 2 else 0

/-- An OP the host writes takes effect or is refused (R558). DEDUCED (log entry 49). -/
def partCmd (s : State) (p op : Nat) : State :=
  match cmdRefusal s p op with
  | some code => globErr s code
  | none =>
    match op with
    | 1 =>
      let s1 := if s.pwr.st = 0 then accStart { s with pwr := { s.pwr with st := 1 } } else s
      pendCmd s1 p 1 (if opHolds s p then 2 else 0)
    | 2 => if activateWait s p = 0 then activate s p else pendCmd s p 2 (activateWait s p)
    | 3 => pendCmd s p 3 3
    | _ => if opHolds s p then pendCmd s p 4 2 else takeOff s p (BitVec.ofNat 32 (256 * Config.freeNum s.freeCtr))

/-- An operation of Table 18-9 has ended: what it held of a partition takes place, a reset the host asked for or an OFF (R438). -/
def releasePart (s : State) (p : Nat) : State :=
  let x := part s p
  if x.resetHeld then triggerReset s p 0x0E04 0
  else if x.pendOp = 4 then takeOff s p (BitVec.ofNat 32 (256 * Config.freeNum s.freeCtr))
  else s

/-- No operation of Table 18-9 runs any longer. -/
def endModuleOp (s : State) : State :=
  if s.glob.moduleOp = 0 then s
  else (List.range 4).foldl releasePart { s with glob := { s.glob with moduleOp := 0, moduleOpParts := 0 } }

/-- PART_INIT_DONE (R558): the domains are powered, the stacks trained, the partition cleared; it reads INIT. -/
def initDone (s : State) (p : Nat) : State :=
  if (part s p).pendOp = 1 && decide ((part s p).state = .off) && partExists s p && !opHolds s p && s.accord.fine && !s.accord.toCoarse && domainsOk s p then
    let s1 := modPart s p (fun x => { x with state := .init, pendOp := 0, pendReason := 0 })
    clearPart (powerNew s s1) p
  else s

/-- PART_INIT_DONE. -/
def execPartInitDone (part_ : Nat) (s : State) : Host.Outcome State Fault Refusal := .next (initDone s part_)

/-- PART_ACTIVATE_RESUME (R558): a pending ACTIVATE goes on once BANK_OK is set and no operation holds it. -/
def execPartActivateResume (part_ : Nat) (s : State) : Host.Outcome State Fault Refusal :=
  .next (if (part s part_).pendOp = 2 then
    (if activateWait s part_ = 0 then activate s part_ else pendCmd s part_ 2 (activateWait s part_)) else s)

/-- Does the core not stand in the way of a QUIESCE: IDLE, ASLEEP or STOPPED, or a checker with no sample (R559, R447)? DEDUCED (log entry 27). -/
def coreQuiet (s : State) (n : Nat) : Bool :=
  let c := core s n
  !coreOn s n || decide (c.state = .idle) || decide (c.state = .stopped) || (decide (c.state = .asleep) && c.run.isNone)
    || (c.checker && (cluster s (n / 16)).sample.isNone)

/-- The conditions of R559. DEDUCED (log entry 27). -/
def quiesced (s : State) (p : Nat) : Bool :=
  s.queues.all (fun e => !inPart s p e.1 || e.2.recs.isEmpty)
    && (partSites s p).all (fun i => (se s i).cmds.isEmpty && (se s i).slots.isEmpty)
    && s.iods.all (fun e => e.2.xfers.all (fun x => x.2.part != p))
    && s.atoms.all (fun e => e.2.ctxs.all (fun c => c.2.part != p) && e.2.disps.all (fun d => partOfCore s d.queue != p))
    && s.cores.all (fun e => !inPart s p e.1 || coreQuiet s e.1)

/-- PART_QUIESCE_DONE (R559): the partition reads QUIESCED; its checkers leave the role. -/
def quiesceDone (s : State) (p : Nat) : State :=
  if (part s p).pendOp = 3 && quiesced s p then
    let s1 := modPart s p (fun x => { x with state := .quiesced, pendOp := 0, pendReason := 0 })
    settleFull ((clustersOf s p).foldl dropRole s1)
  else s

/-- PART_QUIESCE_DONE. -/
def execPartQuiesceDone (part_ : Nat) (s : State) : Host.Outcome State Fault Refusal := .next (quiesceDone s part_)

/-- PART_RESET_COMPLETE (R454): steps 5 to 7 of Table 19-3: cleared, ports down to be brought up again, INIT, PART_RESET raised. -/
def resetComplete (s : State) (p : Nat) : State :=
  if (part s p).state = .resetting then
    let s1 := clearPart s p
    let s2 := (partPorts s p).foldl (fun s i => if (port s i).st = .down then s else portDown s i) s1
    contextsFreed (raiseEvt (modPart s2 p (fun x => { x with state := .init })) (pgPart p) 2)
  else s

/-- PART_RESET_COMPLETE. DEDUCED (log entry 10). -/
def execPartResetComplete (part_ : Nat) (s : State) : Host.Outcome State Fault Refusal := .next (resetComplete s part_)

/-! ### Registers locked by partition state -/

/-- Is the partition in a state that locks its settings: ACTIVE, QUIESCED or RESETTING? -/
def partLocked (s : State) (p : Nat) : Bool :=
  decide ((part s p).state = .active) || decide ((part s p).state = .quiesced) || decide ((part s p).state = .resetting)

/-- The pages keep the shares the partitions have in the present mode, for a mode in which they do not exist (R564). DEDUCED (log entry 26). -/
def holdShares (s : State) : State :=
  (List.range (nParts s)).foldl (fun s p => modPart s p (fun x => { x with
    heldFirst := BitVec.ofNat 12 (partCores s p).1, heldHbm := BitVec.ofNat 16 (hbmSize s p * 256 + hbmBase s p) })) s

/-- PART_MODE (R20). DEDUCED (log entry 50). -/
def partModeWrite (s : State) (v : W32) : State :=
  if !allOff s || fld v 1 0 == 3 then globErr s 0x0104
  else
    let s1 := holdShares s
    settleFull { s1 with glob := { s1.glob with partMode := BitVec.ofNat 2 (fld v 1 0) } }

/-- PORT_OWNERn (R21): fields of ports that are down change; PORT_BUSY is recorded once when a port of the register is not down. Of a port
that is TRAINING the spec says neither; the model treats it as up: the field stays. DEDUCED (log entry 50). DESIGN CHOICE (log entry 68). -/
def portOwnerWrite (s : State) (x : Nat) (v : W32) : State :=
  let ys := List.range 8
  let down := fun (y : Nat) => decide ((port s (8 * x + y)).st = .down)
  let own := ys.foldl (fun m y => if down y then sput m (8 * x + y) (BitVec.ofNat 4 (fld v (4 * y + 3) (4 * y))) else m) s.glob.portOwner
  let s1 := { s with glob := { s.glob with portOwner := own } }
  if ys.all down then s1 else globErr s1 0x0105

/-- PART_MODULE_ID (R23). -/
def moduleIdWrite (s : State) (p : Nat) (v : W32) : State :=
  let id := BitVec.ofNat 12 v.toNat
  if partLocked s p then globErr s 0x0107
  else if (List.range (nParts s)).any (fun q => q != p && (part s q).moduleId == id) then globErr s 0x0106
  else modPart s p (fun x => { x with moduleId := id })

/-- HBM_KEY_LO (0), HBM_KEY_HI (1) and HBM_PLACE (2) (R198). -/
def placementWrite (s : State) (p k : Nat) (v : W32) : State :=
  if partLocked s p then globErr s 0x0108
  else modPart s p (fun x =>
    if k = 0 then { x with hbmKey := setFld x.hbmKey 31 0 v.toNat }
    else if k = 1 then { x with hbmKey := setFld x.hbmKey 63 32 v.toNat }
    else { x with localGib := BitVec.ofNat 6 v.toNat })

/-- EXP_TABLE (R341). -/
def expTableWrite (s : State) (p : Nat) (v : W64) : State :=
  if partLocked s p then globErr s 0x0109 else modPart s p (fun x => { x with expTable := setFld v 63 48 0 })

/-- Is a reduce or carry slot of the partition open? -/
def slotsOpen (s : State) (p : Nat) : Bool := (partSites s p).any (fun i => !(se s i).slots.isEmpty)

/-- SILLAGE_CFG (R427, R428): a MODE that changes to 1 or 2 writes every engine's ring header. -/
def sillageCfgWrite (s : State) (p : Nat) (v : W32) : State :=
  let x := part s p
  let m := fld v 1 0
  if slotsOpen s p || (m != 0 && (decide (x.localGib.toNat * 2 ^ 30 < x.sillageOfs.toNat + x.sillageLen.toNat)
      || decide (x.sillageLen.toNat < 65536))) then globErr s 0x010A
  else
    let s1 := modPart s p (fun x => { x with sillageMode := BitVec.ofNat 2 m })
    if (m = 1 ∨ m = 2) ∧ x.sillageMode.toNat ≠ m then (partSites s p).foldl (fun s i => ringHeader s i p) s1 else s1

/-- SILLAGE_OFS (R427). DEDUCED (log entry 50). -/
def sillageOfsWrite (s : State) (p : Nat) (v : W64) : State :=
  if (part s p).sillageMode ≠ 0 then globErr s 0x010A else modPart s p (fun x => { x with sillageOfs := setFld v 63 48 0 })

/-- SILLAGE_LEN (R427). DEDUCED (log entry 50). -/
def sillageLenWrite (s : State) (p : Nat) (v : W64) : State :=
  if (part s p).sillageMode ≠ 0 then globErr s 0x010A else modPart s p (fun x => { x with sillageLen := setFld v 63 48 0 })

end Sys2Proof.Machine
end

