-- ==== Sys2Proof/Machine/Power.lean ====
section
/-! DEFINITION. Power: rails (R457, R487), input conditions (R486), the hold-up bank (R496, R497), operating points and power windows
(R491, R492), thermal limits (R495), drydown (R498-R501), and the reference clocks (R578, R579). -/

namespace Sys2Proof.Machine

/-- Put the power stage. -/
def setPwr (s : State) (p : Pwr) : State := { s with pwr := p }

/-- Does the module run from its input: 40 V applied, no drydown in progress or held? DEDUCED (log entry 28). -/
def powered (s : State) : Bool := s.glob.stage != 0 && decide (s.pwr.st.toNat < 2)

/-- Record an error in the power page. -/
def pwrErr (s : State) (code lo : Nat) : State := recordErr s pgPwr code lo 0

/-! ### Rails -/

/-- Is the rail one of Table 21-2, and its domain on, so that the monitors sample it? -/
def railLive (s : State) (r : Nat) : Bool :=
  if r ≤ 3 then true
  else if r ≤ 9 then dieOn s (r % 2)
  else if 16 ≤ r ∧ r < 32 then siteOn s (r - 16)
  else if 40 ≤ r ∧ r < 44 then iodOn s (r - 40)
  else false

/-- Partitions that depend on the domain a rail feeds (R457, R487). -/
def railParts (s : State) (r : Nat) : List Nat :=
  if r ≤ 3 then List.range (nParts s)
  else if r ≤ 9 then dieParts s (r % 2)
  else if 16 ≤ r ∧ r < 32 then (partOfSite s (r - 16)).toList
  else []

/-- Bits of a list of partitions. -/
def partBits (ps : List Nat) : Nat := ps.foldl (fun a p => a + 2 ^ p) 0

/-- A power fault's blotter: class 11, its domain switched off. DEDUCED (log entry 52). -/
def pwrBlotter (s : State) (cls code parts rail : Nat) : State :=
  issueBlotter s { blank cls code 0xB 5 0 with
    parts := parts, rail := rail, infoLo := (hdr s pgPwr).infoLo.toNat, infoHi := (hdr s pgPwr).infoHi.toNat }

/-- A rail fault (R457): recorded, its domain off until the next power-up, each partition that depends on it OFF. DEDUCED (log entry 28). DEDUCED (log entry 49). DEDUCED (log entry 52). -/
def railFault (s : State) (r : Nat) : State :=
  let ps := hit s (railParts s r)
  let s1 := raiseEvt (pwrErr s 0x0B01 r) pgPwr 4
  let s2 := setPwr s1 { s1.pwr with dead := s1.pwr.dead ++ [r], faultLow := s1.pwr.faultLow || (decide (1 ≤ r) && decide (r ≤ 3)) }
  let s3 := ps.foldl (fun s p => takeOff s p (causeWord 0x0B01 11)) (downPorts s s2)
  pwrBlotter s3 11 0x0B01 (partBits ps) r

/-- One sample of every rail: a rail outside its limits in five consecutive samples is a rail fault (R457). DEDUCED (log entry 28). -/
def railSample (s : State) (bad : List Nat) : State :=
  if !bit s.glob.integCfg 1 || !powered s then setPwr s { s.pwr with railRun := [] }
  else
    let live := bad.filter (fun r => railLive s r && !s.pwr.dead.contains r)
    let runs := live.foldl (fun m r => sput m r (sget 0 s.pwr.railRun r + 1)) ([] : SMap Nat)
    let s1 := setPwr s { s.pwr with railRun := runs.filter (fun e => decide (e.2 < 5)) }
    (runs.filter (fun e => decide (5 ≤ e.2))).foldl (fun s e => railFault s e.1) s1

/-- RAIL_MONITOR_SAMPLE. -/
def execRailMonitorSample (bad : List Nat) (s : State) : Host.Outcome State Fault Refusal := .next (railSample s bad)

/-! ### Operating points (R491) -/

/-- OP_MAX of die d: code 3 acts as 2. -/
def opMax (s : State) (d : Nat) : Nat := min 2 (fld s.pwr.opCfg (2 * d + 1) (2 * d))

/-- Effective operating point of die d: the slowest of its three limits, coded as OP_CFG. -/
def effectiveOp (s : State) (d : Nat) : Nat :=
  max (opMax s d) (max s.pwr.powerCap.toNat (sget (0 : BitVec 2) s.pwr.thermCap d).toNat)

/-- Point die d runs at. -/
def opOf (s : State) (d : Nat) : Nat := (sget (0 : BitVec 2) s.pwr.op d).toNat

/-- A change of point starts on die d when none is in progress and another point is effective. -/
def settleOp (s : State) (d : Nat) : State :=
  let e := effectiveOp s d
  if e ≠ opOf s d ∧ (s.pwr.change.find? (fun x => x.1 == d)).isNone then
    setPwr s { s.pwr with change := sput s.pwr.change d (BitVec.ofNat 2 e) }
  else s

/-- Both dies. -/
def settleOps (s : State) : State := settleOp (settleOp s 0) 1

/-- OP_CFG is written (R491). -/
def opCfgWrite (s : State) (v : W32) : State := settleOps (setPwr s { s.pwr with opCfg := BitVec.ofNat 4 v.toNat })

/-- OP_CHANGE_DONE: the clock and the rail of die d stand at the new point; a point chosen meanwhile follows. -/
def opChangeDone (s : State) (d : Nat) : State :=
  match s.pwr.change.find? (fun x => x.1 == d) with
  | some (_, t) => settleOp (setPwr s { s.pwr with op := sput s.pwr.op d t, change := sdel s.pwr.change d }) d
  | none => s

/-- OP_CHANGE_DONE. -/
def execOpChangeDone (die : Nat) (s : State) : Host.Outcome State Fault Refusal := .next (opChangeDone s die)

/-- Limits that hold die d at its point: 1 OP_MAX, 2 power cap, 3 thermal cap. -/
def opCauses (s : State) (d : Nat) : List Nat :=
  (if opMax s d = opOf s d then [1] else []) ++ (if s.pwr.powerCap.toNat = opOf s d then [2] else [])
    ++ (if (sget (0 : BitVec 2) s.pwr.thermCap d).toNat = opOf s d then [3] else [])

/-- CAUSE of OP_STATE: 0 at 3.0 GHz; where several limits hold the point the spec names none, and the choice is free. DEDUCED (log entry 53). -/
def opCause (s : State) (d : Nat) : Nat :=
  if opOf s d = 0 then 0
  else match opCauses s d with
    | [c] => c
    | [] => Config.pick s.freeCtr 4 % 4
    | l => nth l (Config.pick s.freeCtr l.length % l.length)

/-! ### Power windows (R492) -/

/-- Maximum module power of the variant (Table 21-4). -/
def maxWatts : Variant → Nat
  | .m12l2 => 3400
  | .m16l2 => 3600
  | .m8l4 => 3500

/-- PWR_LIMIT as it reads. -/
def limitReg (s : State) : Nat := (s.pwr.limit.map (·.toNat)).getD (maxWatts s.variant)

/-- PWR_LIMIT as it acts (Table 21-11). -/
def limitWatts (s : State) : Nat := min (max 1500 (limitReg s)) (maxWatts s.variant)

/-- The input's averages over a window (Table 21-11). -/
def windowSensors (p : Pwr) (mv ma watts bankMv : Nat) : Pwr :=
  { p with mv := BitVec.ofNat 16 mv, ma := BitVec.ofNat 32 ma, watts := BitVec.ofNat 16 watts, bankMv := BitVec.ofNat 16 bankMv,
           minMv := if p.minMv = 0 ∨ mv < p.minMv.toNat then BitVec.ofNat 16 mv else p.minMv }

/-- A window above the limit: both power caps go down one step, or at the bottom PWR_CAP is raised once per 10 ms. -/
def capDown (s : State) : State :=
  let p := { s.pwr with under := 0 }
  if p.powerCap.toNat < 2 then
    raiseEvt (setPwr s { p with powerCap := p.powerCap + 1, caps := p.caps + 1, bottomAt := some s.time }) pgPwr 1
  else if (p.bottomAt.map (fun t => decide (t + 15000000 ≤ s.time))).getD true then
    raiseEvt (setPwr s { p with bottomAt := some s.time }) pgPwr 1
  else setPwr s p

/-- A window at or below 90 % of the limit: the tenth in a row raises both power caps one step. -/
def capUp (s : State) : State :=
  let p := s.pwr
  if p.under + 1 < 10 then setPwr s { p with under := p.under + 1 }
  else setPwr s { p with under := 0, powerCap := if p.powerCap = 0 then 0 else p.powerCap - 1 }

/-- POWER_WINDOW (R492). DEDUCED (log entry 28). -/
def powerWindow (s : State) (mv ma watts bankMv : Nat) : State :=
  if !powered s then s
  else
    let s1 := setPwr s (windowSensors s.pwr mv ma watts bankMv)
    let l := limitWatts s
    settleOps (if l < watts then capDown s1 else if watts * 10 ≤ l * 9 then capUp s1 else setPwr s1 { s1.pwr with under := 0 })

/-- POWER_WINDOW. -/
def execPowerWindow (mv ma watts bankMv : Nat) (s : State) : Host.Outcome State Fault Refusal := .next (powerWindow s mv ma watts bankMv)

/-! ### Thermal limits (R495) -/

/-- A domain that a thermal trip keeps off: compute die u, or I/O die u - 10. DEDUCED (log entry 49). DEDUCED (log entry 52). -/
def tripUnit (s : State) (u : Nat) : State :=
  let ps := if u < 2 then hit s (dieParts s u) else []
  let s1 := pwrErr s 0x0B03 0
  let s2 := setPwr s1 { s1.pwr with tripped := s1.pwr.tripped ++ [u], thermAt := sdel s1.pwr.thermAt u, coolAt := sdel s1.pwr.coolAt u }
  let s3 := ps.foldl (fun s p => takeOff s p (causeWord 0x0B03 11)) (downPorts s s2)
  pwrBlotter s3 11 0x0B03 (partBits ps) 0xFF

/-- A die at 100 degrees or above: its thermal cap goes down one step, and again each 1 ms. -/
def thermDown (s : State) (d : Nat) : State :=
  let p := { s.pwr with coolAt := sdel s.pwr.coolAt d }
  let cap := sget (0 : BitVec 2) p.thermCap d
  let due := match p.thermAt.find? (fun e => e.1 == d) with
    | some (_, t) => decide (t + 1500000 ≤ s.time)
    | none => true
  if due && decide (cap.toNat < 2) then
    raiseEvt (setPwr s { p with thermCap := sput p.thermCap d (cap + 1), thermAt := sput p.thermAt d s.time, caps := p.caps + 1 }) pgPwr 2
  else setPwr s p

/-- A die below 92 degrees: after 10 ms the cap goes up one step. -/
def thermCool (s : State) (d : Nat) : State :=
  let p := { s.pwr with thermAt := sdel s.pwr.thermAt d }
  match p.coolAt.find? (fun e => e.1 == d) with
  | some (_, some t) =>
    if t + 15000000 ≤ s.time then
      let cap := sget (0 : BitVec 2) p.thermCap d
      setPwr s { p with thermCap := sput p.thermCap d (if cap = 0 then 0 else cap - 1), coolAt := sput p.coolAt d (some s.time) }
    else setPwr s p
  | _ => setPwr s { p with coolAt := sput p.coolAt d (some s.time) }

/-- Is unit u (compute die, or 10 + I/O die) powered? -/
def unitOn (s : State) (u : Nat) : Bool := if u < 10 then decide (u < 2) && dieOn s u else iodOn s (u - 10)

/-- A sample of a powered compute die's hottest sensor. DEDUCED (log entry 28). -/
def dieThermal (s : State) (d t : Nat) : State :=
  let s1 := setPwr s { s.pwr with dieTemp := sput s.pwr.dieTemp d (BitVec.ofNat 8 t) }
  if 115 ≤ t ∨ (110 ≤ t ∧ opOf s d = 2) then tripUnit s1 d
  else settleOp (if 100 ≤ t then thermDown s1 d
    else if t < 92 then thermCool s1 d
    else setPwr s1 { s1.pwr with coolAt := sdel s1.pwr.coolAt d, thermAt := sdel s1.pwr.thermAt d }) d

/-- DIE_THERMAL_SAMPLE (R495): the hottest sensor of compute die u, or of I/O die u - 10. A tripped domain below 80 degrees
may be powered again, and is where R488 powers it. -/
def thermalSample (s : State) (u t : Nat) : State :=
  if s.pwr.tripped.contains u then
    if t < 80 then
      let s1 := setPwr s { s.pwr with tripped := s.pwr.tripped.filter (· != u) }
      powerNew s s1
    else s
  else if !unitOn s u || !powered s then s
  else if u < 2 then dieThermal s u t
  else if 110 ≤ t then tripUnit s u
  else s

/-- DIE_THERMAL_SAMPLE. -/
def execDieThermalSample (unit temp : Nat) (s : State) : Host.Outcome State Fault Refusal := .next (thermalSample s unit temp)

/-! ### The bank (R496, R497) -/

/-- BANK_CHARGED: the bank stands at 43.0 V or above; from a full charge its capacitance is measured, in 0.01 mF. DEDUCED (log entry 28). -/
def bankCharged (s : State) (mv cap : Nat) : State :=
  if powered s && decide (43000 ≤ mv) then
    let p := { s.pwr with bankOk := true, bankMv := BitVec.ofNat 16 mv }
    setPwr s (if mv < 44000 then p else { p with bankCap := BitVec.ofNat 14 cap, bankWeak := decide (cap < 900) })
  else s

/-- BANK_CHARGED. -/
def execBankCharged (mv cap : Nat) (s : State) : Host.Outcome State Fault Refusal := .next (bankCharged s mv cap)

/-- Is a partition ACTIVE? -/
def anyActive (s : State) : Bool := (List.range (nParts s)).any (fun p => decide ((part s p).state = .active))

/-- BANK_LOW: the bank falls below 43.0 V; while a partition is ACTIVE that is recorded and raised (R497). -/
def bankLow (s : State) (mv : Nat) : State :=
  if powered s && s.pwr.bankOk && decide (mv < 43000) then
    let s1 := setPwr s { s.pwr with bankOk := false, bankMv := BitVec.ofNat 16 mv }
    if anyActive s then raiseEvt (pwrErr s1 0x0B04 0) pgPwr 3 else s1
  else s

/-- BANK_LOW. -/
def execBankLow (mv : Nat) (s : State) : Host.Outcome State Fault Refusal := .next (bankLow s mv)

/-! ### Drydown (R498-R501) -/

/-- Bytes of the driver area (Table 21-11: above 3,008 acts as 3,008). -/
def driverBytes (s : State) : Nat := min 3008 s.pwr.dryCfg.toNat * 16384

/-- A staging command that runs at the trigger, with the buffer bytes it may have changed (R501). DEDUCED (log entry 53). -/
def stagingRange (s : State) : Option (Nat × Nat) :=
  match s.nose.mb with
  | some m =>
    if m.result.isSome || s.nose.restarting.isSome then none
    else if m.op = 0x20 then some (m.arg, m.req)
    else if m.op = 0x21 then some (0, 0)
    else none
  | none => none

/-- The driver area as it stands at the trigger: bytes a staging write is changing are old or new, a free choice. DEDUCED (log entry 53). -/
def driverArea (s : State) : Mem :=
  let n := driverBytes s
  let m := { s.nose.buffer with cells := s.nose.buffer.cells.filter (fun c => decide (c.1 < n)) }
  match stagingRange s with
  | some (o, k) => if k = 0 then m else loseRange m o k s.freeCtr
  | none => m

/-- Code of a partition state (Table 1-8). -/
def stateCode : PState → Nat
  | .off => 0
  | .init => 1
  | .active => 2
  | .quiesced => 3
  | .resetting => 4

/-- The critical set a trigger captures (Table 21-8), before the shed. -/
def critSet (s : State) (cause inputMin bankMv : Nat) : CritSet :=
  { seq := 0, cause := cause, flags := b2n (stagingRange s).isSome + 2 * b2n s.pwr.bankWeak, acc := s.accord.master, inputMin := inputMin,
    bankMv := bankMv, driverLen := s.pwr.dryCfg.toNat, partState := (List.range 4).map (fun p => stateCode (part s p).state),
    resetCause := (List.range 4).map (fun p => (part s p).resetCause.toNat), blotSeq := s.glob.blotterSeq.toNat,
    blotters := s.nose.unlogged.take 32, events := s.nose.events.drop (s.nose.events.length - 15359), area := driverArea s, good := true }

/-- Load shed: every domain off, every partition OFF without the reset sequence, the PCIe link down; their contents are lost. -/
def shedParts (s : State) : State :=
  (List.range 4).foldl (fun s p =>
    if (part s p).state = .off then modPart s p (fun x => { x with pendOp := 0, pendReason := 0 })
    else
      let s1 := modPart (abandonPart s p) p (fun x => { x with state := .off, pendOp := 0, pendReason := 0 })
      bumpFree { s1 with mem := loseRange s1.mem (hbmBase s p * gib64) (hbmSize s p * gib64) s1.freeCtr }) s

/-- The endpoint's configuration, MSI-X, PBA, apertures and completion bits return to their reset values (R525). PRESUMED (log entry 58). -/
def pcieReset (s : State) : State :=
  { s with pcie := { s.pcie with dState := 0, cwAp := [], compPend := [], msixEn := false, funcMask := false, msix := [], pba := [] } }

/-- The PCIe link goes down; the endpoint treats that as a hot reset. DEDUCED (log entry 28). PRESUMED (log entry 58). -/
def linkDown (s : State) : State :=
  let s1 := pcieReset s
  { s1 with pcie := { s1.pcie with linkUp := false, flit := false, width := 0, speed := 0 } }

/-- A drydown triggers and runs its first four steps (Table 21-6); step 5 is DRYDOWN_COMMIT. DEDUCED (log entry 49). DEDUCED (log entry 53). -/
def drydown (s : State) (cause inputMin bankMv : Nat) : State :=
  let skip := !s.vial.dryReady || decide (bankMv < 33000)
  let s1 := if s.vial.dryReady then s else vialErr s 0x0D03 3 0
  let s2 := if bankMv < 33000 then pwrErr s1 0x0B04 0 else s1
  let s3 := bumpFree (setPwr s2 { s2.pwr with
    st := 2, dry := some (critSet s2 cause inputMin bankMv), drySkip := skip, dryLow := true, drydowns := s2.pwr.drydowns + 1,
    bankMv := BitVec.ofNat 16 bankMv, change := [], railRun := [] })
  accStop (linkDown (shedParts (downPorts s s3)))

/-- INPUT_SAG (R498). -/
def execInputSag (inputMin bankMv : Nat) (s : State) : Host.Outcome State Fault Refusal :=
  .next (if powered s then drydown s 1 inputMin bankMv else s)

/-- An input fault (R486): INPUT_FAULT is recorded and its blotter written, then drydown. The fault class of the blotter is not
given, and is free. DEDUCED (log entry 52). -/
def inputFault (s : State) (cause inputMin bankMv : Nat) : State :=
  if powered s then
    let s1 := pwrErr s 0x0B02 0
    drydown (pwrBlotter (bumpFree s1) (Config.freeNum s1.freeCtr % 65536) 0x0B02 0 0xFF) cause inputMin bankMv
  else s

/-- INPUT_OVERVOLTAGE. -/
def execInputOvervoltage (inputMin bankMv : Nat) (s : State) : Host.Outcome State Fault Refusal := .next (inputFault s 2 inputMin bankMv)

/-- INPUT_OVERCURRENT. -/
def execInputOvercurrent (inputMin bankMv : Nat) (s : State) : Host.Outcome State Fault Refusal := .next (inputFault s 3 inputMin bankMv)

/-- INPUT_OUT_OF_RANGE (R486): the input leaves 36.0-44.0 V, in mV; a dip or peak too short to be a sag or an input fault raises
INPUT_RANGE too (Table 21-13). DEDUCED (log entry 28). -/
def execInputOutOfRange (mv : Nat) (s : State) : Host.Outcome State Fault Refusal :=
  .next (if powered s && (decide (mv < 36000) || decide (44000 < mv)) then
    raiseEvt s pgPwr 0 else s)

/-- SEQ of the newest valid set the Nose has seen. DESIGN CHOICE (log entry 23). -/
def keptSeq (v : Vial) : Nat := if v.dryValid then seqOf (if v.dryTarget then v.halfA else v.halfB) else 0

/-- DRYDOWN_COMMIT (R478-R480, R499): the commit page of the set, or the skip marker, is programmed; blocks that failed meanwhile are
retired after mount; PWR_STATE DRY_HOLD. DEDUCED (log entry 53). -/
def drydownCommit (s : State) (failed : List Nat) : State :=
  match s.pwr.st == 2, s.pwr.dry with
  | true, some c =>
    let v := s.vial
    let x := { c with seq := keptSeq v + 1 }
    let w := { fillHalf v v.dryTarget with dryReady := false, dryFailed := failed.filter (halfBlocks v v.dryTarget).contains }
    let v1 := if s.pwr.drySkip then { v with marker := some (c.cause, keptSeq v) }
      else if v.dryTarget then { w with halfB := some x } else { w with halfA := some x }
    setPwr (setVial s v1) { s.pwr with st := 3 }
  | _, _ => s

/-- DRYDOWN_COMMIT. -/
def execDrydownCommit (failed : List Nat) (s : State) : Host.Outcome State Fault Refusal := .next (drydownCommit s failed)

/-! ### Reference clocks (R578, R579) -/

/-- REF_CLOCK_LOSS (R578): the base-note domain moves to the internal oscillator; the master keeps counting. -/
def execRefClockLoss (s : State) : Host.Outcome State Fault Refusal :=
  .next { s with accord := { s.accord with refPresent := false } }

/-- REF_CLOCK_RETURN (R578). -/
def execRefClockReturn (s : State) : Host.Outcome State Fault Refusal :=
  .next { s with accord := { s.accord with refPresent := true } }

/-- WXL_REFCLK_LOSS (R579): every lane of the die loses lock; its ports retrain and stay TRAINING. -/
def execWxlRefclkLoss (die : Nat) (s : State) : Host.Outcome State Fault Refusal :=
  .next (if iodPop s die then
    (List.range 8).foldl (fun s y => retrain s (8 * die + y)) (modIod s die (fun d => { d with refClk := false })) else s)

/-- WXL_REFCLK_RETURN (R579): training may end again. -/
def execWxlRefclkReturn (die : Nat) (s : State) : Host.Outcome State Fault Refusal :=
  .next (if iodPop s die then modIod s die (fun d => { d with refClk := true }) else s)

end Sys2Proof.Machine
end

