-- ==== Sys2Proof/Machine/Boot.lean ====
section
/-! DEFINITION. Power-up, restart and boot (R503, R526, R544-R548), the endpoint's reset pins (R525, R545, R579, R581). -/

namespace Sys2Proof.Machine

/-! ### The endpoint -/

/-- The endpoint comes up once the base-note domain runs, PERST# is high and the PCIe reference is present (R545, R579, R581);
width and speed are what the link trains to. -/
def endpointUp (s : State) (width speed : Nat) (flit : Bool) : State :=
  if !s.pcie.perst && s.pcie.refClk && powered s && decide (2 ≤ s.glob.stage.toNat) then
    { s with pcie := { s.pcie with up := true, linkUp := true, flit := flit, width := BitVec.ofNat 4 width, speed := BitVec.ofNat 4 speed } }
  else s

/-- PERST_ASSERT (R581): the endpoint is under a conventional reset; ignored while a drydown is in progress or held, but for the
level itself. -/
def execPerstAssert (s : State) : Host.Outcome State Fault Refusal :=
  .next (
    let s1 := { s with pcie := { s.pcie with perst := true } }
    if s.pwr.st.toNat < 2 then
      let s2 := linkDown s1
      { s2 with pcie := { s2.pcie with up := false } }
    else s1)

/-- PERST_RELEASE (R545). -/
def execPerstRelease (width speed : Nat) (flit : Bool) (s : State) : Host.Outcome State Fault Refusal :=
  .next (if s.pcie.perst then endpointUp { s with pcie := { s.pcie with perst := false } } width speed flit else s)

/-- PCIE_REFCLK_LOSS (R579): the link goes down. -/
def execPcieRefclkLoss (s : State) : Host.Outcome State Fault Refusal :=
  .next (let s1 := linkDown s; { s1 with pcie := { s1.pcie with refClk := false } })

/-- PCIE_REFCLK_RETURN. -/
def execPcieRefclkReturn (width speed : Nat) (flit : Bool) (s : State) : Host.Outcome State Fault Refusal :=
  .next (if s.pcie.refClk then s else endpointUp { s with pcie := { s.pcie with refClk := true } } width speed flit)

/-- PCIE_RESET (R525): a hot reset, a link disable or a Function Level Reset. PRESUMED (log entry 58). -/
def execPcieReset (s : State) : Host.Outcome State Fault Refusal := .next (pcieReset s)

/-- D_STATE_CHANGE (R507): D0 or D3hot. -/
def execDStateChange (d3 : Bool) (s : State) : Host.Outcome State Fault Refusal :=
  .next (if s.pcie.linkUp then { s with pcie := { s.pcie with dState := if d3 then 3 else 0 } } else s)

/-! ### Reset values with what outlives them -/

/-- Link engines at reset values, their reference clocks as the baseboard drives them. -/
def clocksOnly (s : State) : SMap Iod :=
  (s.iods.filter (fun e => !e.2.refClk)).map (fun e => (e.1, { Iod.reset with refClk := false }))

/-- Every register at its reset value: what stays is the surroundings (pins, clocks), what the vial stores, and the model's own
counters. See R502. -/
def afresh (s : State) : State :=
  { State.reset with
    variant := s.variant, time := s.time, freeCtr := s.freeCtr, pending := s.pending, out := s.out, mem := s.mem,
    pcie := { Pcie.reset with perst := s.pcie.perst, refClk := s.pcie.refClk }, iods := clocksOnly s
    vial := { s.vial with mounted := false, roRegions := 0, dryValid := false, dryTarget := false, dryReady := false, lowSpares := false }
    accord := { Accord.reset with refPresent := s.accord.refPresent } }

/-- The Accord block at its reset values, the counter and its modes as they are (R18, R277). DEDUCED (log entry 29). -/
def accKeep (a : Accord) : Accord :=
  { a with accHi := none, wakeRate := Accord.reset.wakeRate, maxErr := 0, wakes := 0, wakeDeferred := 0, wakeQ := [], window := 0,
           admitted := 0, copyErr := [] }

/-- The boot begins at stage 2. -/
def stage2 (s : State) : State := accStart { s with glob := { s.glob with stage := 2 } }

/-- POWER_UP (R544): 40 V is applied; stage 1 ends with the ACC PLL started, and the endpoint comes up if PERST# is high. DEDUCED (log entry 29). -/
def powerUp (s : State) (width speed : Nat) (flit : Bool) : State :=
  if s.glob.stage = 0 then endpointUp (stage2 (afresh s)) width speed flit else s

/-- POWER_UP. -/
def execPowerUp (width speed : Nat) (flit : Bool) (s : State) : Host.Outcome State Fault Refusal := .next (powerUp s width speed flit)

/-- INPUT_RESTORE (R503): the input has stayed in range for 10 ms; the module restarts from stage 2 with the counter kept. After an
over-current the input must have fallen below 20 V first. DEDUCED (log entry 29). -/
def inputRestore (s : State) (fell : Bool) (width speed : Nat) (flit : Bool) : State :=
  let tooMuch := (s.pwr.dry.map (·.cause)).getD 0 == 3
  if s.pwr.st = 3 ∧ (!tooMuch || fell) then
    let a := afresh s
    endpointUp (stage2 { a with
      accord := accKeep s.accord
      faults := { a.faults with utcBase := s.faults.utcBase }
      pwr := { a.pwr with accKept := true, bankWeak := s.pwr.bankWeak, bankCap := s.pwr.bankCap,
                          bankMv := s.pwr.bankMv, drydowns := s.pwr.drydowns, faultLow := s.pwr.faultLow } }) width speed flit
  else s

/-- INPUT_RESTORE. -/
def execInputRestore (fell : Bool) (width speed : Nat) (flit : Bool) (s : State) : Host.Outcome State Fault Refusal :=
  .next (inputRestore s fell width speed flit)

/-- The half a cut-off drydown was writing is torn: it holds no valid set (R478). DEDUCED (log entry 29). -/
def tearHalf (s : State) : Vial :=
  match s.pwr.dry, s.pwr.drySkip || s.pwr.st == 3 with
  | some c, false =>
    let x := some { c with seq := keptSeq s.vial + 1, good := false }
    let v := fillHalf s.vial s.vial.dryTarget
    if v.dryTarget then { v with halfB := x } else { v with halfA := x }
  | _, _ => s.vial

/-- BANK_CUTOFF (R503): the base-note domain stops; only what the vial stores remains. DEDUCED (log entry 29). -/
def bankCutoff (s : State) : State :=
  if s.pwr.st.toNat < 2 then s else afresh (setVial s (tearHalf s))

/-- BANK_CUTOFF. -/
def execBankCutoff (s : State) : Host.Outcome State Fault Refusal := .next (bankCutoff s)

/-- A module reset (R526): every partition OFF, the Nose restarted from its ROM, the boot run from stage 2; the vial, the drydown
buffer, the Accord counter and the Nose's unlogged blotters are kept, and a mailbox operation ends with the restart. DEDUCED (log entry 29). DEDUCED (log entry 49). -/
def moduleReset (s : State) : State :=
  let p := s.pcie
  let off := (List.range 4).foldl (fun s q => takeOff s q 0) s
  let a := afresh off
  let up := p.up && p.linkUp
  stage2 { a with
    accord := accKeep off.accord
    faults := { a.faults with utcBase := s.faults.utcBase, held := s.faults.held }
    pcie := if up then { a.pcie with up := true, linkUp := true, flit := p.flit, width := p.width, speed := p.speed } else a.pcie
    nose := { a.nose with buffer := s.nose.buffer, restored := s.nose.restored, mb := s.nose.mb, unlogged := s.nose.unlogged, loggedAt := s.nose.loggedAt }
    pwr := { a.pwr with dead := s.pwr.dead, tripped := s.pwr.tripped, mv := s.pwr.mv, ma := s.pwr.ma, watts := s.pwr.watts, dieTemp := s.pwr.dieTemp,
                        bankOk := s.pwr.bankOk, bankWeak := s.pwr.bankWeak, bankCap := s.pwr.bankCap, bankMv := s.pwr.bankMv,
                        drydowns := s.pwr.drydowns, accKept := s.pwr.accKept, faultLow := s.pwr.faultLow, keepBuffer := true } }

/-! ### Stages 5 to 8 (R544, R546-R548) -/

/-- The repair map payload (Table 24-2). -/
def mapPayload (disabled : List Nat) (narrowed : List (Nat × Nat)) (rows : List W32) : List Byte :=
  deviceId ++ toBytes 2 disabled.length ++ toBytes 2 narrowed.length ++ toBytes 4 rows.length ++ toBytes 8 0
    ++ disabled.flatMap (fun n => toBytes 2 (n % 4096)) ++ narrowed.flatMap (fun e => toBytes 2 (e.1 % 4096 + (e.2 % 16) * 4096))
    ++ rows.flatMap (fun r => toBytes 4 r.toNat)

/-- Is the stored repair map usable: present, and naming this module (R476)? -/
def mapUsable (v : Vial) : Bool := match cfgRec v 1 0 with
  | some r => r.payload.take 48 == deviceId
  | none => false

/-- Does the boot take the warm path (R544)? -/
def warmPath (s : State) : Bool :=
  mapUsable s.vial && (sites s).all (fun i => (cfgRec s.vial 3 i).isSome) && (cfgRec s.vial 4 0).isSome && (cfgRec s.vial 5 0).isSome

/-- Calibration records the cold path makes: module calibration, then HBM training of every populated site. Their payloads have no
reader outside the Nose. DEDUCED (log entry 29). -/
def coldRecords (s : State) : State :=
  (sites s).foldl (fun s i => writeRec s 3 i []) (writeRec (writeRec s 4 0 []) 5 0 [])

/-- The self-test's measured map is written as a record when it differs from the stored one (R547). -/
def recordMap (s : State) (m : List Byte) : State :=
  if mapUsable s.vial && ((cfgRec s.vial 1 0).map (·.payload)).getD [] == m then s else writeRec s 1 0 m

/-- The boot stays short of READY (R548). DEDUCED (log entry 29). -/
def bootFail (s : State) (code : Nat) : State :=
  let s1 := globErr { s with glob := { s.glob with stage := 6, failCode := BitVec.ofNat 16 code } } code
  accStop (setPwr (issueBlotter s1 (blank 9 code 1 5 0)) { s1.pwr with st := 0 })

/-- READY (R546): the measured map is in force, every partition OFF, PWR_STATE KEEP_ALIVE, READY raised. -/
def bootDone (s : State) (ms : Nat) (disabled : List Nat) (narrowed : List (Nat × Nat)) (rows : List W32) : State :=
  let s1 := { s with glob := { s.glob with
    stage := 8, ready := true, bootMs := BitVec.ofNat 32 ms, disabled := disabled, narrowed := narrowed, mapRows := rows } }
  settlePower (raiseEvt s1 pgGlob 2)

/-- BOOT_READY: stages 5 to 8 end (R544, R546-R548). -/
def bootReady (s : State) (ms : Nat) (disabled : List Nat) (narrowed : List (Nat × Nat)) (rows : List W32) (badSites : List Nat) : State :=
  if s.glob.stage ≠ 5 || s.nose.mode ≠ 1 || !powered s then s
  else
    let warm := warmPath s
    let s1 := { s with glob := { s.glob with scan := !mapUsable s.vial, cold := !warm } }
    let s2 := recordMap (if warm then s1 else coldRecords s1) (mapPayload disabled narrowed rows)
    if disabled.length + 4032 > 4096 ∨ 64 < narrowed.length then bootFail s2 0x010C
    else if badSites.any (sitePop s) then bootFail s2 0x010D
    else bootDone s2 ms disabled narrowed rows

/-- BOOT_READY. -/
def execBootReady (ms : Nat) (disabled : List Nat) (narrowed : List (Nat × Nat)) (rows : List W32) (badSites : List Nat) (s : State) :
    Host.Outcome State Fault Refusal := .next (bootReady s ms disabled narrowed rows badSites)

end Sys2Proof.Machine
end

