-- ==== Sys2Proof/Machine/Clock.lean ====
section
/-! DEFINITION. One tick of 1.5 GHz: what the module's clock does whatever is commanded (R269, R277, R448). -/

namespace Sys2Proof.Machine

/-- A tick: the Accord counter and the model's time go on, records that could start grow older, running arrays count activity. DESIGN CHOICE (log entry 4). -/
def tick (s : State) : State := ageQueues (coreTick s)

end Sys2Proof.Machine
end

