-- ==== Sys2Proof/Machine/CoreRows.lean ====
section
/-! DEFINITION. The rows of the core instructions: each is the core's attempt to issue the word at its PC when that word has
the row's opcode (Tables 4-1, 4-2, 4-4, 4-8). -/

namespace Sys2Proof.Machine

/-- NOP (R59). -/
def execNop (core : Nat) (met : Met) (s : State) : Host.Outcome State Fault Refusal :=
  .next (coreRowMet s core 0x00 met)

/-- ADD (R60). -/
def execAdd (core : Nat) (met : Met) (s : State) : Host.Outcome State Fault Refusal :=
  .next (coreRowMet s core 0x01 met)

/-- SUB (R60). -/
def execSub (core : Nat) (met : Met) (s : State) : Host.Outcome State Fault Refusal :=
  .next (coreRowMet s core 0x02 met)

/-- MUL (R60). -/
def execMul (core : Nat) (met : Met) (s : State) : Host.Outcome State Fault Refusal :=
  .next (coreRowMet s core 0x03 met)

/-- AND (R60). -/
def execAnd (core : Nat) (met : Met) (s : State) : Host.Outcome State Fault Refusal :=
  .next (coreRowMet s core 0x04 met)

/-- OR (R60). -/
def execOr (core : Nat) (met : Met) (s : State) : Host.Outcome State Fault Refusal :=
  .next (coreRowMet s core 0x05 met)

/-- XOR (R60). -/
def execXor (core : Nat) (met : Met) (s : State) : Host.Outcome State Fault Refusal :=
  .next (coreRowMet s core 0x06 met)

/-- SHL (R60). -/
def execShl (core : Nat) (met : Met) (s : State) : Host.Outcome State Fault Refusal :=
  .next (coreRowMet s core 0x07 met)

/-- SHR (R60). -/
def execShr (core : Nat) (met : Met) (s : State) : Host.Outcome State Fault Refusal :=
  .next (coreRowMet s core 0x08 met)

/-- SAR (R60). -/
def execSar (core : Nat) (met : Met) (s : State) : Host.Outcome State Fault Refusal :=
  .next (coreRowMet s core 0x09 met)

/-- SLT (R60). -/
def execSlt (core : Nat) (met : Met) (s : State) : Host.Outcome State Fault Refusal :=
  .next (coreRowMet s core 0x0A met)

/-- SLTU (R60). -/
def execSltu (core : Nat) (met : Met) (s : State) : Host.Outcome State Fault Refusal :=
  .next (coreRowMet s core 0x0B met)

/-- LUI (R60). -/
def execLui (core : Nat) (met : Met) (s : State) : Host.Outcome State Fault Refusal :=
  .next (coreRowMet s core 0x0C met)

/-- RDCNT (R60). -/
def execRdcnt (core : Nat) (met : Met) (s : State) : Host.Outcome State Fault Refusal :=
  .next (coreRowMet s core 0x0D met)

/-- RDACC (R280). -/
def execRdacc (core : Nat) (met : Met) (s : State) : Host.Outcome State Fault Refusal :=
  .next (coreRowMet s core 0x0E met)

/-- RDCAP (R60). -/
def execRdcap (core : Nat) (met : Met) (s : State) : Host.Outcome State Fault Refusal :=
  .next (coreRowMet s core 0x0F met)

/-- BR (R60). -/
def execBr (core : Nat) (met : Met) (s : State) : Host.Outcome State Fault Refusal :=
  .next (coreRowMet s core 0x10 met)

/-- BEQZ (R60). -/
def execBeqz (core : Nat) (met : Met) (s : State) : Host.Outcome State Fault Refusal :=
  .next (coreRowMet s core 0x11 met)

/-- BNEZ (R60). -/
def execBnez (core : Nat) (met : Met) (s : State) : Host.Outcome State Fault Refusal :=
  .next (coreRowMet s core 0x12 met)

/-- END (R60). -/
def execEndProg (core : Nat) (met : Met) (s : State) : Host.Outcome State Fault Refusal :=
  .next (coreRowMet s core 0x13 met)

/-- HSET (R73). -/
def execHset (core : Nat) (met : Met) (s : State) : Host.Outcome State Fault Refusal :=
  .next (coreRowMet s core 0x20 met)

/-- HREL (R79). -/
def execHrel (core : Nat) (met : Met) (s : State) : Host.Outcome State Fault Refusal :=
  .next (coreRowMet s core 0x21 met)

/-- WAIT (R82). -/
def execWait (core : Nat) (met : Met) (s : State) : Host.Outcome State Fault Refusal :=
  .next (coreRowMet s core 0x28 met)

/-- SIGNAL (R85). -/
def execSignal (core : Nat) (met : Met) (s : State) : Host.Outcome State Fault Refusal :=
  .next (coreRowMet s core 0x29 met)

/-- CSET (R84). -/
def execCset (core : Nat) (met : Met) (s : State) : Host.Outcome State Fault Refusal :=
  .next (coreRowMet s core 0x2A met)

/-- TSET (R82). -/
def execTset (core : Nat) (met : Met) (s : State) : Host.Outcome State Fault Refusal :=
  .next (coreRowMet s core 0x2B met)

/-- LAUNCH_AT (R86). -/
def execLaunchAt (core : Nat) (met : Met) (s : State) : Host.Outcome State Fault Refusal :=
  .next (coreRowMet s core 0x2C met)

/-- UFENCE (R65). -/
def execUfence (core : Nat) (met : Met) (s : State) : Host.Outcome State Fault Refusal :=
  .next (coreRowMet s core 0x2D met)

/-- MMA_D (R105). -/
def execMmaD (core : Nat) (met : Met) (s : State) : Host.Outcome State Fault Refusal :=
  .next (coreRowMet s core 0x40 met)

/-- MMA_S (R184). -/
def execMmaS (core : Nat) (met : Met) (s : State) : Host.Outcome State Fault Refusal :=
  .next (coreRowMet s core 0x41 met)

/-- MMA_A (R189). -/
def execMmaA (core : Nat) (met : Met) (s : State) : Host.Outcome State Fault Refusal :=
  .next (coreRowMet s core 0x42 met)

/-- MOVE_L (R161). -/
def execMoveL (core : Nat) (met : Met) (s : State) : Host.Outcome State Fault Refusal :=
  .next (coreRowMet s core 0x48 met)

/-- MOVE_S (R161). -/
def execMoveS (core : Nat) (met : Met) (s : State) : Host.Outcome State Fault Refusal :=
  .next (coreRowMet s core 0x49 met)

/-- MOVE_X (R170). -/
def execMoveX (core : Nat) (met : Met) (s : State) : Host.Outcome State Fault Refusal :=
  .next (coreRowMet s core 0x4B met)

/-- VADD (R88). -/
def execVadd (core : Nat) (met : Met) (s : State) : Host.Outcome State Fault Refusal :=
  .next (coreRowMet s core 0x60 met)

/-- VSUB (R88). -/
def execVsub (core : Nat) (met : Met) (s : State) : Host.Outcome State Fault Refusal :=
  .next (coreRowMet s core 0x61 met)

/-- VMUL (R88). -/
def execVmul (core : Nat) (met : Met) (s : State) : Host.Outcome State Fault Refusal :=
  .next (coreRowMet s core 0x62 met)

/-- VFMA (R88). -/
def execVfma (core : Nat) (met : Met) (s : State) : Host.Outcome State Fault Refusal :=
  .next (coreRowMet s core 0x63 met)

/-- VMIN (R88). -/
def execVmin (core : Nat) (met : Met) (s : State) : Host.Outcome State Fault Refusal :=
  .next (coreRowMet s core 0x64 met)

/-- VMAX (R88). -/
def execVmax (core : Nat) (met : Met) (s : State) : Host.Outcome State Fault Refusal :=
  .next (coreRowMet s core 0x65 met)

/-- VABS (R47). -/
def execVabs (core : Nat) (met : Met) (s : State) : Host.Outcome State Fault Refusal :=
  .next (coreRowMet s core 0x66 met)

/-- VCMP (R88). -/
def execVcmp (core : Nat) (met : Met) (s : State) : Host.Outcome State Fault Refusal :=
  .next (coreRowMet s core 0x67 met)

/-- VSEL (R88). -/
def execVsel (core : Nat) (met : Met) (s : State) : Host.Outcome State Fault Refusal :=
  .next (coreRowMet s core 0x68 met)

/-- VCVT (R587). -/
def execVcvt (core : Nat) (met : Met) (s : State) : Host.Outcome State Fault Refusal :=
  .next (coreRowMet s core 0x69 met)

/-- VDIV (R88). -/
def execVdiv (core : Nat) (met : Met) (s : State) : Host.Outcome State Fault Refusal :=
  .next (coreRowMet s core 0x6A met)

/-- VSQRT (R88). -/
def execVsqrt (core : Nat) (met : Met) (s : State) : Host.Outcome State Fault Refusal :=
  .next (coreRowMet s core 0x6B met)

/-- VRCP (R90). -/
def execVrcp (core : Nat) (met : Met) (s : State) : Host.Outcome State Fault Refusal :=
  .next (coreRowMet s core 0x6C met)

/-- VRSQ (R90). -/
def execVrsq (core : Nat) (met : Met) (s : State) : Host.Outcome State Fault Refusal :=
  .next (coreRowMet s core 0x6D met)

/-- VEXP2 (R90). -/
def execVexp2 (core : Nat) (met : Met) (s : State) : Host.Outcome State Fault Refusal :=
  .next (coreRowMet s core 0x6E met)

/-- VLOG2 (R90). -/
def execVlog2 (core : Nat) (met : Met) (s : State) : Host.Outcome State Fault Refusal :=
  .next (coreRowMet s core 0x6F met)

/-- VRSUM (R89). -/
def execVrsum (core : Nat) (met : Met) (s : State) : Host.Outcome State Fault Refusal :=
  .next (coreRowMet s core 0x70 met)

/-- VBCAST (R88). -/
def execVbcast (core : Nat) (met : Met) (s : State) : Host.Outcome State Fault Refusal :=
  .next (coreRowMet s core 0x71 met)

/-- VLD (R88). -/
def execVld (core : Nat) (met : Met) (s : State) : Host.Outcome State Fault Refusal :=
  .next (coreRowMet s core 0x72 met)

/-- VST (R88). -/
def execVst (core : Nat) (met : Met) (s : State) : Host.Outcome State Fault Refusal :=
  .next (coreRowMet s core 0x73 met)

/-- VLDA (R120). -/
def execVlda (core : Nat) (met : Met) (s : State) : Host.Outcome State Fault Refusal :=
  .next (coreRowMet s core 0x74 met)

/-- VSTA (R120). -/
def execVsta (core : Nat) (met : Met) (s : State) : Host.Outcome State Fault Refusal :=
  .next (coreRowMet s core 0x75 met)

/-- VMOVG (R588). -/
def execVmovg (core : Nat) (met : Met) (s : State) : Host.Outcome State Fault Refusal :=
  .next (coreRowMet s core 0x76 met)

/-- A word whose opcode Table 4-1 does not list is refused at issue with ILLEGAL_INSN (R59). -/
def reservedIssue (s : State) (n : Nat) : State :=
  let c := core s n
  if canIssue s n && decide (c.pc < c.progLen) && !opListed (opc (wordAt c)) then coreRow s n (opc (wordAt c)) else s

/-- RESERVED_OPCODE_ISSUE (R59). -/
def execReservedOpcodeIssue (core : Nat) (s : State) : Host.Outcome State Fault Refusal := .next (reservedIssue s core)

/-- TILE_PROGRAM_END (R259). -/
def execTileProgramEnd (core : Nat) (s : State) : Host.Outcome State Fault Refusal := .next (tileProgramEnd s core)

/-- LAUNCH_STAMP_REACHED (R281). -/
def execLaunchStampReached (core : Nat) (s : State) : Host.Outcome State Fault Refusal := .next (launchStampReached s core)

/-- WAIT_LIMIT_EXPIRE (R87). -/
def execWaitLimitExpire (core : Nat) (s : State) : Host.Outcome State Fault Refusal := .next (waitLimitExpire s core)

/-- COUNTER_INCREMENT (R81). -/
def execCounterIncrement (core which : Nat) (flit : FlitOut) (s : State) : Host.Outcome State Fault Refusal :=
  .next (counterIncrement s core which flit)

/-- REMOTE_WRITE_LAND (R70). -/
def execRemoteWriteLand (core which : Nat) (flit : FlitOut) (s : State) : Host.Outcome State Fault Refusal := .next (remoteWriteLand s core which flit)


end Sys2Proof.Machine
end

