-- ==== Sys2Proof/Machine/Nose.lean ====
section
/-! DEFINITION. The Nose: restarts (R456, R530, R550), sensors (R531), the mailbox (R521-R524) and its operations (R536-R541),
firmware update. -/

namespace Sys2Proof.Machine

/-- Put the Nose. -/
def setNose (s : State) (n : Nose) : State := { s with nose := n }

/-- Record an error of the Nose block. -/
def noseErr (s : State) (code lo : Nat) : State := recordErr s pgNose code lo 0

/-! ### Restarts -/

/-- The Nose stops and restarts from its ROM, with the cause kept; a staging is discarded (R456, R540). An operation of Table 18-9
holds its partitions until the restart ends it (R438, R523). See R529. DEDUCED (log entry 51). DEDUCED (log entry 54). -/
def noseRestart (s : State) (cause : Nat) (asked : Bool) : State :=
  if (s.nose.mode = 1 ∨ s.nose.mode = 2) ∧ powered s then
    { s with nose := { s.nose with mode := 3, restarting := some (cause, asked, s.accord.master), update := none } }
  else s

/-- NOSE_LOCKSTEP_MISMATCH. -/
def execNoseLockstepMismatch (s : State) : Host.Outcome State Fault Refusal := .next (noseRestart s 0x0C01 false)

/-- NOSE_WATCHDOG_EXPIRE: only with WDOG_EN set. -/
def execNoseWatchdogExpire (s : State) : Host.Outcome State Fault Refusal :=
  .next (if bit s.glob.integCfg 2 then noseRestart s 0x0C02 false else s)

/-- The blotter of a Nose core fault (class 10), written after the restart; the fault was detected at its start (R456). -/
def noseBlotter (s : State) (code at_ : Nat) : State :=
  writeBlotter s { blank 10 code 0xC 6 0 with
    accDetect := at_, infoLo := (hdr s pgNose).infoLo.toNat, infoHi := (hdr s pgNose).infoHi.toNat }

/-- The mailbox operation a restart found in progress ends (R523, R539). -/
def restartMailbox (s : State) (asked : Bool) : State :=
  match s.nose.mb with
  | some m => endModuleOp (mbFinish s m.op (if asked && m.op == 0x54 then 0 else 0x0C03) [])
  | none => s

/-- NOSE_RESTART_DONE (R456, R532, R540, R550, R553): the ROM starts the image in force, or enters RECOVERY; the cause is recorded and
its blotter issued, with those of faults detected meanwhile after it. DEDUCED (log entry 54). -/
def restartDone (s : State) (verdict : Nat) (r : VRead) : State :=
  match s.nose.restarting with
  | none => s
  | some (cause, asked, at_) =>
    let s0 := vialRead (setNose s { s.nose with restarting := none, restarts := s.nose.restarts + 1, cause := BitVec.ofNat 16 cause }) r 1 0
    let s1 := startImage s0 verdict
    let i := s1.vial.map.image
    let s2 := setNose s1 { s1.nose with
      keysReady := s1.nose.keysFor == i.map imageDigest
      cdi1 := match s1.nose.uds, i with
        | some u, some x => some (cdi1Of u x)
        | _, _ => none }
    let s3 := addEvent s2 0xC0000 4 0 cause 0
    let s4 := releaseBlotters (if cause = 0 then s3 else noseBlotter (noseErr s3 cause 0) cause at_)
    let s5 := if asked then raiseEvt (addEvent s4 0xC0000 5 0 0 0x54) pgNose 1 else s4
    restartMailbox (raiseEvt s5 pgNose 0) asked

/-- NOSE_RESTART_DONE. -/
def execNoseRestartDone (verdict : Nat) (r : VRead) (s : State) : Host.Outcome State Fault Refusal := .next (restartDone s verdict r)

/-- ALIAS_KEYS_READY (R553). -/
def execAliasKeysReady (s : State) : Host.Outcome State Fault Refusal :=
  .next (if s.nose.mode = 1 ∧ !s.nose.keysReady then keysMade s else s)

/-! ### Sensors (R531, Table 23-1) -/

/-- Rails of Table 21-2 in order. -/
def railList : List Nat := List.range 10 ++ (List.range 16).map (· + 16) ++ (List.range 4).map (· + 40)

/-- Sensor IDs of Table 23-1 in order. -/
def sensorIds : List Nat := (List.range 124).map (· + 1) ++ railList.map (· + 200) ++ railList.map (· + 300)

/-- Is a sensor available: its site populated, its domain on? -/
def sensorLive (s : State) (id : Nat) : Bool :=
  if id ≤ 72 then dieOn s ((id - 1) / 36)
  else if id ≤ 96 then iodOn s ((id - 73) / 6)
  else if id ≤ 104 then true
  else if id ≤ 120 then siteOn s (id - 105)
  else if id ≤ 124 then true
  else if id < 300 then railLive s (id - 200)
  else railLive s (id - 300)

/-- Level of a value against three rising thresholds. -/
def levelUp (v a b c : Nat) : Nat := if c ≤ v then 3 else if b ≤ v then 2 else if a ≤ v then 1 else 0

/-- Nominal voltage of a rail in mV, where Table 21-2 gives one. DEDUCED (log entry 55). -/
def railNominal (s : State) (r : Nat) : Option Nat :=
  match r with
  | 0 => some 12000
  | 1 => some 750
  | 2 => some 1800
  | 3 => some 3300
  | 4 | 5 => some (match opOf s (r % 2) with
    | 0 => 780
    | 1 => 680
    | _ => 600)
  | 6 | 7 => some 800
  | 8 | 9 => some 1200
  | _ => none

/-- Threshold level of a sensor's value: 0 normal, 1 warning, 2 critical, 3 fatal (Table 23-1). DEDUCED (log entry 55). -/
def sensorLevel (s : State) (id v : Nat) : Nat :=
  if id ≤ 96 then levelUp v 95 100 110
  else if id ≤ 104 then levelUp v 100 110 120
  else if id ≤ 120 then levelUp v 95 100 105
  else if id = 121 then (if v < 33000 ∨ 48000 ≤ v then 2 else if v < 36000 ∨ 44000 < v then 1 else 0)
  else if id = 122 then (if 110000 < v then 2 else 0)
  else if id = 124 then (if v < 33000 then 2 else if v < 43000 then 1 else 0)
  else if 200 ≤ id ∧ id < 300 then
    (match railNominal s (id - 200) with
      | some n => if v * 100 < n * 95 ∨ n * 105 < v * 100 then 1 else 0
      | none => 0)
  else 0

/-- Numeric sensor state of a level, as PLDM type 2 codes it. DEDUCED (log entry 55). -/
def levelState (l : Nat) : Nat := if l = 0 then 1 else 7 + l

/-- PlatformEventMessage of a threshold crossing (R535): a numeric sensor event with the states and the reading. -/
def crossEvent (s : State) (id old new v : Nat) : State :=
  platformEvent s 0 (toBytes 2 id ++ toBytes 1 2 ++ toBytes 1 (levelState new) ++ toBytes 1 (levelState old)
    ++ toBytes 1 4 ++ toBytes 4 v)

/-- One sensor is read: last value, highest value, and an event when its level changes. -/
def readSensor (s : State) (id v : Nat) : State :=
  if !sensorIds.contains id || !sensorLive s id then s
  else
    let hi := (sget (v, v) s.nose.sensors id).2
    let old := sget 0 s.nose.levels id
    let l := sensorLevel s id v
    let s1 := setNose s { s.nose with sensors := sput s.nose.sensors id (v, max hi v), levels := sput s.nose.levels id l }
    if l = old then s1 else crossEvent s1 id old l v

/-- NOSE_SENSOR_POLL (R530, R531): the Nose reads its sensors; `sram` is what its own memory's code finds meanwhile. DEDUCED (log entry 54). -/
def sensorPoll (s : State) (readings : List (Nat × Nat)) (sram : Ecc) : State :=
  if s.nose.mode ≠ 1 || !powered s then s
  else
    let s1 := readings.foldl (fun s e => readSensor s e.1 e.2) s
    match sram with
    | .clean => s1
    | .corrected => setNose s1 { s1.nose with sramCe := s1.nose.sramCe + 1 }
    | .uncorrectable => noseRestart s1 0x0C0C false

/-- NOSE_SENSOR_POLL. -/
def execNoseSensorPoll (readings : List (Nat × Nat)) (sram : Ecc) (s : State) : Host.Outcome State Fault Refusal :=
  .next (sensorPoll s readings sram)

/-! ### The mailbox: starting an operation (R521-R523, R536, R537, R541) -/

/-- BUSY: an operation runs, or the Nose restarts. DEDUCED (log entry 24). -/
def mbBusy (s : State) : Bool := s.nose.mb.isSome || s.nose.restarting.isSome

/-- Does the mailbox accept operations: from stage 4 on, or in RECOVERY (R541, R545)? DEDUCED (log entry 24). -/
def mbServes (s : State) : Bool := powered s && (decide (4 ≤ s.glob.stage.toNat) || s.nose.mode == 2)

/-- Opcodes of Table 23-3. -/
def mbOpcodes : List Nat :=
  [0x01, 0x02, 0x10, 0x11, 0x20, 0x21, 0x30, 0x31, 0x40, 0x41, 0x42, 0x43, 0x50, 0x51, 0x52, 0x53, 0x54, 0x60, 0x70, 0xF0]

/-- 1 MiB. -/
def mib : Nat := 2 ^ 20

/-- Bytes of the drydown buffer (R501). -/
def bufferLen : Nat := 47 * mib

/-- Do the argument and the request length fit the operation (Table 23-3)? -/
def mbArgOk (s : State) (op arg req : Nat) : Bool :=
  match op with
  | 0x01 | 0x40 | 0x70 => arg == 0 && req == 0
  | 0x02 => decide (1 ≤ arg) && decide (arg ≤ 2 ^ 40) && req == 0
  | 0x10 | 0x11 => req == 0
  | 0x20 => arg % 4096 == 0 && decide (arg + req ≤ bufferLen)
  | 0x21 => req == 0 && nfld arg 62 32 == 0 && decide (arg % 2 ^ 32 < (if arg < 2 ^ 63 then bufferLen else mib))
  | 0x30 => req == 0 && decide (arg < 196608)
  | 0x31 => req % 2 ^ 18 == 0 && decide (1 ≤ req / 2 ^ 18) && decide (req / 2 ^ 18 ≤ 4) && decide (arg + req / 2 ^ 18 ≤ 196608)
  | 0x41 => req == 0 && decide (arg < 2 ^ 16)
  | 0x42 => req == 0 && decide (arg < 2 ^ 32)
  | 0x43 => req == 0 && decide (arg < 4) && partExists s arg
  | 0x50 => req == 0 && decide (mib ≤ arg) && decide (arg ≤ 96 * mib)
  | 0x51 => (match s.nose.update with
    | some u => u.path != 1 || decide (arg + req ≤ u.len) || arg != u.done
    | none => true)
  | 0x52 | 0x53 | 0x54 => req == 0
  | 0x60 => req == 0 && decide (arg ≤ s.nose.running.toNat)
  | 0xF0 => nfld arg 62 48 == 0
  | _ => false

/-- Partitions an operation of Table 18-9 affects (R436, R537). -/
def opParts (s : State) (op arg : Nat) : List Nat :=
  let ps := List.range (nParts s)
  match op with
  | 0x40 => ps
  | 0x41 => ps.filter (fun p => (partSites s p).any (fun i => Nat.testBit arg i))
  | 0x42 => ps.filter (fun p => (partPorts s p).any (fun i => Nat.testBit arg i))
  | 0x43 => [arg]
  | _ => []

/-- Is an operation one of R437? -/
def isModuleOp (op : Nat) : Bool := decide (0x40 ≤ op) && decide (op ≤ 0x43)

/-- Is a partition QUIESCED or OFF? -/
def partStill (s : State) (p : Nat) : Bool := decide ((part s p).state = .quiesced) || decide ((part s p).state = .off)

/-- The error with which a start completes at once, if any. -/
def startErr (s : State) (op req arg : Nat) : Option Nat :=
  if mib < req then some 0x0C04
  else if s.nose.mode = 2 then (if op ≠ 0xF0 then some 0x0C0D else if mbArgOk s op arg req then none else some 0x0C06)
  else if !mbOpcodes.contains op || op == 0xF0 then some 0x0C05
  else if !mbArgOk s op arg req then some 0x0C06
  else if isModuleOp op && !(opParts s op arg).all (partStill s) then some 0x0C10
  else none

/-- GO is written 1 (R522): the operation starts, or completes at once with its error. DEDUCED (log entry 24). -/
def mbStart (s : State) : State :=
  if mbBusy s || !mbServes s then s
  else
    let n := s.nose
    let op := n.mbOpcode.toNat
    let arg := n.mbArg.toNat
    let req := n.mbReqLen.toNat
    let s1 := setNose s { n with mbDone := false }
    match startErr s op req arg with
    | some code => mbFinish s1 op code []
    | none =>
      { s1 with
        nose := { s1.nose with mb := some { op := op, arg := arg, req := req, result := none } }
        glob := if isModuleOp op then { s1.glob with moduleOp := BitVec.ofNat 16 op, moduleOpParts := BitVec.ofNat 4 (partBits (opParts s op arg)) }
          else s1.glob }

/-- UNLISTED_MAILBOX_OPCODE (R536): a start with an opcode of no operation. -/
def execUnlistedMailboxOpcode (s : State) : Host.Outcome State Fault Refusal :=
  .next (if mbOpcodes.contains s.nose.mbOpcode.toNat then s else mbStart s)

/-- MAILBOX_COMPLETE (R524): the response is written, DONE set, BUSY cleared. -/
def mailboxComplete (s : State) : State :=
  match s.nose.mb, s.nose.restarting with
  | some m, none =>
    match m.result with
    | some (code, resp) =>
      endModuleOp (mbFinish s m.op code resp)
    | none => s
  | _, _ => s

/-- MAILBOX_COMPLETE. -/
def execMailboxComplete (s : State) : Host.Outcome State Fault Refusal := .next (mailboxComplete s)

/-- The Nose carries out the operation in progress, if it is `op`. -/
def mbRun (s : State) (op : Nat) (f : State → MbOp → State) : State :=
  match s.nose.mb with
  | some m => if m.op = op ∧ m.result.isNone ∧ s.nose.restarting.isNone ∧ powered s then f s m else s
  | none => s

/-- The operation has its result. -/
def mbResult (s : State) (code : Nat) (resp : List Byte) : State :=
  setNose s { s.nose with mb := s.nose.mb.map (fun m => { m with result := some (code, resp) }) }

/-- Request bytes at the start of the data window. -/
def mbRequest (s : State) (m : MbOp) : List Byte := readBytes s.nose.window 0 m.req

/-- n bytes of a value the module makes by cryptography or that the spec leaves open. DESIGN CHOICE (log entry 64). -/
def openBytes (ctr n : Nat) : List Byte := (List.range n).map (fun i => Config.crypto ctr i)

/-! ### Plain operations -/

/-- NOSE_STATE (Table 23-5). -/
def noseState (s : State) : Nat :=
  (s.nose.mode.toNat) + 2 ^ 8 * b2n ((s.nose.update.map (fun u => decide (0 < u.done))).getD false) + 2 ^ 9 * b2n s.faults.utcBase.isSome
    + 2 ^ 10 * ((s.nose.update.map (·.path)).getD 0)

/-- GET_INFO: versions, state, identity; the last 16 of its 64 bytes are not stated, and free. DEDUCED (log entry 24). -/
def execGetInfo (s : State) : Host.Outcome State Fault Refusal :=
  .next (mbRun s 0x01 (fun s _ =>
    bumpFree (mbResult s 0 (toBytes 4 s.nose.running.toNat ++ toBytes 4 s.nose.staged.toNat ++ toBytes 4 s.nose.minVersion.toNat
      ++ toBytes 4 (noseState s) ++ deviceId.drop 16 ++ openBytes s.freeCtr 16))))

/-- SET_TIME (R533). -/
def execSetTime (s : State) : Host.Outcome State Fault Refusal :=
  .next (mbRun s 0x02 (fun s m =>
    mbResult { s with faults := { s.faults with utcBase := some (m.arg, s.accord.master) } } 0 []))

/-- READ_EVENTS (R532, R536). -/
def execReadEvents (s : State) : Host.Outcome State Fault Refusal :=
  .next (mbRun s 0x10 (fun s m =>
    mbResult s 0 (((s.nose.events.filter (fun e => decide (m.arg ≤ e.seq))).take 16384).flatMap eventBytes)))

/-- Slots of the log found forgotten leave it (R482). -/
def dropSlots (v : Vial) (lost : List Nat) : Vial :=
  { v with logPages := v.logPages.map (fun e => (e.1, e.2.map (fun l => l.filter (fun b => !lost.contains b.seq)))) }

/-- READ_BLOTTERS (R482, R536): a forgotten slot is skipped. DEDUCED (log entry 24). -/
def execReadBlotters (r : VRead) (s : State) : Host.Outcome State Fault Refusal :=
  .next (mbRun s 0x11 (fun s m =>
    let lost := r.lost.filter (fun q => (vialLog s.vial).any (fun b => b.seq == q))
    let s1 := vialRead s { r with lost := lost } 4 0
    let s2 := setVial s1 (dropSlots s1.vial lost)
    mbResult s2 0 ((((vialLog s2.vial ++ s2.nose.unlogged).filter (fun b => decide (m.arg ≤ b.seq))).take 512).flatMap blotterBytes)))

/-- STAGE_WRITE (R501, R536). -/
def execStageWrite (s : State) : Host.Outcome State Fault Refusal :=
  .next (mbRun s 0x20 (fun s m =>
    mbResult (setNose s { s.nose with buffer := writeBytes s.nose.buffer m.arg (mbRequest s m) }) 0 []))

/-- The first MiB of a critical set (Table 21-8). -/
def critHeader (c : CritSet) : List Byte :=
  let bs := c.blotters.flatMap blotterBytes
  let es := c.events.flatMap eventBytes
  [toBytes 4 0x5A444844, toBytes 1 c.cause, toBytes 1 c.flags, toBytes 2 0, toBytes 8 c.acc, toBytes 2 c.inputMin, toBytes 2 c.bankMv,
    toBytes 4 c.driverLen, c.partState.flatMap (toBytes 1), c.resetCause.flatMap (toBytes 4), toBytes 4 c.blotters.length, toBytes 8 c.blotSeq,
    toBytes 8 0, bs, List.replicate (65536 - bs.length) 0, es, List.replicate (982976 - es.length) 0].flatten

/-- STAGE_READ (R504, R536). DEDUCED (log entry 56). -/
def execStageRead (s : State) : Host.Outcome State Fault Refusal :=
  .next (mbRun s 0x21 (fun s m =>
    let o := m.arg % 2 ^ 32
    if m.arg < 2 ^ 63 then mbResult s 0 (readBytes s.nose.buffer o (min mib (bufferLen - o)))
    else mbResult s 0 (match s.nose.restored with
      | some c => ((critHeader c).drop o).take mib
      | none => [])))

/-- A forgotten codeword of STORE, numbered unit * 256 + codeword: its bytes are undefined from then on. -/
def loseWord (s : State) (w : Nat) : State :=
  match s.vial.map.place.find? (fun e => e.1 == w / 256) with
  | some (_, b, k) => bumpFree (setVial s { s.vial with flash := loseRange s.vial.flash (b * 2 ^ 22 + k * 2 ^ 18 + w % 256 * 1024) 1024 s.freeCtr })
  | none => s

/-- STORE_READ (R468, R536): up to 4 units; the bytes of a forgotten codeword are free. DEDUCED (log entry 24). -/
def execStoreRead (r : VRead) (s : State) : Host.Outcome State Fault Refusal :=
  .next (mbRun s 0x30 (fun s m =>
    let us := (List.range (min 4 (196608 - m.arg))).map (· + m.arg)
    let lost := r.lost.filter (fun w => us.contains (w / 256) && s.vial.map.place.any (fun e => e.1 == w / 256))
    let s1 := lost.foldl loseWord (vialRead s { r with lost := lost } 5 0)
    mbResult s1 0 (us.flatMap (unitBytes s1.vial))))

/-- STORE_WRITE (R469, R471, R483): whole units go to new places; a block whose program fails is retired first. A write under the
reserve is refused with VIAL_WORN. DEDUCED (log entry 24). -/
def execStoreWrite (failed : Bool) (s : State) : Host.Outcome State Fault Refusal :=
  .next (mbRun s 0x31 (fun s m =>
    if !storeWritable s.vial then mbResult (vialErr s 0x0D02 5 0) 0x0D02 []
    else
      let s1 := match failed, s.vial.map.openBlock with
        | true, some (b, _) =>
          let t := moveBlock s b true
          setVial t (setMap t.vial { t.vial.map with openBlock := none })
        | _, _ => s
      let data := mbRequest s m
      mbResult ((List.range (m.req / 2 ^ 18)).foldl (fun s i => storeUnit s (m.arg + i) ((data.drop (i * 2 ^ 18)).take (2 ^ 18))) s1) 0 []))

/-- READ_SENSORS: last and highest value of each sensor; 0xFFFF_FFFF where unavailable. A sensor not read yet has no stated value. DEDUCED (log entry 24). -/
def execReadSensors (s : State) : Host.Outcome State Fault Refusal :=
  .next (mbRun s 0x70 (fun s _ =>
    bumpFree (mbResult s 0 (sensorIds.flatMap (fun id =>
      let v := if sensorLive s id then sget (Config.freeNum (s.freeCtr + id), Config.freeNum (s.freeCtr + id)) s.nose.sensors id else (0xFFFFFFFF, 0xFFFFFFFF)
      toBytes 4 v.1 ++ toBytes 4 v.2)))))

/-- SET_MIN_VERSION (R477, R538): below the one in force nothing is written; the MAC unit keys the record's MAC with K_min (R551). DEDUCED (log entry 24). -/
def execSetMinVersion (s : State) : Host.Outcome State Fault Refusal :=
  .next (mbRun s 0x60 (fun s m =>
    if m.arg < minVersion s then mbResult (vialErr s 0x0D05 2 0) 0x0D05 []
    else
      let s1 := writeRec s 6 0 (toBytes 4 m.arg ++ toBytes 12 0 ++ versionMac (s.nose.kMin.getD []) (nextGen s.vial 6 0) m.arg)
      mbResult (setNose s1 { s1.nose with minVersion := BitVec.ofNat 32 m.arg }) 0 []))

/-! ### Operations on quiesced partitions (R436-R438, R537) -/

/-- An operation whose work on partition p a reset ended. DEDUCED (log entry 51). -/
def opLost (s : State) (p : Nat) : Bool := !bit s.glob.moduleOpParts p

/-- The operation ends: in error, with a code the spec does not give, when a reset ended its work on an affected partition. DEDUCED (log entry 24). DEDUCED (log entry 51). -/
def opEnd (s : State) (m : MbOp) (resp : List Byte) : State :=
  if (opParts s m.op m.arg).any (opLost s) then bumpFree (mbResult s (1 + Config.freeNum s.freeCtr % 65535) []) else mbResult s 0 resp

/-- CALIBRATE: rail trims, clock and sensor calibration, recorded unless the work ended in error. -/
def execCalibrate (s : State) : Host.Outcome State Fault Refusal :=
  .next (mbRun s 0x40 (fun s m =>
    opEnd (if (opParts s 0x40 m.arg).any (opLost s) then s else writeRec (writeRec s 4 0 []) 5 0 []) m []))

/-- RETRAIN_HBM: the named stacks' training records. -/
def execRetrainHbm (s : State) : Host.Outcome State Fault Refusal :=
  .next (mbRun s 0x41 (fun s m =>
    let is := (sites s).filter (fun i => Nat.testBit m.arg i && (match partOfSite s i with
      | some p => !opLost s p
      | none => false))
    opEnd (is.foldl (fun s i => writeRec s 3 i []) s) m []))

/-- RECAL_PORTS: the named ports of the affected partitions start a full equalisation search. DEDUCED (log entry 56). -/
def execRecalPorts (s : State) : Host.Outcome State Fault Refusal :=
  .next (mbRun s 0x42 (fun s m =>
    let ps := (List.range 32).filter (fun i => Nat.testBit m.arg i && portUp s i && (match portOwner s i with
      | some p => !opLost s p
      | none => false))
    opEnd (ps.foldl (fun s i => modPort s i (fun p => { clearLink p s.time with st := .training, lanes := 0, width := 0, peer := 0 })) s) m []))

/-- Does a self-test result differ from the map in force on partition p's cores? -/
def mapDiffers (s : State) (p : Nat) (disabled : List Nat) (narrowed : List (Nat × Nat)) : Bool :=
  let mine := s.glob.disabled.filter (inPart s p)
  let thin := s.glob.narrowed.filter (fun e => inPart s p e.1)
  !(mine.all disabled.contains && disabled.all mine.contains && thin.all narrowed.contains && narrowed.all thin.contains)

/-- SELFTEST (R537): the partition's cores, SRAMs and stacks are tested; HBM contents there become undefined (R422 lets a self-test
clear no scratchpad). The rest of the 64-byte result is not stated, and free. DEDUCED (log entry 56). -/
def execSelftest (pass : Bool) (disabled : List Nat) (narrowed : List (Nat × Nat)) (rowsDiffer : Bool) (s : State) : Host.Outcome State Fault Refusal :=
  .next (mbRun s 0x43 (fun s m =>
    let p := m.arg
    let s1 := { s with mem := loseRange s.mem (hbmBase s p * gib64) (hbmSize s p * gib64) s.freeCtr, freeCtr := s.freeCtr + 2 }
    opEnd s1 m (toBytes 1 (b2n pass) ++ openBytes (s.freeCtr + 1) 1 ++ toBytes 2 disabled.length ++ toBytes 2 narrowed.length
      ++ toBytes 1 (b2n (mapDiffers s p disabled narrowed || rowsDiffer)) ++ (openBytes (s.freeCtr + 1) 58).drop 1)))

/-! ### Firmware update (R539-R541) -/

/-- Blocks an image of n bytes and its parity take. -/
def imageBlocks (n : Nat) : Nat := cdiv (cdiv (n * 8) 7) (4 * mib)

/-- IMAGE blocks that the map does not name, those awaiting their erase included, in order of lowest erase count (R470, R539). -/
def unnamedBlocks (v : Vial) : List Nat :=
  sortBy (fun b => (vblock v b).erases) ((regionBlocks v 1).filter (fun b => !(vblock v b).live))

/-- Blocks for a staging, where IMAGE holds enough (R539, R543). -/
def stagingBlocks (v : Vial) (k : Nat) : Option (List Nat) :=
  let l := unnamedBlocks v
  if l.length < k then none else some (l.take k)

/-- A staging is discarded: its blocks go back unnamed. -/
def dropStaging (s : State) : State := setNose s { s.nose with update := none }

/-- An update step completes: the event log and UPDATE. DEDUCED (log entry 56). -/
def updateStep (s : State) (op code : Nat) : State := raiseEvt (addEvent s 0xC0000 5 0 code op) pgNose 1

/-- A staging begins on a path: blocks are taken and erased; none when they cannot be found. -/
def beginUpdate (s : State) (path len : Nat) : Option State :=
  match stagingBlocks s.vial (imageBlocks len) with
  | none => none
  | some l =>
    let s1 := l.foldl eraseBlock s
    some (setNose s1 { s1.nose with update := some { path := path, len := len, done := 0, bytes := { cells := [], holes := [] }, blocks := l } })

/-- Is an update in progress on another path? -/
def otherPath (s : State) (path : Nat) : Bool := match s.nose.update with
  | some u => u.path != path
  | none => false

/-- FW_BEGIN. -/
def execFwBegin (s : State) : Host.Outcome State Fault Refusal :=
  .next (mbRun s 0x50 (fun s m =>
    if otherPath s 1 then mbResult s 0x0C0A []
    else match beginUpdate (dropStaging s) 1 m.arg with
      | none => mbResult (updateStep (dropStaging s) 0x50 0x0C0B) 0x0C0B []
      | some s1 => mbResult (updateStep s1 0x50 0) 0 []))

/-- More bytes of a staging. -/
def stageBytes (s : State) (u : Update) (o : Nat) (bs : List Byte) : State :=
  setNose s { s.nose with update := some { u with done := o + bs.length, bytes := writeBytes u.bytes o bs } }

/-- The staging block whose program fails is retired; another unnamed block takes its place, none when IMAGE has no more (R471). -/
def swapStaging (s : State) (u : Update) (failed : Bool) : Option (State × Update) :=
  if !failed || u.blocks.isEmpty then some (s, u)
  else
    let b := nth u.blocks (imageBlocks u.done - 1)
    let v := retireBlock s.vial b
    match (unnamedBlocks v).find? (fun c => !u.blocks.contains c) with
    | some c => some (anchorWrite (setVial s v), { u with blocks := u.blocks.map (fun x => if x = b then c else x) })
    | none => none

/-- FW_DATA (R539): the bytes are programmed. A staging that a failed block leaves without room is discarded. -/
def execFwData (failed : Bool) (s : State) : Host.Outcome State Fault Refusal :=
  .next (mbRun s 0x51 (fun s m =>
    match s.nose.update with
    | none => mbResult (updateStep s 0x51 0x0C07) 0x0C07 []
    | some u =>
      if u.path ≠ 1 then mbResult (updateStep s 0x51 0x0C07) 0x0C07 []
      else if m.arg ≠ u.done then mbResult (updateStep (dropStaging s) 0x51 0x0C07) 0x0C07 []
      else match swapStaging s u failed with
        | some (t, w) => mbResult (updateStep (stageBytes t w m.arg (mbRequest s m)) 0x51 0) 0 []
        | none => mbResult (updateStep (dropStaging s) 0x51 0x0C0B) 0x0C0B []))

/-- The staged image as the ROM reads its header (Table 24-3). -/
def stagedImage (u : Update) : Image :=
  { version := readLe u.bytes 4 4, len := readLe u.bytes 8 8, bytes := u.bytes }

/-- The first condition of R549 a staged image fails; conditions 1 and 5 are computed, 2 to 4 are what cryptography finds. DEDUCED (log entry 24). -/
def stagedVerdict (s : State) (u : Update) (verdict : Nat) : Nat :=
  let i := stagedImage u
  let nose := readLe u.bytes 64 4
  if readLe u.bytes 0 4 ≠ 0x5A465750 ∨ i.len < 32768 + nose ∨ 96 * mib < i.len then 1
  else if 2 ≤ verdict ∧ verdict ≤ 4 then verdict
  else if i.version < minVersion s then 5
  else 0

/-- Place of block b among some. -/
def placeAmong (l : List Nat) (b : Nat) : Nat := (l.findIdx? (· == b)).getD 0

/-- The map names the new image in one ANCHOR write; the old image's blocks await their erase (R539). -/
def switchImage (s : State) (u : Update) : State :=
  let v := s.vial
  let turn := fun (w : Vial) (b : Nat) =>
    let x := vblock v b
    if u.blocks.contains b then putBlock w b { x with live := true, stale := false, unit := placeAmong u.blocks b, born := v.map.births }
    else if x.live then putBlock w b { x with live := false, stale := true, unit := noUnit }
    else w
  let v1 := (regionBlocks v 1).foldl turn v
  let t := anchorWrite (setVial s (setMap v1 { v1.map with image := some (stagedImage u), births := v.map.births + 1 }))
  setNose t { t.nose with update := none, staged := BitVec.ofNat 32 (stagedImage u).version }

/-- The staged image is verified and, when it passes, becomes the one image; the code with which the step completes. DEDUCED (log entry 24). -/
def commitUpdate (s : State) (u : Update) (verdict : Nat) : State × Nat :=
  let c := stagedVerdict s u verdict
  if c = 0 then (switchImage s u, 0)
  else (noseErr (dropStaging s) 0x0C0E c, if c = 5 then 0x0C09 else 0x0C08)

/-- FW_COMMIT. -/
def execFwCommit (verdict : Nat) (r : VRead) (s : State) : Host.Outcome State Fault Refusal :=
  .next (mbRun s 0x52 (fun s0 _ =>
    let s := if s0.nose.update.isSome then vialRead s0 r 1 0 else s0
    match s.nose.update with
    | none => mbResult (updateStep s 0x52 0x0C07) 0x0C07 []
    | some u =>
      if u.path ≠ 1 ∨ u.done ≠ u.len then mbResult (updateStep s 0x52 0x0C07) 0x0C07 []
      else
        let e := commitUpdate s u verdict
        mbResult (updateStep e.1 0x52 e.2) e.2 []))

/-- FW_ABORT: the mailbox's staging, if any, is discarded. -/
def execFwAbort (s : State) : Host.Outcome State Fault Refusal :=
  .next (mbRun s 0x53 (fun s _ => mbResult (if otherPath s 1 then s else dropStaging s) 0 []))

/-- FW_ACTIVATE: the Nose restarts into the committed image; the operation ends with the restart. -/
def execFwActivate (s : State) : Host.Outcome State Fault Refusal := .next (mbRun s 0x54 (fun s _ => noseRestart s 0 true))

/-- A staging of RECOVERY_LOAD that takes a piece at offset o: offset 0 begins a new load. -/
def recoveryUpdate (s : State) (o : Nat) : Option Update :=
  if o = 0 then some { path := 3, len := 0, done := 0, bytes := { cells := [], holes := [] }, blocks := ((unnamedBlocks s.vial).take (imageBlocks (96 * mib))) }
  else match s.nose.update with
    | some u => if u.path = 3 ∧ u.done = o then some u else none
    | none => none

/-- The ROM boots the loaded image (R541). -/
def bootLoaded (s : State) : State :=
  let s1 := startImage s 0
  keysMade (if s1.glob.stage = 2 then { s1 with glob := { s1.glob with stage := 5 } } else s1)

/-- RECOVERY_LOAD. -/
def execRecoveryLoad (verdict : Nat) (s : State) : Host.Outcome State Fault Refusal :=
  .next (mbRun s 0xF0 (fun s m =>
    let o := m.arg % 2 ^ 48
    match recoveryUpdate s o with
    | none => mbResult (updateStep (dropStaging s) 0xF0 0x0C07) 0x0C07 []
    | some u =>
      let s1 := stageBytes s u o (mbRequest s m)
      if m.arg < 2 ^ 63 then mbResult (updateStep s1 0xF0 0) 0 []
      else match s1.nose.update with
        | none => s1
        | some w =>
          let r := commitUpdate s1 w verdict
          let s2 := mbResult (updateStep r.1 0xF0 r.2) r.2 []
          if r.2 = 0 then bootLoaded s2 else s2))

end Sys2Proof.Machine
end

