-- ==== Sys2Proof/Machine/Manage.lean ====
section
/-! DEFINITION. Management and attestation: MCTP and PLDM (R534, R535), the DOE instance (R507) and SPDM (R553-R555). The places of
fields inside MCTP, PLDM, DOE and SPDM messages are those of the DMTF and PCIe specifications. A secured message appears in the
output as it stands before its protection. -/

namespace Sys2Proof.Machine

/-! ### MCTP (R534) -/

/-- Does the firmware serve MCTP, DOE and SPDM (R541, R544, R548)? -/
def manageServes (s : State) : Bool := powered s && s.nose.mode == 1

/-- Can a message arrive on a binding: 0 PCIe, 1 I3C? -/
def bindingUp (s : State) (b : Nat) : Bool :=
  manageServes s && ((b == 0 && s.pcie.linkUp) || (b == 1 && s.nose.i3cAddr.isSome))

/-- I3C_DYNAMIC_ADDRESS (R534). -/
def execI3cDynamicAddress (addr : Nat) (s : State) : Host.Outcome State Fault Refusal :=
  .next (if powered s then setNose s { s.nose with i3cAddr := some (addr % 128) } else s)

/-- Data and new state of a control command (completion code first). PRESUMED (log entry 25). -/
def controlAnswer (s : State) (b cmd : Nat) (data : List Byte) : State × List Byte :=
  match cmd with
  | 1 =>
    let e := leAt data 1 1
    if 8 ≤ e ∧ e ≤ 254 then (setNose s { s.nose with eids := sput s.nose.eids b (BitVec.ofNat 8 e) }, toBytes 1 0 ++ toBytes 1 0 ++ toBytes 1 e ++ toBytes 1 0)
    else (s, toBytes 1 2)
  | 2 => (s, toBytes 1 0 ++ [sget 0 s.nose.eids b] ++ toBytes 2 0)
  | 3 => (s, toBytes 1 0 ++ deviceId.take 16)
  | 4 => (bumpFree s, toBytes 1 0 ++ toBytes 1 1 ++ openBytes s.freeCtr 4)
  | 5 => (s, toBytes 1 0 ++ toBytes 1 4 ++ toBytes 1 0 ++ toBytes 1 1 ++ toBytes 1 5 ++ toBytes 1 6)
  | _ => (s, toBytes 1 5)

/-- MCTP_CONTROL: a control request of endpoint `eid` on a binding; the first byte of `data` is the command's first data byte. -/
def execMctpControl (binding eid tag cmd : Nat) (data : List Byte) (s : State) : Host.Outcome State Fault Refusal :=
  .next (if bindingUp s binding then
    let r := controlAnswer s binding cmd data
    mctpOut r.1 binding eid 0 (toBytes 1 (tag % 32) ++ toBytes 1 cmd ++ r.2)
  else s)

/-! ### PLDM (R535) -/

/-- A PLDM answer. PRESUMED (log entry 25). -/
def pldmOut (s : State) (b e tag ty cmd : Nat) (bytes : List Byte) : State :=
  mctpOut s b e 1 (toBytes 1 (tag % 32) ++ toBytes 1 ty ++ toBytes 1 cmd ++ bytes)

/-- Commands of a PLDM type the Nose answers, as the bit map of GetPLDMCommands. -/
def pldmCommands (ty : Nat) : Nat :=
  match ty with
  | 0 => 2 + 4 + 8 + 16 + 32
  | 2 => 2 ^ 4 + 2 ^ 17
  | 5 => 2 ^ 16 + 2 ^ 26
  | _ => 0

/-- PLDM_DISCOVERY: type 0. PRESUMED (log entry 25). -/
def discoveryAnswer (s : State) (cmd : Nat) (data : List Byte) : State × List Byte :=
  match cmd with
  | 1 => (setNose s { s.nose with tid := BitVec.ofNat 8 (leAt data 0 1) }, toBytes 1 0)
  | 2 => (s, toBytes 1 0 ++ [s.nose.tid])
  | 3 => (bumpFree s, toBytes 1 0 ++ toBytes 4 0 ++ toBytes 1 5 ++ openBytes s.freeCtr 8)
  | 4 => (s, toBytes 1 0 ++ toBytes 8 0x25)
  | 5 => (s, toBytes 1 0 ++ toBytes 32 (pldmCommands (leAt data 0 1)))
  | _ => (s, toBytes 1 5)

/-- Part number of the assembly (Table 0-1), in ASCII. -/
def partNumber : Variant → List Byte
  | .m12l2 => [0x5A, 0x53, 0x38, 0x2D, 0x4D, 0x31, 0x32, 0x4C, 0x32]
  | .m16l2 => [0x5A, 0x53, 0x38, 0x2D, 0x4D, 0x31, 0x36, 0x4C, 0x32]
  | .m8l4 => [0x5A, 0x53, 0x38, 0x2D, 0x4D, 0x38, 0x4C, 0x34]

/-- The module's FRU record (R2): record set 1, a general record with one field, the part number. PRESUMED (log entry 25). -/
def fruRecord (v : Variant) : List Byte :=
  let n := partNumber v
  toBytes 2 1 ++ toBytes 1 1 ++ toBytes 1 1 ++ toBytes 1 1 ++ toBytes 1 3 ++ toBytes 1 n.length ++ n

/-- GetFRURecordTableMetadata (1) and GetFRURecordTable (2); the checksum is free. PRESUMED (log entry 25). -/
def fruAnswer (s : State) (cmd : Nat) : List Byte :=
  let r := fruRecord s.variant
  match cmd with
  | 1 => toBytes 1 0 ++ toBytes 1 1 ++ toBytes 1 0 ++ toBytes 4 1024 ++ toBytes 4 r.length ++ toBytes 2 1 ++ toBytes 2 1 ++ openBytes s.freeCtr 4
  | 2 => toBytes 1 0 ++ toBytes 4 0 ++ toBytes 1 5 ++ r ++ openBytes s.freeCtr 4
  | _ => toBytes 1 5

/-- PLDM_DISCOVERY: type 0, and the FRU record by which the module reports its part number (R2). Of another type a request is
answered as unsupported. -/
def execPldmDiscovery (binding eid tag ty cmd : Nat) (data : List Byte) (s : State) : Host.Outcome State Fault Refusal :=
  .next (if bindingUp s binding then
    (if ty = 0 then
      let r := discoveryAnswer s cmd data
      pldmOut r.1 binding eid tag 0 cmd r.2
    else if ty = 4 then bumpFree (pldmOut s binding eid tag 4 cmd (fruAnswer s cmd))
    else pldmOut s binding eid tag ty cmd (toBytes 1 0x20))
  else s)

/-- GetSensorReading of a numeric sensor: its operational state, event state and last value. PRESUMED (log entry 25). -/
def sensorAnswer (s : State) (id : Nat) : List Byte :=
  if !sensorIds.contains id then toBytes 1 0x80
  else if !sensorLive s id then toBytes 1 0 ++ toBytes 1 4 ++ toBytes 1 3 ++ toBytes 1 0 ++ toBytes 3 0 ++ toBytes 4 0
  else
    let st := levelState (sget 0 s.nose.levels id)
    toBytes 1 0 ++ toBytes 1 4 ++ toBytes 1 0 ++ toBytes 1 1 ++ toBytes 1 st ++ toBytes 1 st ++ toBytes 1 st
      ++ toBytes 4 (sget (Config.freeNum s.freeCtr, 0) s.nose.sensors id).1

/-- PLDM_SENSOR_READ. -/
def execPldmSensorRead (binding eid tag sensor : Nat) (s : State) : Host.Outcome State Fault Refusal :=
  .next (if bindingUp s binding then bumpFree (pldmOut s binding eid tag 2 0x11 (sensorAnswer s sensor)) else s)

/-- PLDM_SET_EVENT_RECEIVER: the receiver of platform events, or none. -/
def execPldmSetEventReceiver (binding eid tag : Nat) (enable : Bool) (receiver : Nat) (s : State) : Host.Outcome State Fault Refusal :=
  .next (if bindingUp s binding then
    pldmOut (setNose s { s.nose with receiver := if enable then some (binding, receiver) else none }) binding eid tag 2 4 (toBytes 1 0)
  else s)

/-- PLDM_REQUEST_UPDATE (R539): an update begins on the PLDM path, or is refused while another is in progress. PRESUMED (log entry 25). -/
def execPldmRequestUpdate (binding eid tag len : Nat) (s : State) : Host.Outcome State Fault Refusal :=
  .next (if bindingUp s binding then
    if s.nose.update.isSome then pldmOut s binding eid tag 5 0x10 (toBytes 1 0x81)
    else if len < mib ∨ 96 * mib < len then pldmOut s binding eid tag 5 0x10 (toBytes 1 2)
    else match beginUpdate s 2 len with
      | none => pldmOut (bumpFree (updateStep s 0x10 0x0C0B)) binding eid tag 5 0x10 (toBytes 1 (1 + Config.freeNum s.freeCtr % 255))
      | some s1 => pldmOut (updateStep s1 0x10 0) binding eid tag 5 0x10 (toBytes 1 0 ++ toBytes 2 0 ++ toBytes 1 0)
  else s)

/-- PLDM_ACTIVATE_FIRMWARE (R535, R539): the image transferred since RequestUpdate is verified and committed, and the Nose restarts into
it; an image that fails is discarded. PRESUMED (log entry 25). -/
def execPldmActivateFirmware (binding eid tag : Nat) (image : List Byte) (verdict : Nat) (s : State) : Host.Outcome State Fault Refusal :=
  .next (if bindingUp s binding then
    match s.nose.update with
    | some u =>
      if u.path ≠ 2 ∨ image.length ≠ u.len then pldmOut (bumpFree s) binding eid tag 5 0x1A (toBytes 1 (1 + Config.freeNum s.freeCtr % 255))
      else
        let r := commitUpdate s { u with done := u.len, bytes := writeBytes u.bytes 0 image } verdict
        let s1 := updateStep r.1 0x1A r.2
        if r.2 = 0 then noseRestart (pldmOut s1 binding eid tag 5 0x1A (toBytes 1 0 ++ toBytes 2 0)) 0 true
        else pldmOut (bumpFree s1) binding eid tag 5 0x1A (toBytes 1 (1 + Config.freeNum s.freeCtr % 255))
    | none => pldmOut (bumpFree s) binding eid tag 5 0x1A (toBytes 1 (1 + Config.freeNum s.freeCtr % 255))
  else s)

/-! ### DOE (R507) -/

/-- DOE_DISCOVERY: entry `index` of the three protocols. PRESUMED (log entry 25). -/
def execDoeDiscovery (index : Nat) (s : State) : Host.Outcome State Fault Refusal :=
  .next (if manageServes s && s.pcie.linkUp then
    let dw := if index < 3 then toBytes 2 1 ++ toBytes 1 index ++ toBytes 1 (if index < 2 then index + 1 else 0) else toBytes 2 0xFFFF ++ toBytes 2 0
    { s with out := s.out ++ [.mgmt 0 (toBytes 2 1 ++ toBytes 2 0 ++ toBytes 4 3 ++ dw)] }
  else s)

/-! ### SPDM (R553-R555) -/

/-- Can a request arrive on a transport: 0 DOE, 1 MCTP over PCIe, 2 MCTP over I3C? -/
def spdmUp (s : State) (t : Nat) : Bool :=
  manageServes s && ((decide (t ≤ 1) && s.pcie.linkUp) || (t == 2 && s.nose.i3cAddr.isSome))

/-- The connection of a transport. -/
def conn (s : State) (t : Nat) : Spdm := sget Spdm.reset s.nose.spdm t

/-- Put a connection. -/
def setConn (s : State) (t : Nat) (c : Spdm) : State := setNose s { s.nose with spdm := sput s.nose.spdm t c }

/-- Send a response on a transport to the requester's endpoint; every response uses a fresh number for what in it is free. PRESUMED (log entry 25). -/
def spdmOut (s : State) (t e : Nat) (bytes : List Byte) : State :=
  bumpFree (if t = 0 then { s with out := s.out ++ [.mgmt (if (conn s 0).session then 2 else 1) bytes] }
    else mctpOut s (t - 1) e (if (conn s t).session then 6 else 5) bytes)

/-- A response's first four bytes. PRESUMED (log entry 25). -/
def spdmHead (v code p1 p2 : Nat) : List Byte := toBytes 1 v ++ toBytes 1 code ++ toBytes 1 p1 ++ toBytes 1 p2

/-- ERROR with a code. PRESUMED (log entry 25). -/
def spdmError (s : State) (t e code : Nat) : State := spdmOut s t e (spdmHead (max 0x10 (conn s t).version) 0x7F code 0)

/-- A request past GET_CAPABILITIES: ResponseNotReady until the alias keys are ready (R553), UnexpectedRequest before its turn. -/
def spdmStep (s : State) (t e : Nat) (turn : Spdm → Bool) (f : Spdm → State) : State :=
  if !spdmUp s t then s
  else if !s.nose.keysReady then spdmError s t e 0x42
  else if turn (conn s t) then f (conn s t)
  else spdmError s t e 4

/-- SPDM_GET_VERSION: the connection starts anew; versions 1.0 to 1.3. -/
def execSpdmGetVersion (transport eid : Nat) (s : State) : Host.Outcome State Fault Refusal :=
  .next (if spdmUp s transport then
    spdmOut (setConn s transport Spdm.reset) transport eid
      (spdmHead 0x10 0x04 0 0 ++ toBytes 1 0 ++ toBytes 1 4 ++ toBytes 2 0x1000 ++ toBytes 2 0x1100 ++ toBytes 2 0x1200 ++ toBytes 2 0x1300)
  else s)

/-- SPDM_GET_CAPABILITIES: CTExponent 21; certificates, challenge, signed measurements, encryption, key exchange, heartbeat, key update. -/
def execSpdmGetCapabilities (transport eid version : Nat) (s : State) : Host.Outcome State Fault Refusal :=
  .next (if spdmUp s transport then
    if version < 0x10 ∨ 0x13 < version then spdmError s transport eid 0x41
    else spdmOut (setConn s transport { Spdm.reset with version := version, caps := true }) transport eid
      (spdmHead version 0x61 0 0 ++ toBytes 1 0 ++ toBytes 1 21 ++ toBytes 2 0 ++ toBytes 4 0x62D6
        ++ (if 0x12 ≤ version then openBytes s.freeCtr 8 else []))
  else s)

/-- SPDM_NEGOTIATE_ALGORITHMS: RSAPSS_3072, SHA_384, secp384r1, AES-256-GCM, DMTF measurements. -/
def execSpdmNegotiateAlgorithms (transport eid : Nat) (s : State) : Host.Outcome State Fault Refusal :=
  .next (spdmStep s transport eid (fun c => c.caps) (fun c =>
    spdmOut (setConn s transport { c with algs := true }) transport eid
      (spdmHead c.version 0x63 2 0 ++ toBytes 2 44 ++ toBytes 1 1 ++ toBytes 1 0 ++ toBytes 4 4 ++ toBytes 4 8 ++ toBytes 4 2 ++ toBytes 12 0
        ++ toBytes 4 0 ++ toBytes 1 2 ++ toBytes 1 0x20 ++ toBytes 2 0x10 ++ toBytes 1 3 ++ toBytes 1 0x20 ++ toBytes 2 2)))

/-- SPDM_GET_DIGESTS: slots 0 and 1. -/
def execSpdmGetDigests (transport eid : Nat) (s : State) : Host.Outcome State Fault Refusal :=
  .next (spdmStep s transport eid (fun c => c.algs) (fun c =>
    spdmOut s transport eid (spdmHead c.version 0x01 3 3 ++ openBytes s.freeCtr 96)))

/-- SPDM_GET_CERTIFICATE: a portion of the chain in slot 0 or 1; its length and contents are the silicon's. -/
def execSpdmGetCertificate (transport eid slot len : Nat) (s : State) : Host.Outcome State Fault Refusal :=
  .next (spdmStep s transport eid (fun c => c.algs) (fun c =>
    if 1 < slot then spdmError s transport eid 1
    else
      let n := min len 1024
      spdmOut s transport eid (spdmHead c.version 0x02 slot 0 ++ toBytes 2 n ++ toBytes 2 (Config.freeNum s.freeCtr) ++ openBytes s.freeCtr n)))

/-- SPDM_CHALLENGE: signed under slot 0 only. -/
def execSpdmChallenge (transport eid slot : Nat) (s : State) : Host.Outcome State Fault Refusal :=
  .next (spdmStep s transport eid (fun c => c.algs) (fun c =>
    if slot ≠ 0 then spdmError s transport eid 1
    else spdmOut s transport eid (spdmHead c.version 0x03 0 1 ++ openBytes s.freeCtr 128 ++ toBytes 2 0 ++ openBytes (s.freeCtr + 1) 384)))

/-- A measurement block: index, DMTF specification, size, value type, value. The low bits of the value type are not stated. PRESUMED (log entry 25). -/
def measBlock (ctr idx : Nat) (raw : Bool) (value : List Byte) : List Byte :=
  let k := (Config.crypto ctr (1000 + idx)).toNat % 128
  toBytes 1 idx ++ toBytes 1 1 ++ toBytes 2 (value.length + 3) ++ toBytes 1 (k + 128 * b2n raw) ++ toBytes 2 value.length ++ value

/-- The repair map payload in force (R537). -/
def mapInForce (s : State) : List Byte := mapPayload s.glob.disabled s.glob.narrowed s.glob.mapRows

/-- The blocks of Table 24-6 but for the companion signature. -/
def measBlocks (s : State) : List (Nat × List Byte) :=
  let c := s.freeCtr
  [(1, measBlock c 1 false (keyBytes (Config.sha ((List.range 48).map Config.romLayer)))),
   (2, measBlock c 2 false (s.nose.keysFor.getD [])),
   (3, measBlock c 3 true (toBytes 4 s.nose.running.toNat ++ toBytes 4 s.nose.minVersion.toNat ++ toBytes 4 s.nose.staged.toNat)),
   (4, measBlock c 4 true (toBytes 4 (siteMap s) ++ toBytes 4 (coreSummary s) ++ keyBytes (Config.sha (mapInForce s)))),
   (5, measBlock c 5 true (toBytes 4 (noseState s)))]

/-- Blocks a request selects: all with index 0xFF, followed by block 0xF0 when the response is signed (R555). -/
def measSelect (s : State) (index : Nat) (signed : Bool) : List (List Byte) :=
  if index = 0xFF then (measBlocks s).map (·.2) ++ (if signed then [measBlock s.freeCtr 0xF0 true (openBytes (s.freeCtr + 2) 16224)] else [])
  else ((measBlocks s).filter (fun e => e.1 == index)).map (·.2)

/-- SPDM_GET_MEASUREMENTS (R555): index 0 asks for the number of blocks; a signed response carries nonce and signature. -/
def execSpdmGetMeasurements (transport eid index : Nat) (signed : Bool) (s : State) : Host.Outcome State Fault Refusal :=
  .next (spdmStep s transport eid (fun c => c.algs) (fun c =>
    let bs := measSelect s index signed
    if index ≠ 0 ∧ bs.isEmpty then spdmError s transport eid 1
    else
      let r := bs.flatten
      bumpFree (bumpFree (bumpFree (spdmOut s transport eid (spdmHead c.version 0x60 (if index = 0 then 6 else 0) 0 ++ toBytes 1 bs.length
        ++ toBytes 3 r.length ++ r ++ openBytes (s.freeCtr + 3) 32 ++ toBytes 2 0 ++ (if signed then openBytes (s.freeCtr + 4) 384 else [])))))))

/-- SPDM_KEY_EXCHANGE: the handshake begins. -/
def execSpdmKeyExchange (transport eid : Nat) (s : State) : Host.Outcome State Fault Refusal :=
  .next (spdmStep s transport eid (fun c => c.algs && !c.session) (fun c =>
    spdmOut (setConn s transport { c with handshake := true }) transport eid (spdmHead c.version 0x64 0 0 ++ openBytes s.freeCtr 614)))

/-- SPDM_FINISH: the session is established when the requester's verify data are good. DESIGN CHOICE (log entry 64). -/
def execSpdmFinish (transport eid : Nat) (good : Bool) (s : State) : Host.Outcome State Fault Refusal :=
  .next (spdmStep s transport eid (fun c => c.handshake) (fun c =>
    if good then spdmOut (setConn s transport { c with handshake := false, session := true, updates := 0 }) transport eid (spdmHead c.version 0x65 0 0)
    else spdmError (setConn s transport { c with handshake := false }) transport eid 6))

/-- SPDM_HEARTBEAT. -/
def execSpdmHeartbeat (transport eid : Nat) (s : State) : Host.Outcome State Fault Refusal :=
  .next (spdmStep s transport eid (fun c => c.session) (fun c => spdmOut s transport eid (spdmHead c.version 0x68 0 0)))

/-- SPDM_KEY_UPDATE: operations 1 to 3; 1 and 2 change keys. -/
def execSpdmKeyUpdate (transport eid op tag : Nat) (s : State) : Host.Outcome State Fault Refusal :=
  .next (spdmStep s transport eid (fun c => c.session) (fun c =>
    if op = 0 ∨ 3 < op then spdmError s transport eid 1
    else spdmOut (setConn s transport { c with updates := if op < 3 then c.updates + 1 else c.updates }) transport eid (spdmHead c.version 0x69 op tag)))

/-- SPDM_END_SESSION. -/
def execSpdmEndSession (transport eid : Nat) (s : State) : Host.Outcome State Fault Refusal :=
  .next (spdmStep s transport eid (fun c => c.session) (fun c =>
    setConn (spdmOut s transport eid (spdmHead c.version 0x6C 0 0)) transport { c with session := false }))

end Sys2Proof.Machine
end

