-- ==== Sys2Proof/Machine/HostRead.lean ====
section
/-! DEFINITION. The register pages as read (R7, R8, R512-R514, R562-R566, Table 22-3): one list of registers per page, each with
its offset, its bytes and its value. -/

namespace Sys2Proof.Machine

/-- A register of a page: offset, bytes (4, 8, or 16 for the registers of a queue) and value. -/
abbrev RegRow := Nat × Nat × Nat

/-- A 4-byte register. -/
def r4 (o v : Nat) : RegRow := (o, 4, v)
/-- An 8-byte register. -/
def r8 (o v : Nat) : RegRow := (o, 8, v)

/-- Word at a 4-byte offset of a list of registers: offsets no register takes read 0 (R8, R562). -/
def wordAtOff (l : List RegRow) (o : Nat) : Nat :=
  match l.find? (fun e => decide (e.1 ≤ o) && decide (o < e.1 + e.2.1)) with
  | some e => (e.2.2 >>> (8 * (o - e.1))) % 2 ^ 32
  | none => 0

/-- A row of n registers of k bytes from offset o. -/
def regArray (o k n : Nat) (f : Nat → Nat) : List RegRow := (List.range n).map (fun i => (o + k * i, k, f i))

/-- The common header (Table 22-4); BLK_STATUS is SRAM_CE on core pages (R452). -/
def headerRegs (s : State) (pg : Nat) : List RegRow :=
  let h := hdr s pg
  let blk := match pageType pg with
    | some (2, n) => (core s n).sramCe.toNat
    | _ => 0
  [r4 0x00 (pageId pg), r4 0x04 0x100, r4 0x08 blk, r4 0x0C (h.vector.toNat * 2 ^ 16 + b2n h.irqEn), r4 0x10 h.raw.toNat,
   r4 0x14 (pend h).toNat, r4 0x18 h.en.toNat, r4 0x20 h.errFirst.toNat, r4 0x24 h.errCount.toNat, r4 0x28 h.infoLo.toNat,
   r4 0x2C h.infoHi.toNat, r4 0x34 (b2n h.locked)]

/-- PORT_OWNERx (Table 1-6). -/
def portOwnerReg (s : State) (x : Nat) : Nat := unlanes 4 ((List.range 8).map (fun y => portOwnerField s (8 * x + y)))

/-- Module global page (Tables 25-2, 19-6, 24-9). See R19, R461, R560. -/
def globRegs (s : State) : List RegRow :=
  let g := s.glob
  [r4 0x40 (siteMap s), r4 0x44 (coreSummary s), r4 0x48 g.partMode.toNat, r4 0x50 (portOwnerReg s 0), r4 0x54 (portOwnerReg s 1),
   r4 0x58 (portOwnerReg s 2), r4 0x5C (portOwnerReg s 3), r4 0x60 g.integCfg.toNat, r4 0x64 (g.full.toNat + lackBits s * 2 ^ 16),
   r8 0x68 g.blotterSeq.toNat,
   r4 0x70 (g.failCode.toNat * 2 ^ 16 + b2n g.ready * 2 ^ 8 + b2n g.scan * 2 ^ 7 + b2n g.cold * 2 ^ 6 + g.stage.toNat),
   r4 0x74 g.bootMs.toNat]

/-- STACK_MASK of partition p (Table 1-11). -/
def stackMask (s : State) (p : Nat) : Nat := (partSites s p).foldl (fun a i => a + 2 ^ i) 0

/-- Partition page (Tables 25-3, 1-8 to 1-11, 24-7, R22, R564). See R462. DEDUCED (log entry 26). -/
def partRegs (s : State) (p : Nat) : List RegRow :=
  let x := part s p
  let here := partExists s p
  let first := if here then (partCores s p).1 else x.heldFirst.toNat
  let hbm := if here then hbmSize s p * 256 + hbmBase s p else x.heldHbm.toNat
  [r4 0x40 (if here then stateCode x.state else 0), r4 0x44 x.moduleId.toNat, r4 0x48 ((partCores s p).2 * 2 ^ 16 + first),
   r4 0x4C (hbm * 2 ^ 16 + stackMask s p), r4 0x50 (fld x.hbmKey 31 0), r4 0x54 (fld x.hbmKey 63 32), r4 0x58 x.localGib.toNat,
   r8 0x60 x.expTable.toNat, r4 0x68 x.sillageMode.toNat, r8 0x70 x.sillageOfs.toNat, r8 0x78 x.sillageLen.toNat,
   r4 0x80 x.resetCause.toNat, r8 0x88 x.resets.toNat, r4 0x94 (x.pendReason.toNat * 2 ^ 4 + x.pendOp.toNat)]

/-- Core page (Table 4-10). -/
def coreRegs (s : State) (n : Nat) : List RegRow :=
  let c := core s n
  [r4 0x40 (coreState s n), r4 0x44 (coreCaps s n), r4 0x4C c.waitLimit.toNat, r4 0x50 c.pc]
    ++ regArray 0x80 4 32 (fun i => (getCtr c i).toNat) ++ regArray 0x100 8 64 (fun i => (getH c i).toNat)

/-- DUP_STATE (Table 19-8). -/
def dupState (k : Cluster) : Nat := b2n k.sample.isSome * 2 ^ 5 + b2n k.checker.isNone * 2 ^ 4 + k.checker.getD 0

/-- Cluster page (Table 25-4). See R272, R297, R316, R419. -/
def clusterRegs (s : State) (g : Nat) : List RegRow :=
  let k := cluster s g
  regArray 0x200 4 4 (fun i => (sget (64 : BitVec 9) k.thresh i).toNat)
    ++ [r4 0x210 k.rowSplit.toNat, r8 0x220 k.pickDense.toNat, r8 0x228 k.pickMerge.toNat, r8 0x230 k.segExtra.toNat,
        r8 0x238 k.mergeBusy.toNat, r4 0x240 k.schedCfg.toNat, r8 0x248 k.starts.toNat, r8 0x250 k.stampLate.toNat,
        r8 0x258 k.aged.toNat, r4 0x260 k.sleepCfg.toNat, r8 0x268 k.sleeps.toNat, r8 0x270 k.wakesEarly.toNat,
        r8 0x278 (unlanes 4 ((List.range 16).map (fun i => (core s (16 * g + i)).predLevel.toNat))), r8 0x280 k.netCe.toNat,
        r8 0x288 k.flitsOut.toNat, r8 0x290 k.headWait.toNat, r8 0x298 k.creditStall.toNat, r8 0x2A0 k.updBlocks.toNat,
        r8 0x2A8 k.updNonfinite.toNat, r8 0x2B0 k.updFrozen.toNat, r4 0x2C0 k.dupCfg.toNat, r4 0x2C4 (dupState k),
        r8 0x2C8 k.dupSamples.toNat, r8 0x2D0 k.dupWaits.toNat, r8 0x2D8 k.arithCe.toNat]

/-- 32 queue flags as a word. -/
def flagWord (q0 : Nat) (f : Nat → Bool) : Nat := unlanes 1 ((List.range 32).map (fun n => b2n (f (q0 + n))))

/-- Queue-engine page i (Tables 11-1, 11-2). -/
def queueRegs (s : State) (i : Nat) : List RegRow :=
  regArray 0x40 4 4 (fun m => flagWord (128 * i + 32 * m) (fun q => (queue s q).halted))
    ++ regArray 0x50 4 4 (fun m => flagWord (128 * i + 32 * m) (fun q => qBusy (queue s q)))
    ++ regArray 0x800 16 128 (fun j =>
      let q := queue s (128 * i + j)
      q.cfg.toNat + (qBindRead q).toNat * 2 ^ 64 + q.head.toNat * 2 ^ 96)

/-- SE_STATE BUSY (Table 10-10): the units that run a command, the reduce unit while a pass runs, the scrubber while its patrol
reads: on, and the stack not in self-refresh (R240). -/
def seBusy (s : State) (i : Nat) : Nat :=
  let e := se s i
  let runs := fun (u : Nat) => b2n (e.cmds.any (fun c => c.started && c.unit == u))
  runs 1 + 2 * runs 2 + 4 * b2n (e.slots.any (fun r => r.pass)) + 8 * runs 4 + 16 * b2n (e.scrubEn && siteOn s i && mcServes s i)

/-- Stack-engine page (Tables 10-9, 10-10). DEDUCED (log entry 26). -/
def seRegs (s : State) (i : Nat) : List RegRow :=
  let e := se s i
  [r4 0x40 (b2n e.scrubEn), r4 0x44 ((e.slots.filter (fun r => !r.carrySlot)).length * 2 ^ 8 + seBusy s i), r4 0x48 e.ctrSel.toNat,
   r4 0x4C (sget (0 : W32) e.ctrs e.ctrSel.toNat).toNat, r8 0x50 e.scrubPos.toNat, r8 0x58 e.scrubPasses.toNat,
   r8 0x60 e.scrubFixed.toNat, r8 0x68 e.nonfinite.toNat, r8 0x70 e.digestFail.toNat, r8 0x78 e.holdRefused.toNat,
   r4 0x80 (Config.libVersion s.nose.running).toNat]

/-- Memory-controller page (Tables 9-7, 9-8). -/
def mcRegs (s : State) (i : Nat) : List RegRow :=
  let m := mc s i
  [r4 0x40 m.cfg.toNat, r4 0x44 m.st.toNat, r4 0x48 m.imbCfg.toNat,
   r4 0x4C (b2n m.imbOn * 2 ^ 31 + m.hotPc.toNat * 2 ^ 16 + m.run.toNat * 2 ^ 8 + m.lastRatio.toNat), r8 0x50 m.stackReq.toNat,
   r8 0x58 m.throttle.toNat, r4 0x60 (m.tempHot.toNat * 2 ^ 8 + m.tempMax.toNat), r8 0x68 m.ecce.toNat, r8 0x70 m.eccue.toNat,
   r8 0x78 m.wakeCount.toNat] ++ regArray 0x80 4 64 (fun c => (sget (0 : W32) m.pcCount c).toNat)

/-- Code of a port state (Table 15-12). -/
def portCode : PortSt → Nat
  | .down => 0
  | .training => 1
  | .up => 2
  | .degraded => 3

/-- Link-port page (Tables 15-11, 15-12). See R378. -/
def portRegs (s : State) (i : Nat) : List RegRow :=
  let p := port s i
  [r4 0x40 p.ctrl.toNat, r4 0x48 (p.lanes.toNat * 2 ^ 8 + p.width * 2 ^ 4 + portCode p.st), r4 0x4C p.peer.toNat,
   r8 0x50 p.fecCorr.toNat, r8 0x58 p.fecUncorr.toNat, r8 0x60 p.crcFail.toNat, r8 0x68 p.replays.toNat, r8 0x70 p.retrains.toNat,
   r8 0x78 p.flitsTx.toNat, r8 0x80 p.flitsRx.toNat]

/-- RT_DATA as read (R361). -/
def routeRead (d : Iod) : W32 := sget (0 : W32) d.routes (fld d.rtSel 11 0)

/-- Link-engine page (Tables 15-13, 15-14). See R379. -/
def linkRegs (s : State) (x : Nat) : List RegRow :=
  let d := iod s x
  [r4 0x40 d.rtSel.toNat, r4 0x44 (routeRead d).toNat, r4 0x48 d.vcWeight.toNat, r4 0x4C d.linkCfg.toNat,
   r4 0x50 (d.trkPeak * 2 ^ 16 + d.xfers.length), r4 0x54 (d.lands.length * 2 ^ 16 + min 16384 d.streams.length), r8 0x58 d.xferDone.toNat,
   r8 0x60 d.xferFail.toNat, r8 0x68 d.resends.toNat, r8 0x70 d.busyRx.toNat, r8 0x78 d.reorderDrop.toNat, r8 0x80 d.noRoute.toNat]

/-- CTX_INFO of the selected context (Table 14-10); 0 while it is not open, as after power-up and a partition reset (Table 25-7). DEDUCED (log entry 57). -/
def ctxInfo (a : Atom) : Nat :=
  match a.ctxs.find? (fun e => e.1 == a.ctxSel.toNat) with
  | some e => (e.2.gen % 2 ^ 16) * 2 ^ 16 + 2 ^ 15
  | none => 0

/-- Atomizer page (Table 14-10). -/
def atomRegs (s : State) (x : Nat) : List RegRow :=
  let a := atom s x
  [r4 0x40 a.ctxs.length, r4 0x48 a.ctxSel.toNat, r4 0x4C (ctxInfo a), r8 0x50 a.dispatched.toNat, r8 0x58 a.returned.toNat,
   r8 0x60 a.dropped.toNat, r8 0x68 a.stale.toNat, r8 0x70 a.mapMiss.toNat, r8 0x78 a.cancels.toNat,
   r4 0x80 (((a.ctxs.find? (fun e => e.1 == a.ctxSel.toNat)).map (fun e => e.2.pend)).getD 0)]

/-- Reduction-group page (Table 16-5). -/
def grpRegs (s : State) (p : Nat) : List RegRow :=
  let g := grpPage s p
  [r4 0x40 g.lateGroup.toNat, r4 0x44 g.lateBucket.toNat, r8 0x48 g.lateMissing.toNat, r8 0x50 g.carried.toNat,
   r8 0x58 g.lateDropped.toNat, r8 0x60 g.lateMissed.toNat, r8 0x68 g.skewAccepted.toNat, r8 0x70 g.contribIn.toNat,
   r8 0x78 g.busyOut.toNat]

/-- Entry of group n (Table 16-1), offsets within the entry. -/
def entryRegs (s : State) (n : Nat) : List RegRow :=
  let g := group s n
  [r4 0x00 g.cfg.toNat, r4 0x04 (grpStateRead s n).toNat, r8 0x08 g.mask.toNat, r8 0x10 g.tag.toNat, r4 0x18 g.epoch.toNat,
   r8 0x20 g.arg.toNat, r4 0x28 g.sel.toNat, r4 0x2C (layoutRead g).toNat, r8 0x30 g.lateSet.toNat, r8 0x38 g.lateTag.toNat]

/-- ACC_HI: what a narrow read of ACC_LO latched for the next read, else the master's upper half (R280, Table 12-6). -/
def accHiRead (a : Accord) : Nat := (a.accHi.map (·.toNat)).getD (a.master / 2 ^ 32 % 2 ^ 32)

/-- Accord page (Table 12-5). See R296. -/
def accRegs (s : State) : List RegRow :=
  let a := s.accord
  [r4 0x40 (a.master % 2 ^ 32), r4 0x44 (accHiRead a), r4 0x48 (b2n a.fine), r4 0x4C a.wakeRate.toNat, r4 0x50 a.maxErr.toNat,
   r8 0x58 a.wakes.toNat, r8 0x60 a.wakeDeferred.toNat]

/-- DOMAIN_ON (Table 21-11). -/
def domainOn (s : State) : Nat :=
  unlanes 1 ((List.range 16).map (fun i => b2n (siteOn s i))) + b2n (dieOn s 0) * 2 ^ 16 + b2n (dieOn s 1) * 2 ^ 17
    + unlanes 1 ((List.range 4).map (fun x => b2n (iodOn s x))) * 2 ^ 20

/-- Power page (Tables 21-10, 21-11). See R505. -/
def pwrRegs (s : State) : List RegRow :=
  let p := s.pwr
  [r4 0x40 p.st.toNat, r4 0x44 (domainOn s), r4 0x48 p.opCfg.toNat,
   r4 0x4C (opOf s 0 + opCause s 0 * 2 ^ 2 + opOf s 1 * 2 ^ 4 + opCause s 1 * 2 ^ 6), r4 0x50 (limitReg s),
   r4 0x54 (p.minMv.toNat * 2 ^ 16 + p.mv.toNat), r4 0x58 p.ma.toNat, r4 0x5C p.watts.toNat,
   r4 0x60 (b2n p.bankOk * 2 ^ 31 + b2n p.bankWeak * 2 ^ 30 + p.bankCap.toNat * 2 ^ 16 + p.bankMv.toNat), r4 0x64 p.dryCfg.toNat,
   r4 0x68 (b2n p.accKept * 2 ^ 7 + p.cause.toNat * 2 ^ 4 + p.outcome.toNat),
   r4 0x6C ((sget (0 : Byte) p.dieTemp 1).toNat * 2 ^ 8 + (sget (0 : Byte) p.dieTemp 0).toNat), r8 0x70 p.drydowns.toNat,
   r8 0x78 p.caps.toNat]

/-- RO_REGIONS: the worn regions, and STORE while SPARE holds no more than its reserve (R483). -/
def roRead (v : Vial) : BitVec 6 := setBit v.roRegions 5 (bit v.roRegions 5 || decide (spareFree v ≤ 64))

/-- Vial page (Tables 20-7, 20-8): every register at its reset value until the mount. DEDUCED (log entry 26). -/
def vialRegs (s : State) : List RegRow :=
  let v := s.vial
  if !v.mounted then []
  else
    [r4 0x40 ((roRead v).toNat * 2 ^ 8 + b2n v.dryValid * 8 + b2n v.dryTarget * 4 + b2n v.dryReady * 2 + 1), r4 0x44 (spareFree v),
     r4 0x48 ((eraseStat v).1 * 2 ^ 16 + (eraseStat v).2), r8 0x50 v.corrected.toNat, r8 0x58 v.retries.toNat, r8 0x60 v.uncorr.toNat,
     r8 0x68 v.map.retired.toNat, r8 0x70 v.refreshed.toNat, r8 0x78 v.map.patrolPasses.toNat, r8 0x80 (keptSeq v), r8 0x88 v.map.blotWritten.toNat,
     r8 0x90 v.map.blotOver.toNat]

/-- PCIe page (Table 22-6). See R527. -/
def pcieRegs (s : State) : List RegRow :=
  let p := s.pcie
  [r4 0x40 (b2n p.linkUp * 2 ^ 11 + b2n p.flit * 2 ^ 10 + p.dState.toNat * 2 ^ 8 + p.width.toNat * 2 ^ 4 + p.speed.toNat)]
    ++ regArray 0x80 8 16 (fun n => (sget (0 : W64) p.cwAp n).toNat) ++ regArray 0x100 4 128 (fun w => (sget (0 : W32) p.compPend w).toNat)

/-- Nose page (Tables 22-5, 23-5, 25-5). See R542. -/
def noseRegs (s : State) : List RegRow :=
  let n := s.nose
  [r4 0x40 n.mbOpcode.toNat, r4 0x44 n.mbReqLen.toNat, r8 0x48 n.mbArg.toNat,
   r4 0x54 (b2n (mbBusy s) * 2 ^ 31 + b2n n.mbDone * 2 ^ 30 + n.mbCode.toNat), r4 0x58 n.mbRespLen.toNat, r8 0x60 n.mbRejects.toNat,
   r8 0x68 n.mbCompleted.toNat, r4 0x80 (noseState s), r4 0x84 n.running.toNat, r4 0x88 n.staged.toNat, r4 0x8C n.minVersion.toNat,
   r8 0x90 n.restarts.toNat, r4 0x98 n.cause.toNat, r8 0xA0 n.evtSeq, r8 0xA8 n.sramCe.toNat, r8 0xB0 ((utcNow s).getD 0)]

/-- Block-specific registers of a page (Table 25-1). -/
def blockRegs (s : State) (pg : Nat) : List RegRow :=
  match pageType pg with
  | none => []
  | some (t, i) =>
    match t with
    | 1 => globRegs s
    | 2 => coreRegs s i
    | 3 => clusterRegs s i
    | 4 => queueRegs s i
    | 5 => seRegs s i
    | 6 => mcRegs s i
    | 7 => if i < 32 then portRegs s i else linkRegs s (i - 32)
    | 8 => atomRegs s i
    | 9 => grpRegs s i
    | 0xA => accRegs s
    | 0xB => pwrRegs s
    | 0xC => noseRegs s
    | 0xD => vialRegs s
    | 0xE => pcieRegs s
    | 0xF => partRegs s i
    | _ => []

/-- Is a page one of the group entries? -/
def entryPage (pg : Nat) : Bool := decide (0x80 ≤ pg) && decide (pg < 0x90)

/-- Group of an entry page and offset (R381). -/
def entryGroup (pg o : Nat) : Nat := (pg - 0x80) * 64 + o / 64

/-- Is the page's power domain on (R513)? -/
def pageOn (s : State) (pg : Nat) : Bool :=
  match pageType pg with
  | some (2, n) => dieOn s (n / 2048)
  | some (3, g) => dieOn s (g / 128)
  | some (4, i) => dieOn s (i / 16)
  | some (5, i) => siteOn s i
  | some (6, i) => dieOn s (i / 8)
  | some (7, i) => iodOn s (if i < 32 then i / 8 else i - 32)
  | some (8, x) => iodOn s x
  | _ => true

/-- Is a page there: that of a populated site, or of a partition that exists in the mode where it is a reduction-group page (R4, R402)? -/
def pageThere (s : State) (pg : Nat) : Bool :=
  entryPage pg || (pagePop s pg && (match pageType pg with
    | some (9, i) => partExists s i
    | _ => true))

/-- Does BAR0 serve a page to the host (R4, R402, R512, R541, R545)? -/
def pageServed (s : State) (pg : Nat) : Bool :=
  pageThere s pg && (s.glob.ready || pg == pgGlob || pg == pgNose) && (s.nose.mode != 2 || pg == pgNose)

/-- The word at a 4-byte offset of BAR0 as the register holds it. -/
def regRead (s : State) (pg o : Nat) : Nat :=
  if entryPage pg then wordAtOff (entryRegs s (entryGroup pg o)) (o % 64)
  else if 0x40 ≤ o then wordAtOff (blockRegs s pg) o
  else wordAtOff (headerRegs s pg) o

/-- Partition a page's unit belongs to, where it belongs to one. -/
def pagePart (s : State) (pg : Nat) : Option Nat :=
  match pageType pg with
  | some (2, n) => some (partOfCore s n)
  | some (3, g) => some (partOfCore s (16 * g))
  | some (5, i) => partOfSite s i
  | some (6, i) => partOfSite s i
  | some (7, i) => if i < 32 then portOwner s i else none
  | _ => none

/-- May the reset of its crossing overtake an access to a page: is its unit's partition RESETTING (R294, R295)? -/
def crossingReset (s : State) (pg : Nat) : Bool :=
  match pagePart s pg with
  | some p => decide ((part s p).state = .resetting)
  | none => false

/-- Does the reset overtake this access? The spec leaves the moment open. DESIGN CHOICE (log entry 69). -/
def overtaken (s : State) (pg : Nat) : Bool := crossingReset s pg && Config.pick s.freeCtr 2 % 2 == 1

/-- The word the host reads: 0 from a page that is not served, and from a page whose domain is off but for PAGE_ID and PAGE_REV
(R512, R513, R541, R545). -/
def hostWord (s : State) (pg o : Nat) : Nat :=
  if !pageServed s pg then 0
  else if pageOn s pg || decide (o < 8) then regRead s pg o
  else 0

end Sys2Proof.Machine
end

