-- ==== Sys2Proof/Machine/HostWrite.lean ====
section
/-! DEFINITION. Writes to the register pages and the endpoint's other ranges (R7, R249, R507-R526): the checks of the endpoint,
what each writable register does, and the command window. -/

namespace Sys2Proof.Machine

/-! ### The endpoint (R507-R510, R513, R517, R528) -/

/-- Does the endpoint take memory requests: up, link up, D0 (R507, R545)? DESIGN CHOICE (log entry 11). -/
def hostReach (s : State) : Bool := s.pcie.up && s.pcie.linkUp && s.pcie.dState == 0

/-- Record HOST_ACCESS_BAD, PAGE_LOCKED or PAGE_DOMAIN_OFF: BAR and access size in ERR_INFO_LO, offset in ERR_INFO_HI (R528). A
size that does not fit [11:8] leaves the field free. DEDUCED (log entry 57). -/
def pcieErr (s : State) (code bar size off : Nat) : State :=
  if size < 16 then recordErr s pgPcie code (bar + size * 256) off
  else recordErr (bumpFree s) pgPcie code (bar + Config.freeNum s.freeCtr % 16 * 256) off

/-- Is a request of 4 or 8 naturally aligned bytes? -/
def writeSizeOk (size off : Nat) : Bool := (size == 4 || size == 8) && off % size == 0

/-! ### Writable registers of 4 bytes -/

/-- Header registers (Table 22-4, R515-R517). DEDUCED (log entry 26). -/
def headerWrite (s : State) (pg o : Nat) (v : W32) : State :=
  let h := hdr s pg
  match o with
  | 0x0C => setHdr s pg { h with vector := BitVec.ofNat 10 (fld v 25 16), irqEn := bit v 0 }
  | 0x14 => clearEvt s pg v
  | 0x18 => putEvt s pg { h with en := v &&& evtMask pg } 0
  | 0x1C => raiseMask s pg (v &&& evtMask pg)
  | 0x30 => if bit v 0 then clearErr s pg else s
  | 0x34 => if fld v 31 16 = 0x4C4B then setHdr s pg { h with locked := bit v 0 } else s
  | _ => s

/-- INTEG_CFG (Table 19-6). -/
def integWrite (s : State) (v : W32) : State := settleFull { s with glob := { s.glob with integCfg := BitVec.ofNat 3 v.toNat } }

/-- Module global page (Table 25-2). -/
def globWrite (s : State) (o : Nat) (v : W32) : State :=
  match o with
  | 0x48 => partModeWrite s v
  | 0x50 => portOwnerWrite s 0 v
  | 0x54 => portOwnerWrite s 1 v
  | 0x58 => portOwnerWrite s 2 v
  | 0x5C => portOwnerWrite s 3 v
  | 0x60 => integWrite s v
  | _ => s

/-- Partition page (Table 25-3). -/
def partWrite (s : State) (p o : Nat) (v : W32) : State :=
  match o with
  | 0x44 => moduleIdWrite s p v
  | 0x50 => placementWrite s p 0 v
  | 0x54 => placementWrite s p 1 v
  | 0x58 => placementWrite s p 2 v
  | 0x68 => sillageCfgWrite s p v
  | 0x90 => partCmd s p (fld v 3 0)
  | _ => s

/-- The checker's role passes on from a core that a STOP takes out of it (R447). -/
def stopCommand (s : State) (n : Nat) : State :=
  let s1 := coreStop s n
  if (core s n).checker && !(core s1 n).checker then passRole s1 (n / 16) (n % 16 + 1) else s1

/-- CORE_CMD (Table 4-11): STOP and RESET are judged on the state before the write. -/
def coreCmdWrite (s : State) (n : Nat) (v : W32) : State :=
  let s1 := if bit v 0 then stopCommand s n else s
  if bit v 1 && (decide ((core s n).state = .idle) || decide ((core s n).state = .asleep) || decide ((core s n).state = .stopped)) then
    coreReset s1 n
  else s1

/-- Core page (Table 4-10). -/
def coreWrite (s : State) (n o : Nat) (v : W32) : State :=
  match o with
  | 0x48 => coreCmdWrite s n v
  | 0x4C => modCore s n (fun c => { c with waitLimit := v })
  | _ => s

/-- MERGE_CTRL CLEAR (R194). -/
def mergeClear (s : State) (g : Nat) : State :=
  modCluster s g (fun k => { k with pickDense := 0, pickMerge := 0, segExtra := 0, mergeBusy := 0 })

/-- Cluster page (Tables 25-4, 8-6, 11-10, 12-8, 19-8). See R272, R297. -/
def clusterWrite (s : State) (g o : Nat) (v : W32) : State :=
  if o = 0x210 then modCluster s g (fun k => { k with rowSplit := BitVec.ofNat 8 v.toNat })
  else if o = 0x214 then (if bit v 0 then mergeClear s g else s)
  else if o = 0x240 then modCluster s g (fun k => { k with schedCfg := v &&& 0x803FFFFF })
  else if o = 0x260 then modCluster s g (fun k => { k with sleepCfg := v &&& 0x80FFFFFF })
  else if o = 0x2C0 then dupCfgWrite s g v
  else if 0x200 ≤ o ∧ o < 0x210 then
    modCluster s g (fun k => { k with thresh := sput k.thresh ((o - 0x200) / 4) (BitVec.ofNat 9 v.toNat) })
  else s

/-- Queue-engine page (Table 11-1): Q_BIND; Q_CFG is a register of 8 bytes. -/
def queueWrite (s : State) (i o : Nat) (v : W32) : State :=
  if 0x800 ≤ o ∧ o % 16 = 8 then writeQbind s (128 * i + (o - 0x800) / 16) v else s

/-- Stack-engine page (Table 10-10). -/
def seWrite (s : State) (i o : Nat) (v : W32) : State :=
  match o with
  | 0x40 => settleFull (modSe s i (fun e => { e with scrubEn := bit v 0 }))
  | 0x48 => modSe s i (fun e => { e with ctrSel := BitVec.ofNat 12 v.toNat })
  | 0x4C => modSe s i (fun e => { e with ctrs := sput e.ctrs e.ctrSel.toNat v })
  | _ => s

/-- Memory-controller page (Table 9-8). -/
def mcWrite (s : State) (i o : Nat) (v : W32) : State :=
  match o with
  | 0x40 => modMc s i (fun m => { m with cfg := v &&& 0xFFFF0003 })
  | 0x48 => modMc s i (fun m => { m with imbCfg := v })
  | _ => s

/-- RETRAIN written to PORT_CMD (R349): an UP or DEGRADED port retrains, a port that is DOWN starts to train. DEDUCED (log entry 48). -/
def retrainCommand (s : State) (i : Nat) : State := if (port s i).st = .down then trainStart s i true else retrain s i

/-- SAVE_EQ written to PORT_CMD (R347): the Nose stores the equalisation of a port that is up. -/
def saveEq (s : State) (i : Nat) : State := if portUp s i then writeRec s 2 i [] else s

/-- Link-port page (Table 15-12). DEDUCED (log entry 48). -/
def portWriteReg (s : State) (i o : Nat) (v : W32) : State :=
  match o with
  | 0x40 => modPort s i (fun p => { p with ctrl := v &&& 0x33 })
  | 0x44 =>
    let s1 := if bit v 1 then saveEq s i else s
    if bit v 0 then retrainCommand s1 i else s1
  | _ => s

/-- RT_SEL after an access to RT_DATA (Table 15-14). -/
def routeStep (d : Iod) : Iod := if bit d.rtSel 31 then { d with rtSel := setFld d.rtSel 11 0 ((fld d.rtSel 11 0 + 1) % 4096) } else d

/-- A write of RT_DATA (R361, Table 15-7). -/
def routeWrite (s : State) (x : Nat) (v : W32) : State :=
  modIod s x (fun d => routeStep { d with routes := sput d.routes (fld d.rtSel 11 0) (v &&& 0x800000FF) })

/-- Link-engine page (Table 15-14). -/
def linkWrite (s : State) (x o : Nat) (v : W32) : State :=
  match o with
  | 0x40 => modIod s x (fun d => { d with rtSel := v &&& 0x80000FFF })
  | 0x44 => routeWrite s x v
  | 0x48 => modIod s x (fun d => { d with vcWeight := v &&& 0x0FFFFFF0 })
  | 0x4C => modIod s x (fun d => { d with linkCfg := v &&& 0x000FFFFF })
  | _ => s

/-- ATOM_CANCEL (R339): an open context is closed and its running DISPATCH completes where it stands. -/
def atomCancel (s : State) (x k : Nat) : State :=
  let a := atom s x
  match a.ctxs.find? (fun e => e.1 == k) with
  | none => s
  | some (_, c) =>
    let s1 := setAtom s x { a with ctxs := sdel a.ctxs k, cancelled := sput a.cancelled k c.gen, cancels := a.cancels + 1 }
    match a.disps with
    | d :: _ => if dpCtx d.bytes = k then endDisp s1 x d 0 else s1
    | [] => s1

/-- Atomizer page (Table 14-10). -/
def atomWrite (s : State) (x o : Nat) (v : W32) : State :=
  match o with
  | 0x44 => atomCancel s x (fld v 7 0)
  | 0x48 => modAtom s x (fun a => { a with ctxSel := BitVec.ofNat 8 v.toNat })
  | _ => s

/-- Accord page (Table 12-5). -/
def accWrite (s : State) (o : Nat) (v : W32) : State :=
  if o = 0x4C then { s with accord := { s.accord with wakeRate := BitVec.ofNat 9 v.toNat } } else s

/-- Power page (Table 21-11). -/
def pwrWrite (s : State) (o : Nat) (v : W32) : State :=
  match o with
  | 0x48 => opCfgWrite s v
  | 0x50 => setPwr s { s.pwr with limit := some (BitVec.ofNat 16 v.toNat) }
  | 0x64 => setPwr s { s.pwr with dryCfg := BitVec.ofNat 12 v.toNat }
  | _ => s

/-- HOST_RESET (R526). A QUIESCED partition that an operation of Table 18-9 affects is reset when the operation ends (R438). -/
def hostResetWrite (s : State) (v : W32) : State :=
  if fld v 31 16 ≠ 0x5253 then pcieErr s 0x0E02 0 4 0xE044
  else if fld v 3 0 < 4 then
    let p := fld v 3 0
    if opHolds s p && decide ((part s p).state = .quiesced) then modPart s p (fun x => { x with resetHeld := true })
    else triggerReset s p 0x0E04 0
  else if fld v 3 0 = 8 then moduleReset s
  else s

/-- PCIe page (Table 22-6, R520). -/
def pcieWrite (s : State) (o : Nat) (v : W32) : State :=
  if o = 0x44 then hostResetWrite s v
  else if 0x100 ≤ o ∧ o < 0x300 then
    let w := (o - 0x100) / 4
    { s with pcie := { s.pcie with compPend := sput s.pcie.compPend w (sget (0 : W32) s.pcie.compPend w &&& ~~~ v) } }
  else s

/-- A mailbox write while BUSY is discarded and counted (R523). -/
def mbReject (s : State) : State := setNose s { s.nose with mbRejects := s.nose.mbRejects + 1 }

/-- Nose page (Table 22-5, R522, R523). -/
def noseWrite (s : State) (o : Nat) (v : W32) : State :=
  if !(o == 0x40 || o == 0x44 || o == 0x50) then s
  else if mbBusy s then mbReject s
  else if o = 0x40 then setNose s { s.nose with mbOpcode := BitVec.ofNat 16 v.toNat }
  else if o = 0x44 then setNose s { s.nose with mbReqLen := BitVec.ofNat 21 v.toNat }
  else if bit v 0 then mbStart s
  else s

/-- A 4-byte register of group n's entry (Table 16-1). -/
def entryWrite (s : State) (n o : Nat) (v : W32) : State :=
  match o with
  | 0x00 => settleFull (grpCfgWrite s n v)
  | 0x1C => settleFull (grpCmd s n (fld v 3 0))
  | 0x28 => modGroup s n (fun g => { g with sel := v &&& 0xC000003F })
  | 0x2C => layoutWrite s n v
  | _ => s

/-- A block-specific 4-byte register of a page. -/
def blockWrite (s : State) (pg o : Nat) (v : W32) : State :=
  match pageType pg with
  | none => s
  | some (t, i) =>
    match t with
    | 1 => globWrite s o v
    | 2 => coreWrite s i o v
    | 3 => clusterWrite s i o v
    | 4 => queueWrite s i o v
    | 5 => seWrite s i o v
    | 6 => mcWrite s i o v
    | 7 => if i < 32 then portWriteReg s i o v else linkWrite s (i - 32) o v
    | 8 => atomWrite s i o v
    | 0xA => accWrite s o v
    | 0xB => pwrWrite s o v
    | 0xC => noseWrite s o v
    | 0xE => pcieWrite s o v
    | 0xF => partWrite s i o v
    | _ => s

/-! ### Writable registers of 8 bytes -/

/-- Is offset o of a page the start of a writable register of 8 bytes? -/
def wide (pg o : Nat) : Bool :=
  if entryPage pg then o % 64 == 8 || o % 64 == 16 || o % 64 == 32
  else match pageType pg with
    | some (4, _) => decide (0x800 ≤ o) && o % 16 == 0
    | some (0xC, _) => o == 0x48
    | some (0xE, _) => decide (0x80 ≤ o) && decide (o < 0x100) && o % 8 == 0
    | some (0xF, _) => o == 0x60 || o == 0x70 || o == 0x78
    | _ => false

/-- CW_APn keeps VALID, PART and BASE (Table 22-6). -/
def apertureWrite (s : State) (n : Nat) (v : W64) : State :=
  { s with pcie := { s.pcie with cwAp := sput s.pcie.cwAp n (v &&& 0xB000FFFFFF000000) } }

/-- A write of a register of 8 bytes. -/
def wideWrite (s : State) (pg o : Nat) (v : W64) : State :=
  if entryPage pg then
    let n := entryGroup pg o
    match o % 64 with
    | 8 => modGroup s n (fun g => { g with mask := v })
    | 16 => modGroup s n (fun g => { g with tag := v })
    | _ => modGroup s n (fun g => { g with arg := v })
  else match pageType pg with
    | some (4, i) => writeQcfg s (128 * i + (o - 0x800) / 16) v
    | some (0xC, _) => if mbBusy s then mbReject s else setNose s { s.nose with mbArg := v }
    | some (0xE, _) => apertureWrite s ((o - 0x80) / 8) v
    | some (0xF, p) => if o = 0x60 then expTableWrite s p v else if o = 0x70 then sillageOfsWrite s p v else sillageLenWrite s p v
    | _ => s

/-- Value a register of 8 bytes holds. -/
def wideRead (s : State) (pg o : Nat) : Nat := regRead s pg o + regRead s pg (o + 4) * 2 ^ 32

/-- A 4-byte write: a half of a register of 8 bytes leaves the other half as it is. -/
def writeReg4 (s : State) (pg o : Nat) (v : W32) : State :=
  if wide pg (o - o % 8) then
    let b := o - o % 8
    let x := wideRead s pg b
    wideWrite s pg b (BitVec.ofNat 64 (if o % 8 = 0 then nsetFld x 31 0 v.toNat else nsetFld x 63 32 v.toNat))
  else if entryPage pg then entryWrite s (entryGroup pg o) (o % 64) v
  else if o < 0x40 then headerWrite s pg o v
  else blockWrite s pg o v

/-! ### Writes to the BARs -/

/-- Does a lock leave a header register open (R517)? -/
def openWhenLocked (o : Nat) : Bool := o == 0x14 || o == 0x30 || o == 0x34

/-- Is the page locked against the writer (R517)? The group entries have no header. DESIGN CHOICE (log entry 11). -/
def lockedFor (s : State) (byNose : Bool) (pg : Nat) : Bool := !byNose && !entryPage pg && (hdr s pg).locked

/-- One 4-byte write, or one half of an 8-byte write (R509, R517). -/
def half (s : State) (byNose : Bool) (pg o : Nat) (v : W32) : State :=
  if lockedFor s byNose pg && !openWhenLocked o then pcieErr s 0x0E03 0 4 (pg * 4096 + o) else writeReg4 s pg o v

/-- A write of 4 or 8 bytes into a page (R509, R513, R517). DESIGN CHOICE (log entry 11). -/
def pageWrite (s : State) (byNose : Bool) (pg o size v : Nat) : State :=
  if !pageOn s pg then (if byNose then s else pcieErr s 0x0E05 0 size (pg * 4096 + o))
  else if size = 4 then half s byNose pg o (BitVec.ofNat 32 v)
  else if wide pg o && !lockedFor s byNose pg then wideWrite s pg o (BitVec.ofNat 64 v)
  else half (half s byNose pg o (BitVec.ofNat 32 v)) byNose pg (o + 4) (BitVec.ofNat 32 (v / 2 ^ 32))

/-- A write in BAR0's layout, discarded where the reset of its crossing overtakes it (R295), by the host through BAR0 or by the Nose through the register window (R508, R509, R512). DESIGN CHOICE (log entry 11). DEDUCED (log entry 26). -/
def bar0Write (s : State) (byNose : Bool) (off size v : Nat) : State :=
  if !writeSizeOk size off then (if byNose then s else pcieErr s 0x0E02 0 size off)
  else
    let pg := off / 4096
    if 0x2000000 ≤ off then s
    else if (if byNose then !pageThere s pg else !pageServed s pg) then s
    else if overtaken s pg then bumpFree s
    else pageWrite (if crossingReset s pg then bumpFree s else s) byNose pg (off % 4096) size v

/-- Send the messages of PBA bits whose vectors are no longer masked (R519). -/
def flushPba (s : State) : State :=
  if !s.pcie.msixEn || s.pcie.funcMask then s
  else
    (s.pcie.pba.filter (fun e => e.2 && !(sget MsixVec.reset s.pcie.msix e.1).masked)).foldl (fun s e =>
      sendMsi { s with pcie := { s.pcie with pba := sput s.pcie.pba e.1 false } } e.1) s

/-- A 4-byte word of the MSI-X table: message address, data and vector control (R519). -/
def msixWrite (s : State) (v o : Nat) (w : W32) : State :=
  let e := sget MsixVec.reset s.pcie.msix v
  let e1 := match o with
    | 0 => { e with addr := setFld e.addr 31 0 w.toNat }
    | 4 => { e with addr := setFld e.addr 63 32 w.toNat }
    | 8 => { e with data := w }
    | _ => { e with masked := bit w 0 }
  flushPba { s with pcie := { s.pcie with msix := sput s.pcie.msix v e1 } }

/-- A write to BAR4: the mailbox data window and the MSI-X table (Table 22-2, R509, R523). -/
def bar4Write (s : State) (off size v : Nat) : State :=
  if 0x108000 ≤ off then s
  else if !writeSizeOk size off then pcieErr s 0x0E02 4 size off
  else if off < 0x100000 then
    (if mbBusy s then mbReject s else setNose s { s.nose with window := writeLe s.nose.window off size v })
  else
    let k := off - 0x100000
    let s1 := msixWrite s (k / 16) (k % 16) (BitVec.ofNat 32 v)
    if size = 8 then msixWrite s1 (k / 16) (k % 16 + 4) (BitVec.ofNat 32 (v / 2 ^ 32)) else s1

/-- A write to the doorbells in BAR2: 8 bytes, to a queue whose compute die is on (R251, R509, R513). -/
def bellWrite (s : State) (off size v : Nat) : State :=
  if size ≠ 8 ∨ off % 8 ≠ 0 then pcieErr s 0x0E02 2 size off
  else if !dieOn s (off / 8 / 2048) then pcieErr s 0x0E05 2 8 off
  else doorbell s (off / 8) (BitVec.ofNat 64 v) 0

/-! ### The command window (R518) -/

/-- Module address of BAR2 offset `off`. DEDUCED (log entry 26). -/
def windowAddr (s : State) (off : Nat) : Nat :=
  fld (sget (0 : W64) s.pcie.cwAp (off / 2 ^ 24 % 16)) 47 24 * 2 ^ 24 + off % 2 ^ 24

/-- Why the access at BAR2 offset `off` is refused, if it is. -/
def windowErr (s : State) (off : Nat) : Option Nat :=
  let ap := sget (0 : W64) s.pcie.cwAp (off / 2 ^ 24 % 16)
  if !bit ap 63 then some 0x0E01
  else if !partExists s (fld ap 61 60) then some 0x0102
  else match addrPlace (windowAddr s off) with
    | .hbm => match partOfHbm s (windowAddr s off) with
      | none => some 0x0101
      | some q => if q = fld ap 61 60 then none else some 0x0102
    | _ => some 0x0101

/-- Record the refusal: BAR number and aperture in ERR_INFO_LO, BAR2 offset in ERR_INFO_HI. -/
def windowRefused (s : State) (code off : Nat) : State := recordErr s pgPcie code (2 + off / 2 ^ 24 % 16 * 16) off

/-- Is an access one the command window takes: inside it, not across a 4 KiB boundary? -/
def inWindow (off len : Nat) : Bool :=
  decide (0x10000000 ≤ off) && decide (off < 0x20000000) && decide (0 < len) && decide (off % 4096 + len ≤ 4096)

/-- Does the stack behind the aperture hold data: is its partition not OFF? -/
def windowLive (s : State) (off : Nat) : Bool :=
  decide ((part s (fld (sget (0 : W64) s.pcie.cwAp (off / 2 ^ 24 % 16)) 61 60)).state ≠ .off)

/-- A command-window write (R518). The contents of an OFF partition's HBM stay undefined. DEDUCED (log entry 57). -/
def windowWrite (s : State) (off : Nat) (data : List Byte) : State :=
  if !inWindow off data.length then s
  else match windowErr s off with
    | some code => windowRefused s code off
    | none =>
      if windowLive s off then hbmTouch { s with mem := writeBytes s.mem (windowAddr s off) data } (rangeLines (windowAddr s off) data.length) true
      else s

/-- A command-window read (R518): all ones when refused; free bytes from the HBM of an OFF partition. DEDUCED (log entry 57). -/
def windowRead (s : State) (off len : Nat) : State :=
  if !inWindow off len then s
  else match windowErr s off with
    | some code => { windowRefused s code off with reply := List.replicate len 0xFF }
    | none =>
      if windowLive s off then hbmTouch { s with reply := readBytes s.mem (windowAddr s off) len } (rangeLines (windowAddr s off) len) false
      else bumpFree { s with reply := openBytes s.freeCtr len }

/-- A write of the host to a BAR (R508-R510). DEDUCED (log entry 26). -/
def hostWrite (s : State) (bar off size v : Nat) : State :=
  if !hostReach s then s
  else if bar = 0 then bar0Write s false off size v
  else if bar = 2 then (if off < 0x8000 then bellWrite s off size v else windowWrite s off (toBytes size v))
  else if bar = 4 then bar4Write s off size v
  else s

/-- A 4-byte write of the host to a register of a page. DESIGN CHOICE (log entry 11). DEDUCED (log entry 57). -/
def hostReg (s : State) (pg o v : Nat) : State := hostWrite s 0 (pg * 4096 + o) 4 v

/-! ### Reads of the host (R508, R509, R280) -/

/-- What a read of a range of BAR0 does besides: AUTO_INC of RT_DATA and LAYOUT_DATA, the latch of ACC_HI by a narrow read of ACC_LO, which
the next narrow read of ACC_HI takes. -/
def readEffect (s : State) (pg o size : Nat) : State :=
  let takes := fun (r : Nat) => decide (o < r + 4) && decide (r < o + size)
  if !pageServed s pg || !pageOn s pg then s
  else if entryPage pg then
    (if decide (o % 64 < 0x30) && decide (0x2C < o % 64 + size) then modGroup s (entryGroup pg o) layoutStep else s)
  else match pageType pg with
    | some (7, i) => if 32 ≤ i && takes 0x44 then modIod s (i - 32) routeStep else s
    | some (0xA, _) => if takes 0x40 && decide (size ≤ 4) then { s with accord := { s.accord with accHi := some (BitVec.ofNat 32 (s.accord.master / 2 ^ 32)) } }
      else if takes 0x44 && decide (size ≤ 4) then { s with accord := { s.accord with accHi := none } } else s
    | _ => s

/-- Words of a BAR4 offset: the data window reads all ones while the mailbox is busy (R523). -/
def bar4Word (s : State) (off : Nat) : Nat :=
  if off < 0x100000 then (if mbBusy s then 0xFFFFFFFF else readLe s.nose.window off 4)
  else if off < 0x108000 then
    let e := sget MsixVec.reset s.pcie.msix ((off - 0x100000) / 16)
    match off % 16 with
    | 0 => fld e.addr 31 0
    | 4 => fld e.addr 63 32
    | 8 => e.data.toNat
    | _ => b2n e.masked
  else if off < 0x108100 then unlanes 1 ((List.range 32).map (fun n => b2n (sget false s.pcie.pba ((off - 0x108000) * 8 + n))))
  else 0

/-- The word at a 4-byte offset of a BAR. -/
def barWord (s : State) (bar off : Nat) : Nat :=
  if bar = 0 then (if off < 0x2000000 then hostWord s (off / 4096) (off % 4096) else 0)
  else if bar = 2 then
    (if 0x8000 ≤ off || !dieOn s (off / 8 / 2048) then 0
     else ((bellRead s (off / 8)).toNat >>> (8 * (off % 8))) % 2 ^ 32)
  else if bar = 4 then bar4Word s off
  else 0

/-- Bytes a read of 1, 2, 4 or 8 aligned bytes returns; of ACC_LO and ACC_HI together, one value of the master (R280). -/
def readData (s : State) (bar off size : Nat) : List Byte :=
  let w := barWord s bar (off - off % 4) + barWord s bar (off - off % 4 + 4) * 2 ^ 32
  let one := bar == 0 && off == pgAcc * 4096 + 0x40 && size == 8 && pageServed s pgAcc
  toBytes size (if one then s.accord.master else w >>> (8 * (off % 4)))

/-- Is a read of 1, 2, 4 or 8 naturally aligned bytes? -/
def readSizeOk (size off : Nat) : Bool := (size == 1 || size == 2 || size == 4 || size == 8) && off % size == 0

/-- A read of the host outside the command window (R509); all ones where the reset of its crossing overtakes it (R295, R511). DEDUCED (log entry 57). DESIGN CHOICE (log entry 59). -/
def hostRead (s : State) (bar off size : Nat) : State :=
  if !hostReach s || !(bar == 0 || bar == 2 || bar == 4) || (bar == 2 && decide (0x10000000 ≤ off)) then s
  else if !readSizeOk size off then { pcieErr s 0x0E02 bar size off with reply := List.replicate size 0xFF }
  else
    let page := bar == 0 && decide (off < 0x2000000) && pageServed s (off / 4096)
    if page && overtaken s (off / 4096) then bumpFree { s with reply := List.replicate size 0xFF }
    else
      let s0 := if page && crossingReset s (off / 4096) then bumpFree s else s
      let s1 := if page then readEffect s0 (off / 4096) (off % 4096) size else s0
      { s1 with reply := readData s bar off size }

/-! ### MSI-X enable (R519) -/

/-- Vectors with a source pending. -/
def pendingVectors (s : State) : List Nat :=
  let pages := (s.hdrs.filter (fun e => e.2.irqEn && pend e.2 != 0)).map (fun e => e.2.vector.toNat)
  let comps := (s.pcie.compPend.map (fun e => ((List.range 32).filter (bit e.2)).map (fun n => 1024 + (32 * e.1 + n) / 4))).flatten
  (if s.pcie.mbUnsent then [0] else []) ++ pages ++ comps

/-- A write of the MSI-X control word: on enabling, one message on each vector with a source pending. -/
def msixControl (s : State) (enable funcMask : Bool) : State :=
  let s1 := { s with pcie := { s.pcie with msixEn := enable, funcMask := funcMask } }
  if enable && !s.pcie.msixEn then
    let l := pendingVectors s
    (numsWhere (fun v => l.contains v) 0 2048).foldl sendMsi { s1 with pcie := { s1.pcie with mbUnsent := false } }
  else flushPba s1

end Sys2Proof.Machine
end

