-- ==== Sys2Proof/Machine/Host.lean ====
section
/-! DEFINITION. The rows of the host interface: each names one register or one range of the endpoint and what the host writes there
or reads from it. -/

namespace Sys2Proof.Machine

/-! ### Registers with rows of their own -/

/-- CORE_CMD_STOP (R66): CORE_CMD STOP. -/
def execCoreCmdStop (core : Nat) (s : State) : Host.Outcome State Fault Refusal := .next (hostReg s (pgCore core) 0x48 1)

/-- CORE_CMD_RESET (R94): CORE_CMD RESET. -/
def execCoreCmdReset (core : Nat) (s : State) : Host.Outcome State Fault Refusal := .next (hostReg s (pgCore core) 0x48 2)

/-- ACC_LO_READ (R280): a read of 1, 2 or 4 bytes inside ACC_LO. -/
def execAccLoRead (size off : Nat) (s : State) : Host.Outcome State Fault Refusal :=
  .next (if off + size ≤ 4 then hostRead s 0 (pgAcc * 4096 + 0x40 + off) size else s)

/-- DOORBELL_WRITE (R251). -/
def execDoorbellWrite (queue size : Nat) (value : W64) (s : State) : Host.Outcome State Fault Refusal :=
  .next (if queue < 4096 then hostWrite s 2 (queue * 8) size value.toNat else s)

/-- BAR0 offset of Q_CFG of queue q, from its page (Table 11-1). -/
def qcfgOff (q : Nat) : Nat := 0x800 + 16 * (q % 128)

/-- A host write of Q_BIND of queue q. DEDUCED (log entry 37). -/
def bindWrite (s : State) (q : Nat) (v : W32) : State := if q < 4096 then hostReg s (pgQueue q) (qcfgOff q + 8) v.toNat else s

/-- Q_BIND_ENABLE (R249, R261, R327): ENABLE 1 without SKIP. -/
def execQBindEnable (queue : Nat) (value : W32) (s : State) : Host.Outcome State Fault Refusal :=
  .next (bindWrite s queue (setBit (setBit value 31 true) 21 false))

/-- Q_BIND_DISABLE (R249): ENABLE 0 without SKIP. -/
def execQBindDisable (queue : Nat) (value : W32) (s : State) : Host.Outcome State Fault Refusal :=
  .next (bindWrite s queue (setBit (setBit value 31 false) 21 false))

/-- Q_BIND_SKIP (R261): SKIP 1. -/
def execQBindSkip (queue : Nat) (value : W32) (s : State) : Host.Outcome State Fault Refusal :=
  .next (bindWrite s queue (setBit value 21 true))

/-- QUEUE_CONFIG_WRITE (R249): Q_CFG whole, or Q_BIND. -/
def execQueueConfigWrite (queue : Nat) (bind : Bool) (value : W64) (s : State) : Host.Outcome State Fault Refusal :=
  .next (if 4096 ≤ queue then s
    else if bind then bindWrite s queue (BitVec.ofNat 32 value.toNat)
    else hostWrite s 0 (pgQueue queue * 4096 + qcfgOff queue) 8 value.toNat)

/-- CTR_DATA_WRITE (R220). -/
def execCtrDataWrite (site : Nat) (value : W32) (s : State) : Host.Outcome State Fault Refusal :=
  .next (if site < 16 then hostReg s (pgSe site) 0x4C value.toNat else s)

/-- ATOM_CANCEL (R339). -/
def execAtomCancel (die ctx : Nat) (s : State) : Host.Outcome State Fault Refusal :=
  .next (if die < 4 then hostReg s (pgAtom die) 0x44 ctx else s)

/-- PORT_CMD_RETRAIN (R349). -/
def execPortCmdRetrain (port : Nat) (s : State) : Host.Outcome State Fault Refusal :=
  .next (if port < 32 then hostReg s (pgPort port) 0x44 1 else s)

/-- PORT_CMD_SAVE_EQ (R347). -/
def execPortCmdSaveEq (port : Nat) (s : State) : Host.Outcome State Fault Refusal :=
  .next (if port < 32 then hostReg s (pgPort port) 0x44 2 else s)

/-- RT_DATA_ACCESS (R361): a write, or a read of the entry. -/
def execRtDataAccess (die : Nat) (value : Option W32) (s : State) : Host.Outcome State Fault Refusal :=
  .next (if 4 ≤ die then s else match value with
    | some v => hostReg s (pgLink die) 0x44 v.toNat
    | none => hostRead s 0 (pgLink die * 4096 + 0x44) 4)

/-- A 4-byte write of the host into group n's entry (R381). -/
def entryHost (s : State) (n o v : Nat) : State := if n < 1024 then hostWrite s 0 (0x80000 + n * 64 + o) 4 v else s

/-- GRP_SETTLE (R396). -/
def execGrpSettle (group : Nat) (s : State) : Host.Outcome State Fault Refusal := .next (entryHost s group 0x1C 1)

/-- GRP_RESHARD (R398). -/
def execGrpReshard (group : Nat) (s : State) : Host.Outcome State Fault Refusal := .next (entryHost s group 0x1C 2)

/-- GRP_ABORT (R399). -/
def execGrpAbort (group : Nat) (s : State) : Host.Outcome State Fault Refusal := .next (entryHost s group 0x1C 3)

/-- GRP_CFG_WRITE (R382). -/
def execGrpCfgWrite (group : Nat) (value : W32) (s : State) : Host.Outcome State Fault Refusal :=
  .next (entryHost s group 0 value.toNat)

/-- LAYOUT_DATA_WRITE (R383): an access to LAYOUT_DATA, a write or a read. -/
def execLayoutDataWrite (group : Nat) (value : Option W32) (s : State) : Host.Outcome State Fault Refusal :=
  .next (match value with
    | some v => entryHost s group 0x2C v.toNat
    | none => if group < 1024 then hostRead s 0 (0x80000 + group * 64 + 0x2C) 4 else s)

/-- DUP_CFG_WRITE (R447). -/
def execDupCfgWrite (cluster : Nat) (value : W32) (s : State) : Host.Outcome State Fault Refusal :=
  .next (if cluster < 256 then hostReg s (pgCluster cluster) 0x2C0 value.toNat else s)

/-- OP_CFG_WRITE (R491). -/
def execOpCfgWrite (value : W32) (s : State) : Host.Outcome State Fault Refusal := .next (hostReg s pgPwr 0x48 value.toNat)

/-- MERGE_CTRL_CLEAR (R194). -/
def execMergeCtrlClear (cluster : Nat) (s : State) : Host.Outcome State Fault Refusal :=
  .next (if cluster < 256 then hostReg s (pgCluster cluster) 0x214 1 else s)

/-! ### Partitions (R20-R23, R198, R341, R427, R558, R559) -/

/-- A host write of a partition page's register. -/
def partReg (s : State) (p o v : Nat) : State := if p < 4 then hostReg s (pgPart p) o v else s

/-- PART_INIT (R558). -/
def execPartInit (part_ : Nat) (s : State) : Host.Outcome State Fault Refusal := .next (partReg s part_ 0x90 1)

/-- PART_ACTIVATE (R558). -/
def execPartActivate (part_ : Nat) (s : State) : Host.Outcome State Fault Refusal := .next (partReg s part_ 0x90 2)

/-- PART_QUIESCE (R559). -/
def execPartQuiesce (part_ : Nat) (s : State) : Host.Outcome State Fault Refusal := .next (partReg s part_ 0x90 3)

/-- PART_OFF (R558). -/
def execPartOff (part_ : Nat) (s : State) : Host.Outcome State Fault Refusal := .next (partReg s part_ 0x90 4)

/-- PART_MODE_WRITE (R20). -/
def execPartModeWrite (value : W32) (s : State) : Host.Outcome State Fault Refusal := .next (hostReg s pgGlob 0x48 value.toNat)

/-- PORT_OWNER_WRITE (R21). -/
def execPortOwnerWrite (die : Nat) (value : W32) (s : State) : Host.Outcome State Fault Refusal :=
  .next (if die < 4 then hostReg s pgGlob (0x50 + 4 * die) value.toNat else s)

/-- PART_MODULE_ID_WRITE (R23). -/
def execPartModuleIdWrite (part_ : Nat) (value : W32) (s : State) : Host.Outcome State Fault Refusal :=
  .next (partReg s part_ 0x44 value.toNat)

/-- HBM_PLACEMENT_WRITE (R198): HBM_KEY_LO (0), HBM_KEY_HI (1) or HBM_PLACE (2). -/
def execHbmPlacementWrite (part_ which : Nat) (value : W32) (s : State) : Host.Outcome State Fault Refusal :=
  .next (if which < 3 then partReg s part_ (0x50 + 4 * which) value.toNat else s)

/-- EXP_TABLE_WRITE (R341). -/
def execExpTableWrite (part_ : Nat) (value : W64) (s : State) : Host.Outcome State Fault Refusal :=
  .next (if part_ < 4 then hostWrite s 0 (pgPart part_ * 4096 + 0x60) 8 value.toNat else s)

/-- SILLAGE_WRITE (R427): SILLAGE_CFG (0), SILLAGE_OFS (1) or SILLAGE_LEN (2). -/
def execSillageWrite (part_ which : Nat) (value : W64) (s : State) : Host.Outcome State Fault Refusal :=
  .next (if 4 ≤ part_ then s else match which with
    | 0 => partReg s part_ 0x68 (value.toNat % 2 ^ 32)
    | 1 => hostWrite s 0 (pgPart part_ * 4096 + 0x70) 8 value.toNat
    | 2 => hostWrite s 0 (pgPart part_ * 4096 + 0x78) 8 value.toNat
    | _ => s)

/-! ### The endpoint -/

/-- A write of the Nose into the doorbell window (Table 1-12): the Nose is no producer class, and the doorbell is refused (R252). -/
def noseBell (s : State) (off size : Nat) (v : W64) : State :=
  if off < 0x8000 ∧ size = 8 ∧ off % 8 = 0 ∧ dieOn s (off / 8 / 2048) then doorbell s (off / 8) v 4 else s

/-- REGISTER_WRITE (R7, R252, R509, R512, R517): a write of the host to any offset of a BAR, or of the Nose through the register window
or, with BAR 2, the doorbell window. -/
def execRegisterWrite (byNose : Bool) (bar off size : Nat) (value : W64) (s : State) : Host.Outcome State Fault Refusal :=
  .next (if byNose then (if powered s && s.nose.mode == 1 then
      (if bar = 2 then noseBell s off size value else bar0Write s true off size value.toNat) else s)
    else hostWrite s bar off size value.toNat)

/-- HOST_READ_BAD (R509): a read of the host outside the command window. One of a refused size or alignment returns all ones and
records HOST_ACCESS_BAD; any other returns what the range holds. -/
def execHostReadBad (bar off size : Nat) (s : State) : Host.Outcome State Fault Refusal := .next (hostRead s bar off size)

/-- A host write to a header register of a page of Table 22-3. -/
def headerReg (s : State) (page o : Nat) (v : W32) : State := if (pageType page).isSome then hostReg s page o v.toNat else s

/-- EVT_PEND_CLEAR (R515). -/
def execEvtPendClear (page : Nat) (value : W32) (s : State) : Host.Outcome State Fault Refusal := .next (headerReg s page 0x14 value)

/-- EVT_FORCE (R515). -/
def execEvtForce (page : Nat) (value : W32) (s : State) : Host.Outcome State Fault Refusal := .next (headerReg s page 0x1C value)

/-- EVT_EN_WRITE (R515). -/
def execEvtEnWrite (page : Nat) (value : W32) (s : State) : Host.Outcome State Fault Refusal := .next (headerReg s page 0x18 value)

/-- ERR_CLEAR (R516). -/
def execErrClear (page : Nat) (s : State) : Host.Outcome State Fault Refusal := .next (headerReg s page 0x30 1)

/-- PAGE_LOCK_WRITE (R517). -/
def execPageLockWrite (page : Nat) (value : W32) (s : State) : Host.Outcome State Fault Refusal := .next (headerReg s page 0x34 value)

/-- COMP_PEND_CLEAR (R520). -/
def execCompPendClear (word : Nat) (value : W32) (s : State) : Host.Outcome State Fault Refusal :=
  .next (if word < 128 then hostReg s pgPcie (0x100 + 4 * word) value.toNat else s)

/-- CW_AP_WRITE (R518). -/
def execCwApWrite (aperture : Nat) (value : W64) (s : State) : Host.Outcome State Fault Refusal :=
  .next (if aperture < 16 then hostWrite s 0 (pgPcie * 4096 + 0x80 + 8 * aperture) 8 value.toNat else s)

/-- CMD_WINDOW_WRITE (R518). -/
def execCmdWindowWrite (off : Nat) (data : List Byte) (s : State) : Host.Outcome State Fault Refusal :=
  .next (if hostReach s then windowWrite s off data else s)

/-- CMD_WINDOW_READ (R518). -/
def execCmdWindowRead (off len : Nat) (s : State) : Host.Outcome State Fault Refusal :=
  .next (if hostReach s then windowRead s off len else s)

/-- HOST_RESET_PARTITION (R526): HOST_RESET with its KEY and the partition as ACTION. -/
def execHostResetPartition (part_ : Nat) (s : State) : Host.Outcome State Fault Refusal :=
  .next (if part_ < 4 then hostReg s pgPcie 0x44 (0x52530000 + part_) else s)

/-- HOST_RESET_MODULE (R526): ACTION 8. -/
def execHostResetModule (s : State) : Host.Outcome State Fault Refusal := .next (hostReg s pgPcie 0x44 0x52530008)

/-- MSIX_ENABLE (R519): the MSI-X control word, with its function mask. -/
def execMsixEnable (enable funcMask : Bool) (s : State) : Host.Outcome State Fault Refusal :=
  .next (if s.pcie.up && s.pcie.linkUp then msixControl s enable funcMask else s)

/-- MSIX_UNMASK (R519): the vector's mask bit is cleared. -/
def execMsixUnmask (vector : Nat) (s : State) : Host.Outcome State Fault Refusal :=
  .next (if vector < 2048 then hostWrite s 4 (0x100000 + 16 * vector + 12) 4 0 else s)

end Sys2Proof.Machine
end

