-- ==== Sys2Proof/Machine/Dispatch.lean ====
section
/-! DEFINITION. exec: one arm per command, each one direct call of the command's meaning. -/

namespace Sys2Proof.Machine

def exec (i : Instr) (s : State) : Host.Outcome State Fault Refusal :=
  match i with
  | .nop core met => Sys2Proof.Machine.execNop core met s
  | .add core met => Sys2Proof.Machine.execAdd core met s
  | .sub core met => Sys2Proof.Machine.execSub core met s
  | .mul core met => Sys2Proof.Machine.execMul core met s
  | .and core met => Sys2Proof.Machine.execAnd core met s
  | .or core met => Sys2Proof.Machine.execOr core met s
  | .xor core met => Sys2Proof.Machine.execXor core met s
  | .shl core met => Sys2Proof.Machine.execShl core met s
  | .shr core met => Sys2Proof.Machine.execShr core met s
  | .sar core met => Sys2Proof.Machine.execSar core met s
  | .slt core met => Sys2Proof.Machine.execSlt core met s
  | .sltu core met => Sys2Proof.Machine.execSltu core met s
  | .lui core met => Sys2Proof.Machine.execLui core met s
  | .rdcnt core met => Sys2Proof.Machine.execRdcnt core met s
  | .rdacc core met => Sys2Proof.Machine.execRdacc core met s
  | .rdcap core met => Sys2Proof.Machine.execRdcap core met s
  | .br core met => Sys2Proof.Machine.execBr core met s
  | .beqz core met => Sys2Proof.Machine.execBeqz core met s
  | .bnez core met => Sys2Proof.Machine.execBnez core met s
  | .endProg core met => Sys2Proof.Machine.execEndProg core met s
  | .hset core met => Sys2Proof.Machine.execHset core met s
  | .hrel core met => Sys2Proof.Machine.execHrel core met s
  | .wait core met => Sys2Proof.Machine.execWait core met s
  | .signal core met => Sys2Proof.Machine.execSignal core met s
  | .cset core met => Sys2Proof.Machine.execCset core met s
  | .tset core met => Sys2Proof.Machine.execTset core met s
  | .launchAt core met => Sys2Proof.Machine.execLaunchAt core met s
  | .ufence core met => Sys2Proof.Machine.execUfence core met s
  | .mmaD core met => Sys2Proof.Machine.execMmaD core met s
  | .mmaS core met => Sys2Proof.Machine.execMmaS core met s
  | .mmaA core met => Sys2Proof.Machine.execMmaA core met s
  | .moveL core met => Sys2Proof.Machine.execMoveL core met s
  | .moveS core met => Sys2Proof.Machine.execMoveS core met s
  | .moveR core met => Sys2Proof.Machine.execMoveR core met s
  | .moveX core met => Sys2Proof.Machine.execMoveX core met s
  | .vadd core met => Sys2Proof.Machine.execVadd core met s
  | .vsub core met => Sys2Proof.Machine.execVsub core met s
  | .vmul core met => Sys2Proof.Machine.execVmul core met s
  | .vfma core met => Sys2Proof.Machine.execVfma core met s
  | .vmin core met => Sys2Proof.Machine.execVmin core met s
  | .vmax core met => Sys2Proof.Machine.execVmax core met s
  | .vabs core met => Sys2Proof.Machine.execVabs core met s
  | .vcmp core met => Sys2Proof.Machine.execVcmp core met s
  | .vsel core met => Sys2Proof.Machine.execVsel core met s
  | .vcvt core met => Sys2Proof.Machine.execVcvt core met s
  | .vdiv core met => Sys2Proof.Machine.execVdiv core met s
  | .vsqrt core met => Sys2Proof.Machine.execVsqrt core met s
  | .vrcp core met => Sys2Proof.Machine.execVrcp core met s
  | .vrsq core met => Sys2Proof.Machine.execVrsq core met s
  | .vexp2 core met => Sys2Proof.Machine.execVexp2 core met s
  | .vlog2 core met => Sys2Proof.Machine.execVlog2 core met s
  | .vrsum core met => Sys2Proof.Machine.execVrsum core met s
  | .vbcast core met => Sys2Proof.Machine.execVbcast core met s
  | .vld core met => Sys2Proof.Machine.execVld core met s
  | .vst core met => Sys2Proof.Machine.execVst core met s
  | .vlda core met => Sys2Proof.Machine.execVlda core met s
  | .vsta core met => Sys2Proof.Machine.execVsta core met s
  | .vmovg core met => Sys2Proof.Machine.execVmovg core met s
  | .mmaDTileWrite core part chk => Sys2Proof.Machine.execMmaDTileWrite core part chk s
  | .mmaAPart core => Sys2Proof.Machine.execMmaAPart core s
  | .mergeTileWrite core chk => Sys2Proof.Machine.execMergeTileWrite core chk s
  | .vectorResult core chk => Sys2Proof.Machine.execVectorResult core chk s
  | .moveComplete core which ecc flit => Sys2Proof.Machine.execMoveComplete core which ecc flit s
  | .programLoadDone core ecc => Sys2Proof.Machine.execProgramLoadDone core ecc s
  | .tileProgramEnd core => Sys2Proof.Machine.execTileProgramEnd core s
  | .counterWaitMet core => Sys2Proof.Machine.execCounterWaitMet core s
  | .launchStampReached core => Sys2Proof.Machine.execLaunchStampReached core s
  | .waitLimitExpire core => Sys2Proof.Machine.execWaitLimitExpire core s
  | .counterIncrement core which flit => Sys2Proof.Machine.execCounterIncrement core which flit s
  | .remoteWriteLand core which flit => Sys2Proof.Machine.execRemoteWriteLand core which flit s
  | .coreCmdStop core => Sys2Proof.Machine.execCoreCmdStop core s
  | .coreCmdReset core => Sys2Proof.Machine.execCoreCmdReset core s
  | .holdExpire core => Sys2Proof.Machine.execHoldExpire core s
  | .launchWakeLead core => Sys2Proof.Machine.execLaunchWakeLead core s
  | .wakeWindow => Sys2Proof.Machine.execWakeWindow s
  | .wakeComplete core good => Sys2Proof.Machine.execWakeComplete core good s
  | .accPllLock => Sys2Proof.Machine.execAccPllLock s
  | .accModeSwitch => Sys2Proof.Machine.execAccModeSwitch s
  | .accCopyCompare unit err => Sys2Proof.Machine.execAccCopyCompare unit err s
  | .accLoRead size off => Sys2Proof.Machine.execAccLoRead size off s
  | .doorbellWrite queue size value => Sys2Proof.Machine.execDoorbellWrite queue size value s
  | .tileRun queue ecc => Sys2Proof.Machine.execTileRun queue ecc s
  | .update queue core count => Sys2Proof.Machine.execUpdate queue core count s
  | .combine queue core count => Sys2Proof.Machine.execCombine queue core count s
  | .test queue => Sys2Proof.Machine.execTest queue s
  | .testComplete core failing => Sys2Proof.Machine.execTestComplete core failing s
  | .dispatch queue => Sys2Proof.Machine.execDispatch queue s
  | .fenceRecord queue => Sys2Proof.Machine.execFenceRecord queue s
  | .waitCount queue => Sys2Proof.Machine.execWaitCount queue s
  | .launchAtRecord queue => Sys2Proof.Machine.execLaunchAtRecord queue s
  | .signalAdd queue => Sys2Proof.Machine.execSignalAdd queue s
  | .seqWrite queue => Sys2Proof.Machine.execSeqWrite queue s
  | .seTranspose queue => Sys2Proof.Machine.execSeTranspose queue s
  | .signPack queue chk => Sys2Proof.Machine.execSignPack queue chk s
  | .topkPack queue chk => Sys2Proof.Machine.execTopkPack queue chk s
  | .reduce queue => Sys2Proof.Machine.execReduce queue s
  | .ckptPush queue => Sys2Proof.Machine.execCkptPush queue s
  | .ckptPull queue => Sys2Proof.Machine.execCkptPull queue s
  | .ctrSet queue => Sys2Proof.Machine.execCtrSet queue s
  | .linkEngineMove queue => Sys2Proof.Machine.execLinkEngineMove queue s
  | .seCommandComplete site unit ecc hbm => Sys2Proof.Machine.execSeCommandComplete site unit ecc hbm s
  | .recordComplete queue => Sys2Proof.Machine.execRecordComplete queue s
  | .recordFailed queue => Sys2Proof.Machine.execRecordFailed queue s
  | .schedAging queue => Sys2Proof.Machine.execSchedAging queue s
  | .qBindEnable queue value => Sys2Proof.Machine.execQBindEnable queue value s
  | .qBindDisable queue value => Sys2Proof.Machine.execQBindDisable queue value s
  | .qBindSkip queue value => Sys2Proof.Machine.execQBindSkip queue value s
  | .queueConfigWrite queue bind value => Sys2Proof.Machine.execQueueConfigWrite queue bind value s
  | .reduceSlotAvailable site => Sys2Proof.Machine.execReduceSlotAvailable site s
  | .contribLanded site group bucket rank => Sys2Proof.Machine.execContribLanded site group bucket rank s
  | .reducePass site group bucket chk hbm => Sys2Proof.Machine.execReducePass site group bucket chk hbm s
  | .sillageResume site group bucket => Sys2Proof.Machine.execSillageResume site group bucket s
  | .reducePassDone site group bucket => Sys2Proof.Machine.execReducePassDone site group bucket s
  | .scrubCodeword site ecc => Sys2Proof.Machine.execScrubCodeword site ecc s
  | .ctrDataWrite site value => Sys2Proof.Machine.execCtrDataWrite site value s
  | .hbmRead addr len ecc keepOpen => Sys2Proof.Machine.execHbmRead addr len ecc keepOpen s
  | .hbmWrite addr data ecc keepOpen drains => Sys2Proof.Machine.execHbmWrite addr data ecc keepOpen drains s
  | .hbmReduceStore addr bf16 mx value ecc => Sys2Proof.Machine.execHbmReduceStore addr bf16 mx value ecc s
  | .hbmRefresh site pc bank drains onDie => Sys2Proof.Machine.execHbmRefresh site pc bank drains onDie s
  | .hbmTempSample site temps => Sys2Proof.Machine.execHbmTempSample site temps s
  | .imbWindowEnd site => Sys2Proof.Machine.execImbWindowEnd site s
  | .bankPowerDown site pc bank => Sys2Proof.Machine.execBankPowerDown site pc bank s
  | .selfRefreshEntry site => Sys2Proof.Machine.execSelfRefreshEntry site s
  | .dispatchMessage die which => Sys2Proof.Machine.execDispatchMessage die which s
  | .endMarkMessage die which => Sys2Proof.Machine.execEndMarkMessage die which s
  | .roundOpenAfterDrain queue => Sys2Proof.Machine.execRoundOpenAfterDrain queue s
  | .returnMessage die which => Sys2Proof.Machine.execReturnMessage die which s
  | .dropMessage die which => Sys2Proof.Machine.execDropMessage die which s
  | .atomCancel die ctx => Sys2Proof.Machine.execAtomCancel die ctx s
  | .portTrainStart port signal => Sys2Proof.Machine.execPortTrainStart port signal s
  | .portTrainDone port lanes peerId peerPort => Sys2Proof.Machine.execPortTrainDone port lanes peerId peerPort s
  | .laneLockLoss port => Sys2Proof.Machine.execLaneLockLoss port s
  | .laneErrorWindow port overLimit => Sys2Proof.Machine.execLaneErrorWindow port overLimit s
  | .portCmdRetrain port => Sys2Proof.Machine.execPortCmdRetrain port s
  | .portCmdSaveEq port => Sys2Proof.Machine.execPortCmdSaveEq port s
  | .flitSend port ca cb => Sys2Proof.Machine.execFlitSend port ca cb s
  | .dataFlitReceive port bytes corr uncorr failed => Sys2Proof.Machine.execDataFlitReceive port bytes corr uncorr failed s
  | .controlFlitReceive port bytes corr uncorr failed => Sys2Proof.Machine.execControlFlitReceive port bytes corr uncorr failed s
  | .nakReceive port bytes corr uncorr failed => Sys2Proof.Machine.execNakReceive port bytes corr uncorr failed s
  | .replayTimeout port => Sys2Proof.Machine.execReplayTimeout port s
  | .writeMessage die which flit => Sys2Proof.Machine.execWriteMessage die which flit s
  | .readReqMessage die which => Sys2Proof.Machine.execReadReqMessage die which s
  | .readDataMessage die which => Sys2Proof.Machine.execReadDataMessage die which s
  | .contribMessage die which => Sys2Proof.Machine.execContribMessage die which s
  | .diagMessage die which => Sys2Proof.Machine.execDiagMessage die which s
  | .ackMessage die which ecc => Sys2Proof.Machine.execAckMessage die which ecc s
  | .refuseMessage die which => Sys2Proof.Machine.execRefuseMessage die which s
  | .busyMessage die which => Sys2Proof.Machine.execBusyMessage die which s
  | .streamAckMessage die which => Sys2Proof.Machine.execStreamAckMessage die which s
  | .streamNakMessage die which => Sys2Proof.Machine.execStreamNakMessage die which s
  | .streamAckTimer die context => Sys2Proof.Machine.execStreamAckTimer die context s
  | .streamResendTimeout die stream => Sys2Proof.Machine.execStreamResendTimeout die stream s
  | .transferResend die tag => Sys2Proof.Machine.execTransferResend die tag s
  | .sourceStreamClose die stream => Sys2Proof.Machine.execSourceStreamClose die stream s
  | .landingContextFree die context => Sys2Proof.Machine.execLandingContextFree die context s
  | .trackerEntryAvailable die => Sys2Proof.Machine.execTrackerEntryAvailable die s
  | .rtDataAccess die value => Sys2Proof.Machine.execRtDataAccess die value s
  | .grpSettle group => Sys2Proof.Machine.execGrpSettle group s
  | .grpReshard group => Sys2Proof.Machine.execGrpReshard group s
  | .reshardDrainDone group => Sys2Proof.Machine.execReshardDrainDone group s
  | .grpAbort group => Sys2Proof.Machine.execGrpAbort group s
  | .lateRankDeadline site group bucket => Sys2Proof.Machine.execLateRankDeadline site group bucket s
  | .grpCfgWrite group value => Sys2Proof.Machine.execGrpCfgWrite group value s
  | .layoutDataWrite group value => Sys2Proof.Machine.execLayoutDataWrite group value s
  | .dupCompare cluster mismatch => Sys2Proof.Machine.execDupCompare cluster mismatch s
  | .checkerRotate cluster => Sys2Proof.Machine.execCheckerRotate cluster s
  | .dupCfgWrite cluster value => Sys2Proof.Machine.execDupCfgWrite cluster value s
  | .partResetComplete part_ => Sys2Proof.Machine.execPartResetComplete part_ s
  | .railMonitorSample bad => Sys2Proof.Machine.execRailMonitorSample bad s
  | .noseLockstepMismatch => Sys2Proof.Machine.execNoseLockstepMismatch s
  | .noseWatchdogExpire => Sys2Proof.Machine.execNoseWatchdogExpire s
  | .noseRestartDone verdict r => Sys2Proof.Machine.execNoseRestartDone verdict r s
  | .noseSensorPoll readings sram => Sys2Proof.Machine.execNoseSensorPoll readings sram s
  | .vialMount anchors aReads bReads bad worn verdict => Sys2Proof.Machine.execVialMount anchors aReads bReads bad worn verdict s
  | .vialPatrol block corr worst retry lost where_ lastPage => Sys2Proof.Machine.execVialPatrol block corr worst retry lost where_ lastPage s
  | .vialWearLevel region => Sys2Proof.Machine.execVialWearLevel region s
  | .blotterLogProgram failed => Sys2Proof.Machine.execBlotterLogProgram failed s
  | .powerUp width speed flit => Sys2Proof.Machine.execPowerUp width speed flit s
  | .bootReady ms disabled narrowed rows badSites => Sys2Proof.Machine.execBootReady ms disabled narrowed rows badSites s
  | .inputSag inputMin bankMv => Sys2Proof.Machine.execInputSag inputMin bankMv s
  | .inputOvervoltage inputMin bankMv => Sys2Proof.Machine.execInputOvervoltage inputMin bankMv s
  | .inputOvercurrent inputMin bankMv => Sys2Proof.Machine.execInputOvercurrent inputMin bankMv s
  | .inputOutOfRange mv => Sys2Proof.Machine.execInputOutOfRange mv s
  | .drydownCommit failed => Sys2Proof.Machine.execDrydownCommit failed s
  | .inputRestore fell width speed flit => Sys2Proof.Machine.execInputRestore fell width speed flit s
  | .bankCutoff => Sys2Proof.Machine.execBankCutoff s
  | .bankCharged mv cap => Sys2Proof.Machine.execBankCharged mv cap s
  | .bankLow mv => Sys2Proof.Machine.execBankLow mv s
  | .powerWindow mv ma watts bankMv => Sys2Proof.Machine.execPowerWindow mv ma watts bankMv s
  | .dieThermalSample unit temp => Sys2Proof.Machine.execDieThermalSample unit temp s
  | .opCfgWrite value => Sys2Proof.Machine.execOpCfgWrite value s
  | .opChangeDone die => Sys2Proof.Machine.execOpChangeDone die s
  | .refClockLoss => Sys2Proof.Machine.execRefClockLoss s
  | .refClockReturn => Sys2Proof.Machine.execRefClockReturn s
  | .wxlRefclkLoss die => Sys2Proof.Machine.execWxlRefclkLoss die s
  | .pcieRefclkLoss => Sys2Proof.Machine.execPcieRefclkLoss s
  | .perstAssert => Sys2Proof.Machine.execPerstAssert s
  | .perstRelease width speed flit => Sys2Proof.Machine.execPerstRelease width speed flit s
  | .pcieReset => Sys2Proof.Machine.execPcieReset s
  | .msixEnable enable funcMask => Sys2Proof.Machine.execMsixEnable enable funcMask s
  | .msixUnmask vector => Sys2Proof.Machine.execMsixUnmask vector s
  | .partInit part_ => Sys2Proof.Machine.execPartInit part_ s
  | .partInitDone part_ => Sys2Proof.Machine.execPartInitDone part_ s
  | .partActivate part_ => Sys2Proof.Machine.execPartActivate part_ s
  | .partActivateResume part_ => Sys2Proof.Machine.execPartActivateResume part_ s
  | .partQuiesce part_ => Sys2Proof.Machine.execPartQuiesce part_ s
  | .partQuiesceDone part_ => Sys2Proof.Machine.execPartQuiesceDone part_ s
  | .partOff part_ => Sys2Proof.Machine.execPartOff part_ s
  | .partModeWrite value => Sys2Proof.Machine.execPartModeWrite value s
  | .portOwnerWrite die value => Sys2Proof.Machine.execPortOwnerWrite die value s
  | .partModuleIdWrite part_ value => Sys2Proof.Machine.execPartModuleIdWrite part_ value s
  | .hbmPlacementWrite part_ which value => Sys2Proof.Machine.execHbmPlacementWrite part_ which value s
  | .expTableWrite part_ value => Sys2Proof.Machine.execExpTableWrite part_ value s
  | .sillageWrite part_ which value => Sys2Proof.Machine.execSillageWrite part_ which value s
  | .registerWrite byNose bar off size value => Sys2Proof.Machine.execRegisterWrite byNose bar off size value s
  | .hostReadBad bar off size => Sys2Proof.Machine.execHostReadBad bar off size s
  | .evtPendClear page value => Sys2Proof.Machine.execEvtPendClear page value s
  | .evtForce page value => Sys2Proof.Machine.execEvtForce page value s
  | .evtEnWrite page value => Sys2Proof.Machine.execEvtEnWrite page value s
  | .errClear page => Sys2Proof.Machine.execErrClear page s
  | .pageLockWrite page value => Sys2Proof.Machine.execPageLockWrite page value s
  | .mergeCtrlClear cluster => Sys2Proof.Machine.execMergeCtrlClear cluster s
  | .compPendClear word value => Sys2Proof.Machine.execCompPendClear word value s
  | .cwApWrite aperture value => Sys2Proof.Machine.execCwApWrite aperture value s
  | .cmdWindowWrite off data => Sys2Proof.Machine.execCmdWindowWrite off data s
  | .cmdWindowRead off len => Sys2Proof.Machine.execCmdWindowRead off len s
  | .hostResetPartition part_ => Sys2Proof.Machine.execHostResetPartition part_ s
  | .hostResetModule => Sys2Proof.Machine.execHostResetModule s
  | .mailboxComplete => Sys2Proof.Machine.execMailboxComplete s
  | .getInfo => Sys2Proof.Machine.execGetInfo s
  | .setTime => Sys2Proof.Machine.execSetTime s
  | .readEvents => Sys2Proof.Machine.execReadEvents s
  | .readBlotters r => Sys2Proof.Machine.execReadBlotters r s
  | .stageWrite => Sys2Proof.Machine.execStageWrite s
  | .stageRead => Sys2Proof.Machine.execStageRead s
  | .storeRead r => Sys2Proof.Machine.execStoreRead r s
  | .storeWrite failed => Sys2Proof.Machine.execStoreWrite failed s
  | .calibrate => Sys2Proof.Machine.execCalibrate s
  | .retrainHbm => Sys2Proof.Machine.execRetrainHbm s
  | .recalPorts => Sys2Proof.Machine.execRecalPorts s
  | .selftest pass disabled narrowed rowsDiffer => Sys2Proof.Machine.execSelftest pass disabled narrowed rowsDiffer s
  | .fwBegin => Sys2Proof.Machine.execFwBegin s
  | .fwData failed => Sys2Proof.Machine.execFwData failed s
  | .fwCommit verdict r => Sys2Proof.Machine.execFwCommit verdict r s
  | .fwAbort => Sys2Proof.Machine.execFwAbort s
  | .fwActivate => Sys2Proof.Machine.execFwActivate s
  | .setMinVersion => Sys2Proof.Machine.execSetMinVersion s
  | .readSensors => Sys2Proof.Machine.execReadSensors s
  | .recoveryLoad verdict => Sys2Proof.Machine.execRecoveryLoad verdict s
  | .mctpControl binding eid tag cmd data => Sys2Proof.Machine.execMctpControl binding eid tag cmd data s
  | .pldmDiscovery binding eid tag ty cmd data => Sys2Proof.Machine.execPldmDiscovery binding eid tag ty cmd data s
  | .pldmSensorRead binding eid tag sensor => Sys2Proof.Machine.execPldmSensorRead binding eid tag sensor s
  | .pldmSetEventReceiver binding eid tag enable receiver => Sys2Proof.Machine.execPldmSetEventReceiver binding eid tag enable receiver s
  | .pldmRequestUpdate binding eid tag len => Sys2Proof.Machine.execPldmRequestUpdate binding eid tag len s
  | .doeDiscovery index => Sys2Proof.Machine.execDoeDiscovery index s
  | .spdmGetVersion transport eid => Sys2Proof.Machine.execSpdmGetVersion transport eid s
  | .spdmGetCapabilities transport eid version => Sys2Proof.Machine.execSpdmGetCapabilities transport eid version s
  | .spdmNegotiateAlgorithms transport eid => Sys2Proof.Machine.execSpdmNegotiateAlgorithms transport eid s
  | .spdmGetDigests transport eid => Sys2Proof.Machine.execSpdmGetDigests transport eid s
  | .spdmGetCertificate transport eid slot len => Sys2Proof.Machine.execSpdmGetCertificate transport eid slot len s
  | .spdmChallenge transport eid slot => Sys2Proof.Machine.execSpdmChallenge transport eid slot s
  | .spdmGetMeasurements transport eid index signed => Sys2Proof.Machine.execSpdmGetMeasurements transport eid index signed s
  | .spdmKeyExchange transport eid => Sys2Proof.Machine.execSpdmKeyExchange transport eid s
  | .spdmFinish transport eid good => Sys2Proof.Machine.execSpdmFinish transport eid good s
  | .spdmHeartbeat transport eid => Sys2Proof.Machine.execSpdmHeartbeat transport eid s
  | .spdmKeyUpdate transport eid op tag => Sys2Proof.Machine.execSpdmKeyUpdate transport eid op tag s
  | .spdmEndSession transport eid => Sys2Proof.Machine.execSpdmEndSession transport eid s
  | .bankPoweredDown site pc bank => Sys2Proof.Machine.execBankPoweredDown site pc bank s
  | .selfRefreshExitComplete site => Sys2Proof.Machine.execSelfRefreshExitComplete site s
  | .wxlRefclkReturn die => Sys2Proof.Machine.execWxlRefclkReturn die s
  | .pcieRefclkReturn width speed flit => Sys2Proof.Machine.execPcieRefclkReturn width speed flit s
  | .garbageCollection block failed => Sys2Proof.Machine.execGarbageCollection block failed s
  | .aliasKeysReady => Sys2Proof.Machine.execAliasKeysReady s
  | .i3cDynamicAddress addr => Sys2Proof.Machine.execI3cDynamicAddress addr s
  | .unlistedMailboxOpcode => Sys2Proof.Machine.execUnlistedMailboxOpcode s
  | .reservedOpcodeIssue core => Sys2Proof.Machine.execReservedOpcodeIssue core s
  | .reservedOpclassRecord queue => Sys2Proof.Machine.execReservedOpclassRecord queue s
  | .dStateChange d3 => Sys2Proof.Machine.execDStateChange d3 s
  | .pldmActivateFirmware binding eid tag image verdict => Sys2Proof.Machine.execPldmActivateFirmware binding eid tag image verdict s

end Sys2Proof.Machine
end

