-- ==== Sys2Proof/Machine/Step.lean ====
section
/-! DEFINITION. One step: the command at the front of the queue takes place; on an empty queue one tick passes (log entry 4). -/

namespace Sys2Proof.Machine

/-- The queue without its front command. -/
def popped (s : State) : State := { s with pending := s.pending.tail }

/-- One step of the module. DESIGN CHOICE (log entry 4). DESIGN CHOICE (log entry 62). -/
def step (s : State) : Host.Outcome State Fault Refusal :=
  match s.pending with
  | [] => .next (tick s)
  | c :: _ => exec c (popped s)

/-- The state with the command a word spells at the front of the queue: no word spells one, so nothing changes. DEDUCED (log entry 13). -/
def State.withFetchWord (s : State) (nbits w : Nat) : State :=
  match decodeTableWord nbits w with
  | some c => { s with pending := c :: s.pending }
  | none => s

end Sys2Proof.Machine
end

