-- ==== Sys2Proof/Certificates/Slice0/Obligations.lean ====
section
/-! DEFINITION. The statements for the provers, one `Obligations.<Name>` each. A statement over several
rows is the conjunction of `claim…` definitions, each with its own docstring. -/

section

open Sys2Proof Sys2Proof.Machine

/-! ### Words the statements share -/

/-- Core n stands before a word of opcode o and may issue it: the core is enabled, RUNNING, not held and not stopping, its program
is loaded and PC lies within it, and the word's counter wait, if it has one, is met (R56, R57, R82). -/
def Sys2Proof.Machine.atWord (s : State) (n o : Nat) : Bool :=
  let c := core s n
  canIssue s n && decide (c.pc < c.progLen) && (opc (wordAt c) == o) && (!waitEn (wordAt c) || waitMet c (waitCtr (wordAt c)))

/-- The word is legal (R59, R62) and no earlier instruction in flight holds it up (R63). -/
def Sys2Proof.Machine.ready (s : State) (n o : Nat) : Bool :=
  let c := core s n
  let w := wordAt c
  atWord s n o && !illegal w && !hazards c w (readsOf w 0) (writesOf w)

/-- Core c once word w has issued and the next word is at pc: an enabled wait moves its counter's target by the counter's step
(R57, R82). -/
def Sys2Proof.Machine.stepped (c : Core) (w : W64) (pc : Nat) : Core :=
  { c with
    pc := pc, hold := none, state := .running,
    tgt := if waitEn w then sput c.tgt (waitCtr w) (sget 0 c.tgt (waitCtr w) + BitVec.ofNat 32 (sget (0 : Byte) c.stp (waitCtr w)).toNat)
           else c.tgt }

/-- Core c with v in general register d, where G0 takes no write (R58), once its word w has issued. -/
def Sys2Proof.Machine.wrote (c : Core) (w : W64) (v : W64) : Core :=
  let d := fld w 47 43
  stepped { c with g := if d = 0 then c.g else sput c.g d v } w (c.pc + 1)

/-- First operand of a scalar instruction. -/
def Sys2Proof.Machine.opA (c : Core) (w : W64) : W64 := getG c (fld w 42 38)

/-- Second operand of a scalar instruction: IMM32 sign-extended when bit 32 is 1, else GB. -/
def Sys2Proof.Machine.opB (c : Core) (w : W64) : W64 :=
  if bit w 32 then BitVec.ofInt 64 (sval 32 (fld w 31 0)) else getG c (fld w 37 33)

/-- A host write of four bytes reaches the registers of a page: the endpoint takes requests, the page is served, its domain is on and
it is not locked, and no reset of its crossing runs (R295, R507, R509, R512, R513, R517). -/
def Sys2Proof.Machine.regOpen (s : State) (pg : Nat) : Bool :=
  hostReach s && pageServed s pg && pageOn s pg && !crossingReset s pg && !(hdr s pg).locked

/-- The rows of the core instructions of core n, each with its opcode (Table 4-1); MOVE.R, which the link engine serves, is not among them. -/
def Sys2Proof.Machine.coreRows (n : Nat) (m : Met) : List (Nat × Instr) :=
  [(0x00, .nop n m), (0x01, .add n m), (0x02, .sub n m), (0x03, .mul n m), (0x04, .and n m), (0x05, .or n m), (0x06, .xor n m),
   (0x07, .shl n m), (0x08, .shr n m), (0x09, .sar n m), (0x0A, .slt n m), (0x0B, .sltu n m), (0x0C, .lui n m),
   (0x0D, .rdcnt n m), (0x0E, .rdacc n m), (0x0F, .rdcap n m), (0x10, .br n m), (0x11, .beqz n m), (0x12, .bnez n m),
   (0x13, .endProg n m), (0x20, .hset n m), (0x21, .hrel n m), (0x28, .wait n m), (0x29, .signal n m), (0x2A, .cset n m),
   (0x2B, .tset n m), (0x2C, .launchAt n m), (0x2D, .ufence n m), (0x40, .mmaD n m), (0x41, .mmaS n m), (0x42, .mmaA n m),
   (0x48, .moveL n m), (0x49, .moveS n m), (0x4B, .moveX n m), (0x60, .vadd n m), (0x61, .vsub n m), (0x62, .vmul n m),
   (0x63, .vfma n m), (0x64, .vmin n m), (0x65, .vmax n m), (0x66, .vabs n m), (0x67, .vcmp n m), (0x68, .vsel n m),
   (0x69, .vcvt n m), (0x6A, .vdiv n m), (0x6B, .vsqrt n m), (0x6C, .vrcp n m), (0x6D, .vrsq n m), (0x6E, .vexp2 n m),
   (0x6F, .vlog2 n m), (0x70, .vrsum n m), (0x71, .vbcast n m), (0x72, .vld n m), (0x73, .vst n m), (0x74, .vlda n m),
   (0x75, .vsta n m), (0x76, .vmovg n m)]



/-- ADD, SUB, MUL, AND, OR and XOR write the 64-bit result of GA and the second operand to GD and nothing else (R60, Table 4-2). -/
def Obligations.ScalarArithmeticWritesResult : Prop :=
  ∀ (s : State) (n : Nat),
    let c := core s n
    let w := wordAt c
    (ready s n 0x01 = true → exec (.add n .clean) s = .next (setCore s n (wrote c w (opA c w + opB c w)))) ∧
    (ready s n 0x02 = true → exec (.sub n .clean) s = .next (setCore s n (wrote c w (opA c w - opB c w)))) ∧
    (ready s n 0x03 = true → exec (.mul n .clean) s = .next (setCore s n (wrote c w (opA c w * opB c w)))) ∧
    (ready s n 0x04 = true → exec (.and n .clean) s = .next (setCore s n (wrote c w (opA c w &&& opB c w)))) ∧
    (ready s n 0x05 = true → exec (.or n .clean) s = .next (setCore s n (wrote c w (opA c w ||| opB c w)))) ∧
    (ready s n 0x06 = true → exec (.xor n .clean) s = .next (setCore s n (wrote c w (opA c w ^^^ opB c w))))

/-- SHL, SHR and SAR shift GA by the second operand modulo 64; SLT and SLTU write 1 or 0; LUI puts IMM32 above the low half of GA
(R60, Table 4-2). -/
def Obligations.ScalarShiftAndCompareResults : Prop :=
  ∀ (s : State) (n : Nat),
    let c := core s n
    let w := wordAt c
    let k := (opB c w).toNat % 64
    (ready s n 0x07 = true → exec (.shl n .clean) s = .next (setCore s n (wrote c w (opA c w <<< k)))) ∧
    (ready s n 0x08 = true → exec (.shr n .clean) s = .next (setCore s n (wrote c w (opA c w >>> k)))) ∧
    (ready s n 0x09 = true → exec (.sar n .clean) s = .next (setCore s n (wrote c w ((opA c w).sshiftRight k)))) ∧
    (ready s n 0x0A = true → exec (.slt n .clean) s = .next (setCore s n (wrote c w (if (opA c w).slt (opB c w) then 1 else 0)))) ∧
    (ready s n 0x0B = true → exec (.sltu n .clean) s = .next (setCore s n (wrote c w (if (opA c w).ult (opB c w) then 1 else 0)))) ∧
    (ready s n 0x0C = true →
      exec (.lui n .clean) s = .next (setCore s n (wrote c w (BitVec.ofNat 64 (fld w 31 0 * 2 ^ 32 ||| fld (opA c w) 31 0)))))

/-- NOP changes nothing but PC; RDCNT reads an arrival counter, RDACC the cluster's local Accord copy, RDCAP the core's CORE_CAPS
(R60, R280, Table 4-2). -/
def Obligations.ScalarReadsMachineState : Prop :=
  ∀ (s : State) (n : Nat),
    let c := core s n
    let w := wordAt c
    (ready s n 0x00 = true → exec (.nop n .clean) s = .next (setCore s n (stepped c w (c.pc + 1)))) ∧
    (ready s n 0x0D = true → exec (.rdcnt n .clean) s = .next (setCore s n (wrote c w (BitVec.ofNat 64 (getCtr c (fld w 4 0)).toNat)))) ∧
    (ready s n 0x0E = true →
      exec (.rdacc n .clean) s = .next (setCore s n (wrote c w (BitVec.ofNat 64 (localCopy s (n / 16)))))) ∧
    (ready s n 0x0F = true → exec (.rdcap n .clean) s = .next (setCore s n (wrote c w (BitVec.ofNat 64 (coreCaps s n)))))

/-- A branch is taken to PC + IMM32, BEQZ when GA is 0 and BNEZ when it is not; a target outside the program, taken or not, stops the
core with PC_RANGE; END lets nothing further issue (R60, Table 4-2). -/
def Obligations.BranchesAndEnd : Prop :=
  ∀ (s : State) (n : Nat),
    let c := core s n
    let w := wordAt c
    let t : Int := (c.pc : Int) + sval 32 (fld w 31 0)
    let inside := decide (0 ≤ t ∧ t < (c.progLen : Int))
    (ready s n 0x10 = true → inside = true → exec (.br n .clean) s = .next (setCore s n (stepped c w t.toNat))) ∧
    (ready s n 0x11 = true → inside = true →
      exec (.beqz n .clean) s = .next (setCore s n (stepped c w (if opA c w = 0 then t.toNat else c.pc + 1)))) ∧
    (ready s n 0x12 = true → inside = true →
      exec (.bnez n .clean) s = .next (setCore s n (stepped c w (if opA c w = 0 then c.pc + 1 else t.toNat)))) ∧
    (ready s n 0x10 = true → inside = false → exec (.br n .clean) s = .next (refuse s n 0x0208 0)) ∧
    (ready s n 0x11 = true → inside = false → exec (.beqz n .clean) s = .next (refuse s n 0x0208 0)) ∧
    (ready s n 0x12 = true → inside = false → exec (.bnez n .clean) s = .next (refuse s n 0x0208 0)) ∧
    (ready s n 0x13 = true → exec (.endProg n .clean) s = .next (setCore s n { stepped c w (c.pc + 1) with ended := true }))

/-- HSET puts the entry of GA, its low 12 bits 0, into the handle and empties its slots, unless R73 refuses the entry with HANDLE_BAD;
HREL empties slots of a checked handle from its release position and sends the credit it names (R73, R79). -/
def Obligations.HandleInstructions : Prop :=
  ∀ (s : State) (n : Nat),
    let c := core s n
    let w := wordAt c
    let h := fld w 47 42
    let e := getG c (fld w 41 37)
    let k := if fld w 41 36 = 0 then 64 else fld w 41 36
    let free := relSlots (hSlots (getH c h)) k (getSlots c h) false
    let away := if bit w 35 then destErr s n (fld w 34 23) else none
    let after := setCore s n (stepped { c with slots := if hChecked (getH c h) then sput c.slots h free.1 else c.slots } w (c.pc + 1))
    (ready s n 0x20 = true → hsetBad c h e = false →
      exec (.hset n .clean) s = .next (setCore s n (stepped
        { c with handles := sput c.handles h (e &&& 0xFFFFFFFFFFFFF000), slots := sput c.slots h { full := 0, fill := 0, rel := 0 } } w (c.pc + 1)))) ∧
    (ready s n 0x20 = true → hsetBad c h e = true → exec (.hset n .clean) s = .next (refuse s n 0x0205 0)) ∧
    (ready s n 0x21 = true → hrelWaits c w = false → away = none → hValid (getH c h) = true →
      (hChecked (getH c h) && free.2) = false →
      exec (.hrel n .clean) s = .next (if bit w 35 then sendInc after n (fld w 34 23) (fld w 22 18) k [] else after)) ∧
    (ready s n 0x21 = true → hrelWaits c w = false → away = none → hValid (getH c h) = false →
      exec (.hrel n .clean) s = .next (refuse s n 0x0203 0)) ∧
    (ready s n 0x21 = true → hrelWaits c w = false → away = none → hValid (getH c h) = true →
      (hChecked (getH c h) && free.2) = true → exec (.hrel n .clean) s = .next (refuse s n 0x0206 0))

/-- WAIT moves its target; SIGNAL sends an increment to another core's counter; CSET and TSET write a counter, or its target and
step; UFENCE issues once no instruction of the units it names is in flight (R65, R82-R85). -/
def Obligations.SynchronisationInstructions : Prop :=
  ∀ (s : State) (n : Nat),
    let c := core s n
    let w := wordAt c
    let k := fld w 47 43
    let a := fld (opA c w) 31 0
    let next := stepped c w (c.pc + 1)
    (ready s n 0x28 = true → exec (.wait n .clean) s = .next (setCore s n (stepped c w (c.pc + 1)))) ∧
    (ready s n 0x29 = true → destErr s n (fld w 47 36) = none →
      exec (.signal n .clean) s = .next (sendInc (setCore s n (stepped c w (c.pc + 1))) n (fld w 47 36) (fld w 35 31) (fld w 15 0)
        (if bit w 30 then moverIds c else []))) ∧
    (∀ code, ready s n 0x29 = true → destErr s n (fld w 47 36) = some code → exec (.signal n .clean) s = .next (refuse s n code 0)) ∧
    (ready s n 0x2A = true →
      exec (.cset n .clean) s = .next (setCore s n (stepped { c with ctr := sput c.ctr k (BitVec.ofNat 32 (a + fld w 31 0)) } w (c.pc + 1)))) ∧
    (ready s n 0x2B = true →
      exec (.tset n .clean) s = .next (setCore s n { next with
        tgt := sput next.tgt k (BitVec.ofInt 32 ((a : Int) + sval 24 (fld w 23 0)))
        stp := sput next.stp k (BitVec.ofNat 8 (fld w 31 24)) })) ∧
    (ready s n 0x2D = true → ufenceWaits c w = false → exec (.ufence n .clean) s = .next (setCore s n (stepped c w (c.pc + 1)))) ∧
    (ready s n 0x2D = true → ufenceWaits c w = true → exec (.ufence n .clean) s = .next s)

/-- LAUNCH_AT issues once the cluster's local Accord copy has reached the stamp in GA; before it the core holds in WAITING, and
LAUNCH_STAMP_REACHED issues it when the copy arrives (R86, R281). -/
def Sys2Proof.Machine.claimLaunchAtHoldsUntilItsStamp : Prop :=
  ∀ (s : State) (n : Nat),
    let c := core s n
    let w := wordAt c
    (ready s n 0x2C = true → stampOf c w ≤ localCopy s (n / 16) →
      exec (.launchAt n .clean) s = .next (setCore s n (stepped c w (c.pc + 1)))) ∧
    (ready s n 0x2C = true → localCopy s (n / 16) < stampOf c w →
      exec (.launchAt n .clean) s = .next (setCore s n
        (startHold s n { c with state := .waiting, hold := some { launch := true, since := now s, limited := false } }))) ∧
    (∀ h, c.state = .waiting → c.hold = some h → h.launch = true → c.startAt = none → opc w = 0x2C → illegal w = false →
      stampOf c w ≤ localCopy s (n / 16) →
      exec (.launchStampReached n) s = .next (setCore s n (stepped c w (c.pc + 1)))) ∧
    (∀ h t, c.state = .waiting → c.hold = some h → h.launch = true → c.startAt = some t → t ≤ localCopy s (n / 16) →
      exec (.launchStampReached n) s = .next (setCore s n { c with state := .running, hold := none, startAt := none }))

/-- A core whose hold has ended. -/
def Sys2Proof.Machine.unheld (s : State) (n : Nat) : State := setCore s n { core s n with state := .running, hold := none }

/-- Any instruction with a wait enabled whose counter has not reached its target holds the core in WAITING under the SLEEP_CFG of that
moment; COUNTER_WAIT_MET makes the core's attempt at the held word once the counter is there, with the effect the word has on a core that
was not held (R82, R284). -/
def Sys2Proof.Machine.claimCounterWaitHoldsTheCore : Prop :=
  ∀ (s : State) (n : Nat),
    let c := core s n
    let w := wordAt c
    let held := setCore s n (startHold s n { c with state := .waiting, hold := some { launch := false, since := now s, limited := false } })
    (∀ r ∈ coreRows n .clean, canIssue s n = true → c.pc < c.progLen → opc w = r.1 → waitEn w = true → waitMet c (waitCtr w) = false →
      exec r.2 s = .next held) ∧
    (canIssue s n = true → c.pc < c.progLen → opc w = 0x4A → waitEn w = true → waitMet c (waitCtr w) = false →
      exec (.moveR n .clean) s = .next held) ∧
    (∀ h, c.state = .waiting → c.hold = some h → h.launch = false → waitMet c (waitCtr w) = true →
      (opc w ≠ 0x4A → exec (.counterWaitMet n) s = .next (tryIssue s n w)) ∧
      (opc w = 0x4A → exec (.counterWaitMet n) s = .next (movesOpen (tryIssue s n w) n)) ∧
      (opc w = 0x28 → illegal w = false → hazards c w [] [] = false →
        exec (.counterWaitMet n) s = .next (setCore s n (stepped c w (c.pc + 1)))) ∧
      (∀ r ∈ coreRows n .clean, unitOf r.1 = none → ready (unheld s n) n r.1 = true → (r.1 = 0x2D → ufenceWaits c w = false) →
        (r.1 = 0x21 → hrelWaits c w = false) → exec (.counterWaitMet n) s = exec r.2 (unheld s n)))

/-- An opcode Table 4-1 does not list stops the core with ILLEGAL_INSN and issues nothing (R59). -/
def Sys2Proof.Machine.claimUnlistedOpcodeStopsTheCore : Prop :=
  ∀ (s : State) (n : Nat),
    let c := core s n
    canIssue s n = true → c.pc < c.progLen → opListed (opc (wordAt c)) = false →
      (waitEn (wordAt c) = false ∨ waitMet c (waitCtr (wordAt c)) = true) →
      exec (.reservedOpcodeIssue n) s = .next (refuse s n 0x0201 0)
/-- What a core meets as it issues (R125, R443, R451, R453): a corrected error of the stores it reads is counted and the instruction
takes its effect; one that cannot be corrected resets the partition and a sequencer that disagrees stops the core, and the instruction takes
none; accumulators are met only by an instruction that reads them. -/
def Sys2Proof.Machine.claimStoreErrors : Prop :=
  ∀ (s : State) (n : Nat),
    (∀ r ∈ coreRows n .spadCorrected, attempts s n r.1 = true → exec r.2 s = .next (coreCe (coreRow s n r.1) n)) ∧
    (∀ r ∈ coreRows n .spadUncorrectable, attempts s n r.1 = true → exec r.2 s = .next (coreUe s n 0x0257)) ∧
    (∀ r ∈ coreRows n .accCorrected, attempts s n r.1 = true → readsAcc s (coreRow s n r.1) n = true →
      exec r.2 s = .next (coreCe (coreRow s n r.1) n)) ∧
    (∀ r ∈ coreRows n .accUncorrectable, attempts s n r.1 = true → readsAcc s (coreRow s n r.1) n = true →
      exec r.2 s = .next (coreUe s n 0x0258)) ∧
    (∀ r ∈ coreRows n .accCorrected ++ coreRows n .accUncorrectable, attempts s n r.1 = true → readsAcc s (coreRow s n r.1) n = false →
      exec r.2 s = .next (coreRow s n r.1)) ∧
    (∀ r ∈ coreRows n .seqFault, attempts s n r.1 = true → exec r.2 s = .next (seqCheck s n))

/-- An array, merge-engine or vector word that may issue: no wait of R63 or R56 holds it and every check of R62 passes, in its
order: the encoding, the handles, the slots of checked handles, the banks. -/
def Sys2Proof.Machine.unitReady (s : State) (n o : Nat) (u : CUnit) : Bool :=
  let c := core s n
  let w := wordAt c
  let reg := regOf c w
  let sp := unitSpans w reg
  atWord s n o && !hazards c w (readsOf w reg) (writesOf w) && !queueFull c u && (encErr (arrayCols s n) reg w).isNone
    && (unitHandleErr c w reg sp).isNone && (slotErr c sp).isNone && (bankErr c u (banksOf (spanLines c sp))).isNone

/-- The word of core n has issued into the queue of unit u, with its offsets, banks, lines and cluster settings latched. -/
def Sys2Proof.Machine.queued (s : State) (n : Nat) (u : CUnit) : State :=
  let c := core s n
  let w := wordAt c
  let reg := regOf c w
  let sp := unitSpans w reg
  let k := cluster s (n / 16)
  enqueue (setCore s n (stepped c w (c.pc + 1))) n
    { mkFlight u w c.pc reg (readsOf w reg) (writesOf w) with
      spans := sp, banks := banksOf (spanLines c sp), lines := if opc w = 0x73 then [] else spanLines c sp,
      thresh := threshOf k (fld reg 60 59), rowSplit := rowSplitOf k }

/-- Every vector instruction, MMA.D, MMA.S and MMA.A issues into its unit's queue when no wait holds it and no check refuses it (R56,
R62, R63). -/
def Obligations.UnitInstructionsIssue : Prop :=
  ∀ (s : State) (n : Nat) (u : CUnit), ∀ r ∈ coreRows n .clean, unitOf r.1 = some u → u ≠ .mover → unitReady s n r.1 u = true →
    exec r.2 s = .next (queued s n u)

/-- The residue checks of R444 pass or are switched off. -/
def Sys2Proof.Machine.checkPasses (s : State) (chk : Chk) : Bool := !bit s.glob.integCfg 0 || decide (chk = .pass)

/-- Instruction f completes on core n having written v to vector register d. -/
def Sys2Proof.Machine.wroteV (s : State) (n : Nat) (f : Flight) (v : VReg) : State :=
  complete (setCore s n (setV (core s n) (fld f.word 47 43) v)) n f

/-- The oldest vector instruction of core n completes with the result Table 4-8 gives its opcode in VD, lane by lane under TYPE
(R47, R88-R90, R587). -/
def Obligations.VectorArithmeticResults : Prop :=
  ∀ (s : State) (n : Nat) (chk : Chk) (f : Flight),
    (unitFlights (core s n) .vec).head? = some f → checkPasses s chk = true →
    let w := f.word
    let ty := fld w 27 26
    let a := getV (core s n) (fld w 42 38)
    let b := getV (core s n) (fld w 37 33)
    let d := getV (core s n) (fld w 32 28)
    ∀ r ∈ ([(0x60, vAdd ty a b), (0x61, vSub ty a b), (0x62, vMul ty a b), (0x63, vFma ty a b d), (0x64, vMin ty a b),
        (0x65, vMax ty a b), (0x66, vAbs ty a), (0x67, vCmp ty (fld w 2 0) a b), (0x68, vSel ty a b d),
        (0x69, vCvt ty (fld w 25 22) (bit w 21) a), (0x6A, vDiv ty a b), (0x6B, vSqrt ty a), (0x6C, vTrans ty vrcp a),
        (0x6D, vTrans ty vrsq a), (0x6E, vTrans ty vexp2 a), (0x6F, vTrans ty vlog2 a), (0x70, vRsum ty a),
        (0x71, vBcast ty f.reg)] : List (Nat × VReg)),
      opc w = r.1 → exec (.vectorResult n chk) s = .next (wroteV s n f r.2)

/-- VLD reads 128 bytes of a handle and VLDA 128 bytes of accumulator rows into VD, VST and VSTA write them from VD, and VMOVG puts one
lane, zero-extended, into GD (R88, R120, R588). -/
def Obligations.VectorMemoryResults : Prop :=
  ∀ (s : State) (n : Nat) (chk : Chk) (f : Flight),
    (unitFlights (core s n) .vec).head? = some f → checkPasses s chk = true →
    let c := core s n
    let w := f.word
    let lane := vLane (fld w 27 26) (fld w 5 0) (getV c (fld w 42 38))
    let stored := toBytes 128 (getV c (fld w 47 43)).toNat
    let l := (vmemOff w f.reg).toNat / 64
    let h := getH c (fld w 37 32)
    (opc w = 0x72 → f.olds = [] → exec (.vectorResult n chk) s = .next (wroteV s n f (BitVec.ofNat 1024
      (ofBytes (readBytes s.mem (coreAddr n (64 * hLine h l)) 64) + ofBytes (readBytes s.mem (coreAddr n (64 * hLine h (l + 1))) 64) * 2 ^ 512)))) ∧
    (opc w = 0x73 → exec (.vectorResult n chk) s =
      .next (complete { s with mem := writeCells s.mem (mapIx (fun i b => (vmemAddr c n f i, b)) 0 stored) } n f)) ∧
    (opc w = 0x74 → exec (.vectorResult n chk) s = .next (wroteV s n f (BitVec.ofNat 1024 (readLe s.mem (vaccAddr n w 0) 128)))) ∧
    (opc w = 0x75 → exec (.vectorResult n chk) s = .next (complete { s with mem := writeBytes s.mem (vaccAddr n w 0) stored } n f)) ∧
    (opc w = 0x76 → exec (.vectorResult n chk) s = .next (complete (setCore s n
      { c with g := if fld w 47 43 = 0 then c.g else sput c.g (fld w 47 43) lane }) n f))

/-- The array's oldest MMA.D, the merge unit's MMA.S and each part of an MMA.A write columns 0 to NCOL of their tile, an MMA.A taking
part after part on the path its THRESH chose, a dense part while the array runs nothing of its own; the check path copies a sampled
instruction's operands; a CTILE header that fails its check stops the core with CTILE_BAD (R107, R110, R181, R187, R189-R191, R449). -/
def Obligations.MatrixTilesAreWritten : Prop :=
  ∀ (s : State) (n : Nat) (chk : Chk) (f : Flight), mayFinish f = true → checkPasses s chk = true →
    let w := f.word
    let put := fun (s1 : State) (vs : List Nat) =>
      let s2 := if f.olds.isEmpty then s1 else bumpFree s1
      { s2 with mem := writeTile s2.mem n (fld w 47 42) (fld w 5 2) vs }
    let o := mergeReads s n f f.part 1
    let bad := (mergeOps s n f f.part 1).bad
    let all := mergeReads s n f 0 (mmaK16 w)
    let k := cluster s (n / 16)
    let part := fun (s1 : State) =>
      let vs := partForm w f.reg (f.path == some true) o (partStart s n f)
      put (noteSample s1 n f o (partStart s n f) vs) vs
    (headArray s n = some f → exec (.mmaDTileWrite n false chk) s =
      .next (complete (put (noteSample s n f (mmadReads s n f) (startTile s.mem w n) (mmadTile s n f)) (mmadTile s n f)) n f)) ∧
    (headMerge s n = some f → f.path = some true → arrayBusy (core s n) = false →
      (bad = none → mmaK16 w ≤ f.part + 1 → exec (.mmaDTileWrite n true chk) s = .next (addBusy (complete (part s) n f) n)) ∧
      (bad = none → f.part + 1 < mmaK16 w → exec (.mmaDTileWrite n true chk) s = .next (addBusy (part (nextPart s n f)) n)) ∧
      (∀ b, bad = some b → exec (.mmaDTileWrite n true chk) s = .next (ctileBad s n f b))) ∧
    (headMerge s n = some f → opc w = 0x42 → f.path = some false →
      (bad = none → mmaK16 w ≤ f.part + 1 → exec (.mergeTileWrite n chk) s = .next (addBusy (complete (part s) n f) n)) ∧
      (bad = none → f.part + 1 < mmaK16 w → exec (.mergeTileWrite n chk) s = .next (addBusy (part (nextPart s n f)) n)) ∧
      (∀ b, bad = some b → exec (.mergeTileWrite n chk) s = .next (ctileBad s n f b))) ∧
    (headMerge s n = some f → opc w = 0x41 → (mergeOps s n f 0 (mmaK16 w)).bad = none →
      let vs := mergeForm w f.reg f.rowSplit all (startTile s.mem w n)
      let s1 := setCluster s (n / 16) { k with segExtra := k.segExtra + BitVec.ofNat 64 (segExtra (mergeOps s n f 0 (mmaK16 w)) f.rowSplit) }
      exec (.mergeTileWrite n chk) s = .next (addBusy (complete (put (noteSample s1 n f all (startTile s.mem w n) vs) vs) n f) n)) ∧
    (∀ b, headMerge s n = some f → opc w = 0x41 → (mergeOps s n f 0 (mmaK16 w)).bad = some b →
      exec (.mergeTileWrite n chk) s = .next (ctileBad s n f b)) ∧
    (headMerge s n = some f → opc w = 0x42 → f.path = none →
      let s1 := setCore s n (putFlight (core s n) { f with path := some (!partMerges f.reg f.thresh o) })
      (bad = none → exec (.mmaAPart n) s = .next (setCluster s1 (n / 16)
        (if partMerges f.reg f.thresh o then { k with pickMerge := k.pickMerge + 1 } else { k with pickDense := k.pickDense + 1 }))) ∧
      (∀ b, bad = some b → exec (.mmaAPart n) s = .next (ctileBad s n f b)))

/-- Core n once the re-run of instruction f has failed its check too: nothing is written, the core stops with ARITH_UE and a blotter is
issued (R445). -/
def Sys2Proof.Machine.failedCheck (s : State) (n : Nat) (f : Flight) : State :=
  let s1 := stopCore s n 0x0253 0 0
  complete (issueBlotter s1 { coreBlotter s1 4 0x0253 2 n with insn := f.word.toNat, pcAt := f.pc }) n f

/-- With the residue checks on, an instruction whose re-run passes takes its effect and is counted in ARITH_CE; one whose re-run fails
writes nothing and stops its core with ARITH_UE; a vector instruction that no check covers is not checked (R444, R445). -/
def Sys2Proof.Machine.claimArithmeticChecks : Prop :=
  ∀ (s : State) (n : Nat) (f : Flight), bit s.glob.integCfg 0 = true → mayFinish f = true →
    ((unitFlights (core s n) .vec).head? = some f → vecChecked f.word = true →
      exec (.vectorResult n .rerun) s = .next (complete (vecEffect (cureArith s n f) n f) n f) ∧
      exec (.vectorResult n .fail) s = .next (failedCheck s n f)) ∧
    (∀ chk, (unitFlights (core s n) .vec).head? = some f → vecChecked f.word = false →
      exec (.vectorResult n chk) s = .next (complete (vecEffect s n f) n f)) ∧
    (headArray s n = some f →
      let t := cureArith s n f
      exec (.mmaDTileWrite n false .rerun) s = .next (complete (putTile (noteSample t n f (mmadReads t n f) (startTile t.mem f.word n)
        (mmadTile t n f)) n f (mmadTile t n f)) n f) ∧
      exec (.mmaDTileWrite n false .fail) s = .next (failedCheck s n f)) ∧
    (headMerge s n = some f → f.path = some true → arrayBusy (core s n) = false → (mergeOps s n f f.part 1).bad = none →
      exec (.mmaDTileWrite n true .fail) s = .next (addBusy (failedCheck s n f) n)) ∧
    (headMerge s n = some f → opc f.word = 0x42 → f.path = some false → (mergeOps s n f f.part 1).bad = none →
      exec (.mergeTileWrite n .fail) s = .next (addBusy (failedCheck s n f) n)) ∧
    (headMerge s n = some f → opc f.word = 0x41 → (mergeOps s n f 0 (mmaK16 f.word)).bad = none →
      let s1 := setCluster s (n / 16) { cluster s (n / 16) with
        segExtra := (cluster s (n / 16)).segExtra + BitVec.ofNat 64 (segExtra (mergeOps s n f 0 (mmaK16 f.word)) f.rowSplit) }
      exec (.mergeTileWrite n .fail) s = .next (addBusy (failedCheck s1 n f) n))

/-- What a mover instruction at PC names: its descriptors, the sequence entries and planes they use, its handle runs and its tracked
sources and destinations (R137, R160, R175, R63). -/
structure Sys2Proof.Machine.MoverPlan where
  dsp : List Span
  sb : List Byte
  db : List Byte
  se : List (BitVec 128)
  de : List (BitVec 128)
  ctx : MoveCtx
  ps : List Plane
  sp : List Span
  base : List Res
  rd : List Res
  wr : List Res

/-- The plan of the mover word at core n's PC. -/
def Sys2Proof.Machine.moverPlan (s : State) (n : Nat) : MoverPlan :=
  let c := core s n
  let w := wordAt c
  let hd := fld w 47 42
  let g := getG c (fld w 41 37)
  let two := fun (first : Nat) =>
    readBytes s.mem (coreAddr n (64 * hLine (getH c hd) first)) 64 ++ readBytes s.mem (coreAddr n (64 * hLine (getH c hd) (first + 1))) 64
  let sb := two (fld g 15 0)
  let db := two (fld g 31 16)
  let se := usedSeq s n (parseDesc sb) (fld g 38 32)
  let de := usedSeq s n (parseDesc db) (fld g 38 32)
  let ps := planes s n (parseDesc sb) se false ++ planes s n (parseDesc db) de true
  let sp := planeSpans ps
  let tiles := fun (d : Bool) => (ps.filter (fun p => p.dst == d)).foldr (fun p acc => planeTiles n p ++ acc) []
  let base : List Res := rG (fld w 41 37) ++ [.h hd]
  { dsp := [(hd, fld g 15 0, 2, false), (hd, fld g 31 16, 2, false)], sb := sb, db := db, se := se, de := de, ps := ps, sp := sp,
    ctx := { op := opc w, tr := bit w 22, split := fld w 24 23, seqOfs := fld g 38 32, src := parseDesc sb, dst := parseDesc db },
    base := base, rd := base ++ (sp.filter (fun x => !x.2.2.2)).map (fun x => Res.h x.1) ++ (tiles false).map Res.t,
    wr := (sp.filter (fun x => x.2.2.2)).map (fun x => Res.h x.1) ++ (tiles true).map Res.t }

/-- The mover word at core n's PC may issue: no wait of R63, R56 or R123 holds it and no check of Table 7-10 refuses it. -/
def Sys2Proof.Machine.moverReady (s : State) (n o : Nat) : Bool :=
  let c := core s n
  let w := wordAt c
  let m := moverPlan s n
  atWord s n o && !illegal w && !hazards c w m.base [] && !queueFull c .mover && !hazards c w m.rd m.wr
    && (handleErr c m.dsp).isNone && (slotErr c m.dsp).isNone && (descErr s n m.ctx descCodes).isNone
    && (targetErr n w m.ctx.src m.ctx.dst m.ps).isNone && (addrErrs s n m.ctx.src m.ctx.dst m.ps).isNone && (planeHandleErr s n m.ps).isNone
    && (slotErr c (m.sp.filter (fun x => !x.2.2.2 || opc w == 0x48))).isNone

/-- The mover instruction at PC once in the mover queue. -/
def Sys2Proof.Machine.moverFlight (s : State) (n : Nat) : Flight :=
  let c := core s n
  let m := moverPlan s n
  { mkFlight .mover (wordAt c) c.pc (getG c (fld (wordAt c) 41 37)) m.rd m.wr with
    spans := m.dsp ++ m.sp, src := m.sb, dst := m.db, srcSeq := m.se, dstSeq := m.de, started := true }

/-- The mover instruction at PC has issued; writes to another core's scratchpad go onto the network (R137, R160, R168). -/
def Sys2Proof.Machine.moverIssued (s : State) (n : Nat) : State :=
  let c := core s n
  let f := moverFlight s n
  let v := moveView f
  let s1 := enqueue (setCore s n (stepped c (wordAt c) (c.pc + 1))) n { f with sent := toOtherCore s n v }
  if toOtherCore s n v then { bumpMove s1 n v with net := s1.net ++ moveMsgs s1 n c.nextId v } else s1

/-- MOVE.L, MOVE.S and MOVE.X issue into the mover queue when nothing holds or refuses them; MOVE.R also opens the transfers of moves to
another endpoint (R160, R161, R169, R170). -/
def Sys2Proof.Machine.claimMoverInstructionsIssue : Prop :=
  ∀ (s : State) (n : Nat),
    (moverReady s n 0x48 = true → exec (.moveL n .clean) s = .next (moverIssued s n)) ∧
    (moverReady s n 0x49 = true → exec (.moveS n .clean) s = .next (moverIssued s n)) ∧
    (moverReady s n 0x4A = true → exec (.moveR n .clean) s = .next (movesOpen (moverIssued s n) n)) ∧
    (moverReady s n 0x4B = true → exec (.moveX n .clean) s = .next (moverIssued s n))

/-- Increments that waited at the entry die of core n's row for nothing else go on. -/
def Sys2Proof.Machine.waitingSent (s : State) (n : Nat) : State := rmtPump (iod s (coreEntry s n)).rmtWait.length s (coreEntry s n)

/-- MOVE_COMPLETE: a local move writes its destination bytes, a reduce-store combines them, a move whose writes went over the network
completes once they have all landed and one to another endpoint once it is acknowledged; poisoned data is not written; then CMP_CTR rises
and RMT_CTR's increment goes out. Its accesses outside the core meet what their flits met (R164, R167-R170, R203, R314). -/
def Sys2Proof.Machine.claimMovesCompleteInMemory : Prop :=
  ∀ (s : State) (n which : Nat) (f : Flight) (es : List (Nat × Ecc)) (o : FlitOut), (unitFlights (core s n) .mover)[which]? = some f →
    let v := moveView f
    let q := partOfCore s n
    let hs := (srcAddrs s n v).filter (fun a => decide (a < 2 ^ 40))
    let local_ := fun (cs : List Host.Cell) (work : State → State) =>
      hbmPoison (hs ++ mergedAddrs s n v cs) es = false →
      (moveOnNet s n v (cs.map (·.1) ++ mergedAddrs s n v cs) = false ∨ o = .good →
        exec (.moveComplete n which es o) s = .next (waitingSent (work (moveReads s n v (mergedAddrs s n v cs) es)) n)) ∧
      (moveOnNet s n v (cs.map (·.1) ++ mergedAddrs s n v cs) = true →
        exec (.moveComplete n which es o) s =
          .next (waitingSent (flitMeets s [] 0 n q o (fun t => work (moveReads t n v (mergedAddrs s n v cs) es))) n))
    (toRemote s n v = false → f.sent = false →
      (opc f.word ≠ 0x4B → local_ (moveCells s n v) (fun t => moveDone (localWrite (bumpMove t n v) n (moveCells s n v)) n f)) ∧
      (opc f.word = 0x4B → v.dst.ctile = false → local_ [] (fun t => moveDone (localReduce t n v) n f)) ∧
      (opc f.word = 0x4B → v.dst.ctile = true → local_ (ctileFree s n v) (fun t => moveDone (localWrite (bumpMove t n v) n (ctileFree s n v)) n f)) ∧
      (opc f.word ≠ 0x4B → hbmPoison (hs ++ mergedAddrs s n v (moveCells s n v)) es = true → o = .good →
        exec (.moveComplete n which es o) s = .next (waitingSent (moveReads s n v (mergedAddrs s n v (moveCells s n v)) es) n))) ∧
    (toRemote s n v = false → f.sent = true → s.net.any (fun m => m.src == n && m.flight == f.id) = false → hbmPoison hs es = false →
      o = .good → exec (.moveComplete n which es o) s = .next (waitingSent (moveDone (moveReads s n v [] es) n f) n)) ∧
    (toRemote s n v = false → f.sent = true → s.net.any (fun m => m.src == n && m.flight == f.id) = true →
      exec (.moveComplete n which es o) s = .next (waitingSent s n)) ∧
    (toRemote s n v = true → f.sent = true → f.xfer = none → hbmPoison hs es = false →
      exec (.moveComplete n which es o) s = .next (waitingSent (flitMeets (hbmMeets s hs es) [] 0 n q o (fun t => remoteComplete t n f)) n)) ∧
    (toRemote s n v = true → f.sent = false ∨ f.xfer.isSome = true → exec (.moveComplete n which es o) s = .next (waitingSent s n))

/-- What becomes of message i, m, of the network for each outcome o of its flit, when the command `row o` takes it off. -/
def Sys2Proof.Machine.landsAs (s : State) (i : Nat) (m : NetMsg) (row : FlitOut → Instr) : Prop :=
  let t := netDrop s i
  let p := unitCorePath s m.src m.dst
  let here := if m.src < 4096 ∧ !m.cells.isEmpty then countPath (countPath t p 1) (corePath m.dst m.src) 1 else countPath t p 1
  ((core s m.dst).state ≠ .testing → exec (row .good) s = .next (landMsg here m)) ∧
  ((core s m.dst).state = .testing → exec (row .good) s = .next (recordErr here (srcPage m.src) 0x0209 0 0)) ∧
  (∀ g, let a := modCluster (countPath t p 1) g (fun k => { k with netCe := k.netCe + 1 })
    exec (row (.corrected g)) s = .next (arriveFlit (correctedBlotter a (pgCluster g) { clusterBlotter a 1 0 g with action := 0 }) m)) ∧
  (∀ g l, let a := recordErr (arriveFlit (countPath t p 1) m) (pgCluster g) 0x0301 l m.dst
    exec (row (.payload g l)) s = .next (resetByFault a (partOfCore s m.dst) (clusterBlotter a 9 0x0301 g))) ∧
  (∀ g l, let a := recordErr (countPath t (pathBefore p g) 1) (pgCluster g) 0x0301 l 0
    exec (row (.header g l)) s = .next (resetsByFault a (dieParts t (g / 128)) (clusterBlotter a 9 0x0301 g))) ∧
  exec (row .crossbar) s = .next (resetsByFault t (List.range (nParts t)) (blank 9 0 3 4 0))

/-- A data write or an increment on its way to core n comes off the network: it lands, its write acknowledged to a core, or is refused by a
core in TESTING; a corrected error is counted; a poisoned payload lands and resets the partition; a flit with an unreadable header is
discarded and resets the partitions of the die; a fault of a bridge or edge crossbar resets every partition (R70, R81, R93, R300, R314,
R453). -/
def Sys2Proof.Machine.claimFlitsLandOnTheirCore : Prop :=
  ∀ (s : State) (n which i : Nat) (m : NetMsg), s.net[i]? = some m → mayArrive s i = true →
    (netPick s n which (fun m => m.cells.isEmpty) = some i → landsAs s i m (fun o => .counterIncrement n which o)) ∧
    (netPick s n which (fun m => !m.cells.isEmpty) = some i → landsAs s i m (fun o => .remoteWriteLand n which o))

/-- A write through the mover port of a core puts every byte into memory but those that would land in a FULL slot of a checked handle; a
core that no such byte, no instruction in flight and no UPDATE or COMBINE meets is left as it was (R70, R78). -/
def Sys2Proof.Machine.claimPortWrites : Prop :=
  ∀ (s : State) (n : Nat) (cs : List Host.Cell),
    let full := fun (c : Host.Cell) => lineFull (core s n) ((c.1 - coreAddr n 0) / 64)
    (portWrite s n cs).mem = writeCells s.mem (cs.filter (fun c => !full c)) ∧
    (cs.any full = false → (core s n).flights = [] → (core s n).job = none → ∀ j, core (portWrite s n cs) j = core s j)

/-- An increment of k adds to the arrival counter modulo 2^32; a core held on that counter whose wait it meets asks for a wake; a checked
handle that names the counter has slots marked FULL from its fill position, and one with no slot left stops the core with SLOT_OVERRUN
(R76, R81, R285). -/
def Sys2Proof.Machine.claimIncrementsAddToArrivalCounters : Prop :=
  ∀ (s : State) (n i k : Nat),
    let c := core s n
    let x := getCtr c i + BitVec.ofNat 32 k
    let added := setCore s n { c with ctr := sput c.ctr i x }
    ((checkedHandles c).filter (fun e => hCtr e.2 == i) = [] → c.hold = none → applyInc s n i k = added) ∧
    (∀ h, (checkedHandles c).filter (fun e => hCtr e.2 == i) = [] → c.hold = some h →
      applyInc s n i k = if !h.launch && heldCtr c == i && waitMet (core added n) i then requestWake added n 2 true else added) ∧
    (∀ j e, (checkedHandles c).filter (fun y => hCtr y.2 == i) = [(j, e)] → c.hold = none →
      let r := fillSlots (hSlots e) (min k (hSlots e + 1)) (getSlots c j) false
      let s1 := setCore s n { c with
        ctr := sput c.ctr i x, slots := sput c.slots j { r.1 with fill := ((getSlots c j).fill + k) % hSlots e } }
      r.2 = false → applyInc s n i k = s1)

/-- With no instruction in flight, a refused instruction leaves its core STOPPED, holding nothing and running no record, with the error
recorded in its page, whose ERROR event rises (R62, R66, R515). -/
def Sys2Proof.Machine.claimRefusedInstructionStopsTheCore : Prop :=
  ∀ (s : State) (n code lo : Nat), (core s n).flights = [] → (core s n).checker = false → (core s n).stopping = none →
    (core s n).run = none → (core s n).loading = false →
    let s1 := noteErr { s with accord := { s.accord with wakeQ := s.accord.wakeQ.filter (fun w => w.core != n) } } (pgCore n) code lo (core s n).pc
    refuse s n code lo = raiseCode (setCore s1 n
      { core s n with state := .stopped, ended := false, starting := false, startAt := none, job := none, hold := none, wakeReq := false })
      (pgCore n) 0x80000000 (BitVec.ofNat 16 code).toNat

/-- The last line of a tile program arrives on an awake core that waits for it: its lines are read from HBM, and the core holds the
program's words and begins its record, unless a line of it cannot be corrected (R203, R267). -/
def Sys2Proof.Machine.claimProgramLoadFillsTheCore : Prop :=
  ∀ (s : State) (n : Nat) (es : List (Nat × Ecc)), (core s n).loading = true → (core s n).state = .running →
    let as := (List.range (8 * (core s n).progLen)).map (fun i => (core s n).progAddr.toNat + i)
    let s1 := hbmMeets (coreHbm s n as false) as es
    (hbmPoison as es = false → exec (.programLoadDone n es) s = .next (beginRun (setCore s1 n { core s1 n with
      loading := false
      prog := (List.range (core s n).progLen).map (fun i => BitVec.ofNat 64 (readLe s.mem ((core s n).progAddr.toNat + 8 * i) 8)) }) n)) ∧
    (hbmPoison as es = true → exec (.programLoadDone n es) s = .next s1)

/-- Once END has issued and no instruction is in flight the core is IDLE and begins a hold, the record it ran is reported complete with
G31, and a checker role that is due may pass to it (R259, R284, R447). -/
def Sys2Proof.Machine.claimProgramEndReportsTheRecord : Prop :=
  ∀ (s : State) (n : Nat), (core s n).ended = true → (core s n).flights = [] → (core s n).stopping = none →
    let s1 := setCore s n (startHold s n { core s n with ended := false, state := .idle, run := none })
    (∀ r, (core s n).run = some r → exec (.tileProgramEnd n) s = .next (tryRotate
      { s1 with reports := s.reports ++ [{ queue := r.queue, index := r.index, code := 0, g31 := getG (core s n) 31 }] } (n / 16))) ∧
    ((core s n).run = none → exec (.tileProgramEnd n) s = .next (tryRotate s1 (n / 16)))

/-- A hold that lasts WAIT_LIMIT times 1,024 ticks raises WAIT_LIMIT once and records the counter it waits on, or 256 for LAUNCH_AT, with
the PC of the held word; the core goes on waiting; without WAIT_LIMIT, before that time, and once it is raised nothing happens (R87). -/
def Obligations.WaitLimitIsRecordedOnce : Prop :=
  ∀ (s : State) (n : Nat) (h : Hold), (core s n).hold = some h →
    let c := core s n
    ((core s n).waitLimit ≠ 0 → h.limited = false → h.since + (core s n).waitLimit.toNat * 1024 ≤ now s →
      exec (.waitLimitExpire n) s = .next (recordErr (raiseEvt (setCore s n { c with hold := some { h with limited := true } }) (pgCore n) 0)
        (pgCore n) 0x020A (if h.launch then 256 else waitCtr (c.prog.getD c.pc 0)) c.pc)) ∧
    (c.waitLimit = 0 ∨ h.limited = true ∨ now s < h.since + c.waitLimit.toNat * 1024 → exec (.waitLimitExpire n) s = .next s)

/-- STOP stops a RUNNING or WAITING core with STOP_CMD; RESET returns an IDLE or STOPPED core to IDLE with its registers, handles and
counters cleared, clears an ASLEEP one, which abandons a record with RESET_CMD and drops a wake request that waits, and has it wake to IDLE,
and is ignored in every other state (R66, R94, R295; that PC reads 0 is log entry 21). -/
def Obligations.CoreCommands : Prop :=
  ∀ (s : State) (n : Nat), n < 4096 → regOpen s (pgCore n) = true → coreOn s n = true →
    let c := core s n
    let empty := fun (c : Core) => { c with
      g := [], v := [], handles := [], slots := [], ctr := [], tgt := [], stp := [], pc := 0, hold := none, run := none, ended := false,
      loading := false, starting := false, startAt := none, job := none, stopping := none, progLen := if c.loading then 0 else c.progLen }
    (c.state = .running ∨ c.state = .waiting → c.stopping = none → c.checker = false →
      exec (.coreCmdStop n) s = .next (stopCore (setCore s n { c with hold := none, state := .running }) n 0x020C 0 c.pc)) ∧
    (c.state = .idle ∨ c.state = .stopped →
      exec (.coreCmdReset n) s = .next (tryRotate (setCore s n (startHold s n { empty c with state := .idle })) (n / 16))) ∧
    (c.state = .asleep → c.run = none →
      exec (.coreCmdReset n) s = .next (requestWake (setCore (dropWake s n) n { empty c with wakeReq := false, wakeTo := 0 }) n 0 false)) ∧
    (∀ r, c.state = .asleep → c.run = some r →
      let s1 := report (recordErr (dropWake s n) (pgCore n) 0x020D 0 c.pc) r 0x020D 0
      exec (.coreCmdReset n) s = .next (requestWake (setCore s1 n { empty c with wakeReq := false, wakeTo := 0 }) n 0 false)) ∧
    (c.state ≠ .idle → c.state ≠ .stopped → c.state ≠ .asleep → exec (.coreCmdReset n) s = .next s)

/-- A core whose hold began under SLEEP_EN falls asleep once it has been idle, or held by a wait that is not met or a stamp that is not
near, for 1,500 ticks times 2 to the power of its level; SLEEPS counts it (R284-R286, R297). -/
def Sys2Proof.Machine.claimIdleCoreFallsAsleep : Prop :=
  ∀ (s : State) (n : Nat),
    let c := core s n
    let asleep := setCluster (setCore s n { c with state := .asleep, sleepSince := now s, wakeReq := false }) (n / 16)
      { cluster s (n / 16) with sleeps := (cluster s (n / 16)).sleeps + 1 }
    coreOn s n = true → bit c.holdCfg 31 = true → c.flights = [] → c.checker = false → c.stopping = none →
    c.idleSince + 1500 * 2 ^ c.predLevel.toNat ≤ now s →
    (c.state = .idle → c.run = none → c.hold = none → exec (.holdExpire n) s = .next asleep) ∧
    (∀ h, c.state = .waiting → c.hold = some h →
      (if h.launch then localCopy s (n / 16) + 2250 < stampOf c (wordAt c) else waitMet c (heldCtr c) = false) →
      exec (.holdExpire n) s = .next asleep)

/-- A sleeping core held by LAUNCH_AT asks for a wake 2,250 ticks before its stamp; the governor's window opens and admits waiting
requests in order; a wake that ends well leaves the core in the state it woke for, a new hold begun, and a core that woke for a record
begins it; one that fails its check leaves it STOPPED with WAKE_CHECK and a blotter, its record reported failed and a checker role passed on
(R267, R285, R287-R289, R447). -/
def Sys2Proof.Machine.claimWakesOfCores : Prop :=
  ∀ (s : State) (n : Nat),
    let c := core s n
    let woke := fun (st : CState) => setCore s n (startHold s n
      { c with state := st, wakeReq := false, checker := c.wakeTo == 4, job := c.job.map (fun j => { j with at_ := localCopy s (n / 16) }) })
    (∀ h, c.hold = some h → c.state = .asleep → h.launch = true → stampOf c (wordAt c) ≤ localCopy s (n / 16) + 2250 →
      exec (.launchWakeLead n) s = .next (requestWake s n 2 false)) ∧
    (s.accord.window < now s / 1500 → exec .wakeWindow s = .next
      (admitAll s.accord.wakeQ.length { s with accord := { s.accord with window := now s / 1500, admitted := 0 } })) ∧
    (c.state = .waking → c.wakeTo = 0 → exec (.wakeComplete n true) s = .next (tryRotate (woke .idle) (n / 16))) ∧
    (c.state = .waking → c.wakeTo = 1 → exec (.wakeComplete n true) s = .next (beginRun (woke .running) n)) ∧
    (c.state = .waking → c.wakeTo = 2 → c.startAt = none → exec (.wakeComplete n true) s = .next (woke .waiting)) ∧
    (c.state = .waking → c.wakeTo = 2 → c.startAt.isSome = true → exec (.wakeComplete n true) s =
      .next (launchRun (setCore (woke .waiting) n { core (woke .waiting) n with state := .running, hold := none }) n)) ∧
    (c.state = .waking → c.wakeTo = 3 → exec (.wakeComplete n true) s = .next (woke .testing)) ∧
    (c.state = .waking → c.wakeTo = 4 → exec (.wakeComplete n true) s = .next (woke .running)) ∧
    (c.state = .waking →
      let s1 := recordErr (setCore s n { c with
        state := .stopped, wakeReq := false, run := none, hold := none, loading := false, starting := false, startAt := none,
        job := none, progLen := if c.loading then 0 else c.progLen }) (pgCore n) 0x020B 0 0
      let s2 := issueBlotter s1 (coreBlotter s1 6 0x020B 2 n)
      (c.wakeTo ≠ 4 → c.run = none → exec (.wakeComplete n false) s = .next s2) ∧
      (∀ r, c.wakeTo ≠ 4 → c.run = some r → exec (.wakeComplete n false) s = .next (report s2 r 0x020B 0)) ∧
      (c.wakeTo = 4 → c.run = none → exec (.wakeComplete n false) s =
        .next (settleFull (passRole (modCluster s2 (n / 16) (fun k => { k with checker := none })) (n / 16) (n % 16 + 1)))))

/-- One admission of the wake governor: the core reads WAKING, WAKES counts it, and WAKE_DEFERRED counts a request made before the window
(R289). -/
def Sys2Proof.Machine.claimGovernorAdmitsARequest : Prop :=
  ∀ (s : State) (w : WakeReq),
    admitWake s w = setCore { s with accord := { s.accord with
        admitted := s.accord.admitted + 1, wakes := s.accord.wakes + 1,
        wakeDeferred := if w.at_ / 1500 < s.accord.window then s.accord.wakeDeferred + 1 else s.accord.wakeDeferred } }
      w.core { core s w.core with state := .waking }

/-- The Accord: a started PLL locks and waits for the next REF edge; the edge makes the switch and raises MODE; a copy within 2 ticks of
the master and of every other running copy keeps its error, one further than 2 from the master is reloaded with ACC_SKEW recorded; a read of
1, 2 or 4 bytes of ACC_LO latches ACC_HI
(R277-R280). -/
def Obligations.AccordModesAndCopies : Prop :=
  ∀ (s : State),
    let a := s.accord
    (a.pllOn = true → a.pllLock = false → exec .accPllLock s = .next { s with accord := { a with pllLock := true, toFine := true } }) ∧
    (a.fine = false → a.toCoarse = false → a.toFine = true → a.pllLock = true →
      exec .accModeSwitch s = .next (raiseEvt { s with
        time := s.time + (60 - a.phase)
        accord := { a with master := a.edge + 60, edge := a.edge + 60, phase := 0, fine := true, toFine := false } } pgAcc 1)) ∧
    (a.toCoarse = true →
      exec .accModeSwitch s = .next (raiseEvt { s with
        time := s.time + (60 - a.phase)
        accord := { a with master := a.edge + 60, edge := a.edge + 60, phase := 0, fine := false, holding := false, toCoarse := false } } pgAcc 1)) ∧
    (∀ (u : Nat) (err : Int), copyRuns s u = true → copyMay s u err = true →
      exec (.accCopyCompare u err) s = .next { s with accord := { a with
        maxErr := (if a.maxErr.toNat < err.natAbs then BitVec.ofNat 8 err.natAbs else a.maxErr),
        copyErr := (if err = 0 then sdel a.copyErr u else sput a.copyErr u err) } }) ∧
    (∀ (u : Nat) (err : Int), copyRuns s u = true → 2 < err.natAbs →
      let m := min 255 err.natAbs
      let s1 := { s with accord := { a with
        maxErr := (if a.maxErr.toNat < m then BitVec.ofNat 8 m else a.maxErr), copyErr := sdel a.copyErr u } }
      exec (.accCopyCompare u err) s = .next (skewBlotter (raiseEvt (recordErr s1 pgAcc 0x0A01 u m) pgAcc 0))) ∧
    (∀ size off, hostReach s = true → pageServed s pgAcc = true → readSizeOk size off = true → off + size ≤ 4 →
      exec (.accLoRead size off) s = .next { s with
        accord := { a with accHi := some (BitVec.ofNat 32 (a.master / 2 ^ 32)) }
        reply := readData s 0 (0x5040 + off) size })

/-- The queue's next record is b at index i, it passes the checks of R258 and its FENCE, wait and stamp let it start (R257). -/
def Sys2Proof.Machine.mayStart (s : State) (q i : Nat) (b : List Byte) : Bool :=
  nextRec s q == some (i, b) && (recErr s q b).isNone && recReady s q b

/-- The record at index i has run and is done: HEAD passes every completed record in front (R257, R259). -/
def Sys2Proof.Machine.ranToEnd (s : State) (q i : Nat) (b : List Byte) : State :=
  settleQ (setRecSt (putRec s q i b .running) q i .done) q

/-- FENCE, WAIT_COUNT, LAUNCH_AT and SEQ_WRITE records are run by the queue engine itself and complete at once, with their effect: a
LAUNCH_AT record wakes the cores of its mask, SEQ_WRITE writes an entry of its die's sequence table (R174, R257, R264, R265). -/
def Sys2Proof.Machine.claimControlRecords : Prop :=
  ∀ (s : State) (q i : Nat) (b : List Byte), mayStart s q i b = true →
    let done := fun (t : State) => ranToEnd (countLate t q b) q i b
    (recCls b = 7 → exec (.fenceRecord q) s = .next (done s)) ∧
    (recCls b = 8 → exec (.waitCount q) s = .next (done s)) ∧
    (recCls b = 0xA → exec (.launchAtRecord q) s = .next (done (wakeMask s (qTarget (queue s q)) (leAt b 16 2)))) ∧
    (recCls b = 9 → leAt b 16 1 = 1 → exec (.seqWrite q) s = .next (done
      { s with seq := sput s.seq (128 * (q / 2048) + leAt b 20 4 % 128) (BitVec.ofNat 128 (leAt b 48 16)) }))

/-- SIGNAL with KIND ADD adds its amount to an arrival or memory counter, or to TAIL of a queue that takes it, and completes; a doorbell
past DEPTH fails the record with QE_OVERFILL, one to a queue that takes no doorbells of cores with QE_PRODUCER (R251, R264, R265). -/
def Sys2Proof.Machine.claimSignalRecords : Prop :=
  ∀ (s : State) (q i : Nat) (b : List Byte), mayStart s q i b = true → recCls b = 9 → leAt b 16 1 ≠ 1 →
    let sel := leAt b 24 4
    let k := leAt b 20 4
    let t := sel % 4096
    let x := queue s t
    let s1 := putRec (countLate s q b) q i b .running
    let fits := decide (k + (x.tail - x.head).toNat ≤ qDepth x)
    (nfld sel 31 30 ≠ 2 → exec (.signalAdd q) s = .next (recDone (selAdd s1 (7000 + q / 2048) (pgQueue q) sel k) q i)) ∧
    (nfld sel 31 30 = 2 → fits = true → qProducer x = 1 →
      exec (.signalAdd q) s = .next (recDone (modQueue s1 t (fun y => { y with tail := y.tail + BitVec.ofNat 32 k })) q i)) ∧
    (nfld sel 31 30 = 2 → fits = true → qProducer x ≠ 1 →
      exec (.signalAdd q) s = .next (recFailed (queueErr s1 t 0x0405 0 x.tail.toNat) q i 0x0405)) ∧
    (nfld sel 31 30 = 2 → fits = false →
      exec (.signalAdd q) s = .next (recFailed (queueErr s1 t 0x0404 0 x.tail.toNat) q i 0x0404))

/-- A record that fails a check of R258 never starts: the error is recorded and the record stands refused in its queue; a reserved
OPCLASS is QE_BAD_RECORD (R256, R258). -/
def Obligations.RefusedRecords : Prop :=
  ∀ (s : State) (q i code : Nat) (b : List Byte), nextRec s q = some (i, b) → recErr s q b = some code →
    let no := Host.Outcome.next (settleQ (putRec (queueErr s q code 0 i) q i b .refused) q)
    (recCls b = 1 → exec (.tileRun q .clean) s = no) ∧ (recCls b = 0xB → exec (.test q) s = no) ∧ (recCls b = 7 → exec (.fenceRecord q) s = no) ∧
    (recCls b = 8 → exec (.waitCount q) s = no) ∧ (recCls b = 0xA → exec (.launchAtRecord q) s = no) ∧
    (recCls b = 9 → leAt b 16 1 ≠ 1 → exec (.signalAdd q) s = no) ∧ (recCls b = 9 → leAt b 16 1 = 1 → exec (.seqWrite q) s = no) ∧
    (∀ c k, recCls b = 4 → jobRuns s c q 4 = false → exec (.update q c k) s = no) ∧
    (∀ c k, recCls b = 6 → jobRuns s c q 6 = false → exec (.combine q c k) s = no) ∧
    (recCls b = 5 → qConsumer (queue s q) ≠ 3 ∨ (atom s (qTarget (queue s q))).disps = [] → exec (.dispatch q) s = no) ∧
    (recCls b = 0 ∨ 0xC < recCls b → code = 0x0401 ∧ exec (.reservedOpclassRecord q) s = no)

/-- TILE_RUN, UPDATE, COMBINE and TEST records go to the core the cluster's scheduler picks (R266-R268); a corrected error of the prefetch
is counted, one that cannot be corrected is QE_PARITY and resets the queue's partition (R451, R453; where a corrected one is counted is
log entry 66). -/
def Sys2Proof.Machine.claimCoreRecords : Prop :=
  ∀ (s : State) (q i n : Nat) (b : List Byte), candidate s q = some (i, b, n) → schedPick s q = true →
    (recCls b = 1 → exec (.tileRun q .clean) s = .next (assign s q i b n)) ∧
    (∀ c k, recCls b = 4 → jobRuns s c q 4 = false → exec (.update q c k) s = .next (assign s q i b n)) ∧
    (∀ c k, recCls b = 6 → jobRuns s c q 6 = false → exec (.combine q c k) s = .next (assign s q i b n)) ∧
    (recCls b = 0xB → exec (.test q) s = .next (assign s q i b n)) ∧
    (exec (.tileRun q .corrected) s = exec (.tileRun q .clean) (correctedBlotter (countCorrected s (pgQueue q)) (pgQueue q)
      { blank 1 0 4 0 (q / 128) with partition := partOfCore s q })) ∧
    (exec (.tileRun q .uncorrectable) s = .next (resetByFault (queueErr s q 0x040A 0 i) (partOfCore s q)
      { blank 9 0x040A 4 3 (q / 128) with infoLo := q, infoHi := i }))

/-- The core a record goes to takes it: for a TILE_RUN its general registers are cleared and PC is 0, and it takes the record's program,
any other record is its work; STARTS counts it; an ASLEEP core asks for its wake first, a TEST's ahead of other work and into TESTING
(R93, R267, R268, R285). -/
def Sys2Proof.Machine.claimTileRunAssignment : Prop :=
  ∀ (s : State) (q i n : Nat) (b : List Byte),
    let c := core s n
    let s1 := putRec s q i b .running
    let k := cluster s1 (n / 16)
    let s2 := setCluster s1 (n / 16) { k with starts := k.starts + 1, lastQueue := q }
    let taken := { c with
      run := some { queue := q, index := i, cls := recCls b }, starting := true, hold := none, ended := false, startAt := launchValue s (n / 16) b }
    let c1 := if recCls b = 1 then
        { taken with g := [], pc := 0, loading := reloads c b, progAddr := BitVec.ofNat 64 (leAt b 16 8), progLen := leAt b 24 2 }
      else { taken with job := some { bytes := b, desc := [], grad := [], done := 0, begun := false, tainted := false, at_ := 0 } }
    let to_ := if recCls b = 0xB then 3 else 1
    (c.state ≠ .asleep → assign s q i b n = beginRun (setCore s2 n { c1 with state := .running }) n) ∧
    (c.state = .asleep → c.wakeReq = false → assign s q i b n = requestWake (setCore s2 n c1) n to_ (recCls b != 0xB)) ∧
    (c.state = .asleep → c.wakeReq = true → assign s q i b n = setCore s2 n { c1 with wakeTo := to_ })

/-- SCHED_AGING raises to priority 3 a candidate that has waited 2^AGE ticks (R269). -/
def Sys2Proof.Machine.claimAging : Prop :=
  ∀ (s : State) (q i n : Nat) (b : List Byte), candidate s q = some (i, b, n) →
    let x := queue s q
    let age := fld (cluster s (qTarget x)).schedCfg 21 16
    age ≠ 0 → x.aged = false → recCls b ≠ 0xB → 2 ^ min 40 age ≤ x.waited →
    exec (.schedAging q) s = .next (setCluster (setQueue s q { x with aged := true }) (qTarget x)
      { cluster s (qTarget x) with aged := (cluster s (qTarget x)).aged + 1 })

/-- COMBINE and UPDATE on their core: a record that fails its checks stops the core, a frozen shard is skipped, and otherwise tokens or
blocks are formed in order from the choices, rows, tensors and gradient read, and after the last the record ends; UPDATE with ADVANCE
then writes STEP + 1 (R337, R338, R406-R408, R415; how many one command forms is log entry 21). -/
def Sys2Proof.Machine.claimJobsGoOn : Prop :=
  ∀ (s : State) (q n count : Nat) (j : Job), (core s n).job = some j →
    let b := j.bytes
    let p := partOfCore s n
    (jobRuns s n q 6 = true →
      let kc := min count (cbTokens b - j.done)
      let row := cbRow b (cbType b 2)
      let out := cbOut b + cbFirst b * row
      let begun := if j.begun then s else beginJob s n [] []
      let read := coreHbm (coreHbm begun n (combineReads b j.done kc) false) n (rangeLines (out + j.done * row) (kc * row)) true
      let sc := taintOut (jobDone (combineTokens read n b j.done kc) n kc) n out ((j.done + kc) * row)
      (j.begun = true ∨ combineBad b = false ∧ spansErr s p (combineSpans b) = none →
        exec (.combine q n count) s = .next (if j.done + kc = cbTokens b then endJob sc n else sc)) ∧
      (j.begun = false → combineBad b = true → exec (.combine q n count) s = .next (stopCore s n 0x0250 0 0)) ∧
      (∀ code, j.begun = false → combineBad b = false → spansErr s p (combineSpans b) = some code →
        exec (.combine q n count) s = .next (stopCore s n code 0 0))) ∧
    (jobRuns s n q 4 = true →
      let d := if j.begun then j.desc else readBytes s.mem (upShard b) 128
      let ga := sdAddr d 4 + gradSize d * upFirst b
      let gr := if j.begun then j.grad else readBytes s.mem ga (gradSize d * upCount b)
      let ku := min count (upCount b - j.done)
      let begun := if j.begun then s else coreHbm (beginJob s n d gr) n (rangeLines (upShard b) 128 ++ rangeLines ga gr.length) false
      let read := coreHbm begun n ((updRanges d (upFirst b + j.done) ku).foldr (fun x l => rangeLines x.1 x.2 ++ l) []) false
      let su := updTaint (jobDone (updBlocks read n d (gr.drop (gradSize d * j.done)) (upFirst b + j.done) ku) n ku) n d (upFirst b) (j.done + ku)
      (j.begun = true ∨ upCheck s p b d = .good → j.done + ku ≠ upCount b → exec (.update q n count) s = .next su) ∧
      (j.begun = true ∨ upCheck s p b d = .good → j.done + ku = upCount b → upAdvance b = true →
        exec (.update q n count) s = .next (endJob { su with mem := writeLe su.mem (upShard b + 0x38) 8 (sdStep d + 1) } n)) ∧
      (j.begun = true ∨ upCheck s p b d = .good → j.done + ku = upCount b → upAdvance b = false →
        exec (.update q n count) s = .next (endJob su n)) ∧
      (j.begun = false → upCheck s p b d = .frozen →
        let s1 := setCluster s (n / 16) { cluster s (n / 16) with updFrozen := (cluster s (n / 16)).updFrozen + 1 }
        exec (.update q n count) s = .next (endJob
          (if upAdvance b then { s1 with mem := writeLe s1.mem (upShard b + 0x58) 8 (leAt d 0x58 8 + 1) } else s1) n)) ∧
      (∀ code lo, j.begun = false → upCheck s p b d = .bad code lo → exec (.update q n count) s = .next (stopCore s n code lo 0)))

/-- A TEST whose parts all pass leaves its core ASLEEP, counted in SLEEPS, one that fails leaves it STOPPED with TEST_FAIL and a blotter;
in both the window, counters, handles and program are cleared, the result it was asked for is written, it signals, and the record is
reported (R93, R297, R434, R435; that the wait targets clear too is log entry 21). -/
def Sys2Proof.Machine.claimTestPasses : Prop :=
  ∀ (s : State) (n : Nat) (r : Run) (j : Job), (core s n).run = some r → (core s n).job = some j → r.cls = 0xB →
    (core s n).state = .testing →
    let b := j.bytes
    let f := leAt b 19 1
    let left := fun (st : CState) => setCore { s with mem := clearRange s.mem (coreAddr n 0) 0x40000 } n
      { core s n with
        ctr := [], tgt := [], stp := [], handles := [], slots := [], prog := [], progLen := 0, progAddr := 0, job := none, run := none,
        hold := none, starting := false, startAt := none, loading := false, state := st, sleepSince := now s }
    let wrote := fun (t : State) (failing : Option Nat) => if Nat.testBit f 1 then
        coreHbm { t with mem := writeBytes t.mem (leAt b 28 6) (testResult n failing j.at_ (localCopy s (n / 16))) } n [leAt b 28 6] true else t
    let signalled := fun (t : State) => if Nat.testBit f 0 then selAdd t n (pgCore n) (leAt b 20 4) 1 else t
    let done := fun (t : State) (code : Nat) => { t with reports := t.reports ++ [{ queue := r.queue, index := r.index, code := code, g31 := 0 }] }
    (let t := signalled (wrote (left .asleep) none)
     exec (.testComplete n none) s = .next (done (setCluster t (n / 16) { cluster t (n / 16) with sleeps := (cluster t (n / 16)).sleeps + 1 }) 0)) ∧
    (∀ k, k < 6 → Nat.testBit (leAt b 16 2) k = true →
      let t := recordErr (signalled (wrote (left .stopped) (some k))) (pgCore n) 0x0252 k 0
      exec (.testComplete n (some k)) s = .next (done (issueBlotter t (coreBlotter t 6 0x0252 2 n)) 0x0252))

/-- DISPATCH goes to its idle Atomizer: one it must refuse fails with its code, any other opens its return context; a running one
dispatches choice after choice, then end marker after end marker, each again while it is held, and is reported complete once every message
has been sent (R270, R321-R323). -/
def Sys2Proof.Machine.claimDispatch : Prop :=
  ∀ (s : State) (q : Nat), qConsumer (queue s q) = 3 →
    let x := qTarget (queue s q)
    let p := qPart s q
    (∀ i b, (atom s x).disps = [] → mayStart s q i b = true → recCls b = 5 → handPick s q (atom s x).lastQueue = true →
      let s0 := putRec s q i b .running
      let s1 := setAtom s0 x { atom s0 x with lastQueue := q }
      (∀ code, atomErr s1 x p b = some code → exec (.dispatch q) s = .next
        (endDisp (raiseEvt (recordErr s1 (pgAtom x) code (dpCtx b) 0) (pgAtom x) 0) x
          { queue := q, index := i, bytes := b, started := false, next := 0, ends := 0 } code)) ∧
      (atomErr s1 x p b = none → exec (.dispatch q) s = .next (modAtom s1 x (fun a => { a with
        disps := [{ queue := q, index := i, bytes := b, started := true, next := 0, ends := 0 }],
        ctxs := sput a.ctxs (dpCtx b) { gen := dpGen b, retBase := dpRet b, choiceAddr := dpChoice b, nch := dpNch b, outLines := dpOutLen b / 64,
                                        retCtr := dpCtr b, pend := dpTokens b * dpNch b, part := p } })))) ∧
    (∀ d r, (atom s x).disps = d :: r → d.queue = q →
      let choices := dpTokens d.bytes * dpNch d.bytes
      let marks := if dpEnd d.bytes then dpN d.bytes else 0
      (d.next < choices → (dispatchChoice s x p d.bytes d.next).2 = false →
        exec (.dispatch q) s = .next (putDisp (dispatchChoice s x p d.bytes d.next).1 x { d with next := d.next + 1 })) ∧
      (d.next < choices → (dispatchChoice s x p d.bytes d.next).2 = true →
        exec (.dispatch q) s = .next (dispatchChoice s x p d.bytes d.next).1) ∧
      (choices ≤ d.next → d.ends < marks → (dispatchMark s x p d.bytes (dpLo d.bytes + d.ends)).2 = false →
        exec (.dispatch q) s = .next (putDisp (dispatchMark s x p d.bytes (dpLo d.bytes + d.ends)).1 x { d with ends := d.ends + 1 })) ∧
      (choices ≤ d.next → d.ends < marks → (dispatchMark s x p d.bytes (dpLo d.bytes + d.ends)).2 = true →
        exec (.dispatch q) s = .next (dispatchMark s x p d.bytes (dpLo d.bytes + d.ends)).1) ∧
      (choices ≤ d.next → marks ≤ d.ends → dispSent s x p = true → exec (.dispatch q) s = .next (endDisp s x d 0)) ∧
      (choices ≤ d.next → marks ≤ d.ends → dispSent s x p = false → exec (.dispatch q) s = .next s))

/-- A completed record retires: POST rings the queue it names with G31, an expert queue returns the record's slots; one that fails, or
whose POST is refused, is recorded with QE_RECORD_FAIL, an expert queue that goes on sending its notices (R259, R260, R267, R332). -/
def Sys2Proof.Machine.claimReports : Prop :=
  ∀ (s : State) (q : Nat) (r : Report) (s1 : State),
    let b := recBytes s1 q r.index
    let posts := decide (recCls b = 1) && Nat.testBit (leAt b 30 2) 15
    let t := leAt b 30 2 % 4096
    let v : W64 := BitVec.ofNat 64 (2 ^ 63 + fld r.g31 16 0)
    let retire := fun (u : State) => flushGroup (recDone (if qExpert (queue u q) then returnSlots u q b else u) q r.index) q
    let fail := fun (u : State) (code : Nat) => flushGroup (recFailed
      (if qExpert (queue u q) && !qHaltOnErr (queue u q) then noticeSlots u q (recBytes u q r.index) else u) q r.index code) q
    (takeReport s q false = some (r, s1) → posts = false → exec (.recordComplete q) s = .next (retire s1)) ∧
    (takeReport s q false = some (r, s1) → posts = true → bellErr (queue s1 t) v 1 = none →
      exec (.recordComplete q) s = .next (retire (doorbell s1 t v 1))) ∧
    (∀ code, takeReport s q false = some (r, s1) → posts = true → bellErr (queue s1 t) v 1 = some code →
      exec (.recordComplete q) s = .next (fail (doorbell s1 t v 1) code)) ∧
    (takeReport s q true = some (r, s1) → exec (.recordFailed q) s = .next (fail s1 r.code))

/-- The host may ring doorbell q and write its registers: the endpoint takes requests, the queue's page is open and its die is on
(R507-R513, R517). -/
def Sys2Proof.Machine.queueOpen (s : State) (q : Nat) : Bool :=
  decide (q < 4096) && regOpen s (pgQueue q) && dieOn s (q / 2048)

/-- A doorbell of 8 bytes within DEPTH on a queue of the host's moves TAIL; one past DEPTH is QE_OVERFILL and one of another producer
QE_PRODUCER, and TAIL stays; one of another size is refused with HOST_SIZE (R251, R252, R508). -/
def Sys2Proof.Machine.claimDoorbells : Prop :=
  ∀ (s : State) (q : Nat) (v : W64), queueOpen s q = true →
    let x := queue s q
    let t := if bit v 63 then x.tail + BitVec.ofNat 32 (fld v 16 0) else BitVec.ofNat 32 (fld v 31 0)
    let past := decide (qDepth x < (t - x.head).toNat) || decide (qDepth x < (t - x.tail).toNat)
    (past = false → qProducer x = 0 → exec (.doorbellWrite q 8 v) s = .next (setQueue s q { x with tail := t })) ∧
    (past = true → exec (.doorbellWrite q 8 v) s = .next (queueErr s q 0x0404 0 x.tail.toNat)) ∧
    (past = false → qProducer x ≠ 0 → exec (.doorbellWrite q 8 v) s = .next (queueErr s q 0x0405 0 x.tail.toNat)) ∧
    (∀ size, size ≠ 8 → exec (.doorbellWrite q size v) s = .next (pcieErr s 0x0E02 2 size (q * 8)))

/-- The fields of Q_BIND other than ENABLE, HALTED and SKIP. -/
def Sys2Proof.Machine.bindKept (v : W32) : W32 := setBit (setFld v 21 12 0) 30 false &&& 0x7FFFFFFF

/-- Q_CFG and Q_BIND: fields change while the queue is disabled, with QE_BUSY_CFG once it is enabled; ENABLE 1 takes a binding that
R249 and R327 let stand, with the entry of an expert queue copied, and refuses any other; ENABLE 1 on a halted queue runs the halted record
again and SKIP retires it, after its notices on an expert queue (R249, R261, R327, R332). -/
def Sys2Proof.Machine.claimBindings : Prop :=
  ∀ (s : State) (q : Nat), queueOpen s q = true →
    let x := queue s q
    (∀ v, setFld v 7 0 0 ≠ x.cfg → qOn x = false →
      exec (.queueConfigWrite q false v) s = .next (setQueue s q { x with cfg := setFld v 7 0 0 })) ∧
    (∀ v, setFld v 7 0 0 ≠ x.cfg → qOn x = true → exec (.queueConfigWrite q false v) s = .next (queueErr s q 0x0408 0 x.head.toNat)) ∧
    (∀ v, setFld v 7 0 0 = x.cfg → exec (.queueConfigWrite q false v) s = .next s) ∧
    (∀ v : W64, qOn x = false → bit v 31 = false → bit v 21 = false → v.toNat < 2 ^ 32 →
      exec (.queueConfigWrite q true v) s = .next (setQueue s q { x with bind := bindKept (BitVec.ofNat 32 v.toNat) })) ∧
    (∀ v, qOn x = true → bindKept (setBit (setBit v 31 false) 21 false) = bindKept x.bind →
      exec (.qBindDisable q v) s = .next (setQueue s q { x with bind := x.bind &&& 0x7FFFFFFF })) ∧
    (∀ v, qOn x = true → bindKept (setBit (setBit v 31 false) 21 false) ≠ bindKept x.bind →
      let t := queueErr s q 0x0408 0 x.head.toNat
      exec (.qBindDisable q v) s = .next (setQueue t q { queue t q with bind := x.bind &&& 0x7FFFFFFF })) ∧
    (∀ v, qOn x = false → x.halted = false →
      let y := { x with bind := bindKept (setBit (setBit v 31 true) 21 false) ||| 0x80000000 }
      let s1 := setQueue s q y
      let e := readBytes s.mem (expEntry s q) 256
      (bindBad s1 q y = true → exec (.qBindEnable q v) s = .next (queueErr s q 0x0407 0 x.head.toNat)) ∧
      (bindBad s1 q y = false → qProducer y ≠ 2 → exec (.qBindEnable q v) s = .next s1) ∧
      (bindBad s1 q y = false → qProducer y = 2 → expertBad s1 q e = true →
        exec (.qBindEnable q v) s = .next (queueErr s q 0x0409 0 x.head.toNat)) ∧
      (bindBad s1 q y = false → qProducer y = 2 → expertBad s1 q e = false →
        let s2 := { s1 with mem := writeBytes s1.mem (expEntry s q + 64) (List.replicate 192 0) }
        exec (.qBindEnable q v) s = .next (setQueue s2 q { queue s2 q with entry := e.take 64, group := [], heldGen := none }))) ∧
    (∀ v, qOn x = true → x.halted = true → bindKept (setBit (setBit v 31 true) 21 false) = bindKept x.bind →
      exec (.qBindEnable q v) s = .next (rerunHead (setQueue s q { x with bind := (x.bind &&& 0x7FFFFFFF) ||| 0x80000000 }) q)) ∧
    (∀ v r l, qOn x = true → x.halted = true → x.recs = r :: l → bindKept (setBit v 21 true) = bindKept x.bind →
      let y := x.bind &&& 0x7FFFFFFF
      let bound := fun (t : State) => setQueue t q { queue t q with bind := if bit (setBit v 21 true) 31 then y ||| 0x80000000 else y }
      (qExpert x = false → exec (.qBindSkip q v) s =
        .next (bound (flushGroup (settleQ (retireHead (setQueue s q { x with halted := false }) q r.bytes) q) q))) ∧
      (qExpert x = true → exec (.qBindSkip q v) s = .next (bound (flushGroup (skipHead (noticeSlots s q r.bytes) q) q))))

/-- The command at the head of its unit on the stack engine of queue q's site, when no further record comes over: its wait is met and
its stack serves (R211, R218). -/
def Sys2Proof.Machine.seReady (s : State) (q : Nat) (kind : List Byte → Bool) (c : SeCmd) : Bool :=
  let i := qTarget (queue s q)
  decide (qConsumer (queue s q) = 1) && (nextRec s q).isNone && (se s i).cmds.find? (fun c => kind c.bytes && !c.started && isHead s i c) == some c
    && seWaitMet s i c.bytes && siteOn s i && mcServes s i

/-- A stack-engine command starts when its wait is met: its checks are made, one that fails ends it, and its descriptors are read; CTR_SET
writes its counter and ends; a checkpoint command opens its first transfers, one to an address with reserved bits ends with SE_REMOTE; a
packer whose check fails twice ends with SE_ARITH and resets the partition (R218, R220, R237, R359, R446). -/
def Sys2Proof.Machine.claimStackEngineStarts : Prop :=
  ∀ (s : State) (q : Nat) (c : SeCmd),
    let i := qTarget (queue s q)
    let b := c.bytes
    let p := cmdPart s c
    let d0 := readBytes s.mem (seSrc b) 128
    let d1 := readBytes s.mem (if seOp b = 1 then seDst b else seAux0 b) 128
    let read := hbmTouch s (seDescReads b) false
    let go := Host.Outcome.next (putCmd read i { c with started := true, d0 := d0, d1 := d1 })
    let no := fun (code : Nat) => (Host.Outcome.next (seFail s i c code) : Host.Outcome State Fault Refusal)
    (seReady s q isTranspose c = true →
      (localErr s i p b d0 d1 = none → exec (.seTranspose q) s = go) ∧
      (∀ code, localErr s i p b d0 d1 = some code → exec (.seTranspose q) s = no code)) ∧
    (∀ chk, seReady s q isSignPack c = true →
      (localErr s i p b d0 d1 = none → checkPasses s chk = true → exec (.signPack q chk) s = go) ∧
      (localErr s i p b d0 d1 = none → checkPasses s chk = false → exec (.signPack q chk) s = .next (seArith read i c)) ∧
      (∀ code, localErr s i p b d0 d1 = some code → exec (.signPack q chk) s = no code)) ∧
    (∀ chk, seReady s q isTopkPack c = true →
      (localErr s i p b d0 d1 = none → checkPasses s chk = true → exec (.topkPack q chk) s = go) ∧
      (localErr s i p b d0 d1 = none → checkPasses s chk = false → exec (.topkPack q chk) s = .next (seArith read i c)) ∧
      (∀ code, localErr s i p b d0 d1 = some code → exec (.topkPack q chk) s = no code)) ∧
    (seReady s q isCtrSet c = true →
      (seOpBad b = false → seSigBad s p b = false →
        exec (.ctrSet q) s = .next (seFinish (setSe s i { se s i with
          ctrs := sput (se s i).ctrs (seAux0 b % 4096) (BitVec.ofNat 32 (seAux0 b / 2 ^ 32)) }) i c)) ∧
      (seOpBad b = true → exec (.ctrSet q) s = no 0x0501) ∧
      (seOpBad b = false → seSigBad s p b = true → exec (.ctrSet q) s = no 0x0505)) ∧
    (let opened := Host.Outcome.next (ckptPump 16 (putCmd s i { c with started := true, d0 := [], pulled := [] }) i)
     let reserved := fun (g : Nat) => (Host.Outcome.next (seFail (linkErr s (seEntry s i) 0x0701 (globalId g) 0) i c 0x050C) :
      Host.Outcome State Fault Refusal)
     (seReady s q isPush c = true → seOp b = 5 →
      (ckptErr s i p b = none → nfld (seDst b) 63 60 = 0 → exec (.ckptPush q) s = opened) ∧
      (ckptErr s i p b = none → nfld (seDst b) 63 60 ≠ 0 → exec (.ckptPush q) s = reserved (seDst b)) ∧
      (∀ code, ckptErr s i p b = some code → exec (.ckptPush q) s = no code)) ∧
     (seReady s q isPull c = true →
      (ckptErr s i p b = none → nfld (seSrc b) 63 60 = 0 → exec (.ckptPull q) s = opened) ∧
      (ckptErr s i p b = none → nfld (seSrc b) 63 60 ≠ 0 → exec (.ckptPull q) s = reserved (seSrc b)) ∧
      (∀ code, ckptErr s i p b = some code → exec (.ckptPull q) s = no code)))

/-- A queue's record goes over to its stack engine and waits there in its unit's order until its wait is met; the row then starts the
first command of its kind that may start (R217, R218, R257, R270). -/
def Sys2Proof.Machine.claimStackEngineHandOver : Prop :=
  ∀ (s : State) (q idx : Nat) (b : List Byte), mayStart s q idx b = true → qConsumer (queue s q) = 1 →
    recCls b = 2 ∨ recCls b = 3 ∨ recCls b = 0xC →
    let i := qTarget (queue s q)
    let s1 := putRec s q idx b .running
    handPick s q (se s i).lastQueue = true →
    let handed := setSe s1 i { se s1 i with
      cmds := (se s1 i).cmds ++ [{ queue := q, index := idx, bytes := b, unit := seUnit (seOp b), started := false, d0 := [], d1 := [],
                                   sent := 0, ended := 0, err := 0, dig := 0, pulled := [] }]
      lastQueue := q }
    (isTranspose b = true → exec (.seTranspose q) s = .next (seStart handed i isTranspose (fun s c => startLocal .pass s i c))) ∧
    (∀ chk, isSignPack b = true → exec (.signPack q chk) s = .next (seStart handed i isSignPack (fun s c => startLocal chk s i c))) ∧
    (∀ chk, isTopkPack b = true → exec (.topkPack q chk) s = .next (seStart handed i isTopkPack (fun s c => startLocal chk s i c))) ∧
    (isReduce b = true → exec (.reduce q) s = .next (seStart handed i isReduce (fun s c => startReduce s i c))) ∧
    (isPush b = true → exec (.ckptPush q) s = .next (seStart handed i isPush (fun s c => startCkpt s i c))) ∧
    (isPull b = true → exec (.ckptPull q) s = .next (seStart handed i isPull (fun s c => startCkpt s i c))) ∧
    (isCtrSet b = true → exec (.ctrSet q) s = .next (seStart handed i isCtrSet (fun s c => startCtrSet s i c)))

/-- A started command of the transposer or compressor completes with its result in memory, its counter and its signals, unless what it
read cannot be corrected; a checkpoint command once every transfer and its trailer have ended, a pull only when the trailer matches, one
with a failed transfer in error; an error of the engine's store is counted, or where it cannot be corrected is SE_ARITH and resets the
partition (R203, R219, R223, R225, R237, R238, R446, R451; where the store's errors are counted is log entry 66). -/
def Obligations.StackEngineCompletes : Prop :=
  ∀ (s : State) (i : Nat) (c : SeCmd) (es : List (Nat × Ecc)), c.started = true →
    let b := c.bytes
    let rd := seReads s c
    let got := hbmMeets (hbmTouch s (seDataReads s c) false) rd es
    let met := hbmMeets s rd es
    let all := c.ended = ckptPieces b + 1
    (seHead s i 1 = some c → hbmPoison rd es = false → exec (.seCommandComplete i 1 .clean es) s = .next (seFinish (transposeEffect got c) i c)) ∧
    (seHead s i 2 = some c → hbmPoison rd es = false → exec (.seCommandComplete i 2 .clean es) s = .next (seFinish (packEffect got i c) i c)) ∧
    (∀ u, u = 1 ∨ u = 2 → seHead s i u = some c → hbmPoison rd es = true → exec (.seCommandComplete i u .clean es) s = .next got) ∧
    (seHead s i 4 = some c → c.err = 0 → all → hbmPoison rd es = false →
      (seOp b = 5 → exec (.seCommandComplete i 4 .clean es) s = .next (seFinish met i c)) ∧
      (seOp b ≠ 5 → ckptGood c = true → exec (.seCommandComplete i 4 .clean es) s = .next (seFinish met i c)) ∧
      (seOp b ≠ 5 → ckptGood c = false → exec (.seCommandComplete i 4 .clean es) s = .next (seFail met i c 0x050B))) ∧
    (seHead s i 4 = some c → c.err ≠ 0 → c.sent = c.ended → hbmPoison rd es = false →
      exec (.seCommandComplete i 4 .clean es) s = .next (seFail met i c c.err)) ∧
    (seHead s i 4 = some c → (c.err = 0 ∧ all) ∨ (c.err ≠ 0 ∧ c.sent = c.ended) → hbmPoison rd es = true →
      exec (.seCommandComplete i 4 .clean es) s = .next met) ∧
    (∀ u, seHead s i u = some c → exec (.seCommandComplete i u .corrected es) s = exec (.seCommandComplete i u .clean es)
      (correctedBlotter (countCorrected s (pgSe i)) (pgSe i) { blank 1 0 5 0 i with site := i })) ∧
    (∀ u, seHead s i u = some c → exec (.seCommandComplete i u .uncorrectable es) s = .next (seArith s i c))

/-- What a REDUCE's slot holds when it opens on a stack engine: in replay it sends nothing, and a carry slot of its pair that it adopts
gives it its hold area and what is held there (R230, R385-R387, R397, R432). -/
def Sys2Proof.Machine.newSlot (s : State) (c : SeCmd) (carry : Option RSlot) : RSlot :=
  let b := c.bytes
  let g := group s (redGroup b)
  let d1 := readBytes s.mem (seDst b) 128
  { group := redGroup b, bucket := redBucket b, queue := c.queue, index := c.index, bytes := b, res := d1, src := readBytes s.mem (seSrc b) 128,
    mask := g.mask, own := ownRank g, epoch := g.epoch.toNat, tag := g.tag.toNat, deadline := fld g.cfg 31 16, form := seForm b,
    topk := seTopk b, elems := (seDesc d1).count, holdBase := (carry.map (·.holdBase)).getD (seAux1 b % 2 ^ 48),
    holdSize := (carry.map (·.holdSize)).getD (redHold b), openedAt := now s, lateRaised := false,
    added := 0, settled := 0, carried := 0, held := (carry.map (·.held)).getD [], fails := [],
    sends := if silMode s (cmdPart s c) = 3 then [] else (ranksOf (setBit g.mask (ownRank g) false)).map (fun x => (x, SendSt.waiting)),
    pass := false, ownPass := false, any := false, seen := [], order := 0, silSettle := [], silHeld := false, carrySlot := false }

/-- A REDUCE whose checks pass opens its slot, adopting a carry slot of the step before, and begins its sends; it waits while no slot is
free or its group is DRAINING, and REDUCE_SLOT_AVAILABLE starts one that waited; one that fails a check ends in error (R230, R385-R387,
R397). -/
def Sys2Proof.Machine.claimReduceOpens : Prop :=
  ∀ (s : State) (q i : Nat) (c : SeCmd),
    let b := c.bytes
    let d0 := readBytes s.mem (seSrc b) 128
    let d1 := readBytes s.mem (seDst b) 128
    let p := cmdPart s c
    let gn := redGroup b
    let g := group s gn
    let carry := (slotAt s i gn (redBucket b) true).filter (fun _ => g.tag == g.lateTag + 1)
    let own := decide (partOfGroup s gn = p)
    let read := hbmTouch s (seDescReads b) false
    let left := dropCmd (match carry with | some k => dropSlot read i k | none => read) i c
    let res :=
      match reduceErr s i p b d0 d1 with
      | some code => seFail s i c code
      | none =>
        if own && g.st == 2 then s
        else match joinErr s i p b d0 d1 with
          | some code => seFail (grpErr s p code gn (redBucket b) 0 0) i c code
          | none =>
            if decide (256 ≤ (se s i).slots.length) && carry.isNone then s
            else sendPump 16 (setSe left i { se left i with slots := (se left i).slots ++ [newSlot s c carry] }) i
    (i = qTarget (queue s q) → seReady s q isReduce c = true → exec (.reduce q) s = .next res) ∧
    ((se s i).cmds.find? (fun c => isReduce c.bytes && !c.started && isHead s i c) = some c → seWaitMet s i b = true →
      siteOn s i = true → mcServes s i = true → exec (.reduceSlotAvailable i) s = .next res)

/-- A contribution that has landed whole, of the slot's form and length and with the digest it needs, is ready to be added and is
acknowledged, a carry counted; of another form or length it is refused with GRP_REFUSED, with a wrong digest answered BUSY and from its third
on refused with GRP_DIGEST, and dropped in every such case (R231, R391, R392, R401). -/
def Sys2Proof.Machine.claimContributionLands : Prop :=
  ∀ (s : State) (i g b rank p : Nat) (r : RSlot) (c : Contrib),
    (se s i).slots.findSome? (fun r => if r.group = g ∧ r.bucket = b then
      (r.held.find? (fun c => c.rank == rank && c.last && !c.ready)).map (fun c => (r, c)) else none) = some (r, c) →
    partOfSite s i = some p →
    let m := { blankMsg 1 4 0 with src := c.src, xtag := c.xtag }
    let whole := c.fits = true ∧ c.got = c.len + 40
    let need := c.dig.isSome || bit (group s g).cfg 9
    let good := need = false ∨ c.dig = some (crc64 (readBytes s.mem (r.holdBase + c.off) c.len))
    let ready := putSlot s i { r with held := r.held.map (fun d => if d.rank == rank && d.carry == c.carry then { d with ready := true } else d) }
    let without := r.held.filter (fun d => !(d.rank == rank && d.carry == c.carry))
    let lo := 4 + r.queue * 2 ^ 16
    let k := sget 0 r.fails rank + 1
    let s1 := putSlot s i { r with held := without, fails := sput r.fails rank k }
    let s2 := setSe s1 i { se s1 i with digestFail := (se s1 i).digestFail + 1 }
    let bad := raiseEvt (recordErr s2 (pgSe i) 0x0508 lo 0) (pgSe i) 1
    (whole → good → c.carry = false → exec (.contribLanded i g b rank) s = .next (answer ready c.die p 0x09 0 m)) ∧
    (whole → good → c.carry = true → exec (.contribLanded i g b rank) s =
      .next (answer (modGrpPage ready p (fun y => { y with carried := y.carried + 1 })) c.die p 0x09 0 m)) ∧
    (¬ whole → exec (.contribLanded i g b rank) s = .next (contribRefuse
      (recordErr (putSlot s i { r with held := without }) (pgSe i) 0x0509 lo 0) c.die p 0x0905 g b rank m)) ∧
    (whole → ¬ good → k < 3 → exec (.contribLanded i g b rank) s = .next (contribBusy bad c.die p m)) ∧
    (whole → ¬ good → 3 ≤ k → exec (.contribLanded i g b rank) s = .next (contribRefuse bad c.die p 0x0908 g b rank m))

/-- REDUCE_PASS marks up to 8 ready contributions from the next rank upward; with the sillage log on, the entries that have room are
written and those are marked, and with none the slot is held, which raises SILLAGE_FULL; in replay a pass runs while an entry is left; a
check that fails twice is SE_ARITH and resets the partition, as does a datum that cannot be corrected. SILLAGE_RESUME runs a held slot's pass
again. REDUCE_PASS_DONE adds what was marked, or in replay what the next entries record, to the result in order, counts it and closes the
slot when it may (R203, R233, R234, R394, R430-R432, R446). -/
def Sys2Proof.Machine.claimReducePasses : Prop :=
  ∀ (s : State) (i g b p : Nat) (chk : Chk) (es : List (Nat × Ecc)) (r0 : RSlot), slotAt s i g b false = some r0 → partOfSite s i = some p →
    let log := silMode s p == 1 || silMode s p == 2
    let x := if log then logSettle s i p r0 else (s, r0)
    let r := x.2
    let s1 := putSlot x.1 i r
    let items := (leading (itemReady r) (seqItems r)).take 8
    let y := logItems s1 i p r r.order items
    let met := fun (t : State) (l : List (Nat × Bool)) => hbmMeets (hbmTouch t (passReads s r l) false) (passReads s r l) es
    let s2 := redFail (dropSends (dropSlot s1 i r) (fun j k c _ => j == i && k == g && c == b)) i r 0x050E 0
    let may := passRuns s i = false ∧ siteOn s i = true
    (may → silMode s p ≠ 3 →
      (items = [] ∨ r.silSettle ≠ [] → exec (.reducePass i g b chk es) s = .next (tryClose s1 i g b)) ∧
      (items ≠ [] → r.silSettle = [] → checkPasses s chk = false → exec (.reducePass i g b chk es) s = .next (resetByFault s2 p (seFault s2 i))) ∧
      (items ≠ [] → r.silSettle = [] → checkPasses s chk = true → log = false → exec (.reducePass i g b chk es) s =
        .next (if hbmPoison (passReads s r items) es then met s1 items else putSlot (met s1 items) i (markPass r items))) ∧
      (items ≠ [] → r.silSettle = [] → checkPasses s chk = true → log = true → y.2 ≠ [] → exec (.reducePass i g b chk es) s =
        .next (if hbmPoison (passReads s r y.2) es then met y.1 y.2
          else putSlot (met y.1 y.2) i { markPass r y.2 with order := r.order + y.2.length })) ∧
      (items ≠ [] → r.silSettle = [] → checkPasses s chk = true → log = true → y.2 = [] → exec (.reducePass i g b chk es) s =
        .next (if r.silHeld then y.1 else raiseEvt (putSlot y.1 i { r with silHeld := true }) (pgPart p) 0))) ∧
    (may → silMode s p = 3 → exec (.reducePass i g b chk es) s =
      .next (if (entryAt s i p r0 r0.order).isSome then putSlot s i { r0 with pass := true } else s)) ∧
    (¬ may → exec (.reducePass i g b chk es) s = .next s) ∧
    (r0.silHeld = true → exec (.sillageResume i g b) s = exec (.reducePass i g b .pass []) s) ∧
    (r0.silHeld = false → exec (.sillageResume i g b) s = .next s) ∧
    (silMode s p ≠ 3 → r0.pass = true →
      let ran := ranItems r0
      let t := addAll s i { r0 with pass := false, ownPass := false, added := markItems r0.added ran false, carried := markItems r0.carried ran true,
                                    held := r0.held.filter (fun c => !c.passing) } (ran.map (itemBytes s r0))
      exec (.reducePassDone i g b) s = .next (tryClose (modGrpPage t p (fun y => { y with contribIn := y.contribIn + BitVec.ofNat 64 ran.length })) i g b)) ∧
    (silMode s p = 3 → r0.pass = true →
      (replayItems s i p 8 r0 [] = none →
        exec (.reducePassDone i g b) s = .next (raiseEvt (redFail (dropSlot s i r0) i r0 0x050D 0) (pgPart p) 1)) ∧
      (∀ r1 l, replayItems s i p 8 r0 [] = some (r1, l) →
        exec (.reducePassDone i g b) s = .next (tryClose (modGrpPage (addAll s i { r1 with pass := false } l) p
          (fun y => { y with contribIn := y.contribIn + BitVec.ofNat 64 l.length })) i g b))) ∧
    (r0.pass = false → exec (.reducePassDone i g b) s = .next s)

/-- LATE_RANK_DEADLINE: a slot open for its deadline with ranks missing writes the late registers and raises LATE_RANK, once; with no
deadline, before it, or with no rank missing nothing happens (R395). -/
def Sys2Proof.Machine.claimLateRank : Prop :=
  ∀ (s : State) (i g b p : Nat) (r : RSlot), slotAt s i g b false = some r → partOfSite s i = some p →
    let miss := r.mask &&& ~~~ r.added &&& ~~~ r.settled
    (r.deadline ≠ 0 → r.lateRaised = false → r.openedAt + r.deadline * 1024 ≤ now s → miss ≠ 0 →
      exec (.lateRankDeadline i g b) s = .next (raiseEvt (modGrpPage (putSlot s i { r with lateRaised := true }) p (fun y =>
        { y with lateGroup := BitVec.ofNat 32 (2 ^ 31 + g), lateBucket := BitVec.ofNat 32 b, lateMissing := miss })) (pgGrp p) 0)) ∧
    (r.deadline = 0 ∨ r.lateRaised = true ∨ now s < r.openedAt + r.deadline * 1024 ∨ miss = 0 →
      exec (.lateRankDeadline i g b) s = .next s)

/-- Host writes reach group n's entry: the endpoint takes requests and BAR0 serves the page (R381, R507). -/
def Sys2Proof.Machine.groupOpen (s : State) (n : Nat) : Bool :=
  decide (n < 1024) && hostReach s && pageServed s (0x80 + n / 64)

/-- GRP_CFG with no slot open takes the new settings, with one open only a new LATE_POLICY or deadline, and is refused with GRP_CFG_BAD otherwise;
LAYOUT_DATA writes the staged layout at LAYOUT_SEL, or reads the plane it selects, and steps LAYOUT_SEL under AUTO_INC (R382, R383). -/
def Sys2Proof.Machine.claimGroupSettings : Prop :=
  ∀ (s : State) (n : Nat) (v : W32), groupOpen s n = true →
    let g := group s n
    let v1 := setFld v 15 10 0
    let fits := (fld v1 9 0 = fld g.cfg 9 0 ∨ grpOpen s n = 0) ∧ fld v1 7 6 ≠ 3
    (fits → exec (.grpCfgWrite n v) s =
      .next (settleFull (setGroup s n { g with cfg := v1, lateSet := if fld v1 7 6 = latePolicy g then g.lateSet else 0 }))) ∧
    (¬ fits → exec (.grpCfgWrite n v) s = .next (settleFull (grpErr s (partOfGroup s n) 0x0901 n 0 (ownRank g) 0))) ∧
    (bit g.sel 30 = false → exec (.layoutDataWrite n (some v)) s =
      .next (setGroup s n (layoutStep { g with staged := sput g.staged (fld g.sel 5 0) (setFld v 31 28 0) }))) ∧
    (bit g.sel 30 = true → exec (.layoutDataWrite n (some v)) s = .next (setGroup s n (layoutStep g))) ∧
    (exec (.layoutDataWrite n none) s = .next { setGroup s n (layoutStep g) with
      reply := toBytes 4 (sget (0 : W32) (if bit g.sel 30 then g.active else g.staged) (fld g.sel 5 0)).toNat })

/-- RESHARD with a newer epoch drains the group; when its last slot has closed the staged layout and the new epoch take effect and
RESHARD_DONE rises; ABORT ends the epoch's slots, the REDUCE that waits, its carries and its sends; SETTLE settles the ranks of GRP_ARG in
the slots of the step before the present tag, and closes those that may close; an operation with no meaning is refused (R396-R399). -/
def Sys2Proof.Machine.claimGroupCommands : Prop :=
  ∀ (s : State) (n : Nat),
    let g := group s n
    let p := partOfGroup s n
    let e := BitVec.ofNat 32 (fld g.arg 31 0)
    let newer := decide (e ≠ g.epoch) && !bit (e - g.epoch) 31
    let slotOf := fun (r : RSlot) => r.group == n && !r.carrySlot
    (groupOpen s n = true → g.st ≠ 2 → (newer = true ∨ g.st = 0) →
      exec (.grpReshard n) s = .next (settleFull (setGroup s n { g with st := 2, newEpoch := e }))) ∧
    (groupOpen s n = true → g.st = 2 ∨ newer = false ∧ g.st ≠ 0 →
      exec (.grpReshard n) s = .next (settleFull (grpErr s p 0x090C n 0 (ownRank g) 0))) ∧
    (g.st = 2 → (partSites s p).any (fun i => (se s i).slots.any slotOf) = false →
      let s1 := discardCarry s p n
      let g1 := group s1 n
      exec (.reshardDrainDone n) s = .next (raiseEvt
        (setGroup s1 n { g1 with active := g1.staged, epoch := g1.newEpoch, lateSet := 0, st := 1 }) (pgGrp p) 3)) ∧
    (g.st ≠ 2 ∨ (partSites s p).any (fun i => (se s i).slots.any slotOf) = true → exec (.reshardDrainDone n) s = .next s) ∧
    (groupOpen s n = true →
      let endSlots := fun (s : State) (i : Nat) =>
        let s1 := setSe s i { se s i with slots := (se s i).slots.filter (fun r => r.group != n || r.carrySlot) }
        let s2 := ((se s i).slots.filter slotOf).foldl (fun s r => redFail (grpErr s p 0x090A n r.bucket r.own 0) i r 0x090A 0) s1
        match seHead s2 i 3 with
        | some c => if redGroup c.bytes = n && seOp c.bytes = 4 && seWaitMet s2 i c.bytes then
            seFail (grpErr s2 p 0x090A n (redBucket c.bytes) 0 0) i c 0x090A else s2
        | none => s2
      let t := dropSends (discardCarry ((partSites s p).foldl endSlots s) p n) (fun _ k _ _ => k == n)
      exec (.grpAbort n) s = .next (settleFull (raiseEvt (setGroup t n { group t n with st := 3 }) (pgGrp p) 2))) ∧
    (groupOpen s n = true → latePolicy g = 0 ∨ bit g.arg (ownRank g) = true →
      exec (.grpSettle n) s = .next (settleFull (grpErr s p 0x0909 n 0 (ownRank g) 0))) ∧
    (groupOpen s n = true → latePolicy g ≠ 0 → bit g.arg (ownRank g) = false →
      let t := g.tag - 1
      let s0 := if g.lateTag = t then s else discardCarry s p n
      let s1 := (partSites s0 p).foldl (fun s i =>
        ((se s i).slots.filter (fun r => slotOf r && BitVec.ofNat 64 r.tag == t)).foldl (fun s r => settleSlot s i p g.arg r) s) s0
      let s2 := setGroup s1 n { group s1 n with lateSet := g.arg, lateTag := t }
      exec (.grpSettle n) s = .next (settleFull ((partSites s2 p).foldl (fun s i =>
        ((se s i).slots.filter slotOf).foldl (fun s r => tryClose s i n r.bucket) s) s2)))

/-- A module address lies in HBM whose site's power domain is on and whose stack is out of self-refresh; p is its place (R199, R211). -/
def Sys2Proof.Machine.hbmServes (s : State) (a : Nat) (p : HbmPlace) : Bool :=
  (hbmPlace s a == some p) && siteOn s p.site && mcServes s p.site

/-- Memory-controller accesses: each granule of the range makes one request, which a stack that serves takes: a read answers its data, marked
poisoned where a codeword cannot be corrected, a write's bytes land, its partly written codewords read first, a reduce-store combines in
memory, and every codeword read meets its error; a range that runs past its region makes none (R170, R197, R202, R203, R207, R210, R211). -/
def Obligations.HbmAccesses : Prop :=
  (∀ (s : State) (a n : Nat) (es : List Ecc) (ko : Bool), a + n ≤ regionEnd s a →
    exec (.hbmRead a n es ko) s = .next ((granules a n).foldl (fun s g => hbmRequest s
      { addr := g.1, op := .read g.2, ecc := es.drop (g.1 / 64 - a / 64), rmw := true, keepOpen := ko, drains := 0 }) s)) ∧
  (∀ (s : State) (a : Nat) (bs : List Byte) (es : List Ecc) (ko : Bool) (k : Nat), a + bs.length ≤ regionEnd s a →
    exec (.hbmWrite a bs es ko k) s = .next ((granules a bs.length).foldl (fun s g => hbmRequest s
      { addr := g.1, op := .write ((bs.drop (g.1 - a)).take g.2), ecc := es.drop (g.1 / 64 - a / 64), rmw := partialWrite a bs.length,
        keepOpen := ko, drains := k }) s)) ∧
  (∀ (s : State) (a : Nat) (bf mx : Bool) (x : W32) (es : List Ecc), a + typeBits (b2n bf) / 8 ≤ regionEnd s a →
    exec (.hbmReduceStore a bf mx x es) s = .next (hbmRequest s
      { addr := a, op := .reduce (b2n bf) mx x.toNat, ecc := es, rmw := true, keepOpen := false, drains := 1 })) ∧
  (∀ (s : State) (a n : Nat) (es : List Ecc) (ko : Bool), regionEnd s a < a + n → exec (.hbmRead a n es ko) s = .next s) ∧
  (∀ (s : State) (a : Nat) (bs : List Byte) (es : List Ecc) (ko : Bool) (k : Nat), regionEnd s a < a + bs.length →
    exec (.hbmWrite a bs es ko k) s = .next s) ∧
  (∀ (s : State) (a : Nat) (bf mx : Bool) (x : W32) (es : List Ecc), regionEnd s a < a + typeBits (b2n bf) / 8 →
    exec (.hbmReduceStore a bf mx x es) s = .next s) ∧
  (∀ (s : State) (q : HbmReq) (p : HbmPlace), hbmServes s q.addr p = true →
    let meets := fun (t : State) => (q.words.zip q.ecc).foldl (fun t e => eccAt t e.1 e.2) t
    (∀ n, q.op = .read n →
      let s1 := request s p false q.keepOpen 0
      let ans : HbmReply :=
        { addr := q.addr, data := readBytes s.mem q.addr n, poisoned := (q.ecc.take q.words.length).contains .uncorrectable }
      hbmRequest s q = meets (setMc s1 p.site { mc s1 p.site with reply := some ans })) ∧
    (∀ bs, q.op = .write bs →
      let s1 := { request s p true q.keepOpen q.drains with mem := writeBytes s.mem q.addr bs }
      hbmRequest s q = if q.rmw then meets s1 else s1) ∧
    (∀ t mx x, q.op = .reduce t mx x →
      hbmRequest s q = meets { request s p true q.keepOpen q.drains with mem := reduceAt s.mem t mx q.addr x }))

/-- A request to a stack in self-refresh starts the exit and waits; the exit completes and the requests that waited are served in their
order; a stack whose banks have all been DOWN, and whose engine has been without a command, for SR_IDLE enters self-refresh (R211). -/
def Sys2Proof.Machine.claimSelfRefresh : Prop :=
  (∀ (s : State) (q : HbmReq) (p : HbmPlace), hbmPlace s q.addr = some p → siteOn s p.site = true → (mc s p.site).st ≠ 0 →
    hbmRequest s q = setMc s p.site { mc s p.site with
      st := (if (mc s p.site).st = 1 then 2 else (mc s p.site).st)
      idleSince := (if (mc s p.site).st = 1 then none else (mc s p.site).idleSince)
      waiting := (mc s p.site).waiting ++ [q] }) ∧
  (∀ (s : State) (i : Nat), (mc s i).st = 2 →
    exec (.selfRefreshExitComplete i) s = .next ((mc s i).waiting.foldl hbmRequest (setMc s i { mc s i with st := 0, waiting := [] }))) ∧
  (∀ (s : State) (i : Nat), (mc s i).st ≠ 2 → exec (.selfRefreshExitComplete i) s = .next s) ∧
  (∀ (s : State) (i t : Nat), (mc s i).idleSince = some t →
    let may := siteOn s i && bit (mc s i).cfg 1 && (mc s i).st == 0 && allDown (mc s i) && !sePending (se s i)
      && decide (max t (se s i).idleAt + 1500 * max 1 (fld (mc s i).cfg 31 24) ≤ now s)
    (may = true → exec (.selfRefreshEntry i) s = .next (setMc s i { mc s i with st := 1 })) ∧
    (may = false → exec (.selfRefreshEntry i) s = .next s)) ∧
  (∀ (s : State) (i : Nat), (mc s i).idleSince = none → exec (.selfRefreshEntry i) s = .next s)

/-- Bank power states: a CLOSED bank idle for BANK_IDLE with no outstanding write powers down, then is DOWN; a per-bank refresh closes
a powered bank and leaves a DOWN bank DOWN, and reads the stack's own corrections into ECC_CE (R201, R204, R210; when those are read is log
entry 34). -/
def Sys2Proof.Machine.claimBanks : Prop :=
  ∀ (s : State) (i c b : Nat), siteOn s i = true → c < 64 → b < 64 →
    let m := mc s i
    let x := getBank m c b
    let idle := decide (x.last + 15 * max 1 (fld m.cfg 23 16) ≤ now s)
    let counted := fun (t : State) (d : Nat) => eccCount t { site := i, pc := c, bank := b, row := 0, col := 0 } 0 d
    (bit m.cfg 0 = true → x.st = .closed → x.writes = 0 → idle = true →
      exec (.bankPowerDown i c b) s = .next (setMc s i (putBank m c b { x with st := .poweringDown }))) ∧
    (bit m.cfg 0 = false ∨ x.st ≠ .closed ∨ x.writes ≠ 0 ∨ idle = false → exec (.bankPowerDown i c b) s = .next s) ∧
    (x.st = .poweringDown → exec (.bankPoweredDown i c b) s = .next (setMc s i (settleDown (putBank m c b { x with st := .down }) (now s)))) ∧
    (x.st ≠ .poweringDown → exec (.bankPoweredDown i c b) s = .next s) ∧
    (∀ k d, m.st = 0 → x.st = .closed ∨ x.st = .opened → exec (.hbmRefresh i c b k d) s =
      .next (counted (setMc s i (putBank { m with refreshes := m.refreshes + 1 } c b { x with st := .closed, writes := x.writes - min k x.writes })) d)) ∧
    (∀ k d, m.st = 0 → x.st = .down ∨ x.st = .poweringDown →
      exec (.hbmRefresh i c b k d) s = .next (counted (setMc s i { m with refreshes := m.refreshes + 1 }) d)) ∧
    (∀ k d, m.st ≠ 0 → exec (.hbmRefresh i c b k d) s = .next s)

/-- A temperature sample sets each channel's throttle step with its hysteresis, reports the hottest channel and raises THROTTLE for each
channel that leaves step 0; 105 °C and above takes the stack to self-refresh with HBM_OVERTEMP, class 9, and resets its partition (R209). -/
def Sys2Proof.Machine.claimTemperatures : Prop :=
  ∀ (s : State) (i p : Nat) (ts : List Nat), siteOn s i = true → partOfSite s i = some p → ts.length = 32 →
    let m := mc s i
    let old := fun (h : Nat) => fld m.throttle (2 * h + 1) (2 * h)
    let steps := mapIx (fun h t => throttleStep (old h) t) 0 ts
    let hot := anyMax s ts
    let s1 := bumpFree (setMc s i { m with
      throttle := BitVec.ofNat 64 (unlanes 2 steps)
      tempHot := BitVec.ofNat 5 hot
      tempMax := BitVec.ofNat 8 (min 255 (nth ts hot)) })
    let s2 := ((List.range 32).filter (fun h => old h == 0 && nth steps h != 0)).foldl (fun s _ => raiseEvt s (pgMc i) 1) s1
    let s3 := recordErr (setMc s2 i { mc s2 i with st := 1 }) (pgMc i) 0x0602 0 0
    (nth ts hot < 105 → exec (.hbmTempSample i ts) s = .next s2) ∧
    (105 ≤ nth ts hot → exec (.hbmTempSample i ts) s = .next (resetByFault s3 p { blank 9 0x0602 6 3 i with
      site := i, infoLo := (hdr s3 (pgMc i)).infoLo.toNat, infoHi := (hdr s3 (pgMc i)).infoHi.toNat }))

/-- An imbalance window's end reports its counts, the hottest pseudo-channel, the ratio, one left open for a window with no request, and
whether it was over the threshold, and the run of such windows; CHAN_IMBALANCE is raised once in a run (R207, R208; that the ratio of an
empty window is open is log entry 61). -/
def Sys2Proof.Machine.claimImbalance : Prop :=
  ∀ (s : State) (i : Nat),
    let m := mc s i
    let cs := (List.range 64).map (fun c => sget 0 m.running c)
    let tot := cs.foldl (· + ·) 0
    let mx := cs.foldl max 0
    let on := decide (fld m.imbCfg 7 0 * 256 ≤ tot) && decide (fld m.imbCfg 31 24 * tot ≤ 64 * mx * 4)
    let run := if on then satInc m.run 1 else 0
    let ratio := if tot = 0 then Config.pick s.freeCtr 1 % 256 else min 255 (256 * mx / tot)
    let raise := on && !m.imbRaised && decide (max 1 (fld m.imbCfg 23 16) ≤ run.toNat)
    let report := bumpFree (setMc s i { m with
      pcCount := mapIx (fun c k => (c, BitVec.ofNat 32 (min k (2 ^ 32 - 1)))) 0 cs, stackReq := BitVec.ofNat 64 tot, imbOn := on,
      hotPc := BitVec.ofNat 6 (anyMax s cs), run := run, lastRatio := BitVec.ofNat 8 ratio, running := [],
      imbRaised := on && (m.imbRaised || raise), winStart := m.winStart + 2 ^ imbWindow m })
    let ends := imbRuns s i && decide (m.winStart + 2 ^ imbWindow m ≤ now s)
    (ends = true → raise = false → exec (.imbWindowEnd i) s = .next report) ∧
    (ends = true → raise = true → exec (.imbWindowEnd i) s = .next (raiseEvt report (pgMc i) 0)) ∧
    (ends = false → exec (.imbWindowEnd i) s = .next s)

/-- The scrubber reads the next codeword, which meets its error, corrects and counts, and counts a pass at the last codeword; off, or while
its stack does not serve, it reads none; CTR_DATA writes the counter that CTR_SEL names (R220, R240, R241). -/
def Sys2Proof.Machine.claimScrubber : Prop :=
  ∀ (s : State) (i : Nat),
    let x := se s i
    let w := x.scrubPos.toNat
    let p : HbmPlace := { site := i, pc := nfld w 29 24, bank := nfld w 23 18, row := nfld w 17 4, col := nfld w 3 2 }
    let runs := x.scrubEn && siteOn s i && mcServes s i
    (∀ e, runs = true →
      let fixed := if e = .corrected then x.scrubFixed + 1 else x.scrubFixed
      (w ≠ 2 ^ 30 - 1 →
        let t := setSe s i { x with scrubPos := x.scrubPos + 1, scrubFixed := fixed }
        exec (.scrubCodeword i e) s = .next (eccResult t p (physAddr t p (w % 16)) e)) ∧
      (w = 2 ^ 30 - 1 →
        let t := raiseEvt (setSe s i { x with scrubPos := 0, scrubPasses := x.scrubPasses + 1, scrubFixed := fixed }) (pgSe i) 3
        exec (.scrubCodeword i e) s = .next (eccResult t p (physAddr t p (w % 16)) e))) ∧
    (∀ e, runs = false → exec (.scrubCodeword i e) s = .next s) ∧
    (∀ v : W32, i < 16 → regOpen s (pgSe i) = true → exec (.ctrDataWrite i v) s =
      .next (setSe s i { x with ctrs := sput x.ctrs x.ctrSel.toNat v }))

/-- Message m is the `which`th of kind k in the inbox of I/O die x, in place i, and die x is where partition q takes it: an endpoint of
its ID whose landing die for the source x is, or on channel 0 the die the message names (R363, R365, R590). -/
def Sys2Proof.Machine.atDie (s : State) (x k which i q : Nat) (m : Msg) : Bool :=
  (inboxPick s x k which == some i) && (((iod s x).inbox[i]?).map (·.msg) == some m) && (idHolder s m.dstId == some q)
    && endpoint s q && ((if m.vc = 0 then m.dstIod else landDie s q m.src) == x)

/-- A message with OPEN starts its stream anew: it is not the one that opened the context its stream holds, come again (R368). -/
def Sys2Proof.Machine.startsAnew (s : State) (x q : Nat) (m : Msg) : Bool :=
  m.opens && (landCtx s x q m).all (fun c => c.opened != some { m with hops := 0 })

/-- c is the landing context that message m meets: a fresh one where it starts its stream anew and there is room, else the one held (R366,
R368). -/
def Sys2Proof.Machine.meetsCtx (s : State) (x q : Nat) (m : Msg) (c : LandCtx) : Bool :=
  if startsAnew s x q m then (c == newLand q m s.time) && ((landCtx s x q m).isSome || decide ((iod s x).lands.length < 16384))
  else landCtx s x q m == some c

/-- The state in which the destination unit meets that message: it has left the inbox and its context has seen it (R366, R368). -/
def Sys2Proof.Machine.met (s : State) (x i q : Nat) (m : Msg) (c : LandCtx) : State :=
  dropInbox (putLand s x q m { c with msgAt := s.time }) x i

/-- The message is the next of its stream by the context it meets, and its partition is ACTIVE (R366, R590). -/
def Sys2Proof.Machine.inTurn (s : State) (x k which i q : Nat) (m : Msg) (c : LandCtx) : Bool :=
  atDie s x k which i q m && meetsCtx s x q m c && (subMod (2 ^ 32) m.sseq c.expect == 0) && decide ((part s q).state = .active)

/-- The rows of the messages of channels 1 to 6, with their kinds (Table 15-5). -/
def Sys2Proof.Machine.streamRows (x which : Nat) (o : FlitOut) : List (Nat × Instr) :=
  [(1, .writeMessage x which o), (2, .readReqMessage x which), (3, .readDataMessage x which), (4, .contribMessage x which),
   (5, .dispatchMessage x which), (6, .endMarkMessage x which), (7, .returnMessage x which), (8, .dropMessage x which),
   (14, .diagMessage x which)]

/-- The rows of the messages of channel 0, with their kinds (Table 15-5). -/
def Sys2Proof.Machine.answerRows (x which : Nat) (e : Ecc) : List (Nat × Instr) :=
  [(0x09, .ackMessage x which e), (0x0A, .refuseMessage x which), (0x0B, .busyMessage x which), (0x0C, .streamAckMessage x which),
   (0x0D, .streamNakMessage x which)]

/-- A message that is not yet where it is taken: one for an endpoint of this module goes to its die; one for a partition that is no endpoint
is refused; one for another module goes on by a usable port with one hop fewer, and is refused WXL_HOPS at 0 hops, WXL_NO_ROUTE without a
route. On channel 0 what would be refused is lost and counted (R363, R365, R373, R590). -/
def Sys2Proof.Machine.claimTransit : Prop :=
  (∀ (s : State) (x which : Nat) (o : FlitOut) (e : Ecc) (k : Nat) (r : Instr), (k, r) ∈ streamRows x which o ++ answerRows x which e →
    (inboxPick s x k which = none → exec r s = .next s) ∧
    (∀ i im t, inboxPick s x k which = some i → (iod s x).inbox[i]? = some im → arrive s x i im = .gone t → exec r s = .next t)) ∧
  (∀ (s : State) (x i : Nat) (im : InMsg),
    let m := im.msg
    let t := dropInbox s x i
    (∀ q, idHolder s m.dstId = some q → endpoint s q = true → (if m.vc = 0 then m.dstIod else landDie s q m.src) ≠ x →
      arrive s x i im = .gone (toInbox t (if m.vc = 0 then m.dstIod else landDie s q m.src) none m)) ∧
    (∀ q, idHolder s m.dstId = some q → endpoint s q = false →
      arrive s x i im = .gone (if m.vc = 0 then lostCtl t x else
        let code := if m.opens = true ∨ (part t q).state = .off then 0x0702 else 0x0705
        sendCtlAs (linkErr t x code m.dstId m.xtag) x ((im.port.bind (portOwner s)).getD q) (m.dstId + 4096 * x)
          { blankMsg 0 0x0A m.src with xtag := m.xtag, code := code })) ∧
    (∀ pt p, idHolder s m.dstId = none → im.port = some pt → portOwner s pt = some p →
      let lost := fun (code : Nat) => Arrival.gone (if m.vc = 0 then lostCtl t x else
        answer (linkErr t x code m.dstId m.xtag) x p 0x0A code m)
      (m.hops = 0 → arrive s x i im = lost 0x0703) ∧
      (m.hops ≠ 0 → (∀ u, outPort t x p { m with hops := m.hops - 1 } = some u → arrive s x i im = .gone u) ∧
        (outPort t x p { m with hops := m.hops - 1 } = none → arrive s x i im = lost 0x0702))))

/-- A stream message in turn is taken by its destination unit, and the delivery is counted and acknowledged by its landing die; a choice or
an end marker that its queue holds back stays in the inbox, as does everything else of its stream (R358, R366). -/
def Sys2Proof.Machine.claimStreamDeliveries : Prop :=
  ∀ (s : State) (x which i q : Nat) (m : Msg) (c : LandCtx) (o : FlitOut),
    let t := met s x i q m c
    let kept := putLand s x q m { c with msgAt := s.time }
    let done := fun (u : State) => Host.Outcome.next (delivered u x q m)
    let markQ := m.addr % 4096
    let mark := endMark t markQ (leAt m.data 0 2) (leAt m.data 2 1 % 64)
    (inTurn s x 1 which i q m c = true → exec (.writeMessage x which o) s = done (writeMessage t x q m o)) ∧
    (inTurn s x 2 which i q m c = true → exec (.readReqMessage x which) s = done (readReqMessage t x q m)) ∧
    (inTurn s x 3 which i q m c = true → exec (.readDataMessage x which) s = done (readDataMessage t q m)) ∧
    (inTurn s x 4 which i q m c = true → exec (.contribMessage x which) s = done (contribMessage t x q m)) ∧
    (inTurn s x 14 which i q m c = true → exec (.diagMessage x which) s =
      done (sendMsgs t x q [{ blankMsg 6 14 m.srcId with data := m.data }])) ∧
    (inTurn s x 7 which i q m c = true → exec (.returnMessage x which) s = done (returnMessage t x q m)) ∧
    (inTurn s x 8 which i q m c = true → exec (.dropMessage x which) s = done (applyDrop t m.dstIod q (leAt m.data 16 1) (m.data.take 16))) ∧
    (inTurn s x 5 which i q m c = true → exec (.dispatchMessage x which) s =
      if (dispatchMessage t x q m).2 = true then done (dispatchMessage t x q m).1 else .next (dispatchMessage kept x q m).1) ∧
    (inTurn s x 6 which i q m c = true → exec (.endMarkMessage x which) s =
      if takesChoices t q markQ = false then done t
      else if mark.2 = true then done mark.1
      else .next (if takesChoices kept q markQ then (endMark kept markQ (leAt m.data 0 2) (leAt m.data 2 1 % 64)).1 else kept))

/-- A stream message out of turn: come again, it is dropped; up to 1,024 ahead and within the 4 MiB of the reorder store, it waits; farther ahead it is
discarded, counted in REORDER_DROP and asked for again by STREAM_NAK. Without a context a message that does not open its stream is refused
WXL_PEER_RESET, and one that opens it while no context is free is answered BUSY; so is a message in turn of a QUIESCED partition (R366,
R368, R369, R559). -/
def Sys2Proof.Machine.claimStreamOrder : Prop :=
  ∀ (s : State) (x which : Nat) (o : FlitOut) (k : Nat) (r : Instr), (k, r) ∈ streamRows x which o →
  ∀ (i q : Nat) (m : Msg), atDie s x k which i q m = true → m.vc ≠ 0 →
    let t := dropInbox s x i
    (startsAnew s x q m = true → landCtx s x q m = none → 16384 ≤ (iod s x).lands.length →
      exec r s = .next (answer t x q 0x0B 0 m)) ∧
    (startsAnew s x q m = false → landCtx s x q m = none →
      exec r s = .next (answer (linkErr t x 0x0705 m.dstId m.xtag) x q 0x0A 0x0705 m)) ∧
    (∀ c, meetsCtx s x q m c = true →
      let ahead := subMod (2 ^ 32) m.sseq c.expect
      let far := decide (1024 < ahead) || decide (4 * 2 ^ 20 < reorderBytes (iod s x) + 32 + m.data.length)
      (ahead = 0 → (part s q).state = .quiesced → exec r s = .next (delivered (answerBusy (met s x i q m c) x q m) x q m)) ∧
      (2 ^ 31 ≤ ahead → exec r s = .next (met s x i q m c)) ∧
      (0 < ahead → ahead < 2 ^ 31 → far = true → exec r s = .next
        (streamCtl (modIod (met s x i q m c) x (fun d => { d with reorderDrop := d.reorderDrop + 1 })) x q 0x0D c.expect m)) ∧
      (0 < ahead → far = false → exec r s = .next (putLand (met s x i q m c) x q m
        { c with msgAt := s.time, early := m :: c.early.filter (fun y => y.sseq != m.sseq) })))

/-- After a delivery the context expects the next number, an early message that now has its turn goes back to the inbox, and every 32nd
delivery is acknowledged (R366). -/
def Sys2Proof.Machine.claimDeliveryCounts : Prop :=
  ∀ (s : State) (x q : Nat) (m : Msg),
    (landCtx s x q m = none → delivered s x q m = s) ∧
    (∀ c, landCtx s x q m = some c →
      let e := (c.expect + 1) % 2 ^ 32
      let c1 : LandCtx := { c with
        expect := e, early := c.early.filter (fun y => y.sseq != e), unacked := (if c.unacked + 1 = 32 then 0 else c.unacked + 1),
        deliveredAt := (if c.unacked = 0 then s.time else c.deliveredAt), msgAt := s.time }
      let s1 := match c.early.find? (fun y => y.sseq == e) with
        | some y => toInbox (putLand s x q m c1) x none y
        | none => putLand s x q m c1
      delivered s x q m = if c.unacked + 1 = 32 then streamCtl s1 x q 0x0C c.expect m else s1)

/-- What the destination of a WRITE does: the first message's span and every message's bytes are checked; a refusal is answered once, with
its code, after the first message the bytes written are undefined, and the transfer's other messages are passed over; bytes land through
the die's network, and the last message's increment is made and the transfer acknowledged (R313, R358, R371). -/
def Sys2Proof.Machine.claimWriteEffects : Prop :=
  ∀ (t : State) (x q : Nat) (m : Msg) (o : FlitOut),
    let spanned := m.first && !m.data.isEmpty
    let data := if spanned then m.data.drop 16 else m.data
    let err := ((if spanned then spanErr t q (leAt m.data 0 8) (leAt m.data 8 8) else none).or
      (if data.isEmpty then none else spanErr t q m.addr (m.addr + data.length - 1)))
    let passed := !m.first && xferRefused t x q m
    let ends := fun (u : State) => endXferAt u x q m
    (passed = true → writeMessage t x q m o = if m.last then ends t else t) ∧
    (∀ code, passed = false → err = some code →
      let u := noteXfer (answer (if m.first then t else loseXfer t x q m) x q 0x0A code m) x q m true
      writeMessage t x q m o = if m.last then ends u else u) ∧
    (passed = false → err = none → writeMessage t x q m o =
      flitMeets (if m.first then noteXfer t x q m false else t) [] 0 (m.addr / 64) q o (fun u0 =>
        let u := if data.isEmpty then u0 else noteWrote (inboundWrite u0 x m.addr data) x q m m.addr data.length
        if !m.last then u
        else if !m.incEn then answer (ends u) x q 0x09 0 m
        else match incErr u q m.incSel with
          | some code => ends (answer (loseXfer u x q m) x q 0x0A code m)
          | none => answer (selAdd (ends u) (6000 + x) (pgLink x) m.incSel 1) x q 0x09 0 m))

/-- What the other destinations do: a READ_REQ's bytes go back as READ_DATA, or it is refused with the code of its span; READ_DATA goes to the
transfer that asked, which ends when every byte has come; a return's row lands and settles its choice; a drop marks its choice entry
DROPPED and settles it; both are stale without their context; a token for a queue that takes no choices draws a notice of reason 3 (R334,
R335, R358, R371). -/
def Sys2Proof.Machine.claimDeliveredEffects : Prop :=
  ∀ (t : State) (x q : Nat) (m : Msg),
    let lo := leAt m.data 0 8
    let hi := leAt m.data 8 8
    let mine := fun (e : Nat × Xfer) => (e.1 == m.xtag) && (e.2.part == q) && (e.2.dst == m.srcId) && decide (e.2.got < e.2.want)
      && decide (homeOf e.2 ≤ m.addr) && decide (m.addr + m.data.length ≤ homeOf e.2 + e.2.want)
    let asked := (List.range 4).findSome? (fun y => ((iod t y).xfers.find? mine).map (fun e => (y, e)))
    let tag := m.data.take 16
    (∀ code, spanErr t q lo hi = some code → readReqMessage t x q m = answer t x q 0x0A code m) ∧
    (spanErr t q lo hi = none →
      let bs := readBytes t.mem lo (hi + 1 - lo)
      readReqMessage t x q m = sendMsgs (iodTouch t x (rangeLines lo (hi + 1 - lo)) false) x q (numberMsgs m.xtag
        ((List.range (cdiv bs.length 4096)).map (fun k => { blankMsg 2 3 m.srcId with
          addr := leAt m.data 16 8 + 4096 * k, data := (bs.drop (4096 * k)).take 4096 })))) ∧
    (asked = none → readDataMessage t q m = t) ∧
    (∀ y g f, asked = some (y, g, f) →
      let s1 := match f.req with
        | .ckpt i k => ckptData t i k m.addr m.data
        | _ => t
      let s2 := modIod s1 y (fun d => { d with xfers := sput d.xfers g { f with got := f.got + m.data.length } })
      readDataMessage t q m = if f.got + m.data.length = f.want then endXfer s2 y g 0 else s2) ∧
    (m.first = true → tagContext t m.dstIod q tag = none → returnMessage t x q m = setCont (staleIn t m.dstIod) x q m none) ∧
    (∀ c, m.first = true → tagContext t m.dstIod q tag = some c →
      let row := (m.data.drop 16).take (c.outLines * 64)
      let u := iodTouch { t with mem := writeBytes t.mem (retSlot c tag) row } x (rangeLines (retSlot c tag) row.length) true
      returnMessage t x q m = if m.last then applyReturn u m.dstIod tag c
        else setCont u x q m (some (retSlot c tag + row.length, tag))) ∧
    (∀ d, tagContext t x q tag = none → applyDrop t x q d tag = staleIn t x) ∧
    (∀ d c, tagContext t x q tag = some c → d = 0 ∨ d = 1 →
      let a := c.choiceAddr + tagT tag * 64 + tagRank tag * 8
      let e := readLe t.mem a 4
      let u := iodTouch { t with mem := writeLe t.mem a 8 (if Nat.testBit e 16 then e else e + 2 ^ 16) } x [a] true
      applyDrop t x q d tag = settleChoice (raiseEvt (modAtom u x (fun y => { y with dropped := y.dropped + 1 })) (pgAtom x) 2) x tag c) ∧
    (m.first = true → takesChoices t q (m.addr % 4096) = false →
      dispatchMessage t x q m = (setCont (sendNotice t x q 3 tag) x q m none, true))

/-- Admission to an expert queue: a full group holds a choice back; an arrival of a newer generation holds its queue until the old round has
drained; an older one is stale, reason 1; a choice past its quota or the capacity is overflow, reason 0, one of a source past SRC_COUNT has
reason 5; one with room takes the next slot, counted in ADMITTED (R328, R329). -/
def Sys2Proof.Machine.claimAdmission : Prop :=
  ∀ (s : State) (q g r : Nat),
    let t := flushGroup s q
    (16 ≤ (queue t q).group.length → admitRow s q g r = .held t) ∧
    ((queue t q).group.length < 16 →
      (∀ u, enterRound t q g = .held u → admitRow s q g r = .held u) ∧
      (enterRound t q g = .stale → admitRow s q g r = .drop (exInc t q 96 8) 1) ∧
      (∀ u, enterRound t q g = .current u →
        let e := (queue u q).entry
        let give := fun (v : State) (k : Nat) =>
          Admit.slot (flushGroup (modQueue (exInc (exInc v q 66 2) q 88 8) q (fun x => { x with group := x.group ++ [k] })) q) k
        let f := exGet u q (128 + 2 * r) 2
        (exQuota e = false → admitRow s q g r =
          if exGet u q 66 2 < exCap e then give u (exGet u q 66 2) else .drop (exInc u q 80 8) 0) ∧
        (exQuota e = true → exSrc e ≤ r → admitRow s q g r = .drop u 5) ∧
        (exQuota e = true → r < exSrc e → admitRow s q g r =
          if f < exPer e then give (exPut u q (128 + 2 * r) 2 (f + 1)) (r * exPer e + f) else .drop (exInc u q 80 8) 0))) ∧
    ((queue s q).heldGen.isSome = true → enterRound s q g = .held s) ∧
    ((queue s q).heldGen = none → roundSeen s q = false → enterRound s q g = .current (openRound s q g)) ∧
    ((queue s q).heldGen = none → roundSeen s q = true →
      let d := subMod 65536 g (exGet s q 64 2)
      let u := if roundOpen s q then closeRound s q else s
      (d = 0 → enterRound s q g = if roundOpen s q then .current s else .stale) ∧
      (32768 ≤ d → enterRound s q g = .stale) ∧
      (0 < d → d < 32768 → enterRound s q g = if roundDrained u q then .current (openRound u q g)
        else .held (modQueue u q (fun x => { x with heldGen := some g }))))

/-- ROUND_OPEN_AFTER_DRAIN opens the held arrival's round once the old round's records have retired, publishing what its open group holds;
ATOM_CANCEL closes an open return context, counts it and keeps its GEN, and a running DISPATCH of the context completes where it stands; it
does nothing to a context that is not open (R328, R330, R339). -/
def Sys2Proof.Machine.claimRounds : Prop :=
  (∀ (s : State) (q : Nat),
    let t := flushGroup s q
    (∀ g, (queue t q).heldGen = some g → roundDrained t q = true → exec (.roundOpenAfterDrain q) s = .next (openRound t q g)) ∧
    (∀ g, (queue t q).heldGen = some g → roundDrained t q = false → exec (.roundOpenAfterDrain q) s = .next t) ∧
    ((queue t q).heldGen = none → exec (.roundOpenAfterDrain q) s = .next t)) ∧
  (∀ (s : State) (x k : Nat), x < 4 → k < 256 → regOpen s (pgAtom x) = true →
    ((atom s x).ctxs.find? (fun e => e.1 == k) = none → exec (.atomCancel x k) s = .next s) ∧
    (∀ j c, (atom s x).ctxs.find? (fun e => e.1 == k) = some (j, c) →
      let t := setAtom s x { atom s x with
        ctxs := sdel (atom s x).ctxs k, cancelled := sput (atom s x).cancelled k c.gen, cancels := (atom s x).cancels + 1 }
      ((∀ d r, (atom s x).disps = d :: r → dpCtx d.bytes ≠ k) → exec (.atomCancel x k) s = .next t) ∧
      (∀ d r, (atom s x).disps = d :: r → dpCtx d.bytes = k → exec (.atomCancel x k) s = .next (endDisp t x d 0))))

/-- Channel 0: ACK ends its transfer as completed, REFUSE in error, WXL_PEER_RESET closing the stream of what it refuses; BUSY schedules the
resend; STREAM_ACK frees what it covers, STREAM_NAK sends the stream again from its number; what names no transfer or stream of the die changes
nothing. An error of the tracker that can be corrected is counted; one that cannot is IOD_PARITY and resets the partitions of the die's
ports (R364, R366, R367, R369, R371, R372, R451, R453). -/
def Sys2Proof.Machine.claimAnswers : Prop :=
  ∀ (s : State) (x which i q : Nat) (m : Msg), m.vc = 0 →
    let t := dropInbox s x i
    let busyAgain := fun (g : SrcStream) => modIod t x (fun d => { d with streams := d.streams.map (fun y =>
      if isStream g.part g.dst g.vc y then { y with resends := 0, busy := y.busy.filter (fun e => e.1 != m.xtag) ++ [(m.xtag, t.time)] } else y) })
    let byTag := fun (e : Nat × Xfer) => e.1 == m.xtag && e.2.part == q && e.2.dst == m.srcId
    (atDie s x 0x09 which i q m = true →
      exec (.ackMessage x which .clean) s = .next (endXfer t x m.xtag 0) ∧
      exec (.ackMessage x which .corrected) s = .next
        (endXfer (correctedBlotter (countCorrected t (pgLink x)) (pgLink x) (blank 1 0 7 0 (32 + x))) x m.xtag 0) ∧
      exec (.ackMessage x which .uncorrectable) s = .next (resetsByFault (recordErr t (pgLink x) 0x0709 0 0)
        ((List.range (nParts t)).filter (fun p => (partPorts t p).any (fun j => j / 8 == x))) (blank 9 0x0709 7 3 (32 + x)))) ∧
    (atDie s x 0x0A which i q m = true →
      (∀ g f, answered t x q m = some (g, f) → exec (.refuseMessage x which) s = .next
        (if m.code = 0x0705 then closeStream (endXfer t x g m.code) x f.part f.dst f.vc 0x0705 else endXfer t x g m.code)) ∧
      (∀ g, answered t x q m = none → entryless t x q m = some g → exec (.refuseMessage x which) s = .next
        (if m.code = 0x0705 then closeStream t x g.part g.dst g.vc 0x0705 else t)) ∧
      (answered t x q m = none → entryless t x q m = none → exec (.refuseMessage x which) s = .next t)) ∧
    (atDie s x 0x0B which i q m = true →
      (∀ g f, (iod t x).xfers.find? byTag = some (g, f) → exec (.busyMessage x which) s = .next (progress (modIod t x (fun d =>
        { d with xfers := sput d.xfers g { f with busyAt := some t.time } })) x f.part f.dst f.vc)) ∧
      (∀ g, (iod t x).xfers.find? byTag = none → entryless t x q m = some g → exec (.busyMessage x which) s = .next (busyAgain g)) ∧
      ((iod t x).xfers.find? byTag = none → entryless t x q m = none → exec (.busyMessage x which) s = .next t)) ∧
    (atDie s x 0x0C which i q m = true →
      (∀ k u f r, (iod t x).streams.findIdx? (isStream q m.srcId m.svc) = some k → (iod t x).streams[k]? = some u → u.sent = f :: r →
        let n := subMod (2 ^ 32) m.sseq f.sseq + 1
        let u1 : SrcStream := { u with
          sent := u.sent.drop n, kept := u.kept ++ (u.sent.take n).filter (fun y => atomKind y.kind), ackAt := t.time, resends := 0 }
        exec (.streamAckMessage x which) s = .next
          (if n ≤ u.sent.length then pumpAt (modIod t x (fun d => { d with streams := d.streams.set k u1 })) x k else t)) ∧
      (∀ k u, (iod t x).streams.findIdx? (isStream q m.srcId m.svc) = some k → (iod t x).streams[k]? = some u → u.sent = [] →
        exec (.streamAckMessage x which) s = .next t) ∧
      ((iod t x).streams.findIdx? (isStream q m.srcId m.svc) = none → exec (.streamAckMessage x which) s = .next t)) ∧
    (atDie s x 0x0D which i q m = true →
      (∀ u f r, (iod t x).streams.find? (isStream q m.srcId m.svc) = some u → u.sent = f :: r →
        let n := subMod (2 ^ 32) m.sseq f.sseq
        exec (.streamNakMessage x which) s = .next (if n < u.sent.length then resendFrom t x u n else t)) ∧
      (∀ u, (iod t x).streams.find? (isStream q m.srcId m.svc) = some u → u.sent = [] → exec (.streamNakMessage x which) s = .next t) ∧
      ((iod t x).streams.find? (isStream q m.srcId m.svc) = none → exec (.streamNakMessage x which) s = .next t))

/-- Streams over time, each only when its time has come: STREAM_ACK 2 µs after a delivery, resend of the stream after RESEND_US without
progress, its bytes read again, and WXL_TIMEOUT at the RESEND_MAX-th in a row, resend of a busy transfer or row, close after 100 µs at the
source and 200 µs at the landing die (R366-R369, R371, R372, R426). -/
def Sys2Proof.Machine.claimStreamTimers : Prop :=
  ∀ (s : State) (x k : Nat),
    let due := fun (e : Nat × Xfer) => e.1 == k && (match e.2.busyAt with
      | some b => decide (b + resendTicks (iod s x) ≤ s.time)
      | none => false)
    (∀ c, (iod s x).lands[k]? = some c →
      (c.unacked ≠ 0 → c.deliveredAt + 3000 ≤ s.time → exec (.streamAckTimer x k) s =
        .next (streamCtl (modIod s x (fun d => { d with lands := d.lands.set k { c with unacked := 0 } })) x c.part 0x0C
          (subMod (2 ^ 32) c.expect 1) { blankMsg c.vc 0 0 with src := c.src })) ∧
      (c.unacked = 0 ∨ s.time < c.deliveredAt + 3000 → exec (.streamAckTimer x k) s = .next s) ∧
      (c.msgAt + 300000 ≤ s.time → exec (.landingContextFree x k) s = .next (modIod s x (fun d => { d with lands := d.lands.eraseIdx k }))) ∧
      (s.time < c.msgAt + 300000 → exec (.landingContextFree x k) s = .next s)) ∧
    ((iod s x).lands[k]? = none → exec (.streamAckTimer x k) s = .next s ∧ exec (.landingContextFree x k) s = .next s) ∧
    (∀ t, (iod s x).streams[k]? = some t →
      let again := resendFrom (modIod s x (fun d => { d with streams := d.streams.set k { t with resends := t.resends + 1, ackAt := s.time } })) x t 0
      (t.sent ≠ [] → t.ackAt + resendTicks (iod s x) ≤ s.time → exec (.streamResendTimeout x k) s =
        .next (if t.resends + 1 < resendMax (iod s x) then again else closeStream again x t.part t.dst t.vc 0x0704)) ∧
      (t.sent = [] ∨ s.time < t.ackAt + resendTicks (iod s x) → exec (.streamResendTimeout x k) s = .next s) ∧
      (t.sent = [] → t.waiting = [] → t.sentAt + 150000 ≤ s.time →
        exec (.sourceStreamClose x k) s = .next (contextFreed (modIod s x (fun d => { d with streams := d.streams.eraseIdx k })) x)) ∧
      (t.sent ≠ [] ∨ t.waiting ≠ [] ∨ s.time < t.sentAt + 150000 → exec (.sourceStreamClose x k) s = .next s)) ∧
    ((iod s x).streams[k]? = none → exec (.streamResendTimeout x k) s = .next s ∧ exec (.sourceStreamClose x k) s = .next s) ∧
    ((∀ j t, (iod s x).xfers.find? due = some (j, t) → exec (.transferResend x k) s = .next (sendMsgs (modIod s x (fun d => { d with
        xfers := sput d.xfers k { t with busyAt := none, got := 0 }, busyRx := d.busyRx + 1 })) x t.part (xferMsgs s t k))) ∧
      (∀ t ms, (iod s x).xfers.find? due = none → entrylessDue s x k = some (t, ms) →
        exec (.transferResend x k) s = .next (sendMsgs (modIod s x (fun d => { d with
          busyRx := d.busyRx + 1,
          streams := d.streams.map (fun y => if isStream t.part t.dst t.vc y then
            { y with busy := y.busy.filter (fun e => e.1 != k), kept := y.kept.filter (fun m => m.xtag != k) } else y) })) x t.part ms)) ∧
      ((iod s x).xfers.find? due = none → entrylessDue s x k = none → exec (.transferResend x k) s = .next s))

/-- A MOVE record goes over to its link engine when its queue's turn comes, and fails as every record does that breaks a check. The engine
runs four records at a time; a body outside Table 15-8 fails LINK_MOVE, a destination with reserved bits ADDR_RESERVED. Requesters that wait
for a tracker entry go on when there is one (R258, R270, R372, R374). -/
def Sys2Proof.Machine.claimLinkMoves : Prop :=
  (∀ (s : State) (q : Nat),
    (qConsumer (queue s q) ≠ 2 ∨ nextRec s q = none → exec (.linkEngineMove q) s = .next s) ∧
    (∀ i b, qConsumer (queue s q) = 2 → nextRec s q = some (i, b) →
      let x := qTarget (queue s q)
      (recCls b ≠ 2 → exec (.linkEngineMove q) s = .next s) ∧
      (∀ code, recCls b = 2 → recErr s q b = some code →
        exec (.linkEngineMove q) s = .next (settleQ (putRec (queueErr s q code 0 i) q i b .refused) q)) ∧
      (recCls b = 2 → recErr s q b = none → recReady s q b = false ∨ handPick s q (iod s x).lastQueue = false →
        exec (.linkEngineMove q) s = .next s) ∧
      (recCls b = 2 → mayStart s q i b = true → handPick s q (iod s x).lastQueue = true →
        exec (.linkEngineMove q) s = .next (linkStart 8 (modIod (putRec s q i b .running) x (fun d =>
          { d with waiting := d.waiting ++ [{ queue := q, index := i, bytes := b, sent := 0, acked := 0 }], lastQueue := q })) x)))) ∧
  (∀ (n : Nat) (s : State) (x : Nat),
    ((iod s x).waiting = [] ∨ 4 ≤ (iod s x).moves.length → linkStart n s x = linkPump 64 s x) ∧
    (∀ m r, (iod s x).waiting = m :: r → (iod s x).moves.length < 4 →
      let t := modIod s x (fun d => { d with waiting := r })
      let fails := fun (code : Nat) => linkStart n (seReport (linkErr t x code (globalId (lmDst m.bytes)) 0) m.queue m.index code) x
      (linkMoveBad t (qPart t m.queue) m.bytes = true → linkStart (n + 1) s x = fails 0x0708) ∧
      (linkMoveBad t (qPart t m.queue) m.bytes = false → nfld (lmDst m.bytes) 63 60 ≠ 0 → linkStart (n + 1) s x = fails 0x0701) ∧
      (linkMoveBad t (qPart t m.queue) m.bytes = false → nfld (lmDst m.bytes) 63 60 = 0 →
        linkStart (n + 1) s x = linkStart n (modIod t x (fun d => { d with moves := d.moves ++ [m] })) x))) ∧
  (∀ (s : State) (x : Nat),
    let s1 := linkPump 64 s x
    let s2 := ((sites s1).filter (fun i => seEntry s1 i == x)).foldl (fun s i => sendPump 16 (ckptPump 16 s i) i) s1
    let s3 := ((s2.cores.map (·.1)).filter (fun n => coreEntry s2 n == x)).foldl movesOpen s2
    exec (.trackerEntryAvailable x) s = .next (contextFreed (rmtPump (iod s3 x).rmtWait.length s3 x) x))

/-- Training: a port that is DOWN, trainable and sees signal starts, no other does; at its end, which only the reference clock of its die brings, it
takes the width of the lanes good at both ends and is UP or DEGRADED with its peer, goes DOWN with WXL_TRAIN_FAIL below MIN_LANES, and goes
DOWN when it may no longer train (R346, R348). -/
def Sys2Proof.Machine.claimTraining : Prop :=
  ∀ (s : State) (i : Nat),
    let p := port s i
    (trainable s i = true → p.st = .down → exec (.portTrainStart i true) s = .next (setPort s i { p with st := .training })) ∧
    (∀ b, b = false ∨ trainable s i = false ∨ p.st ≠ .down → exec (.portTrainStart i b) s = .next s) ∧
    (∀ lanes peerId peerPort,
      let w := chooseLanes lanes
      let linked := fun (st : PortSt) => setPort s i { clearLink p s.time with
        st := st, lanes := BitVec.ofNat 4 w.2, width := w.1, peer := BitVec.ofNat 32 (2 ^ 31 + (peerPort % 32) * 2 ^ 12 + peerId % 4096) }
      (p.st ≠ .training ∨ (iod s (i / 8)).refClk = false → exec (.portTrainDone i lanes peerId peerPort) s = .next s) ∧
      (p.st = .training → (iod s (i / 8)).refClk = true →
        (trainable s i = false → exec (.portTrainDone i lanes peerId peerPort) s = .next (portDown s i)) ∧
        (trainable s i = true → minWidth p ≤ w.1 → w.1 = 4 →
          exec (.portTrainDone i lanes peerId peerPort) s = .next (raiseEvt (linked .up) (pgPort i) 0)) ∧
        (trainable s i = true → minWidth p ≤ w.1 → w.1 ≠ 4 →
          exec (.portTrainDone i lanes peerId peerPort) s = .next (raiseEvt (linked .degraded) (pgPort i) 2)) ∧
        (trainable s i = true → w.1 < minWidth p →
          exec (.portTrainDone i lanes peerId peerPort) s = .next (portDown (recordErr s (pgPort i) 0x0707 w.1 0) i))))

/-- The state in which a port that was UP or DEGRADED trains again: held flits are dropped, RETRAINS counts, its event is raised and a
corrected blotter recorded; any other port stays as it is (R349). -/
def Sys2Proof.Machine.retrained (s : State) (i : Nat) : State :=
  let p := port s i
  if portUp s i then portBlotter (raiseEvt (setPort s i { clearLink p s.time with
    st := .training, lanes := 0, width := 0, peer := 0, retrains := p.retrains + 1 }) (pgPort i) 3) i 7 1
  else s

/-- Loss of a lane's lock, a lane above the error limit and RETRAIN each retrain a port that is up; RETRAIN starts the training of one that
is down; SAVE_EQ stores the equalisation of one that is up. A held flit not acknowledged for 2 µs is resent with every later one, and the 16th
such replay in a row retrains the port (R347, R349, R354). -/
def Sys2Proof.Machine.claimRetraining : Prop :=
  ∀ (s : State) (i : Nat),
    let p := port s i
    exec (.laneLockLoss i) s = .next (retrained s i) ∧
    exec (.laneErrorWindow i true) s = .next (retrained s i) ∧
    exec (.laneErrorWindow i false) s = .next s ∧
    (i < 32 → regOpen s (pgPort i) = true →
      (p.st ≠ .down → exec (.portCmdRetrain i) s = .next (retrained s i)) ∧
      (p.st = .down → exec (.portCmdRetrain i) s = .next (if trainable s i then setPort s i { p with st := .training } else s)) ∧
      exec (.portCmdSaveEq i) s = .next (if portUp s i then writeRec s 2 i [] else s)) ∧
    (let t := portBlotter (setPort s i { p with
        resend := p.replay, replays := p.replays + 1, replayRun := p.replayRun + 1, ackAt := s.time }) i 7 1
     (portUp s i = true → p.replay ≠ [] → p.ackAt + 3000 ≤ s.time →
        exec (.replayTimeout i) s = .next (if p.replayRun < 15 then t else retrained t i))) ∧
    (portUp s i = false ∨ p.replay = [] ∨ s.time < p.ackAt + 3000 → exec (.replayTimeout i) s = .next s)

/-- A flit slot: slot 127 carries a CONTROL flit with the credit counts, and so does every slot of step 5 of training, with the identity
exchange; a held flit goes out again before a new one, a new DATA flit takes the next sequence number and is held until acknowledged, a port
with nothing to send sends IDLE, and any other port sends nothing (R346, R351, R354, R356; the identity exchange's places are log entry 63). -/
def Sys2Proof.Machine.claimFlitSend : Prop :=
  ∀ (s : State) (i ca cb : Nat),
    let p := port s i
    let step5 := decide (p.st = .training) && trainable s i && (iod s (i / 8)).refClk
    let id := match portOwner s i with
      | some q => (part s q).moduleId.toNat
      | none => 0
    let control := (List.range 8).foldr (fun v acc => toBytes 2 (sget 0 p.freed v) ++ acc) [] ++ toBytes 1 p.lanes.toNat
      ++ (if p.st = .training then toBytes 2 id ++ toBytes 1 i ++ toBytes 1 p.width else toBytes 4 0) ++ freeBytes s 215
    (portUp s i = false → step5 = false → exec (.flitSend i ca cb) s = .next s) ∧
    (step5 = true ∨ portUp s i = true ∧ p.slot = 127 → exec (.flitSend i ca cb) s =
      .next (putFlit (bumpFree s) i p (flitBytes p 2 0 0 0xFF ca cb control) (ca :: cb :: List.range 7))) ∧
    (portUp s i = true → p.slot ≠ 127 →
      (∀ f r, p.resend = f :: r → exec (.flitSend i ca cb) s =
        .next (putFlit s i { p with resend := r, flitsTx := p.flitsTx + 1 } (flitBytes p 0 f.seq f.vc f.first ca cb f.payload) [ca, cb])) ∧
      (∀ v t l, p.resend = [] → p.replay.length < 1024 → arbitrate (iod s (i / 8)) p = some (v, t, l) →
        let ms := sget [] p.tx v
        let pay := (ms.foldr (fun m acc => m ++ acc) []).take 236
        let d := dropBytes ms 236 (sget false p.txPart v)
        let f : TxFlit := { seq := p.txSeq, vc := v, first := firstHdr ms (sget false p.txPart v), payload := pay ++ List.replicate (236 - pay.length) 0 }
        exec (.flitSend i ca cb) s = .next (putFlit s i { p with
          tx := sput p.tx v d.1, txPart := sput p.txPart v d.2, used := sput p.used v (sget 0 p.used v + 1), replay := p.replay ++ [f],
          txSeq := (p.txSeq + 1) % 4096, turn := t, turnLeft := l, flitsTx := p.flitsTx + 1,
          ackAt := if p.replay.isEmpty then s.time else p.ackAt } (flitBytes p 0 f.seq f.vc f.first ca cb f.payload) [ca, cb])) ∧
      (p.resend = [] → 1024 ≤ p.replay.length ∨ arbitrate (iod s (i / 8)) p = none → exec (.flitSend i ca cb) s =
        .next (putFlit (bumpFree s) i p (flitBytes p 1 0 0 0xFF ca cb (freeBytes s 236)) [ca, cb])))

/-- A flit's CRC is good and none of its bits lie in an uncorrectable codeword (R345, R350). -/
def Sys2Proof.Machine.sound (b : List Byte) (uncorr : Nat) (failed : Bool) : Bool :=
  (crc32 (b.take 252) == leAt b 252 4) && (uncorr == 0) && !failed

/-- The state once a flit's corrected symbols and uncorrectable codewords are counted; corrections leave a corrected blotter with their number
(R345, R459). -/
def Sys2Proof.Machine.fecCounted (s : State) (i corr uncorr : Nat) : State :=
  let p := port s i
  let s1 := setPort s i { p with fecCorr := p.fecCorr + BitVec.ofNat 64 corr, fecUncorr := p.fecUncorr + BitVec.ofNat 64 uncorr }
  if 0 < corr then portBlotter s1 i 0 corr else s1

/-- The state once the acknowledgement, the credit fields and the NAK of a good flit are taken (R353, R354). -/
def Sys2Proof.Machine.heard (s : State) (i : Nat) (b : List Byte) (corr : Nat) : State :=
  let s1 := fecCounted s i corr 0
  let s2 := setPort s1 i (takeCredit (takeCredit (takeAck (port s1 i) (leAt b 3 2 % 4096) s.time) b 8) b 12)
  if Nat.testBit (leAt b 0 1) 2 then startReplay s2 i else s2

/-- A discarded DATA flit owes one NAK (R354). -/
def Sys2Proof.Machine.owesNak (p : Port) : Port := if p.nakSent then p else { p with nakDue := true, nakSent := true }

/-- A flit that arrives at a port that is up. A sound flit's acknowledgement and credits are taken and a NAK sends the held flits again; a DATA
flit in sequence is accepted and its messages reach the I/O die, one out of sequence is discarded and a NAK is owed once, one past the
receiver's buffers and a reserved type are WXL_PROTOCOL; a CONTROL flit's counts are taken, IDLE carries nothing more. Of a flit that is not
sound only a DATA flit matters: it is discarded, a NAK is owed, and a bad CRC counts. The row of a kind takes flits of that kind (R345,
R350-R354; what a port without training receives is log entry 63). -/
def Sys2Proof.Machine.claimFlitReceive : Prop :=
  ∀ (s : State) (i corr uncorr : Nat) (failed : Bool) (b : List Byte),
    let ft := leAt b 0 1 % 4
    let nak := Nat.testBit (leAt b 0 1) 2
    let rows := (if ft = 1 ∨ ft = 2 then [Instr.controlFlitReceive i b corr uncorr failed] else [.dataFlitReceive i b corr uncorr failed])
      ++ (if nak then [.nakReceive i b corr uncorr failed] else [])
    let others := (if ft = 1 ∨ ft = 2 then [Instr.dataFlitReceive i b corr uncorr failed] else [.controlFlitReceive i b corr uncorr failed])
      ++ (if nak then [] else [.nakReceive i b corr uncorr failed])
    (∀ r ∈ others, exec r s = .next s) ∧
    (∀ r ∈ rows, portUp s i = false ∨ b.length ≠ 256 → exec r s = .next s) ∧
    (∀ r ∈ rows, portUp s i = true → b.length = 256 → sound b uncorr failed = false →
      let t := fecCounted s i corr uncorr
      (ft ≠ 0 → exec r s = .next t) ∧
      (ft = 0 → crc32 (b.take 252) ≠ leAt b 252 4 → exec r s = .next (setPort t i (owesNak { port t i with crcFail := (port t i).crcFail + 1 }))) ∧
      (ft = 0 → crc32 (b.take 252) = leAt b 252 4 → exec r s = .next (setPort t i (owesNak (port t i))))) ∧
    (∀ r ∈ rows, portUp s i = true → b.length = 256 → sound b uncorr failed = true →
      let t := heard s i b corr
      let p := port t i
      let vc := leAt b 5 1 % 8
      let full := vc = 7 ∨ vcBuffers vc + sget 0 p.given vc < sget 0 p.taken vc + 1
      (portUp t i = false ∨ ft = 1 → exec r s = .next t) ∧
      (portUp t i = true → ft = 2 →
        exec r s = .next (setPort t i ((List.range 7).foldl (fun p v => takeCount p v (leAt b (16 + 2 * v) 2)) p))) ∧
      (portUp t i = true → ft = 3 → exec r s = .next (retrained (recordErr t (pgPort i) 0x0706 0 0) i)) ∧
      (portUp t i = true → ft = 0 → leAt b 1 2 % 4096 ≠ p.rxSeq → exec r s = .next (setPort t i (owesNak p))) ∧
      (portUp t i = true → ft = 0 → leAt b 1 2 % 4096 = p.rxSeq → full →
        exec r s = .next (retrained (recordErr t (pgPort i) 0x0706 0 0) i)) ∧
      (portUp t i = true → ft = 0 → leAt b 1 2 % 4096 = p.rxSeq → ¬ full →
        exec r s = .next (acceptFlit t i vc (leAt b 6 1) ((b.drop 16).take 236))))

/-- RT_DATA reads or writes the route RT_SEL names, and steps RT_SEL under AUTO_INC; a table of no such die there is none of (R361). -/
def Sys2Proof.Machine.claimRoutes : Prop :=
  ∀ (s : State) (x : Nat),
    (∀ v, 4 ≤ x → exec (.rtDataAccess x v) s = .next s) ∧
    (x < 4 → regOpen s (pgLink x) = true →
      (∀ v : W32, exec (.rtDataAccess x (some v)) s =
        .next (setIod s x (routeStep { iod s x with routes := sput (iod s x).routes (fld (iod s x).rtSel 11 0) (v &&& 0x800000FF) }))) ∧
      exec (.rtDataAccess x none) s = .next { setIod s x (routeStep (iod s x)) with
        reply := toBytes 4 (sget (0 : W32) (iod s x).routes (fld (iod s x).rtSel 11 0)).toNat })

/-- Duplicate execution: an array instruction is sampled when 2^PERIOD_SHIFT of them have started since the core's last sample, or 2^20 ticks of
activity, and waits while the checker holds a sample; the checker forms the tile from the lines the core read, and equal tiles end the sample,
different ones stop the sampled core with DUP_MISMATCH and take its checker out. DUP_CFG takes its fields and gives the role to a free core;
at a rotation point of an ACTIVE partition the role passes to the next free core once no sample is in progress (R447-R450). -/
def Sys2Proof.Machine.claimDuplicates : Prop :=
  ∀ (s : State) (g : Nat),
    let k := cluster s g
    (∀ (i : Nat) (x : Sample), k.checker = some i → k.sample = some x →
      let t := setCluster s g { k with sample := none, dupSamples := k.dupSamples + 1 }
      (∀ b, x.written = false → exec (.dupCompare g b) s = .next s) ∧
      (x.written = true → exec (.dupCompare g true) s = .next (dupMismatch t g i x)) ∧
      (x.written = true → exec (.dupCompare g false) s = .next
        (if x.reads = [] ∨ x.tile = [] ∨ tilesAgree (fld x.word 5 2) (checkerTile x) x.tile = true then afterSample t g
         else dupMismatch t g i x))) ∧
    (∀ b, k.checker = none ∨ k.sample = none → exec (.dupCompare g b) s = .next s) ∧
    (let due := clusterActive s g && decide (k.rotateAt ≤ now s)
     let t := if due then setCluster s g { k with
       rotateDue := k.rotateDue || (bit k.dupCfg 30 && k.checker.isSome), rotateAt := now s + 2 ^ rotShift k } else s
     let j := cluster t g
     (∀ i, j.checker = some i → j.rotateDue = true → j.sample = none →
       exec (.checkerRotate g) s = .next (match nextChecker t g (i + 1) with
         | some m => takeRole (leaveRole t g) g m
         | none => t)) ∧
     (∀ i, j.checker = some i → j.rotateDue = false ∨ j.sample ≠ none → exec (.checkerRotate g) s = .next t) ∧
     (j.checker = none → exec (.checkerRotate g) s = .next (if j.rotateDue then passRole t g 0 else t))) ∧
    (∀ v : W32, g < 256 → regOpen s (pgCluster g) = true →
      let v1 := setFld (setFld v 29 24 0) 15 4 0
      let t := settleFull (setCluster s g { k with dupCfg := v1 })
      (bit v1 31 = true → k.checker = none → exec (.dupCfgWrite g v) s = .next (passRole t g 0)) ∧
      (bit v1 31 = true → k.checker ≠ none → exec (.dupCfgWrite g v) s = .next t) ∧
      (bit v1 31 = false → k.sample = none → exec (.dupCfgWrite g v) s = .next (dropRole t g)) ∧
      (bit v1 31 = false → k.sample ≠ none → exec (.dupCfgWrite g v) s = .next t)) ∧
    (∀ v, 256 ≤ g → exec (.dupCfgWrite g v) s = .next s) ∧
    (∀ (n : Nat) (f : Flight), n / 16 = g →
      let c := core s n
      let checked := decide (k.checker.all (fun ck => ck ≠ n % 16)) && k.checker.isSome && bit k.dupCfg 31
      let chosen := checked && (decide (2 ^ periodShift k ≤ c.sinceSample) || decide (2 ^ 20 ≤ c.activity))
      (chosen = false → sampleStart s n f = setCore s n { putFlight c { f with started := true } with sinceSample := c.sinceSample + 1 }) ∧
      (chosen = true → k.sample = none → k.dupQueue = [] → sampleStart s n f =
        setCluster (setCore s n { putFlight c { f with started := true, sampled := true } with sinceSample := 0, activity := 0 }) g
          { k with sample := some (newSample n f) }) ∧
      (chosen = true → k.sample ≠ none ∨ k.dupQueue ≠ [] → sampleStart s n f =
        setCluster (setCore s n (putFlight c { f with started := true, sampleWait := true })) g { k with dupQueue := k.dupQueue ++ [n] }))

/-- The host may write partition p's page (R512, R517). -/
def Sys2Proof.Machine.partOpen (s : State) (p : Nat) : Bool := decide (p < 4) && regOpen s (pgPart p)

/-- The rows of PART_CMD and their OPs (Table 24-8). -/
def Sys2Proof.Machine.partOps (p : Nat) : List (Nat × Instr) := [(1, .partInit p), (2, .partActivate p), (3, .partQuiesce p), (4, .partOff p)]

/-- PART_CMD: an OP not listed for the state, of a partition absent in the mode, before the module is ready, or an INIT under a base-note rail fault
records PART_CMD_BAD and changes nothing else; an ACTIVATE whose module ID another partition holds records MODULE_ID_CLASH. INIT, ACTIVATE and
QUIESCE become pending with the reason they wait for, ACTIVATE takes effect at once when nothing holds it, OFF takes the partition OFF unless a
module operation holds it (R438, R457, R558). -/
def Sys2Proof.Machine.claimPartCommands : Prop :=
  ∀ (s : State) (p : Nat),
    (∀ r ∈ partOps p, 4 ≤ p → exec r.2 s = .next s) ∧
    (partOpen s p = true →
      let bad := fun (op : Nat) => !s.glob.ready || !partExists s p || !opListedFor (part s p).state op || (op == 1 && baseFault s)
      let wait := if s.pwr.bankOk = false then 1 else if opHolds s p then 2 else 0
      let s1 := if s.pwr.st = 0 then accStart { s with pwr := { s.pwr with st := 1 } } else s
      (∀ r ∈ partOps p, bad r.1 = true → exec r.2 s = .next (recordErr s pgGlob 0x010B 0 0)) ∧
      (bad 2 = false → idClash s p = true → exec (.partActivate p) s = .next (recordErr s pgGlob 0x0106 0 0)) ∧
      (bad 1 = false → exec (.partInit p) s = .next (pendCmd s1 p 1 (if opHolds s p then 2 else 0))) ∧
      (bad 2 = false → idClash s p = false → exec (.partActivate p) s = .next (if wait = 0 then activate s p else pendCmd s p 2 wait)) ∧
      (bad 3 = false → exec (.partQuiesce p) s = .next (pendCmd s p 3 3)) ∧
      (bad 4 = false → exec (.partOff p) s = .next (if opHolds s p then pendCmd s p 4 2
        else takeOff s p (BitVec.ofNat 32 (256 * Config.freeNum s.freeCtr)))))

/-- Entering ACTIVE latches the landing dies, from INIT places HBM anew, its bytes undefined where K or LOCAL_GIB has changed, and starts the imbalance
windows, the rotation periods and the checkers; going OFF abandons the partition's work, loses its HBM and takes its ports down, and the last
partition to go OFF brings the module to keep-alive (R198, R200, R208, R365, R447, R454, R489, R558; what RESET_CAUSE holds is log entry 49). -/
def Sys2Proof.Machine.claimPartEntries : Prop :=
  ∀ (s : State) (p : Nat),
    let x := part s p
    let fresh := decide (x.state = .init)
    (let s1 := setPart s p { x with
       state := .active, pendOp := 0, pendReason := 0, landing := landingOf s p,
       placedKey := if fresh then x.hbmKey else x.placedKey, placedGib := if fresh then x.localGib else x.placedGib }
     let s2 := if fresh && (x.hbmKey != x.placedKey || x.localGib != x.placedGib)
       then loseRanges s1 [(hbmBase s p * gib64, hbmSize s p * gib64)] else s1
     let s3 := (partSites s p).foldl (fun t i =>
       if fresh then imbStart t i else modMc t i (fun m => { m with running := [], winStart := now t })) s2
     activate s p = settleFull ((clustersOf s p).foldl (fun s g =>
       assignChecker (modCluster s g (fun k => { k with rotateAt := now s + 2 ^ rotShift k })) g) s3)) ∧
    (∀ cause, x.state = .off → takeOff s p cause = setPart s p { x with pendOp := 0, pendReason := 0 }) ∧
    (∀ cause, x.state ≠ .off →
      let s1 := setPart s p { x with resetCause := cause, resets := x.resets + 1, pendOp := 0, pendReason := 0, resetHeld := false }
      let s2 := modPart (abandonPart s1 p) p (fun x => { x with state := .off })
      let s3 := bumpFree { s2 with mem := loseRange s2.mem (hbmBase s p * gib64) (hbmSize s p * gib64) s2.freeCtr }
      let s4 := contextsFreed (downPorts s s3)
      takeOff s p cause = settlePower s4)

/-- Pending OPs come true: the partition reads INIT once its domains are powered and cleared, ACTIVE once BANK_OK is set and no operation
holds it, QUIESCED once it is quiet, and stays as it is before that; a reset partition is cleared, its ports go DOWN and it reads INIT with
PART_RESET raised (R278, R454, R558, R559). -/
def Sys2Proof.Machine.claimPartStates : Prop :=
  ∀ (s : State) (p : Nat),
    let x := part s p
    let powered := partExists s p && !opHolds s p && s.accord.fine && !s.accord.toCoarse && domainsOk s p
    let wait := if s.pwr.bankOk = false then 1 else if opHolds s p then 2 else 0
    (x.pendOp = 1 → x.state = .off → powered = true →
      exec (.partInitDone p) s = .next (clearPart (powerNew s (setPart s p { x with state := .init, pendOp := 0, pendReason := 0 })) p)) ∧
    (x.pendOp ≠ 1 ∨ x.state ≠ .off ∨ powered = false → exec (.partInitDone p) s = .next s) ∧
    (x.pendOp = 2 → exec (.partActivateResume p) s = .next (if wait = 0 then activate s p else pendCmd s p 2 wait)) ∧
    (x.pendOp ≠ 2 → exec (.partActivateResume p) s = .next s) ∧
    (x.pendOp = 3 → quiesced s p = true → exec (.partQuiesceDone p) s =
      .next (settleFull ((clustersOf s p).foldl dropRole (setPart s p { x with state := .quiesced, pendOp := 0, pendReason := 0 })))) ∧
    (x.pendOp ≠ 3 ∨ quiesced s p = false → exec (.partQuiesceDone p) s = .next s) ∧
    (x.state = .resetting →
      let t := (partPorts s p).foldl (fun s i => if (port s i).st = .down then s else portDown s i) (clearPart s p)
      exec (.partResetComplete p) s = .next (contextsFreed (raiseEvt (setPart t p { part t p with state := .init }) (pgPart p) 2))) ∧
    (x.state ≠ .resetting → exec (.partResetComplete p) s = .next s)

/-- Settings that the partitions' states lock: module ID, HBM placement and EXP_TABLE change only in OFF and INIT, a module ID only to one no other
partition holds; the sillage mode only with no slot open and to a ring that fits, its place only with MODE off; of a port owner register the
fields of ports that are DOWN change, and PORT_BUSY is recorded when another is not; what a setting refuses records its code (R20-R23, R198, R341,
R427, R428; a TRAINING port is log entry 68). -/
def Obligations.PartitionSettings : Prop :=
  ∀ (s : State) (p : Nat) (v : W32) (w : W64),
    let err := fun (code : Nat) => Host.Outcome.next (recordErr s pgGlob code 0 0)
    (regOpen s pgGlob = true → p < 4 →
      let down := fun (y : Nat) => decide ((port s (8 * p + y)).st = .down)
      let t := { s with glob := { s.glob with portOwner := (List.range 8).foldl (fun m y =>
        if down y then sput m (8 * p + y) (BitVec.ofNat 4 (fld v (4 * y + 3) (4 * y))) else m) s.glob.portOwner } }
      exec (.portOwnerWrite p v) s = .next (if (List.range 8).all down then t else recordErr t pgGlob 0x0105 0 0)) ∧
    (4 ≤ p → (∀ r ∈ [Instr.portOwnerWrite p v, .partModuleIdWrite p v, .expTableWrite p w], exec r s = .next s) ∧
      (∀ k, exec (.hbmPlacementWrite p k v) s = .next s ∧ exec (.sillageWrite p k w) s = .next s)) ∧
    (∀ k, 3 ≤ k → exec (.hbmPlacementWrite p k v) s = .next s ∧ exec (.sillageWrite p k w) s = .next s) ∧
    (partOpen s p = true →
      let x := part s p
      (partLocked s p = true →
        exec (.partModuleIdWrite p v) s = err 0x0107 ∧
        (∀ k, k < 3 → exec (.hbmPlacementWrite p k v) s = err 0x0108) ∧
        exec (.expTableWrite p w) s = err 0x0109) ∧
      (partLocked s p = false →
        exec (.partModuleIdWrite p v) s =
          (if (List.range (nParts s)).any (fun q => q != p && (part s q).moduleId == BitVec.ofNat 12 v.toNat) then err 0x0106
           else .next (setPart s p { x with moduleId := BitVec.ofNat 12 v.toNat })) ∧
        exec (.hbmPlacementWrite p 0 v) s = .next (setPart s p { x with hbmKey := setFld x.hbmKey 31 0 v.toNat }) ∧
        exec (.hbmPlacementWrite p 1 v) s = .next (setPart s p { x with hbmKey := setFld x.hbmKey 63 32 v.toNat }) ∧
        exec (.hbmPlacementWrite p 2 v) s = .next (setPart s p { x with localGib := BitVec.ofNat 6 v.toNat }) ∧
        exec (.expTableWrite p w) s = .next (setPart s p { x with expTable := setFld w 63 48 0 })) ∧
      (let m := w.toNat % 4
       let fits := decide (x.sillageOfs.toNat + x.sillageLen.toNat ≤ x.localGib.toNat * 2 ^ 30) && decide (65536 ≤ x.sillageLen.toNat)
       let t := setPart s p { x with sillageMode := BitVec.ofNat 2 m }
       (slotsOpen s p = true ∨ m ≠ 0 ∧ fits = false → exec (.sillageWrite p 0 w) s = err 0x010A) ∧
       (slotsOpen s p = false → m = 0 ∨ fits = true → exec (.sillageWrite p 0 w) s =
         .next (if (m = 1 ∨ m = 2) ∧ x.sillageMode.toNat ≠ m then (partSites s p).foldl (fun s i => ringHeader s i p) t else t))) ∧
      (x.sillageMode ≠ 0 → exec (.sillageWrite p 1 w) s = err 0x010A ∧ exec (.sillageWrite p 2 w) s = err 0x010A) ∧
      (x.sillageMode = 0 → exec (.sillageWrite p 1 w) s = .next (setPart s p { x with sillageOfs := setFld w 63 48 0 }) ∧
        exec (.sillageWrite p 2 w) s = .next (setPart s p { x with sillageLen := setFld w 63 48 0 })))

/-- The host reaches a page with a header: the page is served, its domain is on, the endpoint takes requests, and no reset of the page's crossing
runs (R295, R507, R512, R513). -/
def Sys2Proof.Machine.headOpen (s : State) (pg : Nat) : Bool :=
  decide (pg < 8192) && (pageType pg).isSome && hostReach s && pageServed s pg && pageOn s pg && !crossingReset s pg

/-- The common header: clears of EVT_RAW, forced events, enables, the error record's clear and the lock with its key; a locked page still
takes EVT_PEND, ERR_CLEAR and PAGE_LOCK and refuses the rest with PAGE_LOCKED; a number that names no page has no header (R515-R517). -/
def Sys2Proof.Machine.claimPageHeaders : Prop :=
  ∀ (s : State) (pg : Nat) (v : W32),
    (headOpen s pg = true →
      let h := hdr s pg
      (exec (.evtPendClear pg v) s = .next (setHdr s pg { h with raw := h.raw &&& ~~~ v })) ∧
      (exec (.errClear pg) s = .next (setHdr s pg { h with errFirst := 0, errCount := 0, infoLo := 0, infoHi := 0 })) ∧
      (exec (.pageLockWrite pg v) s = .next (if fld v 31 16 = 0x4C4B then setHdr s pg { h with locked := bit v 0 } else s)) ∧
      (h.locked = false → exec (.evtForce pg v) s = .next (raiseMask s pg (v &&& evtMask pg))) ∧
      (h.locked = false → exec (.evtEnWrite pg v) s = .next (putEvt s pg { h with en := v &&& evtMask pg } 0)) ∧
      (h.locked = true → exec (.evtForce pg v) s = .next (pcieErr s 0x0E03 0 4 (pg * 4096 + 0x1C))) ∧
      (h.locked = true → exec (.evtEnWrite pg v) s = .next (pcieErr s 0x0E03 0 4 (pg * 4096 + 0x18)))) ∧
    (pageType pg = none → ∀ r ∈ [Instr.evtPendClear pg v, .errClear pg, .pageLockWrite pg v, .evtForce pg v, .evtEnWrite pg v], exec r s = .next s)

/-- A host write of BAR0, 4 or 8 aligned bytes: nothing happens while the endpoint takes no requests, past BAR0's pages, or to a page that is
not served; a write that the reset of its crossing overtakes is discarded; a page whose domain is off records PAGE_DOMAIN_OFF, a register of a
locked page PAGE_LOCKED; any other reaches its register, 8 bytes a register of 8 bytes whole, else the lower and the upper register. Another size
or alignment records HOST_ACCESS_BAD (R295, R507, R509, R512, R513, R517). -/
def Sys2Proof.Machine.claimHostWrites : Prop :=
  ∀ (s : State) (off size : Nat) (v : W64),
    let pg := off / 4096
    let o := off % 4096
    let lo := BitVec.ofNat 32 v.toNat
    let hi := BitVec.ofNat 32 (v.toNat / 2 ^ 32)
    let r := Instr.registerWrite false 0 off size v
    let lock := fun (t : State) (o : Nat) => !entryPage pg && (hdr t pg).locked && !openWhenLocked o
    let put := fun (t : State) (o : Nat) (x : W32) => if lock t o then pcieErr t 0x0E03 0 4 (pg * 4096 + o) else writeReg4 t pg o x
    (hostReach s = false → exec r s = .next s) ∧
    (hostReach s = true → writeSizeOk size off = false → exec r s = .next (pcieErr s 0x0E02 0 size off)) ∧
    (hostReach s = true → writeSizeOk size off = true →
      (0x2000000 ≤ off ∨ pageServed s pg = false → exec r s = .next s) ∧
      (off < 0x2000000 → pageServed s pg = true →
        let t := if crossingReset s pg then bumpFree s else s
        (overtaken s pg = true → exec r s = .next (bumpFree s)) ∧
        (overtaken s pg = false → pageOn t pg = false → exec r s = .next (pcieErr t 0x0E05 0 size off)) ∧
        (overtaken s pg = false → pageOn t pg = true → size = 4 → exec r s = .next (put t o lo)) ∧
        (overtaken s pg = false → pageOn t pg = true → size = 8 → exec r s = .next
          (if wide pg o && !(!entryPage pg && (hdr t pg).locked) then wideWrite t pg o (BitVec.ofNat 64 v.toNat)
           else put (put t o lo) (o + 4) hi)))) ∧
    (∀ x : W32, 0x40 ≤ o → entryPage pg = false → wide pg (o - o % 8) = false → writeReg4 s pg o x = blockWrite s pg o x)

/-- The other BARs, and the Nose. BAR2: a doorbell takes 8 aligned bytes, for a queue whose compute die is on, what follows is the command
window. BAR4: the mailbox window, discarded and counted while a command runs, and the MSI-X table. Other BARs take nothing. The Nose, in its normal
mode and powered, writes registers without regard to locks, and its doorbells are refused by the producer check (R251, R252, R509, R513, R517,
R519, R523, Table 1-12). -/
def Sys2Proof.Machine.claimOtherWrites : Prop :=
  ∀ (s : State) (off size : Nat) (v : W64),
    let q := off / 8
    (∀ bar, bar ≠ 0 → hostReach s = false → exec (.registerWrite false bar off size v) s = .next s) ∧
    (∀ bar, bar ≠ 0 → bar ≠ 2 → bar ≠ 4 → exec (.registerWrite false bar off size v) s = .next s) ∧
    (hostReach s = true →
      (off < 0x8000 → exec (.registerWrite false 2 off size v) s = .next
        (if size ≠ 8 ∨ off % 8 ≠ 0 then pcieErr s 0x0E02 2 size off
         else if !dieOn s (q / 2048) then pcieErr s 0x0E05 2 8 off
         else doorbell s q (BitVec.ofNat 64 v.toNat) 0)) ∧
      (0x8000 ≤ off → exec (.registerWrite false 2 off size v) s = .next (windowWrite s off (toBytes size v.toNat))) ∧
      (0x108000 ≤ off → exec (.registerWrite false 4 off size v) s = .next s) ∧
      (off < 0x108000 → writeSizeOk size off = false → exec (.registerWrite false 4 off size v) s = .next (pcieErr s 0x0E02 4 size off)) ∧
      (off < 0x100000 → writeSizeOk size off = true → exec (.registerWrite false 4 off size v) s = .next
        (if mbBusy s then setNose s { s.nose with mbRejects := s.nose.mbRejects + 1 }
         else setNose s { s.nose with window := writeLe s.nose.window off size v.toNat })) ∧
      (0x100000 ≤ off → off < 0x108000 → writeSizeOk size off = true →
        let k := off - 0x100000
        let t := msixWrite s (k / 16) (k % 16) (BitVec.ofNat 32 v.toNat)
        exec (.registerWrite false 4 off size v) s = .next
          (if size = 8 then msixWrite t (k / 16) (k % 16 + 4) (BitVec.ofNat 32 (v.toNat / 2 ^ 32)) else t))) ∧
    (∀ bar, powered s = false ∨ s.nose.mode ≠ 1 → exec (.registerWrite true bar off size v) s = .next s) ∧
    (powered s = true → s.nose.mode = 1 →
      let pg := off / 4096
      let t := if crossingReset s pg then bumpFree s else s
      exec (.registerWrite true 2 off size v) s = .next
        (if off < 0x8000 ∧ size = 8 ∧ off % 8 = 0 ∧ dieOn s (q / 2048) = true then doorbell s q v 4 else s) ∧
      (∀ bar, bar ≠ 2 →
        (writeSizeOk size off = false ∨ 0x2000000 ≤ off ∨ pageThere s pg = false → exec (.registerWrite true bar off size v) s = .next s) ∧
        (off < 0x2000000 → pageThere s pg = true → off % 4 = 0 →
          (overtaken s pg = true → exec (.registerWrite true bar off 4 v) s = .next (bumpFree s)) ∧
          (overtaken s pg = false → exec (.registerWrite true bar off 4 v) s = .next
            (if pageOn t pg then writeReg4 t pg (off % 4096) (BitVec.ofNat 32 v.toNat) else t)))))

/-- A host read: 1, 2, 4 or 8 aligned bytes return what the range holds, after the read's own effect; another size or alignment returns all ones
and records HOST_ACCESS_BAD, and so, without a record, does a read that the reset of its crossing overtakes; a BAR with no registers, the command
window and an endpoint that takes no requests answer nothing here (R295, R507, R508, R509, R511). -/
def Sys2Proof.Machine.claimHostReads : Prop :=
  ∀ (s : State) (bar off size : Nat),
    let pg := off / 4096
    let page := bar == 0 && decide (off < 0x2000000) && pageServed s pg
    let there := hostReach s && (bar == 0 || bar == 2 || bar == 4) && !(bar == 2 && decide (0x10000000 ≤ off))
    (there = false → exec (.hostReadBad bar off size) s = .next s) ∧
    (there = true → readSizeOk size off = false →
      exec (.hostReadBad bar off size) s = .next { pcieErr s 0x0E02 bar size off with reply := List.replicate size 0xFF }) ∧
    (there = true → readSizeOk size off = true → page = true → overtaken s pg = true →
      exec (.hostReadBad bar off size) s = .next (bumpFree { s with reply := List.replicate size 0xFF })) ∧
    (there = true → readSizeOk size off = true → page = true → overtaken s pg = false →
      let t := readEffect (if crossingReset s pg then bumpFree s else s) pg (off % 4096) size
      exec (.hostReadBad bar off size) s = .next { t with reply := readData s bar off size }) ∧
    (there = true → readSizeOk size off = true → page = false →
      exec (.hostReadBad bar off size) s = .next { s with reply := readData s bar off size })

/-- MERGE_CTRL CLEAR empties a cluster's merge counters; completion bits are cleared by writing ones; a command-window aperture keeps VALID,
PART and BASE; numbers past the last of each change nothing (R194, R518, R520). -/
def Sys2Proof.Machine.claimEndpointRegisters : Prop :=
  ∀ (s : State) (k : Nat) (v : W32) (w : W64),
    (k < 256 → regOpen s (pgCluster k) = true → exec (.mergeCtrlClear k) s =
      .next (setCluster s k { cluster s k with pickDense := 0, pickMerge := 0, segExtra := 0, mergeBusy := 0 })) ∧
    (k < 128 → regOpen s pgPcie = true → exec (.compPendClear k v) s = .next { s with pcie := { s.pcie with
      compPend := sput s.pcie.compPend k (sget (0 : W32) s.pcie.compPend k &&& ~~~ v) } }) ∧
    (k < 16 → regOpen s pgPcie = true → exec (.cwApWrite k w) s = .next { s with pcie := { s.pcie with
      cwAp := sput s.pcie.cwAp k (w &&& 0xB000FFFFFF000000) } }) ∧
    (256 ≤ k → exec (.mergeCtrlClear k) s = .next s) ∧ (128 ≤ k → exec (.compPendClear k v) s = .next s) ∧
    (16 ≤ k → exec (.cwApWrite k w) s = .next s)

/-- The command window reads and writes module HBM of its aperture's partition byte for byte; a refused access records its code, a refused
read returns all ones; the HBM of a partition that is OFF takes nothing and reads as open bytes; an access outside the window or across a 4 KiB
boundary, or while the endpoint takes no requests, is not made (R507, R518; the HBM of an OFF partition is log entry 57). -/
def Sys2Proof.Machine.claimCommandWindow : Prop :=
  ∀ (s : State) (off : Nat) (bs : List Byte) (len : Nat),
    let a := windowAddr s off
    (hostReach s = false ∨ inWindow off bs.length = false → exec (.cmdWindowWrite off bs) s = .next s) ∧
    (hostReach s = false ∨ inWindow off len = false → exec (.cmdWindowRead off len) s = .next s) ∧
    (hostReach s = true → inWindow off bs.length = true →
      (∀ code, windowErr s off = some code →
        exec (.cmdWindowWrite off bs) s = .next (recordErr s pgPcie code (2 + off / 2 ^ 24 % 16 * 16) off)) ∧
      (windowErr s off = none → windowLive s off = true →
        exec (.cmdWindowWrite off bs) s = .next (hbmTouch { s with mem := writeBytes s.mem a bs } (rangeLines a bs.length) true)) ∧
      (windowErr s off = none → windowLive s off = false → exec (.cmdWindowWrite off bs) s = .next s)) ∧
    (hostReach s = true → inWindow off len = true →
      (∀ code, windowErr s off = some code → exec (.cmdWindowRead off len) s =
        .next { recordErr s pgPcie code (2 + off / 2 ^ 24 % 16 * 16) off with reply := List.replicate len 0xFF }) ∧
      (windowErr s off = none → windowLive s off = true →
        exec (.cmdWindowRead off len) s = .next (hbmTouch { s with reply := readBytes s.mem a len } (rangeLines a len) false)) ∧
      (windowErr s off = none → windowLive s off = false →
        exec (.cmdWindowRead off len) s = .next (bumpFree { s with reply := openBytes s.freeCtr len })))

/-- HOST_RESET with its key resets a partition that is not OFF and not RESETTING, or the whole module; of a QUIESCED partition that a module
operation affects the reset waits for the operation's end (R438, R526). -/
def Sys2Proof.Machine.claimHostResets : Prop :=
  ∀ (s : State) (p : Nat),
    (regOpen s pgPcie = true →
      let x := part s p
      let held := opHolds s p && decide (x.state = .quiesced)
      (p < 4 → held = false → x.state ≠ .off → x.state ≠ .resetting → exec (.hostResetPartition p) s =
        .next (abandonPart (let y := setPart s p { x with
            state := .resetting, resetCause := causeWord 0x0E04 0, resets := x.resets + 1, pendOp := 0, pendReason := 0, resetHeld := false }
          { y with glob := { y.glob with moduleOpParts := setBit y.glob.moduleOpParts p false } }) p)) ∧
      (p < 4 → held = true → exec (.hostResetPartition p) s = .next (setPart s p { x with resetHeld := true })) ∧
      (p < 4 → x.state = .off ∨ x.state = .resetting → exec (.hostResetPartition p) s = .next s) ∧
      exec .hostResetModule s = .next (moduleReset s)) ∧
    (4 ≤ p → exec (.hostResetPartition p) s = .next s)

/-- MSI-X: enabling sends one message on each vector whose source is pending; while it is enabled, a clear of the function mask and an unmasked
vector send the messages their pending bits hold; disabling sends none (R507, R519). -/
def Sys2Proof.Machine.claimMsix : Prop :=
  ∀ (s : State) (k : Nat) (fm : Bool),
    (s.pcie.up = true → s.pcie.linkUp = true → s.pcie.msixEn = false → exec (.msixEnable true fm) s =
      .next ((numsWhere (fun v => (pendingVectors s).contains v) 0 2048).foldl sendMsi
        { s with pcie := { s.pcie with msixEn := true, funcMask := fm, mbUnsent := false } })) ∧
    (s.pcie.up = true → s.pcie.linkUp = true → s.pcie.msixEn = true → exec (.msixEnable true fm) s =
      .next (flushPba { s with pcie := { s.pcie with msixEn := true, funcMask := fm } })) ∧
    (s.pcie.up = true → s.pcie.linkUp = true → exec (.msixEnable false fm) s =
      .next { s with pcie := { s.pcie with msixEn := false, funcMask := fm } }) ∧
    (∀ b, s.pcie.up = false ∨ s.pcie.linkUp = false → exec (.msixEnable b fm) s = .next s) ∧
    (k < 2048 → hostReach s = true → exec (.msixUnmask k) s = .next (flushPba { s with pcie := { s.pcie with
      msix := sput s.pcie.msix k { sget MsixVec.reset s.pcie.msix k with masked := false } } })) ∧
    (2048 ≤ k ∨ hostReach s = false → exec (.msixUnmask k) s = .next s)

/-- PERST# low takes the link down and the endpoint out, but during a drydown; with PERST# high, its clock present and power, the endpoint comes up
from stage 2 with the width and speed its link trains to; losing its clock takes the link down; a hot reset returns its configuration to reset
values; the power state follows its command while the link is up (R507, R525, R545, R579, R581; what PERST# low resets is log entry 58). -/
def Sys2Proof.Machine.claimEndpointEvents : Prop :=
  ∀ (s : State),
    let up := fun (t : State) (w sp : Nat) (f : Bool) => { t with pcie := { t.pcie with
      up := true, linkUp := true, flit := f, width := BitVec.ofNat 4 w, speed := BitVec.ofNat 4 sp } }
    let t := { s with pcie := { s.pcie with perst := true } }
    let high := { s with pcie := { s.pcie with perst := false } }
    let clocked := { s with pcie := { s.pcie with refClk := true } }
    let ready := powered s && decide (2 ≤ s.glob.stage.toNat)
    (s.pwr.st.toNat < 2 → exec .perstAssert s = .next { linkDown t with pcie := { (linkDown t).pcie with up := false } }) ∧
    (2 ≤ s.pwr.st.toNat → exec .perstAssert s = .next t) ∧
    (∀ w sp f, s.pcie.perst = true → exec (.perstRelease w sp f) s =
      .next (if s.pcie.refClk && ready then up high w sp f else high)) ∧
    (∀ w sp f, s.pcie.perst = false → exec (.perstRelease w sp f) s = .next s) ∧
    (exec .pcieRefclkLoss s = .next { linkDown s with pcie := { (linkDown s).pcie with refClk := false } }) ∧
    (∀ w sp f, s.pcie.refClk = false → exec (.pcieRefclkReturn w sp f) s =
      .next (if !s.pcie.perst && ready then up clocked w sp f else clocked)) ∧
    (∀ w sp f, s.pcie.refClk = true → exec (.pcieRefclkReturn w sp f) s = .next s) ∧
    (exec .pcieReset s = .next { s with pcie := { s.pcie with
      dState := 0, cwAp := [], compPend := [], msixEn := false, funcMask := false, msix := [], pba := [] } }) ∧
    (∀ d3 : Bool, s.pcie.linkUp = true → exec (.dStateChange d3) s = .next { s with pcie := { s.pcie with dState := if d3 then 3 else 0 } }) ∧
    (∀ d3 : Bool, s.pcie.linkUp = false → exec (.dStateChange d3) s = .next s)

/-- Input conditions, while the module runs from its input: a sag triggers a drydown, an overvoltage or overcurrent records INPUT_FAULT with its
blotter and triggers one, an input outside 36.0-44.0 V raises INPUT_RANGE; otherwise nothing happens. A trigger captures the critical set, sheds
every partition and takes the link down; without a prepared half, or below 33.0 V of the bank, it is recorded and step 5 is skipped (R486,
R498-R501; the blotter's class, which the spec does not give, is free: log entry 52). -/
def Sys2Proof.Machine.claimInputs : Prop :=
  ∀ (s : State) (a b : Nat),
    let s1 := pwrErr s 0x0B02 0
    let s2 := pwrBlotter (bumpFree s1) (Config.freeNum s1.freeCtr % 65536) 0x0B02 0 0xFF
    (powered s = true →
      exec (.inputSag a b) s = .next (drydown s 1 a b) ∧
      exec (.inputOvervoltage a b) s = .next (drydown s2 2 a b) ∧
      exec (.inputOvercurrent a b) s = .next (drydown s2 3 a b) ∧
      exec (.inputOutOfRange a) s = .next (if 36000 ≤ a ∧ a ≤ 44000 then s else raiseEvt s pgPwr 0)) ∧
    (powered s = false → ∀ r ∈ [Instr.inputSag a b, .inputOvervoltage a b, .inputOvercurrent a b, .inputOutOfRange a], exec r s = .next s) ∧
    (∀ cause,
      let v1 := if s.vial.dryReady then s else vialErr s 0x0D03 3 0
      let v2 := if b < 33000 then pwrErr v1 0x0B04 0 else v1
      let v3 := bumpFree (setPwr v2 { v2.pwr with
        st := 2, dry := some (critSet v2 cause a b), drySkip := !s.vial.dryReady || decide (b < 33000), dryLow := true,
        drydowns := v2.pwr.drydowns + 1, bankMv := BitVec.ofNat 16 b, change := [], railRun := [] })
      drydown s cause a b = accStop (linkDown (shedParts (downPorts s v3))))

/-- DRYDOWN_COMMIT programs the captured set in the target half with the next SEQ, or the skip marker, and the module holds; a block of the half
that fails is retired after mount; without a drydown in progress nothing is programmed (R478-R480, R499, R502). -/
def Sys2Proof.Machine.claimDrydown : Prop :=
  ∀ (s : State) (failed : List Nat),
    (∀ c, s.pwr.st = 2 → s.pwr.dry = some c →
      let v := s.vial
      let x := { c with seq := keptSeq v + 1 }
      let hold := { s.pwr with st := 3 }
      let w := { fillHalf v v.dryTarget with dryReady := false, dryFailed := failed.filter (halfBlocks v v.dryTarget).contains }
      (s.pwr.drySkip = false → v.dryTarget = true → exec (.drydownCommit failed) s = .next { s with vial := { w with halfB := some x }, pwr := hold }) ∧
      (s.pwr.drySkip = false → v.dryTarget = false → exec (.drydownCommit failed) s = .next { s with vial := { w with halfA := some x }, pwr := hold }) ∧
      (s.pwr.drySkip = true →
        exec (.drydownCommit failed) s = .next { s with vial := { v with marker := some (c.cause, keptSeq v) }, pwr := hold })) ∧
    (s.pwr.st ≠ 2 ∨ s.pwr.dry = none → exec (.drydownCommit failed) s = .next s)

/-- The hold-up bank: at 43.0 V or above BANK_OK is set, from a full charge its capacitance is measured, and falling below 43.0 V clears BANK_OK
and, while a partition is ACTIVE, records BANK_LOW; nothing is measured without the input (R496, R497). -/
def Sys2Proof.Machine.claimHoldUpBank : Prop :=
  ∀ (s : State) (mv cap : Nat),
    let p := s.pwr
    let low := { s with pwr := { p with bankOk := false, bankMv := BitVec.ofNat 16 mv } }
    (powered s = true →
      (44000 ≤ mv → exec (.bankCharged mv cap) s = .next { s with pwr := { p with
        bankOk := true, bankMv := BitVec.ofNat 16 mv, bankCap := BitVec.ofNat 14 cap, bankWeak := decide (cap < 900) } }) ∧
      (43000 ≤ mv → mv < 44000 → exec (.bankCharged mv cap) s = .next { s with pwr := { p with bankOk := true, bankMv := BitVec.ofNat 16 mv } }) ∧
      (p.bankOk = true → mv < 43000 → exec (.bankLow mv) s =
        .next (if anyActive s then raiseEvt (pwrErr low 0x0B04 0) pgPwr 3 else low))) ∧
    (powered s = false ∨ mv < 43000 → exec (.bankCharged mv cap) s = .next s) ∧
    (powered s = false ∨ p.bankOk = false ∨ 43000 ≤ mv → exec (.bankLow mv) s = .next s)

/-- Power windows: above the limit both power caps go down a step, at the bottom PWR_CAP is raised once per 10 ms; the tenth window in a row
at or below 90 % of it raises them a step; in between the run of low windows ends (R492). -/
def Sys2Proof.Machine.claimPowerWindows : Prop :=
  ∀ (s : State) (mv ma watts bankMv : Nat),
    let p := windowSensors s.pwr mv ma watts bankMv
    let l := limitWatts s
    let r := Instr.powerWindow mv ma watts bankMv
    let put := fun (q : Pwr) => ({ s with pwr := q } : State)
    (powered s = false → exec r s = .next s) ∧
    (powered s = true → l < watts →
      (p.powerCap.toNat < 2 → exec r s = .next (settleOps (raiseEvt (put { p with
        under := 0, powerCap := p.powerCap + 1, caps := p.caps + 1, bottomAt := some s.time }) pgPwr 1))) ∧
      ((p.bottomAt = none ∨ ∃ t, p.bottomAt = some t ∧ t + 15000000 ≤ s.time) → 2 ≤ p.powerCap.toNat →
        exec r s = .next (settleOps (raiseEvt (put { p with under := 0, bottomAt := some s.time }) pgPwr 1))) ∧
      (∀ t, 2 ≤ p.powerCap.toNat → p.bottomAt = some t → s.time < t + 15000000 → exec r s = .next (settleOps (put { p with under := 0 })))) ∧
    (powered s = true → watts ≤ l →
      (watts * 10 ≤ l * 9 → p.under + 1 < 10 → exec r s = .next (settleOps (put { p with under := p.under + 1 }))) ∧
      (watts * 10 ≤ l * 9 → 10 ≤ p.under + 1 →
        exec r s = .next (settleOps (put { p with under := 0, powerCap := if p.powerCap = 0 then 0 else p.powerCap - 1 }))) ∧
      (l * 9 < watts * 10 → exec r s = .next (settleOps (put { p with under := 0 }))))

/-- Thermal limits: a compute die at 115 degrees, or at 110 at its slowest point, and an I/O die at 110 trip: THERMAL_TRIP is recorded and the
partitions that need the domain go OFF. At 100 the die's thermal cap steps down, at once and each further 1 ms; below 92 for 10 ms it steps up;
between them neither time runs. A tripped domain below 80 degrees may run again; one that is off is not sampled (R488, R495). -/
def Sys2Proof.Machine.claimThermals : Prop :=
  ∀ (s : State) (u t : Nat),
    let seen := { s with pwr := { s.pwr with dieTemp := sput s.pwr.dieTemp u (BitVec.ofNat 8 t) } }
    let q := seen.pwr
    let cap := sget (0 : BitVec 2) q.thermCap u
    let hot := (match q.thermAt.find? (fun e => e.1 == u) with
      | some (_, t0) => decide (t0 + 1500000 ≤ s.time)
      | none => true) && decide (cap.toNat < 2)
    let r := Instr.dieThermalSample u t
    (s.pwr.tripped.contains u = false → unitOn s u = true → powered s = true →
      (u < 2 → 115 ≤ t ∨ 110 ≤ t ∧ opOf s u = 2 → exec r s = .next (tripUnit seen u)) ∧
      (u < 2 → 100 ≤ t → t < 115 → t < 110 ∨ opOf s u ≠ 2 → exec r s = .next (settleOp
        (if hot then raiseEvt (setPwr seen { q with
            coolAt := sdel q.coolAt u, thermCap := sput q.thermCap u (cap + 1), thermAt := sput q.thermAt u s.time, caps := q.caps + 1 }) pgPwr 2
         else setPwr seen { q with coolAt := sdel q.coolAt u }) u)) ∧
      (∀ e t0, u < 2 → t < 92 → q.coolAt.find? (fun e => e.1 == u) = some (e, some t0) → exec r s = .next (settleOp
        (if t0 + 15000000 ≤ s.time then setPwr seen { q with
            thermAt := sdel q.thermAt u, thermCap := sput q.thermCap u (if cap = 0 then 0 else cap - 1), coolAt := sput q.coolAt u (some s.time) }
         else setPwr seen { q with thermAt := sdel q.thermAt u }) u)) ∧
      (u < 2 → t < 92 → (∀ e t0, q.coolAt.find? (fun e => e.1 == u) ≠ some (e, some t0)) → exec r s = .next (settleOp
        (setPwr seen { q with thermAt := sdel q.thermAt u, coolAt := sput q.coolAt u (some s.time) }) u)) ∧
      (u < 2 → 92 ≤ t → t < 100 → exec r s = .next (settleOp (setPwr seen { q with coolAt := sdel q.coolAt u, thermAt := sdel q.thermAt u }) u)) ∧
      (2 ≤ u → 110 ≤ t → exec r s = .next (tripUnit s u)) ∧
      (2 ≤ u → t < 110 → exec r s = .next s)) ∧
    (s.pwr.tripped.contains u = false → unitOn s u = false ∨ powered s = false → exec r s = .next s) ∧
    (s.pwr.tripped.contains u = true → exec r s = .next (if t < 80 then
      powerNew s { s with pwr := { s.pwr with tripped := s.pwr.tripped.filter (· != u) } } else s)) ∧
    (let ps := if u < 2 then hit s (dieParts s u) else []
     let s1 := pwrErr s 0x0B03 0
     let s2 := setPwr s1 { s1.pwr with tripped := s1.pwr.tripped ++ [u], thermAt := sdel s1.pwr.thermAt u, coolAt := sdel s1.pwr.coolAt u }
     tripUnit s u = pwrBlotter (ps.foldl (fun s p => takeOff s p (causeWord 0x0B03 11)) (downPorts s s2)) 11 0x0B03 (partBits ps) 0xFF)

/-- Operating points: OP_CFG is taken and a change to the effective point begins; when it is done the die stands at the new point (R491). Rail
samples: the fifth bad sample in a row of a rail that is on is RAIL_FAULT, which takes its partitions OFF with their domain; a rail without a bad
sample ends its run, and with PMON_EN clear or without the input every run ends (R457, R487). -/
def Sys2Proof.Machine.claimOperatingPoints : Prop :=
  ∀ (s : State),
    (∀ v : W32, regOpen s pgPwr = true → exec (.opCfgWrite v) s = .next (settleOps { s with pwr := { s.pwr with opCfg := BitVec.ofNat 4 v.toNat } })) ∧
    (∀ d e t, s.pwr.change.find? (fun x => x.1 == d) = some (e, t) → exec (.opChangeDone d) s =
      .next (settleOp { s with pwr := { s.pwr with op := sput s.pwr.op d t, change := sdel s.pwr.change d } } d)) ∧
    (∀ d, s.pwr.change.find? (fun x => x.1 == d) = none → exec (.opChangeDone d) s = .next s) ∧
    (∀ bad, bit s.glob.integCfg 1 = false ∨ powered s = false →
      exec (.railMonitorSample bad) s = .next { s with pwr := { s.pwr with railRun := [] } }) ∧
    (∀ bad, bit s.glob.integCfg 1 = true → powered s = true →
      let live := bad.filter (fun r => railLive s r && !s.pwr.dead.contains r)
      let runs := live.foldl (fun m r => sput m r (sget 0 s.pwr.railRun r + 1)) ([] : SMap Nat)
      exec (.railMonitorSample bad) s = .next ((runs.filter (fun e => decide (5 ≤ e.2))).foldl (fun s e => railFault s e.1)
        { s with pwr := { s.pwr with railRun := runs.filter (fun e => decide (e.2 < 5)) } })) ∧
    (∀ r,
      let ps := hit s (railParts s r)
      let s1 := raiseEvt (pwrErr s 0x0B01 r) pgPwr 4
      let s2 := { s1 with pwr := { s1.pwr with
        dead := s1.pwr.dead ++ [r], faultLow := s1.pwr.faultLow || (decide (1 ≤ r) && decide (r ≤ 3)) } }
      railFault s r = pwrBlotter (ps.foldl (fun s p => takeOff s p (causeWord 0x0B01 11)) (downPorts s s2)) 11 0x0B01 (partBits ps) r)

/-- Reference clocks: the Accord's and the links' clocks go and come back; without its clock an I/O die's ports retrain; a die that the module
does not have has none (R4, R578, R579). -/
def Sys2Proof.Machine.claimReferenceClocks : Prop :=
  ∀ (s : State) (x : Nat),
    exec .refClockLoss s = .next { s with accord := { s.accord with refPresent := false } } ∧
    exec .refClockReturn s = .next { s with accord := { s.accord with refPresent := true } } ∧
    (iodPop s x = true →
      exec (.wxlRefclkLoss x) s = .next ((List.range 8).foldl (fun s y => retrain s (8 * x + y)) (setIod s x { iod s x with refClk := false })) ∧
      exec (.wxlRefclkReturn x) s = .next (setIod s x { iod s x with refClk := true })) ∧
    (iodPop s x = false → exec (.wxlRefclkLoss x) s = .next s ∧ exec (.wxlRefclkReturn x) s = .next s)

/-- The Nose runs and the module is powered. -/
def Sys2Proof.Machine.noseUp (s : State) : Bool := powered s && s.nose.mode == 1

/-- The Nose runs or is in RECOVERY, and the module is powered. -/
def Sys2Proof.Machine.nosePowered (s : State) : Prop := (s.nose.mode = 1 ∨ s.nose.mode = 2) ∧ powered s = true

/-- The state in which a Nose restart begins: the mode RESTARTING, the cause and the moment kept, a staging given up. -/
def Sys2Proof.Machine.restarted (s : State) (cause : Nat) : State :=
  { s with nose := { s.nose with mode := 3, restarting := some (cause, false, s.accord.master), update := none } }

/-- What the ROM's start of the image leaves, for a restart in progress: RESTARTS and RESTART_CAUSE written, the image read, verified and
started, or RECOVERY; the alias keys kept when the image is the one they were made for; the event-log entry (R532, R550, R552). -/
def Sys2Proof.Machine.romStarted (s : State) (cause verdict : Nat) (r : VRead) : State :=
  let a := startImage (vialRead { s with nose := { s.nose with restarting := none, restarts := s.nose.restarts + 1, cause := BitVec.ofNat 16 cause } } r 1 0) verdict
  addEvent { a with nose := { a.nose with
    keysReady := a.nose.keysFor == a.vial.map.image.map imageDigest
    cdi1 := match a.nose.uds, a.vial.map.image with
      | some u, some x => some (cdi1Of u x)
      | _, _ => none } } 0xC0000 4 0 cause 0

/-- A lockstep mismatch, and with WDOG_EN the watchdog, restart a Nose that runs or is in RECOVERY, and do nothing else (R456, R530). At the
restart's end the ROM starts the image, records a cause with its blotter, which names the fault's moment, lets the blotters held meanwhile
follow, raises NOSE_RESTARTED (and FW_SWITCHED for FW_ACTIVATE's restart), and ends a mailbox operation: FW_ACTIVATE's own with code 0, any
other with 0x0C03, a module operation's hold with it (R523, R540; log entries 51 and 54 are the model's readings). -/
def Sys2Proof.Machine.claimNoseRestarts : Prop :=
  ∀ (s : State) (verdict : Nat) (r : VRead),
    (nosePowered s →
      exec .noseLockstepMismatch s = .next (restarted s 0x0C01) ∧
      (bit s.glob.integCfg 2 = true → exec .noseWatchdogExpire s = .next (restarted s 0x0C02))) ∧
    (¬ nosePowered s → exec .noseLockstepMismatch s = .next s) ∧
    (¬ nosePowered s ∨ bit s.glob.integCfg 2 = false → exec .noseWatchdogExpire s = .next s) ∧
    (∀ cause asked at_, s.nose.restarting = some (cause, asked, at_) →
      let a := romStarted s cause verdict r
      let b := releaseBlotters (if cause = 0 then a else noseBlotter (noseErr a cause 0) cause at_)
      let done := raiseEvt (if asked = true then raiseEvt (addEvent b 0xC0000 5 0 0 0x54) pgNose 1 else b) pgNose 0
      (done.nose.mb = none → exec (.noseRestartDone verdict r) s = .next done) ∧
      (∀ m, done.nose.mb = some m → exec (.noseRestartDone verdict r) s =
        .next (endModuleOp (mbFinish done m.op (if asked = true ∧ m.op = 0x54 then 0 else 0x0C03) [])))) ∧
    (s.nose.restarting = none → exec (.noseRestartDone verdict r) s = .next s)

/-- A sensor's reading is kept with the highest since mount; a level of Table 23-1 newly reached or left is reported; a sensor of no entry, or
whose domain is off, is not read, and nothing is while the Nose does not run; the Nose's own memory counts a corrected error, and an
uncorrectable one restarts it (R530, R531, R535). -/
def Sys2Proof.Machine.claimNoseSensors : Prop :=
  ∀ (s : State) (id v : Nat),
    (noseUp s = true →
      let l := sensorLevel s id v
      let old := sget 0 s.nose.levels id
      let seen := { s with nose := { s.nose with
        sensors := sput s.nose.sensors id (v, max (sget (v, v) s.nose.sensors id).2 v), levels := sput s.nose.levels id l } }
      (sensorIds.contains id = true → sensorLive s id = true →
        (l = old → exec (.noseSensorPoll [(id, v)] .clean) s = .next seen) ∧
        (l ≠ old → exec (.noseSensorPoll [(id, v)] .clean) s = .next (crossEvent seen id old l v))) ∧
      (sensorIds.contains id = false ∨ sensorLive s id = false → exec (.noseSensorPoll [(id, v)] .clean) s = .next s) ∧
      (∀ rs, let t := rs.foldl (fun t e => readSensor t e.1 e.2) s
        exec (.noseSensorPoll rs .clean) s = .next t ∧
        exec (.noseSensorPoll rs .corrected) s = .next { t with nose := { t.nose with sramCe := t.nose.sramCe + 1 } } ∧
        exec (.noseSensorPoll rs .uncorrectable) s = .next (noseRestart t 0x0C0C false))) ∧
    (noseUp s = false → ∀ rs k, exec (.noseSensorPoll rs k) s = .next s)

/-- The alias keys made for the running image, with which the UDS and K_wrap are locked, and the I3C target's seven-bit dynamic address; a Nose
that does not run makes no keys, nor does one that has them, and a module without power takes no address (R534, R551-R553). -/
def Sys2Proof.Machine.claimNoseKeysAndAddress : Prop :=
  ∀ (s : State) (a : Nat),
    (s.nose.mode = 1 → s.nose.keysReady = false → exec .aliasKeysReady s =
      .next { s with nose := { s.nose with
        keysReady := true, keysFor := s.vial.map.image.map imageDigest, keyLock := true
        cdi1 := match s.nose.uds, s.vial.map.image with
          | some u, some i => some (cdi1Of u i)
          | _, _ => none } }) ∧
    (s.nose.mode ≠ 1 ∨ s.nose.keysReady = true → exec .aliasKeysReady s = .next s) ∧
    (powered s = true → exec (.i3cDynamicAddress a) s = .next { s with nose := { s.nose with i3cAddr := some (a % 128) } }) ∧
    (powered s = false → exec (.i3cDynamicAddress a) s = .next s)

/-- Mount (R469, R479, R504, R544, R549): the counters of the vial start at zero; the map comes from the newest good copy of ANCHOR; DRYDOWN is
mounted; blocks the drydown failed are retired; the keys are derived; records that do not read are forgotten, or get a new pair; and the ROM
starts the image, or enters RECOVERY with FW_IMAGE_REJECTED and the condition that failed. What a restart found (blotters, a mailbox operation)
follows. With no good copy of ANCHOR, out of stage 2, or with the vial mounted, nothing happens (log entry 23 for the first). -/
def Sys2Proof.Machine.claimMount : Prop :=
  ∀ (s : State) (anchors : List Nat) (a b : Bool) (bad worn : List Nat) (verdict : Nat),
    let r := Instr.vialMount anchors a b bad worn verdict
    let z := { s with vial := { s.vial with
      mounted := true, corrected := 0, retries := 0, uncorr := 0, refreshed := 0, patrolAt := none, poweredAt := s.time } }
    (∀ t c, s.glob.stage = 2 → s.vial.mounted = false → mountAnchor z anchors = (t, some c) →
      let y := { t with
        vial := { t.vial with map := c.map, anchorSeq := c.seq }
        nose := { t.nose with sensors := [], levels := [] }
        pwr := { t.pwr with minMv := 0 } }
      let k := deriveKeys (retireFailed (mountDry y a b))
      let d := mendRecords (dropRecords k (bad ++ (if (versionRec k).isNone then [384] else []))) worn
      let n := { d.nose with minVersion := BitVec.ofNat 32 (minVersion d), spdm := [] }
      (∀ i, d.vial.map.image = some i → imageVerdict d verdict = 0 →
        exec r s = .next (mbEnded (releaseBlotters (keysMade { d with
          glob := { d.glob with stage := 5 }
          nose := { n with mode := 1, running := BitVec.ofNat 32 i.version, staged := BitVec.ofNat 32 i.version } })))) ∧
      (imageVerdict d verdict ≠ 0 → exec r s = .next (mbEnded (releaseBlotters
        (recordErr { d with nose := { n with mode := 2 } } pgNose 0x0C0E (imageVerdict d verdict) 0)))) ∧
      (imageVerdict d verdict = 0 → ∃ i, d.vial.map.image = some i)) ∧
    (∀ t, mountAnchor z anchors = (t, none) → exec r s = .next s) ∧
    (s.glob.stage ≠ 2 ∨ s.vial.mounted = true → exec r s = .next s) ∧
    (∀ c, newestAnchor s.vial = some c → c.good = true ∧ c ∈ s.vial.anchor.map (·.2) ∧
      ∀ e ∈ s.vial.anchor, e.2.good = true → e.2.seq ≤ c.seq)

/-- Of two valid critical sets the newer, by SEQ, is the one in force; a set that is torn or does not read is not valid; with no valid set none
is in force; a set in force beside a newer set that is torn or does not read is R481's case (R478, R479, R481). -/
def Sys2Proof.Machine.claimCriticalSets : Prop :=
  ∀ (v : Vial) (ar br : Bool),
    (∀ x y, v.halfA = some x → v.halfB = some y →
      ((x.good && ar) = true → (y.good && br) = true → newestSet v ar br = (some (if x.seq < y.seq then (y, true) else (x, false)), false)) ∧
      ((x.good && ar) = true → (y.good && br) = false → newestSet v ar br = (some (x, false), decide (x.seq < y.seq))) ∧
      ((x.good && ar) = false → (y.good && br) = true → newestSet v ar br = (some (y, true), decide (y.seq < x.seq))) ∧
      ((x.good && ar) = false → (y.good && br) = false → newestSet v ar br = (none, false))) ∧
    (∀ x, v.halfA = some x → v.halfB = none → newestSet v ar br = (if (x.good && ar) = true then (some (x, false), false) else (none, false))) ∧
    (∀ y, v.halfA = none → v.halfB = some y → newestSet v ar br = (if (y.good && br) = true then (some (y, true), false) else (none, false))) ∧
    (v.halfA = none → v.halfB = none → newestSet v ar br = (none, false))

/-- The patrol reads a page of the block whose turn it is: corrections and retries are counted; a block with a page of more than 24 corrected
bits, or that needed a retry, has its data moved; forgotten codewords are recorded, each, and cost what the region says; the last page of the
block written last ends the pass (R468, R472, R473). -/
def Sys2Proof.Machine.claimPatrol : Prop :=
  ∀ (s : State) (b corr worst retry lost w : Nat) (last : Bool),
    let v := s.vial
    let ends := last && (liveBlocks v).all (fun c => !keyLt (patrolKey v b) (patrolKey v c))
    let seen := { s with vial := { v with
      map := { v.map with patrolPasses := if ends then v.map.patrolPasses + 1 else v.map.patrolPasses }
      corrected := v.corrected + BitVec.ofNat 64 corr
      retries := v.retries + BitVec.ofNat 64 retry
      patrolAt := if ends then none else some (patrolKey v b) } }
    let after := if lost = 0 then seen else loseAt (forgotMany seen (vblock v b).region (lunOf b) lost) b lost w
    let r := Instr.vialPatrol b corr worst retry lost w last
    (vialIdle s = true → b < 16384 → (vblock v b).live = true → patrolTurn v b = true →
      (24 < worst ∨ retry ≠ 0 → (vblock after.vial b).live = true →
        exec r s = .next (moveBlock { after with vial := { after.vial with refreshed := after.vial.refreshed + 1 } } b false)) ∧
      ((worst ≤ 24 ∧ retry = 0) ∨ (vblock after.vial b).live = false → exec r s = .next (if ends then anchorWrite after else after))) ∧
    (vialIdle s = false ∨ 16384 ≤ b ∨ (vblock v b).live = false ∨ patrolTurn v b = false → exec r s = .next s)

/-- What forgotten codewords of a block cost, by region (Table 20-6): ANCHOR the copy; IMAGE a rebuilt block, or with two the image; a record of
CONFIG a new pair; DRYDOWN the set; the log the slot; STORE the bytes, which are free from then on; SPARE nothing (R468; log entry 23). -/
def Sys2Proof.Machine.claimForgotten : Prop :=
  ∀ (s : State) (b n w : Nat),
    let v := s.vial
    let x := vblock v b
    (x.region = 0 → loseAt s b n w = { s with vial := { v with anchor := smapIf v.anchor (fun k => k == x.unit) (fun c => { c with good := false }) } }) ∧
    (x.region = 1 → loseAt s b n w = (if 2 ≤ n then { s with vial := { v with map := { v.map with image := none } } } else moveBlock s b false)) ∧
    (∀ e, x.region = 2 → w ≠ 384 → v.records.find? (fun e => e.1 == w) = some e → loseAt s b n w = writeRec s (w / 64) (w % 64) e.2.payload) ∧
    (x.region = 2 → v.records.find? (fun e => e.1 == w) = none → loseAt s b n w = s) ∧
    (x.region = 3 → loseAt s b n w = { s with vial := spoilHalf v (decide (16 ≤ x.unit)) }) ∧
    (x.region = 4 → loseAt s b n w =
      { s with vial := { v with logPages := sput v.logPages b ((pagesOf v b).map (fun l => l.filter (fun e => e.seq != w))) } }) ∧
    (x.region = 5 → loseAt s b n w = bumpFree { s with vial := { v with
      flash := loseRange v.flash (b * 2 ^ 22 + w * 1024) (n * 1024) s.freeCtr } }) ∧
    (5 < x.region → loseAt s b n w = s)

/-- Wear levelling moves the least-erased data of a region into its least-erased free block of more erases, when erase counts differ by more
than 2,000, and else does nothing (R470). Garbage collection moves the units still live in a block that holds places no map entry names, then
erases the block, or retires it where the erase fails; any other block it leaves (R469, R471). -/
def Sys2Proof.Machine.claimWear : Prop :=
  ∀ (s : State) (r b : Nat) (failed : Bool),
    let v := s.vial
    let l := regionBlocks v r
    let hi := l.foldl (fun a b => max a (vblock v b).erases) 0
    let more := fun b => leastErased v (l.filter (fun c => blockFree v c && decide ((vblock v b).erases < (vblock v c).erases)))
    (∀ c, vialIdle s = true → r < 6 → leastErased v (l.filter (fun b => (vblock v b).live)) = some b → more b = some c →
      (2000 < hi - (vblock v b).erases → exec (.vialWearLevel r) s = .next (anchorWrite { s with vial := placeBlock v b c })) ∧
      (hi - (vblock v b).erases ≤ 2000 → exec (.vialWearLevel r) s = .next s)) ∧
    (leastErased v (l.filter (fun b => (vblock v b).live)) = some b → more b = none → exec (.vialWearLevel r) s = .next s) ∧
    (vialIdle s = false ∨ 6 ≤ r ∨ leastErased v (l.filter (fun b => (vblock v b).live)) = none → exec (.vialWearLevel r) s = .next s) ∧
    (let t := (unitsIn v b).foldl (fun t u => storeUnit t u (unitBytes t.vial u)) s
     vialIdle s = true → b < 16384 → reclaimable v b = true →
      ((unitsIn t.vial b).isEmpty = true → failed = false → exec (.garbageCollection b failed) s = .next (eraseBlock t b)) ∧
      ((unitsIn t.vial b).isEmpty = true → failed = true → exec (.garbageCollection b failed) s =
        .next (anchorWrite { t with vial := retireBlock (putBlock t.vial b { vblock t.vial b with live := false }) b })) ∧
      ((unitsIn t.vial b).isEmpty = false → exec (.garbageCollection b failed) s = .next t)) ∧
    (vialIdle s = false ∨ 16384 ≤ b ∨ reclaimable v b = false → exec (.garbageCollection b failed) s = .next s)

/-- The blotter log takes a page once the Nose holds eight blotters, or 50 ms after the oldest, and nothing before or while the vial is not free;
a block of the log takes 256 pages, a page whose program fails goes to another block, and with no free block the oldest block is erased, its
blotters counted as overwritten (R482). -/
def Sys2Proof.Machine.claimBlotterLog : Prop :=
  ∀ (s : State) (failed : Bool),
    let l := logPage s (s.nose.unlogged.take 8) failed
    let put := fun (t : State) (b : Nat) (page : List Blotter) => anchorWrite { t with vial := { t.vial with
      map := { t.vial.map with blotWritten := t.vial.map.blotWritten + BitVec.ofNat 64 page.length }
      logPages := sput t.vial.logPages b (pagesOf t.vial b ++ [page]) } }
    (vialIdle s = true → s.nose.unlogged ≠ [] → 8 ≤ s.nose.unlogged.length ∨ s.nose.loggedAt + 75000000 ≤ s.time →
      exec (.blotterLogProgram failed) s = .next { l with nose := { l.nose with unlogged := l.nose.unlogged.drop 8, loggedAt := s.time } }) ∧
    (vialIdle s = false ∨ s.nose.unlogged = [] ∨ (s.nose.unlogged.length < 8 ∧ s.time < s.nose.loggedAt + 75000000) →
      exec (.blotterLogProgram failed) s = .next s) ∧
    (∀ page b, (logList s.vial).getLast? = some b → (pagesOf s.vial b).length < 256 →
      logPage s page false = put s b page ∧
      (∀ c, (logList (moveBlock s b true).vial).getLast? = some c → logPage s page true = put (moveBlock s b true) c page)) ∧
    (∀ page b c, (logList s.vial).getLast? = some b → 256 ≤ (pagesOf s.vial b).length → (logList (openLog s).vial).getLast? = some c →
      logPage s page false = put (openLog s) c page) ∧
    (∀ b rest, logList s.vial = b :: rest → dropOldest s =
      eraseBlock { s with vial := { s.vial with map := { s.vial.map with
        blotOver := s.vial.map.blotOver + BitVec.ofNat 64 (pagesOf s.vial b).flatten.length } } } b)

/-- POWER_UP from a module without power leaves every register at its reset value, keeping what the vial stores, the memory's bytes, the pins and
the clocks, with the ACC PLL started at stage 2; the endpoint comes up when PERST# is high and the PCIe reference runs; a module that has power
does nothing (R544, R545, R579, R581; log entries 3 and 29 for what is kept). -/
def Sys2Proof.Machine.claimPowerUp : Prop :=
  ∀ (s : State) (w sp : Nat) (f : Bool),
    let t := stage2 (afresh s)
    (s.glob.stage = 0 →
      (t.pcie.perst = false → t.pcie.refClk = true → powered t = true → 2 ≤ t.glob.stage.toNat →
        exec (.powerUp w sp f) s = .next { t with pcie := { t.pcie with
          up := true, linkUp := true, flit := f, width := BitVec.ofNat 4 w, speed := BitVec.ofNat 4 sp } }) ∧
      (t.pcie.perst = true ∨ t.pcie.refClk = false ∨ powered t = false ∨ t.glob.stage.toNat < 2 → exec (.powerUp w sp f) s = .next t)) ∧
    (s.glob.stage ≠ 0 → exec (.powerUp w sp f) s = .next s) ∧
    afresh s = { State.reset with
      variant := s.variant, time := s.time, freeCtr := s.freeCtr, pending := s.pending, out := s.out, mem := s.mem,
      pcie := { Pcie.reset with perst := s.pcie.perst, refClk := s.pcie.refClk }, iods := clocksOnly s
      vial := { s.vial with mounted := false, roRegions := 0, dryValid := false, dryTarget := false, dryReady := false, lowSpares := false }
      accord := { Accord.reset with refPresent := s.accord.refPresent } }

/-- Boot stages 5 to 8: on the warm path the stored calibration stands and only a changed map is recorded, on the cold path the records are
made anew; more than 64 bad cores of either kind, or an untrainable stack, keep the module short of READY with the code recorded, its blotter
issued and the clock stopped; out of stage 5, or without the Nose, nothing happens (R544, R546-R548). -/
def Sys2Proof.Machine.claimBoot : Prop :=
  ∀ (s : State) (ms : Nat) (dis : List Nat) (nar : List (Nat × Nat)) (rows : List W32) (bad : List Nat),
    let r := Instr.bootReady ms dis nar rows bad
    let marked := { s with glob := { s.glob with scan := !mapUsable s.vial, cold := !warmPath s } }
    let m := mapPayload dis nar rows
    let kept := if warmPath s then marked else coldRecords marked
    let stored := if mapUsable kept.vial && ((cfgRec kept.vial 1 0).map (·.payload)).getD [] == m then kept else writeRec kept 1 0 m
    let short := fun code =>
      let e := globErr { stored with glob := { stored.glob with stage := 6, failCode := BitVec.ofNat 16 code } } code
      accStop { issueBlotter e (blank 9 code 1 5 0) with pwr := { e.pwr with st := 0 } }
    (s.glob.stage = 5 → s.nose.mode = 1 → powered s = true →
      (dis.length ≤ 64 → nar.length ≤ 64 → bad.any (sitePop s) = false →
        exec r s = .next (settlePower (raiseEvt { stored with glob := { stored.glob with
          stage := 8, ready := true, bootMs := BitVec.ofNat 32 ms, disabled := dis, narrowed := nar, mapRows := rows } } pgGlob 2))) ∧
      (64 < dis.length ∨ 64 < nar.length → exec r s = .next (short 0x010C)) ∧
      (dis.length ≤ 64 → nar.length ≤ 64 → bad.any (sitePop s) = true → exec r s = .next (short 0x010D))) ∧
    (s.glob.stage ≠ 5 ∨ s.nose.mode ≠ 1 ∨ powered s = false → exec r s = .next s)

/-- INPUT_RESTORE restarts a held module from stage 2 with the Accord counter, the time and the hold-up bank's measurements kept; after an
over-current the input must have fallen first; a module that is not held does nothing (R503). Below the bank's cut-off only what the vial
stores remains, a half being written torn; a module that is in no drydown does nothing (R478, R503). -/
def Sys2Proof.Machine.claimRestore : Prop :=
  ∀ (s : State) (fell : Bool) (w sp : Nat) (f : Bool),
    let a := afresh s
    let t := stage2 { a with
      accord := accKeep s.accord
      faults := { a.faults with utcBase := s.faults.utcBase }
      pwr := { a.pwr with accKept := true, bankWeak := s.pwr.bankWeak, bankCap := s.pwr.bankCap, bankMv := s.pwr.bankMv,
                          drydowns := s.pwr.drydowns, faultLow := s.pwr.faultLow } }
    (s.pwr.st = 3 → fell = true ∨ (∀ c, s.pwr.dry = some c → c.cause ≠ 3) →
      exec (.inputRestore fell w sp f) s = .next (endpointUp t w sp f)) ∧
    (∀ c, s.pwr.dry = some c → c.cause = 3 → exec (.inputRestore false w sp f) s = .next s) ∧
    (s.pwr.st ≠ 3 → exec (.inputRestore fell w sp f) s = .next s) ∧
    (s.pwr.st.toNat < 2 → exec .bankCutoff s = .next s) ∧
    (s.pwr.st = 3 → exec .bankCutoff s = .next (afresh s)) ∧
    (s.pwr.st = 2 → s.pwr.dry = none ∨ s.pwr.drySkip = true → exec .bankCutoff s = .next (afresh s)) ∧
    (∀ c, s.pwr.st = 2 → s.pwr.dry = some c → s.pwr.drySkip = false →
      let torn := some { c with seq := keptSeq s.vial + 1, good := false }
      let v := fillHalf s.vial s.vial.dryTarget
      exec .bankCutoff s = .next (afresh { s with vial := if v.dryTarget then { v with halfB := torn } else { v with halfA := torn } }))

/-- The mailbox carries operation op with argument arg and req request bytes, and the Nose is at work on it. -/
def Sys2Proof.Machine.mbHolds (s : State) (op arg req : Nat) : Bool :=
  decide (s.nose.mb = some { op := op, arg := arg, req := req, result := none }) && s.nose.restarting.isNone && powered s

/-- The operation in the mailbox has its response: code and bytes. -/
def Sys2Proof.Machine.mbGives (s : State) (op arg req code : Nat) (resp : List Byte) : State :=
  { s with nose := { s.nose with mb := some { op := op, arg := arg, req := req, result := some (code, resp) } } }

/-- Row i is the one by which the Nose carries out operation op (Table 23-3), whatever the row's operands. -/
def Sys2Proof.Machine.mbRow (op : Nat) (i : Instr) : Prop :=
  ∃ (r : VRead) (failed pass : Bool) (dis : List Nat) (nar : List (Nat × Nat)) (verdict : Nat), (op, i) ∈
  [(0x01, Instr.getInfo), (0x02, .setTime), (0x10, .readEvents), (0x11, .readBlotters r), (0x20, .stageWrite), (0x21, .stageRead), (0x30, .storeRead r),
   (0x31, .storeWrite failed), (0x40, .calibrate), (0x41, .retrainHbm), (0x42, .recalPorts), (0x43, .selftest pass dis nar failed), (0x50, .fwBegin),
   (0x51, .fwData failed), (0x52, .fwCommit verdict r), (0x53, .fwAbort), (0x54, .fwActivate), (0x60, .setMinVersion), (0x70, .readSensors),
   (0xF0, .recoveryLoad verdict)]

/-- Starts and ends (R521-R524, R536, R541): a start that a busy mailbox, or one not served, ignores; that completes at once, in this order, with
0x0C04 past 1 MiB, 0x0C0D in RECOVERY but for RECOVERY_LOAD, 0x0C05 for an opcode of no operation, 0x0C06 for arguments that do not fit, 0x0C10 for
a module operation on a partition not QUIESCED or OFF; and that otherwise puts the operation in the mailbox, held for a module operation. An
operation with its response completes: response, length, CODE and DONE written, MB_COMPLETED counted, vector 0 sent, a code other than 0 recorded;
one without, or while the Nose restarts, does not. A row of an operation that the mailbox does not hold does nothing (log entry 24). -/
def Sys2Proof.Machine.claimMailbox : Prop :=
  ∀ (s : State),
    let op := s.nose.mbOpcode.toNat
    let req := s.nose.mbReqLen.toNat
    let arg := s.nose.mbArg.toNat
    let cleared := { s with nose := { s.nose with mbDone := false } }
    (mbOpcodes.contains op = true → exec .unlistedMailboxOpcode s = .next s) ∧
    (mbOpcodes.contains op = false →
      (mbBusy s = true ∨ mbServes s = false → exec .unlistedMailboxOpcode s = .next s) ∧
      (mbBusy s = false → mbServes s = true →
        (req ≤ 1048576 → s.nose.mode ≠ 2 → exec .unlistedMailboxOpcode s = .next (mbFinish cleared op 0x0C05 [])) ∧
        (req ≤ 1048576 → s.nose.mode = 2 → exec .unlistedMailboxOpcode s = .next (mbFinish cleared op 0x0C0D [])) ∧
        (1048576 < req → exec .unlistedMailboxOpcode s = .next (mbFinish cleared op 0x0C04 [])))) ∧
    (mbBusy s = true ∨ mbServes s = false → mbStart s = s) ∧
    (mbBusy s = false → mbServes s = true →
      (1048576 < req → mbStart s = mbFinish cleared op 0x0C04 []) ∧
      (req ≤ 1048576 → s.nose.mode = 2 →
        (op ≠ 0xF0 → mbStart s = mbFinish cleared op 0x0C0D []) ∧
        (op = 0xF0 → mbArgOk s op arg req = false → mbStart s = mbFinish cleared op 0x0C06 [])) ∧
      (req ≤ 1048576 → s.nose.mode ≠ 2 →
        (mbOpcodes.contains op = false ∨ op = 0xF0 → mbStart s = mbFinish cleared op 0x0C05 []) ∧
        (mbOpcodes.contains op = true → op ≠ 0xF0 → mbArgOk s op arg req = false → mbStart s = mbFinish cleared op 0x0C06 []) ∧
        (mbOpcodes.contains op = true → op ≠ 0xF0 → mbArgOk s op arg req = true → isModuleOp op = true → (opParts s op arg).all (partStill s) = false →
          mbStart s = mbFinish cleared op 0x0C10 [])) ∧
      (req ≤ 1048576 → (s.nose.mode = 2 ∧ op = 0xF0) ∨ (s.nose.mode ≠ 2 ∧ mbOpcodes.contains op = true ∧ op ≠ 0xF0) → mbArgOk s op arg req = true →
        (isModuleOp op = false ∨ (opParts s op arg).all (partStill s) = true) →
        mbStart s = { cleared with
          nose := { cleared.nose with mb := some { op := op, arg := arg, req := req, result := none } }
          glob := if isModuleOp op = true then
              { s.glob with moduleOp := BitVec.ofNat 16 op, moduleOpParts := BitVec.ofNat 4 (partBits (opParts s op arg)) }
            else s.glob })) ∧
    (∀ m code resp, s.nose.mb = some m → m.result = some (code, resp) → s.nose.restarting = none →
      exec .mailboxComplete s = .next (endModuleOp (mbFinish s m.op code resp))) ∧
    (s.nose.mb = none ∨ s.nose.restarting ≠ none ∨ (∃ m, s.nose.mb = some m ∧ m.result = none) → exec .mailboxComplete s = .next s) ∧
    (∀ op code resp,
      let written := { s with nose := { s.nose with
        window := writeBytes s.nose.window 0 resp, mbRespLen := BitVec.ofNat 21 resp.length, mbCode := BitVec.ofNat 16 code, mbDone := true,
        mb := none, mbCompleted := s.nose.mbCompleted + 1 } }
      let logged := addEvent written 0xC0000 3 0 code op
      let told := if s.pcie.msixEn then sendMsi logged 0 else { logged with pcie := { logged.pcie with mbUnsent := true } }
      mbFinish s op code resp = if code = 0 then told else recordErr told pgNose code 0 0) ∧
    (∀ op i, mbRow op i → (∀ arg req, mbHolds s op arg req = false) → exec i s = .next s)

/-- GET_INFO, SET_TIME, READ_EVENTS, READ_BLOTTERS and READ_SENSORS (R468, R482, R531-R533, R536): a slot that no longer reads is recorded as
forgotten and skipped. The last 16 bytes of GET_INFO's response and the value of a sensor not read since mount are free (log entry 24). -/
def Sys2Proof.Machine.claimMailboxReads : Prop :=
  ∀ (s : State) (arg req : Nat),
    (mbHolds s 0x01 arg req = true → exec .getInfo s = .next (bumpFree (mbGives s 0x01 arg req 0
      (toBytes 4 s.nose.running.toNat ++ toBytes 4 s.nose.staged.toNat ++ toBytes 4 s.nose.minVersion.toNat ++ toBytes 4 (noseState s)
        ++ deviceId.drop 16 ++ openBytes s.freeCtr 16)))) ∧
    (mbHolds s 0x02 arg req = true → exec .setTime s =
      .next (mbGives { s with faults := { s.faults with utcBase := some (arg, s.accord.master) } } 0x02 arg req 0 [])) ∧
    (mbHolds s 0x10 arg req = true → exec .readEvents s = .next (mbGives s 0x10 arg req 0
      (((s.nose.events.filter (fun e => decide (arg ≤ e.seq))).take 16384).flatMap eventBytes))) ∧
    (∀ r, mbHolds s 0x11 arg req = true →
      let lost := r.lost.filter (fun q => (vialLog s.vial).any (fun b => b.seq == q))
      let t := vialRead s { r with lost := lost } 4 0
      let u := { t with vial := { t.vial with logPages := t.vial.logPages.map (fun e => (e.1, e.2.map (fun l => l.filter (fun b => !lost.contains b.seq)))) } }
      exec (.readBlotters r) s = .next (mbResult u 0
        ((((vialLog u.vial ++ u.nose.unlogged).filter (fun b => decide (arg ≤ b.seq))).take 512).flatMap blotterBytes))) ∧
    (mbHolds s 0x70 arg req = true → exec .readSensors s = .next (bumpFree (mbGives s 0x70 arg req 0
      (sensorIds.flatMap (fun id =>
        let v := if sensorLive s id then sget (Config.freeNum (s.freeCtr + id), Config.freeNum (s.freeCtr + id)) s.nose.sensors id else (0xFFFFFFFF, 0xFFFFFFFF)
        toBytes 4 v.1 ++ toBytes 4 v.2))))) ∧
    (∀ r region lun, vialRead s r region lun = forgotMany { s with vial := { s.vial with
      corrected := s.vial.corrected + BitVec.ofNat 64 r.corr, retries := s.vial.retries + BitVec.ofNat 64 r.retry } } region lun r.lost.length) ∧
    (∀ region lun, forgot s region lun = raiseEvt (recordErr { s with vial := { s.vial with uncorr := s.vial.uncorr + 1 } }
      pgVial 0x0D01 (region + lun * 16) 0) pgVial 1)

/-- STAGE_WRITE and STAGE_READ on the drydown buffer, the latter also on the restored header, which with nothing restored gives no bytes (log
entry 56); STORE_READ and STORE_WRITE in units of 256 KiB: a forgotten codeword's bytes are free from then on, a write under the reserve is refused
with VIAL_WORN, a block whose program fails is retired first, and the units go to new places (R468, R469, R471, R483, R501, R504, R536). -/
def Sys2Proof.Machine.claimStorage : Prop :=
  ∀ (s : State) (arg req : Nat),
    let data := readBytes s.nose.window 0 req
    let put := fun (t : State) => mbResult ((List.range (req / 2 ^ 18)).foldl (fun t i => storeUnit t (arg + i) ((data.drop (i * 2 ^ 18)).take (2 ^ 18))) t) 0 []
    (mbHolds s 0x20 arg req = true → exec .stageWrite s =
      .next (mbGives { s with nose := { s.nose with buffer := writeBytes s.nose.buffer arg data } } 0x20 arg req 0 [])) ∧
    (mbHolds s 0x21 arg req = true →
      (arg < 2 ^ 63 → exec .stageRead s =
        .next (mbGives s 0x21 arg req 0 (readBytes s.nose.buffer (arg % 2 ^ 32) (min mib (bufferLen - arg % 2 ^ 32))))) ∧
      (∀ c, 2 ^ 63 ≤ arg → s.nose.restored = some c → exec .stageRead s =
        .next (mbGives s 0x21 arg req 0 (((critHeader c).drop (arg % 2 ^ 32)).take mib))) ∧
      (2 ^ 63 ≤ arg → s.nose.restored = none → exec .stageRead s = .next (mbGives s 0x21 arg req 0 []))) ∧
    (∀ r, mbHolds s 0x30 arg req = true →
      let us := (List.range (min 4 (196608 - arg))).map (· + arg)
      let lost := r.lost.filter (fun w => us.contains (w / 256) && s.vial.map.place.any (fun e => e.1 == w / 256))
      let t := lost.foldl loseWord (vialRead s { r with lost := lost } 5 0)
      exec (.storeRead r) s = .next (mbResult t 0 (us.flatMap (unitBytes t.vial)))) ∧
    (∀ failed, mbHolds s 0x31 arg req = true → storeWritable s.vial = false →
      exec (.storeWrite failed) s = .next (mbResult (vialErr s 0x0D02 5 0) 0x0D02 [])) ∧
    (mbHolds s 0x31 arg req = true → storeWritable s.vial = true →
      exec (.storeWrite false) s = .next (put s) ∧
      (s.vial.map.openBlock = none → exec (.storeWrite true) s = .next (put s)) ∧
      (∀ b k, s.vial.map.openBlock = some (b, k) →
        let t := moveBlock s b true
        exec (.storeWrite true) s = .next (put { t with vial := { t.vial with map := { t.vial.map with openBlock := none } } }))) ∧
    (∀ w u b k, s.vial.map.place.find? (fun e => e.1 == w / 256) = some (u, b, k) → loseWord s w = bumpFree { s with vial := { s.vial with
      flash := loseRange s.vial.flash (b * 2 ^ 22 + k * 2 ^ 18 + w % 256 * 1024) 1024 s.freeCtr } }) ∧
    (∀ u b k, s.vial.map.place.find? (fun e => e.1 == u) = some (u, b, k) →
      unitBytes s.vial u = readBytes s.vial.flash (b * 2 ^ 22 + k * 2 ^ 18) (2 ^ 18)) ∧
    (∀ u, s.vial.map.place.find? (fun e => e.1 == u) = none → unitBytes s.vial u = List.replicate (2 ^ 18) 0)

/-- A unit of STORE goes to the next place of the block being filled, a new block where that is full or there is none, and the map, with its next
copy in ANCHOR, names it there; a block that the map then names no longer awaits its erase; with no block left the region becomes read-only
(R466, R469, R483). -/
def Sys2Proof.Machine.claimStoreUnit : Prop :=
  ∀ (s : State) (u : Nat) (bs : List Byte),
    (∀ b k, s.vial.map.openBlock = some (b, k) → k < 16 → storeOpen s.vial = (some (b, k), s.vial)) ∧
    (s.vial.map.openBlock = none ∨ (∃ b k, s.vial.map.openBlock = some (b, k) ∧ 16 ≤ k) →
      storeOpen s.vial = ((takeBlock s.vial 5).1.map (fun b => (b, 0)), (takeBlock s.vial 5).2)) ∧
    (∀ v, storeOpen s.vial = (none, v) → storeUnit s u bs = wornRegion { s with vial := v } 5 0) ∧
    (∀ b k v, storeOpen s.vial = (some (b, k), v) →
      let v1 := { v with map := { v.map with
        blocks := sput v.map.blocks b { vblock v b with live := true, born := if k = 0 then v.map.births else (vblock v b).born }
        place := sput v.map.place u (b, k)
        openBlock := some (b, k + 1)
        births := if k = 0 then v.map.births + 1 else v.map.births } }
      let put := fun (w : Vial) => anchorWrite { s with vial := { w with flash := writeBytes w.flash (b * 2 ^ 22 + k * 2 ^ 18) bs } }
      (v.map.place.find? (fun e => e.1 == u) = none → storeUnit s u bs = put v1) ∧
      (∀ x o j, v.map.place.find? (fun e => e.1 == u) = some (x, o, j) →
        (o ≠ b → (unitsIn v1 o).isEmpty = true → storeUnit s u bs = put (putBlock v1 o { vblock v1 o with live := false, stale := true })) ∧
        (o = b ∨ (unitsIn v1 o).isEmpty = false → storeUnit s u bs = put v1)))

/-- An operation on quiesced partitions, with no partition's work ended by a reset. -/
def Sys2Proof.Machine.opWhole (s : State) (op arg : Nat) : Bool := !(opParts s op arg).any (opLost s)

/-- A partition whose part of the operation in progress no reset has ended. -/
def Sys2Proof.Machine.opKept (s : State) (o : Option Nat) : Bool := o.any (fun p => !opLost s p)

/-- CALIBRATE records rail trims and clocks, RETRAIN_HBM the named stacks' training, RECAL_PORTS puts the named ports that are up into
training, SELFTEST leaves the contents of the partition's stacks undefined and answers with the result; an operation of which a reset ended
some partition's work does only the others' and completes in error, with a code the spec does not give (R436-R438, R537; log entries 24, 51, 56). -/
def Sys2Proof.Machine.claimModuleOps : Prop :=
  ∀ (s : State) (arg req : Nat),
    let op := fun (k : Nat) => ({ op := k, arg := arg, req := req, result := none } : MbOp)
    (mbHolds s 0x40 arg req = true →
      (opWhole s 0x40 arg = true → exec .calibrate s = .next (mbGives (writeRec (writeRec s 4 0 []) 5 0 []) 0x40 arg req 0 [])) ∧
      (opWhole s 0x40 arg = false → exec .calibrate s =
        .next (bumpFree (mbGives s 0x40 arg req (1 + Config.freeNum s.freeCtr % 65535) [])))) ∧
    (mbHolds s 0x41 arg req = true →
      let is := (sites s).filter (fun i => Nat.testBit arg i && opKept s (partOfSite s i))
      exec .retrainHbm s = .next (opEnd (is.foldl (fun s i => writeRec s 3 i []) s) (op 0x41) [])) ∧
    (mbHolds s 0x42 arg req = true →
      let ps := (List.range 32).filter (fun i => Nat.testBit arg i && portUp s i && opKept s (portOwner s i))
      let t := ps.foldl (fun s i => modPort s i (fun p => { clearLink p s.time with st := .training, lanes := 0, width := 0, peer := 0 })) s
      exec .recalPorts s = .next (opEnd t (op 0x42) [])) ∧
    (∀ pass dis nar diff, mbHolds s 0x43 arg req = true →
      let t := { s with mem := loseRange s.mem (hbmBase s arg * gib64) (hbmSize s arg * gib64) s.freeCtr, freeCtr := s.freeCtr + 2 }
      exec (.selftest pass dis nar diff) s = .next (opEnd t (op 0x43)
        (toBytes 1 (b2n pass) ++ openBytes (s.freeCtr + 1) 1 ++ toBytes 2 dis.length ++ toBytes 2 nar.length
          ++ toBytes 1 (b2n (mapDiffers s arg dis nar || diff)) ++ (openBytes (s.freeCtr + 1) 58).drop 1))) ∧
    (∀ m resp,
      (opWhole s m.op m.arg = true → opEnd s m resp = mbResult s 0 resp) ∧
      (opWhole s m.op m.arg = false → opEnd s m resp = bumpFree (mbResult s (1 + Config.freeNum s.freeCtr % 65535) [])))

/-- Firmware update by the mailbox (R471, R538-R540, R543, R549): FW_BEGIN takes blocks or fails, and is refused while another path's update is
in progress; FW_DATA takes the next bytes in order, another block where one fails, and drops the staging otherwise; FW_COMMIT verifies a whole
image and names it, or drops it, BAD_VERSION apart from the rest; FW_ABORT drops the mailbox's own staging; FW_ACTIVATE restarts the Nose into
the image. -/
def Sys2Proof.Machine.claimFirmware : Prop :=
  ∀ (s : State) (arg req : Nat),
    let data := readBytes s.nose.window 0 req
    (mbHolds s 0x50 arg req = true →
      (otherPath s 1 = true → exec .fwBegin s = .next (mbGives s 0x50 arg req 0x0C0A [])) ∧
      (otherPath s 1 = false → beginUpdate (dropStaging s) 1 arg = none →
        exec .fwBegin s = .next (mbResult (updateStep (dropStaging s) 0x50 0x0C0B) 0x0C0B [])) ∧
      (∀ t, otherPath s 1 = false → beginUpdate (dropStaging s) 1 arg = some t →
        exec .fwBegin s = .next (mbResult (updateStep t 0x50 0) 0 []))) ∧
    (mbHolds s 0x51 arg req = true → ∀ failed,
      (s.nose.update = none ∨ (∃ u, s.nose.update = some u ∧ u.path ≠ 1) →
        exec (.fwData failed) s = .next (mbResult (updateStep s 0x51 0x0C07) 0x0C07 [])) ∧
      (∀ u, s.nose.update = some u → u.path = 1 →
        (arg ≠ u.done → exec (.fwData failed) s = .next (mbResult (updateStep { s with nose := { s.nose with update := none } } 0x51 0x0C07) 0x0C07 [])) ∧
        (arg = u.done → failed = false ∨ u.blocks = [] → exec (.fwData failed) s = .next (mbResult (updateStep { s with nose := { s.nose with
          update := some { u with done := arg + data.length, bytes := writeBytes u.bytes arg data } } } 0x51 0) 0 [])) ∧
        (arg = u.done → failed = true → u.blocks ≠ [] →
          let b := nth u.blocks (imageBlocks u.done - 1)
          let v := retireBlock s.vial b
          let t := anchorWrite { s with vial := v }
          let other := (unnamedBlocks v).find? (fun c => !u.blocks.contains c)
          (∀ c, other = some c → exec (.fwData failed) s = .next (mbResult (updateStep { t with nose := { t.nose with
            update := some { u with blocks := u.blocks.map (fun x => if x = b then c else x), done := arg + data.length, bytes := writeBytes u.bytes arg data } } }
            0x51 0) 0 [])) ∧
          (other = none → exec (.fwData failed) s = .next (mbResult (updateStep { s with nose := { s.nose with update := none } } 0x51 0x0C0B) 0x0C0B []))))) ∧
    (mbHolds s 0x52 arg req = true → ∀ verdict r,
      let t := vialRead s r 1 0
      let bad := fun (x : State) => Host.Outcome.next (mbResult (updateStep x 0x52 0x0C07) 0x0C07 [])
      (s.nose.update = none → exec (.fwCommit verdict r) s = bad s) ∧
      (s.nose.update ≠ none → t.nose.update = none → exec (.fwCommit verdict r) s = bad t) ∧
      (∀ u, s.nose.update ≠ none → t.nose.update = some u →
        (u.path ≠ 1 ∨ u.done ≠ u.len → exec (.fwCommit verdict r) s = bad t) ∧
        (u.path = 1 → u.done = u.len →
          (stagedVerdict t u verdict = 0 → exec (.fwCommit verdict r) s = .next (mbResult (updateStep (switchImage t u) 0x52 0) 0 [])) ∧
          (stagedVerdict t u verdict = 5 →
            exec (.fwCommit verdict r) s = .next (mbResult (updateStep (noseErr (dropStaging t) 0x0C0E 5) 0x52 0x0C09) 0x0C09 [])) ∧
          (∀ c, stagedVerdict t u verdict = c → c ≠ 0 → c ≠ 5 →
            exec (.fwCommit verdict r) s = .next (mbResult (updateStep (noseErr (dropStaging t) 0x0C0E c) 0x52 0x0C08) 0x0C08 []))))) ∧
    (mbHolds s 0x53 arg req = true →
      (otherPath s 1 = false → exec .fwAbort s = .next (mbResult { s with nose := { s.nose with update := none } } 0 [])) ∧
      (otherPath s 1 = true → exec .fwAbort s = .next (mbGives s 0x53 arg req 0 []))) ∧
    (mbHolds s 0x54 arg req = true →
      (s.nose.mode = 1 ∨ s.nose.mode = 2 →
        exec .fwActivate s = .next { s with nose := { s.nose with mode := 3, restarting := some (0, true, s.accord.master), update := none } }) ∧
      (s.nose.mode ≠ 1 → s.nose.mode ≠ 2 → exec .fwActivate s = .next s))

/-- A commit's switch: the map names the new image's blocks and the old one's await their erase, in one write of ANCHOR; STAGED is the version;
the image's condition of R549 that fails first is found in Table 24-3's order (R539, R549; log entry 24 for conditions 2 to 4). -/
def Sys2Proof.Machine.claimImageChecks : Prop :=
  ∀ (s : State) (u : Update) (verdict : Nat),
    let i := stagedImage u
    let form := readLe u.bytes 0 4 = 0x5A465750 ∧ 32768 + readLe u.bytes 64 4 ≤ i.len ∧ i.len ≤ 96 * mib
    (¬ form → stagedVerdict s u verdict = 1) ∧
    (form → 2 ≤ verdict → verdict ≤ 4 → stagedVerdict s u verdict = verdict) ∧
    (form → ¬ (2 ≤ verdict ∧ verdict ≤ 4) → stagedVerdict s u verdict = if i.version < minVersion s then 5 else 0) ∧
    (switchImage s u).nose.update = none ∧ (switchImage s u).nose.staged = BitVec.ofNat 32 i.version

/-- SET_MIN_VERSION records the version, with the MAC that K_min keys, unless it is below the one in force, which is recorded and refused;
RECOVERY_LOAD takes pieces in order from offset 0, drops the staging otherwise, and with the last of them verifies the image and, when it passes,
boots it (R477, R538, R541, R551). -/
def Sys2Proof.Machine.claimVersionsAndRecovery : Prop :=
  ∀ (s : State) (arg req : Nat),
    (mbHolds s 0x60 arg req = true →
      (arg < minVersion s → exec .setMinVersion s = .next (mbResult (vialErr s 0x0D05 2 0) 0x0D05 [])) ∧
      (minVersion s ≤ arg →
        let t := writeRec s 6 0 (toBytes 4 arg ++ toBytes 12 0 ++ versionMac (s.nose.kMin.getD []) (nextGen s.vial 6 0) arg)
        exec .setMinVersion s = .next (mbGives { t with nose := { t.nose with minVersion := BitVec.ofNat 32 arg } } 0x60 arg req 0 []))) ∧
    (mbHolds s 0xF0 arg req = true → ∀ verdict,
      let o := arg % 2 ^ 48
      let data := readBytes s.nose.window 0 req
      (recoveryUpdate s o = none → exec (.recoveryLoad verdict) s = .next (mbResult (updateStep (dropStaging s) 0xF0 0x0C07) 0x0C07 [])) ∧
      (∀ u, recoveryUpdate s o = some u → arg < 2 ^ 63 →
        exec (.recoveryLoad verdict) s = .next (mbResult (updateStep (stageBytes s u o data) 0xF0 0) 0 [])) ∧
      (∀ u, recoveryUpdate s o = some u → 2 ^ 63 ≤ arg →
        let w := { u with done := o + data.length, bytes := writeBytes u.bytes o data }
        let t := stageBytes s u o data
        (stagedVerdict t w verdict = 0 → exec (.recoveryLoad verdict) s = .next (bootLoaded (mbResult (updateStep (switchImage t w) 0xF0 0) 0 []))) ∧
        (stagedVerdict t w verdict = 5 → exec (.recoveryLoad verdict) s =
          .next (mbResult (updateStep (noseErr (dropStaging t) 0x0C0E 5) 0xF0 0x0C09) 0x0C09 [])) ∧
        (∀ c, stagedVerdict t w verdict = c → c ≠ 0 → c ≠ 5 → exec (.recoveryLoad verdict) s =
          .next (mbResult (updateStep (noseErr (dropStaging t) 0x0C0E c) 0xF0 0x0C08) 0x0C08 [])))) ∧
    recoveryUpdate s 0 = some { path := 3, len := 0, done := 0, bytes := { cells := [], holes := [] }, blocks := (unnamedBlocks s.vial).take (imageBlocks (96 * mib)) } ∧
    (∀ o u, o ≠ 0 → s.nose.update = some u → recoveryUpdate s o = if u.path = 3 ∧ u.done = o then some u else none) ∧
    (∀ o, o ≠ 0 → s.nose.update = none → recoveryUpdate s o = none)

/-- MCTP control requests on a binding that is up are answered to the requester: Set Endpoint ID takes 8 to 254, Get Endpoint ID answers it,
Get Endpoint UUID the module's identity, Get MCTP Version Support a version that is free, Get Message Type Support control, PLDM and SPDM; other
commands are not served, and on a binding that is down nothing is (R534). The places of fields inside the messages are those of the DMTF
specifications (log entry 25). -/
def Sys2Proof.Machine.claimMctp : Prop :=
  ∀ (s : State) (b eid tag cmd : Nat) (data : List Byte),
    let ans := fun (t : State) (bytes : List Byte) => mctpOut t b eid 0 (toBytes 1 (tag % 32) ++ toBytes 1 cmd ++ bytes)
    let e := leAt data 1 1
    let r := Instr.mctpControl b eid tag cmd data
    (bindingUp s b = true →
      (cmd = 1 → 8 ≤ e → e ≤ 254 → exec r s = .next (ans { s with nose := { s.nose with eids := sput s.nose.eids b (BitVec.ofNat 8 e) } }
        (toBytes 1 0 ++ toBytes 1 0 ++ toBytes 1 e ++ toBytes 1 0))) ∧
      (cmd = 1 → e < 8 ∨ 254 < e → exec r s = .next (ans s (toBytes 1 2))) ∧
      (cmd = 2 → exec r s = .next (ans s (toBytes 1 0 ++ [sget 0 s.nose.eids b] ++ toBytes 2 0))) ∧
      (cmd = 3 → exec r s = .next (ans s (toBytes 1 0 ++ deviceId.take 16))) ∧
      (cmd = 4 → exec r s = .next (ans (bumpFree s) (toBytes 1 0 ++ toBytes 1 1 ++ openBytes s.freeCtr 4))) ∧
      (cmd = 5 → exec r s = .next (ans s (toBytes 1 0 ++ toBytes 1 4 ++ toBytes 1 0 ++ toBytes 1 1 ++ toBytes 1 5 ++ toBytes 1 6))) ∧
      (cmd = 0 ∨ 5 < cmd → exec r s = .next (ans s (toBytes 1 5)))) ∧
    (bindingUp s b = false → exec r s = .next s)

/-- PLDM on a binding that is up: discovery sets and answers the terminus ID, and answers the types and commands served; the FRU record gives the
part number (R2); another type is unsupported. GetSensorReading answers a sensor's last value with the level it stands at, that it is unavailable, or
that there is none; SetEventReceiver names the endpoint that platform events go to, or none (R2, R535; log entry 25 for the places in messages). -/
def Sys2Proof.Machine.claimPldm : Prop :=
  ∀ (s : State) (b eid tag : Nat),
    (bindingUp s b = true →
      (∀ cmd data,
        let r := Instr.pldmDiscovery b eid tag 0 cmd data
        (cmd = 1 → exec r s = .next (pldmOut { s with nose := { s.nose with tid := BitVec.ofNat 8 (leAt data 0 1) } } b eid tag 0 1 (toBytes 1 0))) ∧
        (cmd = 2 → exec r s = .next (pldmOut s b eid tag 0 2 (toBytes 1 0 ++ [s.nose.tid]))) ∧
        (cmd = 3 → exec r s = .next (pldmOut (bumpFree s) b eid tag 0 3 (toBytes 1 0 ++ toBytes 4 0 ++ toBytes 1 5 ++ openBytes s.freeCtr 8))) ∧
        (cmd = 4 → exec r s = .next (pldmOut s b eid tag 0 4 (toBytes 1 0 ++ toBytes 8 0x25))) ∧
        (cmd = 5 → exec r s = .next (pldmOut s b eid tag 0 5 (toBytes 1 0 ++ toBytes 32 (pldmCommands (leAt data 0 1))))) ∧
        (cmd = 0 ∨ 5 < cmd → exec r s = .next (pldmOut s b eid tag 0 cmd (toBytes 1 5)))) ∧
      (∀ cmd data,
        let r := Instr.pldmDiscovery b eid tag 4 cmd data
        let rec_ := fruRecord s.variant
        (cmd = 1 → exec r s = .next (bumpFree (pldmOut s b eid tag 4 1 (toBytes 1 0 ++ toBytes 1 1 ++ toBytes 1 0 ++ toBytes 4 1024 ++
          toBytes 4 rec_.length ++ toBytes 2 1 ++ toBytes 2 1 ++ openBytes s.freeCtr 4)))) ∧
        (cmd = 2 → exec r s = .next (bumpFree (pldmOut s b eid tag 4 2 (toBytes 1 0 ++ toBytes 4 0 ++ toBytes 1 5 ++ rec_ ++ openBytes s.freeCtr 4)))) ∧
        (cmd = 0 ∨ 2 < cmd → exec r s = .next (bumpFree (pldmOut s b eid tag 4 cmd (toBytes 1 5)))) ∧
        rec_.drop 7 = partNumber s.variant) ∧
      (∀ ty cmd data, ty ≠ 0 → ty ≠ 4 → exec (.pldmDiscovery b eid tag ty cmd data) s = .next (pldmOut s b eid tag ty cmd (toBytes 1 0x20))) ∧
      (∀ id, sensorIds.contains id = true → sensorLive s id = true →
        let l := toBytes 1 (levelState (sget 0 s.nose.levels id))
        exec (.pldmSensorRead b eid tag id) s = .next (bumpFree (pldmOut s b eid tag 2 0x11
          (toBytes 1 0 ++ toBytes 1 4 ++ toBytes 1 0 ++ toBytes 1 1 ++ l ++ l ++ l ++ toBytes 4 (sget (Config.freeNum s.freeCtr, 0) s.nose.sensors id).1)))) ∧
      (∀ id, sensorIds.contains id = true → sensorLive s id = false → exec (.pldmSensorRead b eid tag id) s =
        .next (bumpFree (pldmOut s b eid tag 2 0x11 (toBytes 1 0 ++ toBytes 1 4 ++ toBytes 1 3 ++ toBytes 1 0 ++ toBytes 3 0 ++ toBytes 4 0)))) ∧
      (∀ id, sensorIds.contains id = false → exec (.pldmSensorRead b eid tag id) s = .next (bumpFree (pldmOut s b eid tag 2 0x11 (toBytes 1 0x80)))) ∧
      (∀ on r, exec (.pldmSetEventReceiver b eid tag on r) s =
        .next (pldmOut { s with nose := { s.nose with receiver := if on then some (b, r) else none } } b eid tag 2 4 (toBytes 1 0)))) ∧
    (bindingUp s b = false → ∀ ty cmd data id on r,
      exec (.pldmDiscovery b eid tag ty cmd data) s = .next s ∧ exec (.pldmSensorRead b eid tag id) s = .next s ∧
      exec (.pldmSetEventReceiver b eid tag on r) s = .next s)

/-- A PLDM firmware update begins unless one is in progress, its length is out of range or no blocks are found, and its image is verified and
committed with the Nose restarting into it, or discarded; without an update on the path, or with a part of the image only, activation is refused
(R535, R539, R540). The completion codes of failures are free (log entry 25). -/
def Sys2Proof.Machine.claimPldmUpdate : Prop :=
  ∀ (s : State) (b eid tag : Nat),
    let free := toBytes 1 (1 + Config.freeNum s.freeCtr % 255)
    (bindingUp s b = true →
      (∀ len, s.nose.update ≠ none → exec (.pldmRequestUpdate b eid tag len) s = .next (pldmOut s b eid tag 5 0x10 (toBytes 1 0x81))) ∧
      (∀ len, s.nose.update = none → len < 1048576 ∨ 100663296 < len →
        exec (.pldmRequestUpdate b eid tag len) s = .next (pldmOut s b eid tag 5 0x10 (toBytes 1 2))) ∧
      (∀ len t, s.nose.update = none → 1048576 ≤ len → len ≤ 100663296 → beginUpdate s 2 len = some t →
        exec (.pldmRequestUpdate b eid tag len) s = .next (pldmOut (updateStep t 0x10 0) b eid tag 5 0x10 (toBytes 1 0 ++ toBytes 2 0 ++ toBytes 1 0))) ∧
      (∀ len, s.nose.update = none → 1048576 ≤ len → len ≤ 100663296 → beginUpdate s 2 len = none →
        exec (.pldmRequestUpdate b eid tag len) s = .next (pldmOut (bumpFree (updateStep s 0x10 0x0C0B)) b eid tag 5 0x10 free)) ∧
      (∀ image verdict, s.nose.update = none ∨ (∃ u, s.nose.update = some u ∧ (u.path ≠ 2 ∨ image.length ≠ u.len)) →
        exec (.pldmActivateFirmware b eid tag image verdict) s = .next (pldmOut (bumpFree s) b eid tag 5 0x1A free)) ∧
      (∀ u image verdict, s.nose.update = some u → u.path = 2 → image.length = u.len →
        let w := { u with done := u.len, bytes := writeBytes u.bytes 0 image }
        let no := fun (c code : Nat) => pldmOut (bumpFree (updateStep (noseErr (dropStaging s) 0x0C0E c) 0x1A code)) b eid tag 5 0x1A free
        (stagedVerdict s w verdict = 0 → exec (.pldmActivateFirmware b eid tag image verdict) s =
          .next (noseRestart (pldmOut (updateStep (switchImage s w) 0x1A 0) b eid tag 5 0x1A (toBytes 1 0 ++ toBytes 2 0)) 0 true)) ∧
        (stagedVerdict s w verdict = 5 → exec (.pldmActivateFirmware b eid tag image verdict) s = .next (no 5 0x0C09)) ∧
        (∀ c, stagedVerdict s w verdict = c → c ≠ 0 → c ≠ 5 → exec (.pldmActivateFirmware b eid tag image verdict) s = .next (no c 0x0C08)))) ∧
    (bindingUp s b = false → ∀ len image verdict,
      exec (.pldmRequestUpdate b eid tag len) s = .next s ∧ exec (.pldmActivateFirmware b eid tag image verdict) s = .next s)

/-- DOE discovery names the instance's three protocols in turn: discovery, CMA/SPDM, secured CMA/SPDM, and none past them; it answers while the
Nose serves and the link is up (R507; log entry 25 for the places in the message). -/
def Sys2Proof.Machine.claimDoe : Prop :=
  ∀ (s : State) (k : Nat),
    let say := fun (bytes : List Byte) =>
      { s with out := s.out ++ [.mgmt 0 (toBytes 2 1 ++ toBytes 2 0 ++ toBytes 4 3 ++ bytes)] }
    (manageServes s = true → s.pcie.linkUp = true →
      (k = 0 → exec (.doeDiscovery k) s = .next (say (toBytes 2 1 ++ toBytes 1 0 ++ toBytes 1 1))) ∧
      (k = 1 → exec (.doeDiscovery k) s = .next (say (toBytes 2 1 ++ toBytes 1 1 ++ toBytes 1 2))) ∧
      (k = 2 → exec (.doeDiscovery k) s = .next (say (toBytes 2 1 ++ toBytes 1 2 ++ toBytes 1 0))) ∧
      (3 ≤ k → exec (.doeDiscovery k) s = .next (say (toBytes 2 0xFFFF ++ toBytes 2 0)))) ∧
    (manageServes s = false ∨ s.pcie.linkUp = false → exec (.doeDiscovery k) s = .next s)

/-- A request can be served on a transport: the Nose runs, the transport is up and the alias keys are ready. -/
def Sys2Proof.Machine.spdmServed (s : State) (t : Nat) : Bool := spdmUp s t && s.nose.keysReady

/-- Requests past GET_CAPABILITIES, with what a connection must have reached for each to be in its turn (R553, R554). -/
def Sys2Proof.Machine.spdmRow (t e : Nat) (turn : Spdm → Bool) (i : Instr) : Prop :=
  ∃ (slot len index op tag : Nat) (k : Bool), (turn, i) ∈
  [(fun c => c.caps, Instr.spdmNegotiateAlgorithms t e), (fun c => c.algs, .spdmGetDigests t e), (fun c => c.algs, .spdmGetCertificate t e slot len),
   (fun c => c.algs, .spdmChallenge t e slot), (fun c => c.algs, .spdmGetMeasurements t e index k),
   (fun c => c.algs && !c.session, .spdmKeyExchange t e), (fun c => c.handshake, .spdmFinish t e k), (fun c => c.session, .spdmHeartbeat t e),
   (fun c => c.session, .spdmKeyUpdate t e op tag), (fun c => c.session, .spdmEndSession t e)]

/-- An SPDM connection: GET_VERSION begins it anew with versions 1.0 to 1.3, GET_CAPABILITIES fixes the version with CTExponent 21, and
NEGOTIATE_ALGORITHMS the algorithms; until the alias keys are ready later requests are answered ResponseNotReady, and one out of turn
UnexpectedRequest; on a transport that is down nothing is answered (R553, R554). The places of fields inside the messages, and each request's turn,
are those of DSP0274 (log entry 25). -/
def Sys2Proof.Machine.claimSpdmConnection : Prop :=
  ∀ (s : State) (t e : Nat),
    (spdmUp s t = true →
      exec (.spdmGetVersion t e) s = .next (spdmOut (setConn s t Spdm.reset) t e
        (spdmHead 0x10 0x04 0 0 ++ toBytes 1 0 ++ toBytes 1 4 ++ toBytes 2 0x1000 ++ toBytes 2 0x1100 ++ toBytes 2 0x1200 ++ toBytes 2 0x1300)) ∧
      (∀ v, 0x10 ≤ v → v ≤ 0x13 → exec (.spdmGetCapabilities t e v) s = .next (spdmOut (setConn s t { Spdm.reset with version := v, caps := true }) t e
        (spdmHead v 0x61 0 0 ++ toBytes 1 0 ++ toBytes 1 21 ++ toBytes 2 0 ++ toBytes 4 0x62D6 ++ (if 0x12 ≤ v then openBytes s.freeCtr 8 else [])))) ∧
      (∀ v, v < 0x10 ∨ 0x13 < v → exec (.spdmGetCapabilities t e v) s = .next (spdmError s t e 0x41)) ∧
      (∀ turn i, spdmRow t e turn i →
        (s.nose.keysReady = false → exec i s = .next (spdmError s t e 0x42)) ∧
        (s.nose.keysReady = true → turn (conn s t) = false → exec i s = .next (spdmError s t e 4))) ∧
      (s.nose.keysReady = true → (conn s t).caps = true → exec (.spdmNegotiateAlgorithms t e) s =
        .next (spdmOut (setConn s t { conn s t with algs := true }) t e
          (spdmHead (conn s t).version 0x63 2 0 ++ toBytes 2 44 ++ toBytes 1 1 ++ toBytes 1 0 ++ toBytes 4 4 ++ toBytes 4 8 ++ toBytes 4 2 ++ toBytes 12 0
            ++ toBytes 4 0 ++ toBytes 1 2 ++ toBytes 1 0x20 ++ toBytes 2 0x10 ++ toBytes 1 3 ++ toBytes 1 0x20 ++ toBytes 2 2)))) ∧
    (spdmUp s t = false →
      exec (.spdmGetVersion t e) s = .next s ∧ (∀ v, exec (.spdmGetCapabilities t e v) s = .next s) ∧ ∀ turn i, spdmRow t e turn i → exec i s = .next s)

/-- Attestation: digests and certificates of slots 0 and 1, challenges signed under slot 0 only, and the measurement blocks of Table 24-6: one by its
index, their number for index 0, all for index 0xFF, with block 0xF0 only in a signed response to that; another index is refused (R552-R555).
Digests, chains, nonces and signatures are free. -/
def Sys2Proof.Machine.claimAttestation : Prop :=
  ∀ (s : State) (t e : Nat), spdmServed s t = true → (conn s t).algs = true →
    let v := (conn s t).version
    exec (.spdmGetDigests t e) s = .next (spdmOut s t e (spdmHead v 0x01 3 3 ++ openBytes s.freeCtr 96)) ∧
    (∀ slot len, slot < 2 → exec (.spdmGetCertificate t e slot len) s = .next (spdmOut s t e
      (spdmHead v 0x02 slot 0 ++ toBytes 2 (min len 1024) ++ toBytes 2 (Config.freeNum s.freeCtr) ++ openBytes s.freeCtr (min len 1024)))) ∧
    (∀ slot len, 2 ≤ slot → exec (.spdmGetCertificate t e slot len) s = .next (spdmError s t e 1)) ∧
    exec (.spdmChallenge t e 0) s = .next (spdmOut s t e
      (spdmHead v 0x03 0 1 ++ openBytes s.freeCtr 128 ++ toBytes 2 0 ++ openBytes (s.freeCtr + 1) 384)) ∧
    (∀ slot, slot ≠ 0 → exec (.spdmChallenge t e slot) s = .next (spdmError s t e 1)) ∧
    (∀ index signed, index = 0 ∨ measSelect s index signed ≠ [] → exec (.spdmGetMeasurements t e index signed) s =
      let r := (measSelect s index signed).flatten
      .next (bumpFree (bumpFree (bumpFree (spdmOut s t e (spdmHead v 0x60 (if index = 0 then 6 else 0) 0 ++ toBytes 1 (measSelect s index signed).length
        ++ toBytes 3 r.length ++ r ++ openBytes (s.freeCtr + 3) 32 ++ toBytes 2 0 ++ (if signed then openBytes (s.freeCtr + 4) 384 else []))))))) ∧
    (∀ index signed, index ≠ 0 → measSelect s index signed = [] → exec (.spdmGetMeasurements t e index signed) s = .next (spdmError s t e 1)) ∧
    (let k := s.freeCtr
     let b1 := measBlock k 1 false (keyBytes (Config.sha ((List.range 48).map Config.romLayer)))
     let b2 := measBlock k 2 false (s.nose.keysFor.getD [])
     let b3 := measBlock k 3 true (toBytes 4 s.nose.running.toNat ++ toBytes 4 s.nose.minVersion.toNat ++ toBytes 4 s.nose.staged.toNat)
     let b4 := measBlock k 4 true (toBytes 4 (siteMap s) ++ toBytes 4 (coreSummary s) ++ keyBytes (Config.sha (mapInForce s)))
     let b5 := measBlock k 5 true (toBytes 4 (noseState s))
     ∀ signed,
      measSelect s 1 signed = [b1] ∧ measSelect s 2 signed = [b2] ∧ measSelect s 3 signed = [b3] ∧ measSelect s 4 signed = [b4] ∧
      measSelect s 5 signed = [b5] ∧
      measSelect s 0xFF signed = [b1, b2, b3, b4, b5] ++ (if signed then [measBlock k 0xF0 true (openBytes (k + 2) 16224)] else []) ∧
      ∀ index, index = 0 ∨ 5 < index → index ≠ 0xFF → measSelect s index signed = [])

/-- A secured session: KEY_EXCHANGE begins its handshake, FINISH with good verify data establishes it and otherwise ends the handshake,
HEARTBEAT and KEY_UPDATE are answered in it, the latter refused for an operation that is none, and END_SESSION ends it (R553, R554). -/
def Sys2Proof.Machine.claimSessions : Prop :=
  ∀ (s : State) (t e : Nat), spdmServed s t = true →
    let c := conn s t
    (c.algs = true → c.session = false → exec (.spdmKeyExchange t e) s =
      .next (spdmOut (setConn s t { c with handshake := true }) t e (spdmHead c.version 0x64 0 0 ++ openBytes s.freeCtr 614))) ∧
    (c.handshake = true →
      exec (.spdmFinish t e true) s = .next (spdmOut (setConn s t { c with handshake := false, session := true, updates := 0 }) t e (spdmHead c.version 0x65 0 0)) ∧
      exec (.spdmFinish t e false) s = .next (spdmError (setConn s t { c with handshake := false }) t e 6)) ∧
    (c.session = true →
      exec (.spdmHeartbeat t e) s = .next (spdmOut s t e (spdmHead c.version 0x68 0 0)) ∧
      (∀ op tag, 1 ≤ op → op ≤ 3 → exec (.spdmKeyUpdate t e op tag) s =
        .next (spdmOut (setConn s t { c with updates := if op < 3 then c.updates + 1 else c.updates }) t e (spdmHead c.version 0x69 op tag))) ∧
      (∀ op tag, op = 0 ∨ 3 < op → exec (.spdmKeyUpdate t e op tag) s = .next (spdmError s t e 1)) ∧
      exec (.spdmEndSession t e) s = .next (setConn (spdmOut s t e (spdmHead c.version 0x6C 0 0)) t { c with session := false }))

/-- What a core met as it issued that ends in a partition reset: an uncorrectable error, or a sequencer that disagrees (R443, R451). -/
def Sys2Proof.Machine.metResets : Met → Bool
  | .spadUncorrectable | .accUncorrectable | .seqFault => true
  | .clean | .spadCorrected | .accCorrected => false

/-- The commands some form of which stores to memory or leaves contents of it undefined, by its own effect or by a reset it can end in. -/
def Sys2Proof.Machine.mayStore : Instr → Bool
  | .nop _ m => metResets m
  | .add _ m => metResets m
  | .sub _ m => metResets m
  | .mul _ m => metResets m
  | .and _ m => metResets m
  | .or _ m => metResets m
  | .xor _ m => metResets m
  | .shl _ m => metResets m
  | .shr _ m => metResets m
  | .sar _ m => metResets m
  | .slt _ m => metResets m
  | .sltu _ m => metResets m
  | .lui _ m => metResets m
  | .rdcnt _ m => metResets m
  | .rdacc _ m => metResets m
  | .rdcap _ m => metResets m
  | .br _ m => metResets m
  | .beqz _ m => metResets m
  | .bnez _ m => metResets m
  | .endProg _ m => metResets m
  | .hset _ m => metResets m
  | .hrel _ m => metResets m
  | .wait _ m => metResets m
  | .signal _ m => metResets m
  | .cset _ m => metResets m
  | .tset _ m => metResets m
  | .launchAt _ m => metResets m
  | .ufence _ m => metResets m
  | .mmaD _ m => metResets m
  | .mmaS _ m => metResets m
  | .mmaA _ m => metResets m
  | .moveL _ m => metResets m
  | .moveS _ m => metResets m
  | .moveX _ m => metResets m
  | .vadd _ m => metResets m
  | .vsub _ m => metResets m
  | .vmul _ m => metResets m
  | .vfma _ m => metResets m
  | .vmin _ m => metResets m
  | .vmax _ m => metResets m
  | .vabs _ m => metResets m
  | .vcmp _ m => metResets m
  | .vsel _ m => metResets m
  | .vcvt _ m => metResets m
  | .vdiv _ m => metResets m
  | .vsqrt _ m => metResets m
  | .vrcp _ m => metResets m
  | .vrsq _ m => metResets m
  | .vexp2 _ m => metResets m
  | .vlog2 _ m => metResets m
  | .vrsum _ m => metResets m
  | .vbcast _ m => metResets m
  | .vld _ m => metResets m
  | .vst _ m => metResets m
  | .vlda _ m => metResets m
  | .vsta _ m => metResets m
  | .vmovg _ m => metResets m
  | .moveR .. | .mmaDTileWrite .. | .mmaAPart .. | .mergeTileWrite .. | .vectorResult .. | .moveComplete .. | .programLoadDone ..
  | .counterWaitMet .. | .counterIncrement .. | .remoteWriteLand .. | .coreCmdStop .. | .coreCmdReset .. | .wakeComplete ..
  | .doorbellWrite .. | .tileRun .. | .update .. | .combine .. | .test .. | .testComplete .. | .dispatch .. | .fenceRecord .. | .waitCount ..
  | .launchAtRecord .. | .signalAdd .. | .seqWrite .. | .seTranspose .. | .signPack .. | .topkPack .. | .reduce .. | .ckptPush ..
  | .ckptPull .. | .ctrSet .. | .linkEngineMove .. | .seCommandComplete .. | .recordComplete .. | .recordFailed .. | .qBindEnable ..
  | .qBindDisable .. | .qBindSkip .. | .queueConfigWrite .. | .reducePass .. | .sillageResume .. | .reducePassDone .. | .scrubCodeword ..
  | .ctrDataWrite .. | .hbmRead .. | .hbmWrite .. | .hbmReduceStore .. | .hbmTempSample .. | .dispatchMessage .. | .endMarkMessage ..
  | .roundOpenAfterDrain .. | .returnMessage .. | .dropMessage .. | .atomCancel .. | .portCmdRetrain .. | .portCmdSaveEq .. | .writeMessage ..
  | .readDataMessage .. | .contribMessage .. | .ackMessage .. | .refuseMessage .. | .streamResendTimeout .. | .trackerEntryAvailable ..
  | .rtDataAccess .. | .grpSettle .. | .grpReshard .. | .grpAbort .. | .grpCfgWrite .. | .layoutDataWrite .. | .dupCfgWrite ..
  | .partResetComplete .. | .railMonitorSample .. | .noseRestartDone .. | .powerUp .. | .inputSag .. | .inputOvervoltage ..
  | .inputOvercurrent .. | .inputRestore .. | .bankCutoff | .dieThermalSample .. | .opCfgWrite .. | .msixUnmask .. | .partInit ..
  | .partInitDone .. | .partActivate .. | .partActivateResume .. | .partQuiesce .. | .partOff .. | .partModeWrite .. | .portOwnerWrite ..
  | .partModuleIdWrite .. | .hbmPlacementWrite .. | .expTableWrite .. | .sillageWrite .. | .registerWrite .. | .evtPendClear .. | .evtForce ..
  | .evtEnWrite .. | .errClear .. | .pageLockWrite .. | .mergeCtrlClear .. | .compPendClear .. | .cwApWrite .. | .cmdWindowWrite ..
  | .hostResetPartition .. | .hostResetModule | .mailboxComplete | .selftest .. | .selfRefreshExitComplete .. | .reservedOpclassRecord .. => true
  | _ => false

/-- A step takes the command at the front of the queue and is exec of it on the state with the rest of the queue. -/
def Obligations.StepRunsTheFrontCommand : Prop :=
  ∀ (c : Instr) (rest : List Instr) (s : State), step { s with pending := c :: rest } = exec c { s with pending := rest }

/-- On an empty queue one tick passes (log entry 4, a choice of the model): the module's time goes on, records that could start grow older, cores
whose array or merge engine works count activity, and the master counts: in fine mode every tick, at each REF edge 60 past the edge before; a
switch of mode that waits takes place at the edge and raises MODE (R269, R277, R278, R448). -/
def Obligations.TickOnAnEmptyQueue : Prop :=
  ∀ (s : State), s.pending = [] →
    let a := s.accord
    let u : State := { s with time := s.time + 1, cores := s.cores.map (fun (e : Nat × Core) => if coreActive e.2 then (e.1, { e.2 with activity := e.2.activity + 1 }) else e) }
    let m := a.edge + 60
    (a.phase + 1 < 60 → a.fine = true → a.holding = false →
      step s = .next (ageQueues { u with accord := { a with phase := a.phase + 1, master := a.master + 1 } })) ∧
    (a.phase + 1 < 60 → a.fine = false ∨ a.holding = true → step s = .next (ageQueues { u with accord := { a with phase := a.phase + 1 } })) ∧
    (60 ≤ a.phase + 1 → a.toCoarse = false → a.fine = true ∨ a.toFine = false ∨ a.pllLock = false →
      step s = .next (ageQueues { u with accord := { a with phase := 0, master := m, edge := m } })) ∧
    (60 ≤ a.phase + 1 → a.toCoarse = true → step s = .next (ageQueues (raiseEvt { u with accord :=
      { a with phase := 0, master := m, edge := m, fine := false, holding := false, toCoarse := false } } pgAcc 1))) ∧
    (60 ≤ a.phase + 1 → a.toCoarse = false → a.fine = false → a.toFine = true → a.pllLock = true →
      step s = .next (ageQueues (raiseEvt { u with accord := { a with phase := 0, master := m, edge := m, fine := true, toFine := false } } pgAcc 1)))

/-- What reset leaves, where the spec gives the value: no command waits (log entry 4), every partition OFF with no cause and no reset counted, READY 0,
every common header 0, nothing listed in memory and its form canonical, every enabled core ASLEEP with no program and no instruction in flight, every
queue disabled and empty, every group DISABLED, the Accord counter 0 in coarse mode, the endpoint and the ports down, no mailbox operation, the vial
not mounted (R18, R21, R249, R277, R378, R383, R521, R544). -/
def Obligations.ResetLeavesTheSpecsState : Prop :=
  let s := State.reset
  s.mem.wf = true ∧ s.pending = [] ∧ s.mem.cells = [] ∧ s.mem.holes = [] ∧ s.glob.ready = false ∧ s.glob.stage = 0 ∧ s.accord.master = 0 ∧ s.accord.fine = false ∧
    s.pcie.linkUp = false ∧ s.pcie.msixEn = false ∧ s.nose.mb = none ∧ s.vial.mounted = false ∧
    ∀ n, (part s n).state = .off ∧ (part s n).resets = 0 ∧ (part s n).resetCause = 0 ∧ hdr s n = Hdr.reset ∧ (core s n).state = .asleep ∧ (core s n).progLen = 0 ∧
      (core s n).flights = [] ∧ qOn (queue s n) = false ∧ (queue s n).head = 0 ∧ (queue s n).tail = 0 ∧ (group s n).st = 0 ∧ (port s n).st = .down ∧
      (port s n).lanes = 0

/-- Every step keeps memory in its canonical form: addresses rising, no listed byte equal to what an unlisted address reads as. -/
def Obligations.MemoryKeepsItsForm : Prop :=
  ∀ (s t : State), s.mem.wf = true → step s = .next t → t.mem.wf = true

/-- No command touches the queue of waiting commands or the variant. -/
def Sys2Proof.Machine.claimQueueFrame : Prop :=
  ∀ (c : Instr) (s t : State), exec c s = .next t → t.pending = s.pending ∧ t.variant = s.variant

/-- A command that is not among those that may store leaves every byte of memory as it was. -/
def Obligations.OtherCommandsKeepMemory : Prop :=
  ∀ (c : Instr) (s t : State), mayStore c = false → exec c s = .next t → ∀ a, readByte t.mem a = readByte s.mem a

/-- Every command answers a next state. -/
def Sys2Proof.Machine.claimAllAnswer : Prop :=
  ∀ (c : Instr) (s : State), ∃ t, exec c s = .next t

/-- Every NaN that a conversion or operation yields is the canonical NaN of its type: a result word that reads as NaN is that one word, NaN
values carry no sign or payload, and a NaN operand, infinity minus infinity and zero times infinity give it (R47, R48). -/
def Obligations.CanonicalNans : Prop :=
  (∀ v : FVal, (dec32 (enc32 v) = .nan ↔ v = .nan) ∧ (dec16b (enc16b v) = .nan ↔ v = .nan) ∧ (dec16h (enc16h v) = .nan ↔ v = .nan) ∧
    (decE5M2 (encE5M2 v) = .nan ↔ v = .nan) ∧ (decE4M3 (encE4M3 v) = .nan ↔ fisFin v = false)) ∧
  enc32 .nan = 0x7FC00000 ∧ enc16b .nan = 0x7FC0 ∧ enc16h .nan = 0x7E00 ∧ encE4M3 .nan = 0x7F ∧ encE5M2 .nan = 0x7E ∧ encE4M3 (.inf true) = 0x7F ∧
  (∀ v : FVal, fadd .nan v = .nan ∧ fadd v .nan = .nan ∧ fmul .nan v = .nan ∧ fmul v .nan = .nan) ∧
  (∀ a : Bool, fadd (.inf a) (.inf (!a)) = .nan) ∧ (∀ a b e, fmul (.inf a) (.fin b 0 e) = .nan ∧ fmul (.fin b 0 e) (.inf a) = .nan)

/-- PART_MODE takes a new mode only while every partition is OFF; otherwise, and for 0b11, MODE stays and PART_MODE_BUSY is recorded in the
module global page (R20). -/
def Obligations.PartModeOnlyWhileOff : Prop :=
  ∀ (s : State) (v : W32), regOpen s pgGlob = true →
    (allOff s = true → fld v 1 0 ≠ 3 → exec (.partModeWrite v) s =
      .next (settleFull { holdShares s with glob := { (holdShares s).glob with partMode := BitVec.ofNat 2 (fld v 1 0) } })) ∧
    (allOff s = false ∨ fld v 1 0 = 3 → exec (.partModeWrite v) s = .next (recordErr s pgGlob 0x0104 0 0)) ∧
    (recordErr s pgGlob 0x0104 0 0).glob.partMode = s.glob.partMode

/-! ### Statements over several claims -/

/-- Waits on a counter and on a stamp hold the core until they are met. -/
def Obligations.WaitsHoldTheCore : Prop :=
  Sys2Proof.Machine.claimLaunchAtHoldsUntilItsStamp ∧ Sys2Proof.Machine.claimCounterWaitHoldsTheCore

/-- An unlisted opcode and any refused instruction stop the core; errors of the stores a core reads at issue. -/
def Obligations.RefusedInstructionsStopTheCore : Prop :=
  Sys2Proof.Machine.claimUnlistedOpcodeStopsTheCore ∧ Sys2Proof.Machine.claimRefusedInstructionStopsTheCore ∧
  Sys2Proof.Machine.claimStoreErrors

/-- Mover instructions issue and complete in memory. -/
def Obligations.MoversIssueAndComplete : Prop :=
  Sys2Proof.Machine.claimMoverInstructionsIssue ∧ Sys2Proof.Machine.claimMovesCompleteInMemory

/-- Data writes and increments land on their core, and writes through the port land. -/
def Obligations.FlitsAndIncrementsLand : Prop :=
  Sys2Proof.Machine.claimFlitsLandOnTheirCore ∧ Sys2Proof.Machine.claimIncrementsAddToArrivalCounters ∧
  Sys2Proof.Machine.claimPortWrites

/-- A tile program begins when loaded and reports when done. -/
def Obligations.TileProgramsBeginAndEnd : Prop :=
  Sys2Proof.Machine.claimProgramLoadFillsTheCore ∧ Sys2Proof.Machine.claimProgramEndReportsTheRecord

/-- Idle cores fall asleep and the wake governor admits their wakes. -/
def Obligations.SleepAndWake : Prop :=
  Sys2Proof.Machine.claimIdleCoreFallsAsleep ∧ Sys2Proof.Machine.claimWakesOfCores ∧ Sys2Proof.Machine.claimGovernorAdmitsARequest

/-- Records the queue engine runs itself. -/
def Obligations.QueueEngineRecords : Prop :=
  Sys2Proof.Machine.claimControlRecords ∧ Sys2Proof.Machine.claimSignalRecords

/-- The cluster scheduler assigns records to cores and ages them. -/
def Obligations.SchedulerAssignsRecords : Prop :=
  Sys2Proof.Machine.claimCoreRecords ∧ Sys2Proof.Machine.claimTileRunAssignment ∧ Sys2Proof.Machine.claimAging

/-- UPDATE, COMBINE and TEST work goes on and ends. -/
def Obligations.CoreJobsGoOn : Prop :=
  Sys2Proof.Machine.claimJobsGoOn ∧ Sys2Proof.Machine.claimTestPasses

/-- DISPATCH records, and the reports of completed and failed records. -/
def Obligations.DispatchAndReports : Prop :=
  Sys2Proof.Machine.claimDispatch ∧ Sys2Proof.Machine.claimReports

/-- Doorbells and queue bindings. -/
def Obligations.DoorbellsAndBindings : Prop :=
  Sys2Proof.Machine.claimDoorbells ∧ Sys2Proof.Machine.claimBindings

/-- Stack-engine records are handed over and start. -/
def Obligations.StackEngineStarts : Prop :=
  Sys2Proof.Machine.claimStackEngineStarts ∧ Sys2Proof.Machine.claimStackEngineHandOver

/-- REDUCE opens, takes contributions, makes its passes and counts late ranks. -/
def Obligations.ReduceGroups : Prop :=
  Sys2Proof.Machine.claimReduceOpens ∧ Sys2Proof.Machine.claimContributionLands ∧ Sys2Proof.Machine.claimReducePasses ∧
  Sys2Proof.Machine.claimLateRank

/-- Group registers and group commands. -/
def Obligations.GroupSettingsAndCommands : Prop :=
  Sys2Proof.Machine.claimGroupSettings ∧ Sys2Proof.Machine.claimGroupCommands

/-- Self-refresh, banks, temperatures, imbalance and scrubbing of memory stacks. -/
def Obligations.HbmUpkeep : Prop :=
  Sys2Proof.Machine.claimSelfRefresh ∧ Sys2Proof.Machine.claimBanks ∧ Sys2Proof.Machine.claimTemperatures ∧
  Sys2Proof.Machine.claimImbalance ∧ Sys2Proof.Machine.claimScrubber

/-- Stream messages are delivered in turn, once, with their effect. -/
def Obligations.StreamDeliveries : Prop :=
  Sys2Proof.Machine.claimStreamDeliveries ∧ Sys2Proof.Machine.claimStreamOrder ∧ Sys2Proof.Machine.claimDeliveryCounts ∧
  Sys2Proof.Machine.claimWriteEffects ∧ Sys2Proof.Machine.claimDeliveredEffects

/-- Expert rounds open, go on and end, and what is admitted to them. -/
def Obligations.Rounds : Prop :=
  Sys2Proof.Machine.claimRounds ∧ Sys2Proof.Machine.claimAdmission

/-- Answers to transfers, stream timers, and the link engine's moves. -/
def Obligations.AnswersAndTimers : Prop :=
  Sys2Proof.Machine.claimAnswers ∧ Sys2Proof.Machine.claimStreamTimers ∧ Sys2Proof.Machine.claimLinkMoves

/-- Ports train and retrain. -/
def Obligations.LinkTraining : Prop :=
  Sys2Proof.Machine.claimTraining ∧ Sys2Proof.Machine.claimRetraining

/-- Link flits are sent and received. -/
def Obligations.LinkFlits : Prop :=
  Sys2Proof.Machine.claimFlitSend ∧ Sys2Proof.Machine.claimFlitReceive

/-- Route-table accesses, and messages that go on, end or find no route. -/
def Obligations.Routes : Prop :=
  Sys2Proof.Machine.claimRoutes ∧ Sys2Proof.Machine.claimTransit

/-- Checked duplication samples, compares and rotates; checks of arithmetic. -/
def Obligations.DuplicateExecution : Prop :=
  Sys2Proof.Machine.claimDuplicates ∧ Sys2Proof.Machine.claimArithmeticChecks

/-- Partition commands, the entries they end in, and states. -/
def Obligations.PartitionCommands : Prop :=
  Sys2Proof.Machine.claimPartCommands ∧ Sys2Proof.Machine.claimPartEntries ∧ Sys2Proof.Machine.claimPartStates

/-- Page headers, and register accesses of the host and of others. -/
def Obligations.RegisterPages : Prop :=
  Sys2Proof.Machine.claimPageHeaders ∧ Sys2Proof.Machine.claimHostWrites ∧ Sys2Proof.Machine.claimOtherWrites ∧
  Sys2Proof.Machine.claimHostReads ∧ Sys2Proof.Machine.claimEndpointRegisters

/-- The command window, MSI-X, host resets and endpoint events. -/
def Obligations.EndpointAndWindow : Prop :=
  Sys2Proof.Machine.claimCommandWindow ∧ Sys2Proof.Machine.claimMsix ∧ Sys2Proof.Machine.claimHostResets ∧
  Sys2Proof.Machine.claimEndpointEvents

/-- Input conditions, drydown and the hold-up bank. -/
def Obligations.InputsAndDrydown : Prop :=
  Sys2Proof.Machine.claimInputs ∧ Sys2Proof.Machine.claimDrydown ∧ Sys2Proof.Machine.claimHoldUpBank

/-- Power windows, thermal limits, operating points and clocks. -/
def Obligations.PowerThermalsAndClocks : Prop :=
  Sys2Proof.Machine.claimPowerWindows ∧ Sys2Proof.Machine.claimThermals ∧ Sys2Proof.Machine.claimOperatingPoints ∧
  Sys2Proof.Machine.claimReferenceClocks

/-- Restarts of the Nose and its sensors, keys and address. -/
def Obligations.NoseRestartsAndSensors : Prop :=
  Sys2Proof.Machine.claimNoseRestarts ∧ Sys2Proof.Machine.claimNoseSensors ∧ Sys2Proof.Machine.claimNoseKeysAndAddress

/-- The vial: critical sets, patrol, forgotten codewords, wear and blotters. -/
def Obligations.VialUpkeep : Prop :=
  Sys2Proof.Machine.claimCriticalSets ∧ Sys2Proof.Machine.claimPatrol ∧ Sys2Proof.Machine.claimForgotten ∧
  Sys2Proof.Machine.claimWear ∧ Sys2Proof.Machine.claimBlotterLog

/-- Power-up, mount, boot stages, restoring of the input and cut-off of the bank. -/
def Obligations.PowerUpAndBoot : Prop :=
  Sys2Proof.Machine.claimPowerUp ∧ Sys2Proof.Machine.claimMount ∧ Sys2Proof.Machine.claimBoot ∧ Sys2Proof.Machine.claimRestore

/-- The mailbox: starts, ends, and the operations that read. -/
def Obligations.MailboxOperations : Prop :=
  Sys2Proof.Machine.claimMailbox ∧ Sys2Proof.Machine.claimMailboxReads

/-- Mailbox operations on stored bytes. -/
def Obligations.MailboxStorage : Prop :=
  Sys2Proof.Machine.claimStorage ∧ Sys2Proof.Machine.claimStoreUnit

/-- Module operations, firmware update, image checks, versions and recovery. -/
def Obligations.ModuleOperationsAndFirmware : Prop :=
  Sys2Proof.Machine.claimModuleOps ∧ Sys2Proof.Machine.claimFirmware ∧ Sys2Proof.Machine.claimImageChecks ∧
  Sys2Proof.Machine.claimVersionsAndRecovery

/-- MCTP, PLDM and DOE messages (layouts: log entry 25, the model's). -/
def Obligations.ManagementMessages : Prop :=
  Sys2Proof.Machine.claimMctp ∧ Sys2Proof.Machine.claimPldm ∧ Sys2Proof.Machine.claimPldmUpdate ∧ Sys2Proof.Machine.claimDoe

/-- SPDM connections, attestation and sessions (layouts: log entry 25, the model's). -/
def Obligations.SecurityMessages : Prop :=
  Sys2Proof.Machine.claimSpdmConnection ∧ Sys2Proof.Machine.claimAttestation ∧ Sys2Proof.Machine.claimSessions

/-- Every command answers a next state and keeps the queue and the variant. -/
def Obligations.CommandsAnswerAndKeepTheQueue : Prop :=
  Sys2Proof.Machine.claimAllAnswer ∧ Sys2Proof.Machine.claimQueueFrame

end
end

