-- ==== Sys2Proof/Laws/Memory.lean ====
section
/-! SUPPORT. Memory: every operation keeps the canonical form, and a byte reads as what was last written to it. -/

namespace Sys2Proof.Machine

set_option linter.all false

/-! ### The canonical form as a property of the cells -/

theorem cellsWf_iff (hs : List Hole) (cs : List Host.Cell) :
    cellsWf hs cs = true ↔ cs.Pairwise (fun c d => c.1 < d.1) ∧ ∀ c ∈ cs, c.2 ≠ memDefault hs c.1 := by
  induction cs with
  | nil => simp [cellsWf]
  | cons c r ih =>
    obtain ⟨a, v⟩ := c
    cases r with
    | nil => simp [cellsWf]
    | cons d t =>
      obtain ⟨b, w⟩ := d
      simp only [cellsWf, Bool.and_eq_true, decide_eq_true_eq, ih]
      constructor
      · rintro ⟨⟨hab, hv⟩, hp, hd⟩
        refine ⟨List.pairwise_cons.2 ⟨?_, hp⟩, ?_⟩
        · intro x hx
          rcases List.mem_cons.1 hx with rfl | hx
          · exact hab
          · exact Nat.lt_trans hab ((List.pairwise_cons.1 hp).1 x hx)
        · intro x hx
          rcases List.mem_cons.1 hx with rfl | hx
          · exact hv
          · exact hd x hx
      · rintro ⟨hp, hd⟩
        have h1 := List.pairwise_cons.1 hp
        exact ⟨⟨h1.1 (b, w) (by simp), hd (a, v) (by simp)⟩, h1.2, fun x hx => hd x (List.mem_cons_of_mem _ hx)⟩

theorem mem_cellPut {cs : List Host.Cell} {a : Nat} {v : Byte} {c : Host.Cell} (h : c ∈ cellPut cs a v) :
    c = (a, v) ∨ c ∈ cs := by
  induction cs with
  | nil => simpa [cellPut] using h
  | cons d r ih =>
    obtain ⟨j, w⟩ := d
    simp only [cellPut] at h
    split at h
    · rcases List.mem_cons.1 h with h | h
      · exact .inl h
      · exact .inr (List.mem_cons_of_mem _ h)
    · split at h
      · rcases List.mem_cons.1 h with h | h
        · exact .inl h
        · exact .inr h
      · rcases List.mem_cons.1 h with h | h
        · exact .inr (by simp [h])
        · rcases ih h with h | h
          · exact .inl h
          · exact .inr (List.mem_cons_of_mem _ h)

theorem cellPut_rising {cs : List Host.Cell} (a : Nat) (v : Byte) (h : cs.Pairwise (fun c d => c.1 < d.1)) :
    (cellPut cs a v).Pairwise (fun c d => c.1 < d.1) := by
  induction cs with
  | nil => simp [cellPut]
  | cons d r ih =>
    obtain ⟨j, w⟩ := d
    obtain ⟨h1, h2⟩ := List.pairwise_cons.1 h
    simp only [cellPut]
    split
    · rename_i e
      subst e
      exact List.pairwise_cons.2 ⟨h1, h2⟩
    · split
      · rename_i e
        refine List.pairwise_cons.2 ⟨?_, h⟩
        intro x hx
        rcases List.mem_cons.1 hx with rfl | hx
        · exact e
        · exact Nat.lt_trans e (h1 x hx)
      · rename_i e1 e2
        refine List.pairwise_cons.2 ⟨?_, ih h2⟩
        intro x hx
        rcases mem_cellPut hx with rfl | hx
        · show j < a
          omega
        · exact h1 x hx

theorem cellDel_sublist (cs : List Host.Cell) (a : Nat) : (cellDel cs a).Sublist cs := by
  induction cs with
  | nil => simp [cellDel]
  | cons d r ih =>
    obtain ⟨j, w⟩ := d
    simp only [cellDel]
    split
    · exact List.sublist_cons_self _ _
    · split
      · exact List.Sublist.refl _
      · exact ih.cons_cons _

/-! ### The operations keep the form -/

@[simp] theorem writeByte_holes (m : Mem) (a : Nat) (v : Byte) : (writeByte m a v).holes = m.holes := rfl

theorem writeByte_wf {m : Mem} (h : m.wf = true) (a : Nat) (v : Byte) : (writeByte m a v).wf = true := by
  obtain ⟨hr, hd⟩ := (cellsWf_iff _ _).1 h
  refine (cellsWf_iff _ _).2 ?_
  simp only [writeByte]
  split
  · exact ⟨hr.sublist (cellDel_sublist _ _), fun c hc => hd c ((cellDel_sublist _ _).subset hc)⟩
  · rename_i hv
    refine ⟨cellPut_rising a v hr, fun c hc => ?_⟩
    rcases mem_cellPut hc with rfl | hc
    · exact hv
    · exact hd c hc

theorem writeBytes_wf {m : Mem} (h : m.wf = true) (a : Nat) (bs : List Byte) : (writeBytes m a bs).wf = true := by
  induction bs generalizing m a with
  | nil => exact h
  | cons b r ih => exact ih (writeByte_wf h a b) (a + 1)

theorem writeCells_wf {m : Mem} (h : m.wf = true) (cs : List Host.Cell) : (writeCells m cs).wf = true := by
  unfold writeCells
  induction cs generalizing m with
  | nil => exact h
  | cons c r ih => exact ih (writeByte_wf h c.1 c.2)

theorem writeLe_wf {m : Mem} (h : m.wf = true) (a n x : Nat) : (writeLe m a n x).wf = true := writeBytes_wf h _ _

theorem coverHole_wf {m : Mem} (h : m.wf = true) (x : Hole) : (coverHole m x).wf = true := by
  obtain ⟨hr, hd⟩ := (cellsWf_iff _ _).1 h
  refine (cellsWf_iff _ _).2 ⟨hr.filter _, fun c hc => ?_⟩
  simp only [coverHole, List.mem_filter, Bool.not_eq_true'] at hc
  simp only [coverHole, memDefault, hc.2]
  exact hd c hc.1

theorem clearHole_wf {m : Mem} (h : m.wf = true) (x : Hole) : (clearHole m x).wf = true := by
  unfold clearHole
  split
  · obtain ⟨hr, hd⟩ := (cellsWf_iff _ _).1 h
    exact (cellsWf_iff _ _).2 ⟨hr.filter _, fun c hc => hd c (List.mem_filter.1 hc).1⟩
  · exact coverHole_wf h _

theorem clearRange_wf {m : Mem} (h : m.wf = true) (lo len : Nat) : (clearRange m lo len).wf = true := clearHole_wf h _
theorem loseRange_wf {m : Mem} (h : m.wf = true) (lo len e : Nat) : (loseRange m lo len e).wf = true := coverHole_wf h _

theorem wf_foldl {α : Type} {f : Mem → α → Mem} (hf : ∀ m x, m.wf = true → (f m x).wf = true) (l : List α) {m : Mem}
    (h : m.wf = true) : (l.foldl f m).wf = true := by
  induction l generalizing m with
  | nil => exact h
  | cons x r ih => exact ih (hf m x h)

/-! ### Reading after writing -/

theorem cellFind_put {cs : List Host.Cell} (h : cs.Pairwise (fun c d => c.1 < d.1)) (a b : Nat) (v : Byte) :
    cellFind (cellPut cs a v) b = if b = a then some v else cellFind cs b := by
  induction cs with
  | nil => simp only [cellPut, cellFind]; split <;> simp
  | cons d r ih =>
    obtain ⟨j, w⟩ := d
    obtain ⟨-, h2⟩ := List.pairwise_cons.1 h
    have := ih h2
    simp only [cellPut]
    repeat' split
    all_goals simp only [cellFind, this]
    all_goals (repeat' split) <;> first | rfl | omega

theorem cellFind_none {cs : List Host.Cell} {b : Nat} (h : ∀ c ∈ cs, b < c.1) : cellFind cs b = none := by
  cases cs with
  | nil => rfl
  | cons d r =>
    obtain ⟨j, w⟩ := d
    have := h (j, w) (by simp)
    simp only [cellFind]
    split
    · omega
    · first | rfl | (split <;> first | rfl | omega)

theorem cellFind_del {cs : List Host.Cell} (h : cs.Pairwise (fun c d => c.1 < d.1)) (a b : Nat) :
    cellFind (cellDel cs a) b = if b = a then none else cellFind cs b := by
  induction cs with
  | nil => simp [cellDel, cellFind]
  | cons d r ih =>
    obtain ⟨j, w⟩ := d
    obtain ⟨h1, h2⟩ := List.pairwise_cons.1 h
    have hi := ih h2
    simp only [cellDel]
    split
    · rename_i e
      subst e
      split
      · rename_i e
        subst e
        exact cellFind_none h1
      · rename_i hb
        simp only [cellFind, hb, if_false]
        split
        · exact cellFind_none (fun c hc => Nat.lt_trans (by assumption) (h1 c hc))
        · rfl
    · split
      · rename_i e1 e2
        split
        · rename_i e
          subst e
          simp only [cellFind, e1, e2, if_true, if_false]
        · rfl
      · simp only [cellFind, hi]
        repeat' split
        all_goals first | rfl | omega

/-- A byte reads as what was written to it; every other byte reads as before. -/
theorem readByte_write {m : Mem} (h : m.wf = true) (a b : Nat) (v : Byte) :
    readByte (writeByte m a v) b = if b = a then v else readByte m b := by
  obtain ⟨hr, -⟩ := (cellsWf_iff _ _).1 h
  simp only [readByte, writeByte]
  split
  · rename_i e
    rw [cellFind_del hr]
    split
    · rename_i e2
      subst e2
      exact e.symm
    · rfl
  · rw [cellFind_put hr]
    split <;> rfl

/-- Bytes outside a written block read as before. -/
theorem readByte_writeBytes_out {m : Mem} (h : m.wf = true) (a b : Nat) (bs : List Byte) (hb : b < a ∨ a + bs.length ≤ b) :
    readByte (writeBytes m a bs) b = readByte m b := by
  induction bs generalizing m a with
  | nil => rfl
  | cons x r ih =>
    simp only [List.length_cons] at hb
    show readByte (writeBytes (writeByte m a x) (a + 1) r) b = _
    rw [ih (writeByte_wf h a x) (a + 1) (by omega), readByte_write h]
    split
    · omega
    · rfl

/-- A written block reads back. -/
theorem readBytes_writeBytes {m : Mem} (h : m.wf = true) (a : Nat) (bs : List Byte) :
    readBytes (writeBytes m a bs) a bs.length = bs := by
  induction bs generalizing m a with
  | nil => rfl
  | cons x r ih =>
    show readByte (writeBytes (writeByte m a x) (a + 1) r) a :: readBytes (writeBytes (writeByte m a x) (a + 1) r) (a + 1) r.length = _
    rw [ih (writeByte_wf h a x), readByte_writeBytes_out (writeByte_wf h a x) _ _ _ (by omega), readByte_write h]
    simp

/-- A byte inside a range whose contents became undefined reads as that loss's free value; outside it, as before. -/
theorem readByte_cover (m : Mem) (x : Hole) (b : Nat) (hr : m.wf = true) :
    readByte (coverHole m x) b = if x.covers b then (if x.epoch = 0 then 0 else Config.freeByte x.epoch b) else readByte m b := by
  obtain ⟨hr, -⟩ := (cellsWf_iff _ _).1 hr
  have key : ∀ cs : List Host.Cell, cs.Pairwise (fun c d => c.1 < d.1) →
      cellFind (cs.filter (fun c => !x.covers c.1)) b = if x.covers b then none else cellFind cs b := by
    intro cs hp
    induction cs with
    | nil => simp [cellFind]
    | cons d r ih =>
      obtain ⟨j, w⟩ := d
      obtain ⟨h1, h2⟩ := List.pairwise_cons.1 hp
      simp only [List.filter_cons]
      split
      · rename_i hj
        simp only [cellFind, ih h2]
        repeat' split
        all_goals first | rfl | simp_all
      · rename_i hj
        rw [ih h2]
        simp only [cellFind]
        split
        · rfl
        · split
          · simp_all
          · split
            · exact cellFind_none (fun c hc => Nat.lt_trans (by assumption) (h1 c hc))
            · rfl
  simp only [readByte, coverHole, key _ hr, memDefault]
  split <;> rfl

end Sys2Proof.Machine
end

