-- ==== Sys2Proof/Laws/State.lean ====
section
/-! SUPPORT. Units and fields of State under the updates of Machine/Ops: each says what one field or unit reads after one update. -/

namespace Sys2Proof.Machine

theorem sget_sput {α : Type} (d : α) (m : SMap α) (k j : Nat) (v : α) : sget d (sput m k v) j = if j = k then v else sget d m j := by
  induction m with
  | nil => simp only [sput, sget]
  | cons e r ih =>
    obtain ⟨i, w⟩ := e
    simp only [sput]
    repeat' split
    all_goals simp only [sget, ih]
    all_goals (repeat' split) <;> first | rfl | omega

@[simp] theorem sget_sput_same {α : Type} (d : α) (m : SMap α) (k : Nat) (v : α) : sget d (sput m k v) k = v := by
  simp [sget_sput]

theorem sget_sput_other {α : Type} (d : α) (m : SMap α) {k j : Nat} (v : α) (h : j ≠ k) : sget d (sput m k v) j = sget d m j := by
  simp [sget_sput, h]

@[simp] theorem sput_sput_same {α : Type} (m : SMap α) (k : Nat) (v w : α) : sput (sput m k v) k w = sput m k w := by
  induction m with
  | nil => simp [sput]
  | cons e r ih =>
    obtain ⟨i, x⟩ := e
    simp only [sput]
    split
    · simp [sput]
    · split
      · simp [sput]
      · rename_i h1 h2
        simp [sput, h1, h2, ih]

/-! ### cores -/

@[simp] theorem core_setCore (s : State) (i : Nat) (x : Core) : core (setCore s i x) i = x := sget_sput_same _ _ _ _
theorem core_setCore_other (s : State) (i : Nat) (x : Core) {j : Nat} (h : j ≠ i) : core (setCore s i x) j = core s j := sget_sput_other _ _ _ h
@[simp] theorem setCore_setCore (s : State) (i : Nat) (x : Core) (y : Core) : setCore (setCore s i x) i y = setCore s i y := by simp [setCore]
@[simp] theorem modCore_eq (s : State) (i : Nat) (f : Core → Core) : modCore s i f = setCore s i (f (core s i)) := rfl
@[simp] theorem setCore_variant (s : State) (i : Nat) (x : Core) : (setCore s i x).variant = s.variant := rfl
@[simp] theorem setCore_time (s : State) (i : Nat) (x : Core) : (setCore s i x).time = s.time := rfl
@[simp] theorem setCore_freeCtr (s : State) (i : Nat) (x : Core) : (setCore s i x).freeCtr = s.freeCtr := rfl
@[simp] theorem setCore_pending (s : State) (i : Nat) (x : Core) : (setCore s i x).pending = s.pending := rfl
@[simp] theorem setCore_out (s : State) (i : Nat) (x : Core) : (setCore s i x).out = s.out := rfl
@[simp] theorem setCore_reply (s : State) (i : Nat) (x : Core) : (setCore s i x).reply = s.reply := rfl
@[simp] theorem setCore_mem (s : State) (i : Nat) (x : Core) : (setCore s i x).mem = s.mem := rfl
@[simp] theorem setCore_hdrs (s : State) (i : Nat) (x : Core) : (setCore s i x).hdrs = s.hdrs := rfl
@[simp] theorem setCore_glob (s : State) (i : Nat) (x : Core) : (setCore s i x).glob = s.glob := rfl
@[simp] theorem setCore_parts (s : State) (i : Nat) (x : Core) : (setCore s i x).parts = s.parts := rfl
@[simp] theorem setCore_pcie (s : State) (i : Nat) (x : Core) : (setCore s i x).pcie = s.pcie := rfl
@[simp] theorem setCore_accord (s : State) (i : Nat) (x : Core) : (setCore s i x).accord = s.accord := rfl
@[simp] theorem setCore_clusters (s : State) (i : Nat) (x : Core) : (setCore s i x).clusters = s.clusters := rfl
@[simp] theorem setCore_net (s : State) (i : Nat) (x : Core) : (setCore s i x).net = s.net := rfl
@[simp] theorem setCore_mcs (s : State) (i : Nat) (x : Core) : (setCore s i x).mcs = s.mcs := rfl
@[simp] theorem setCore_seq (s : State) (i : Nat) (x : Core) : (setCore s i x).seq = s.seq := rfl
@[simp] theorem setCore_reports (s : State) (i : Nat) (x : Core) : (setCore s i x).reports = s.reports := rfl
@[simp] theorem setCore_queues (s : State) (i : Nat) (x : Core) : (setCore s i x).queues = s.queues := rfl
@[simp] theorem setCore_atoms (s : State) (i : Nat) (x : Core) : (setCore s i x).atoms = s.atoms := rfl
@[simp] theorem setCore_iods (s : State) (i : Nat) (x : Core) : (setCore s i x).iods = s.iods := rfl
@[simp] theorem setCore_ses (s : State) (i : Nat) (x : Core) : (setCore s i x).ses = s.ses := rfl
@[simp] theorem setCore_groups (s : State) (i : Nat) (x : Core) : (setCore s i x).groups = s.groups := rfl
@[simp] theorem setCore_grpPages (s : State) (i : Nat) (x : Core) : (setCore s i x).grpPages = s.grpPages := rfl
@[simp] theorem setCore_ports (s : State) (i : Nat) (x : Core) : (setCore s i x).ports = s.ports := rfl
@[simp] theorem setCore_faults (s : State) (i : Nat) (x : Core) : (setCore s i x).faults = s.faults := rfl
@[simp] theorem setCore_pwr (s : State) (i : Nat) (x : Core) : (setCore s i x).pwr = s.pwr := rfl
@[simp] theorem setCore_vial (s : State) (i : Nat) (x : Core) : (setCore s i x).vial = s.vial := rfl
@[simp] theorem setCore_nose (s : State) (i : Nat) (x : Core) : (setCore s i x).nose = s.nose := rfl
@[simp] theorem cluster_setCore (s : State) (i : Nat) (x : Core) (j : Nat) : cluster (setCore s i x) j = cluster s j := rfl
@[simp] theorem part_setCore (s : State) (i : Nat) (x : Core) (j : Nat) : part (setCore s i x) j = part s j := rfl
@[simp] theorem mc_setCore (s : State) (i : Nat) (x : Core) (j : Nat) : mc (setCore s i x) j = mc s j := rfl
@[simp] theorem queue_setCore (s : State) (i : Nat) (x : Core) (j : Nat) : queue (setCore s i x) j = queue s j := rfl
@[simp] theorem atom_setCore (s : State) (i : Nat) (x : Core) (j : Nat) : atom (setCore s i x) j = atom s j := rfl
@[simp] theorem iod_setCore (s : State) (i : Nat) (x : Core) (j : Nat) : iod (setCore s i x) j = iod s j := rfl
@[simp] theorem port_setCore (s : State) (i : Nat) (x : Core) (j : Nat) : port (setCore s i x) j = port s j := rfl
@[simp] theorem se_setCore (s : State) (i : Nat) (x : Core) (j : Nat) : se (setCore s i x) j = se s j := rfl
@[simp] theorem group_setCore (s : State) (i : Nat) (x : Core) (j : Nat) : group (setCore s i x) j = group s j := rfl
@[simp] theorem grpPage_setCore (s : State) (i : Nat) (x : Core) (j : Nat) : grpPage (setCore s i x) j = grpPage s j := rfl
@[simp] theorem hdr_setCore (s : State) (i : Nat) (x : Core) (j : Nat) : hdr (setCore s i x) j = hdr s j := rfl

/-! ### clusters -/

@[simp] theorem cluster_setCluster (s : State) (i : Nat) (x : Cluster) : cluster (setCluster s i x) i = x := sget_sput_same _ _ _ _
theorem cluster_setCluster_other (s : State) (i : Nat) (x : Cluster) {j : Nat} (h : j ≠ i) : cluster (setCluster s i x) j = cluster s j := sget_sput_other _ _ _ h
@[simp] theorem setCluster_setCluster (s : State) (i : Nat) (x : Cluster) (y : Cluster) : setCluster (setCluster s i x) i y = setCluster s i y := by simp [setCluster]
@[simp] theorem modCluster_eq (s : State) (i : Nat) (f : Cluster → Cluster) : modCluster s i f = setCluster s i (f (cluster s i)) := rfl
@[simp] theorem setCluster_variant (s : State) (i : Nat) (x : Cluster) : (setCluster s i x).variant = s.variant := rfl
@[simp] theorem setCluster_time (s : State) (i : Nat) (x : Cluster) : (setCluster s i x).time = s.time := rfl
@[simp] theorem setCluster_freeCtr (s : State) (i : Nat) (x : Cluster) : (setCluster s i x).freeCtr = s.freeCtr := rfl
@[simp] theorem setCluster_pending (s : State) (i : Nat) (x : Cluster) : (setCluster s i x).pending = s.pending := rfl
@[simp] theorem setCluster_out (s : State) (i : Nat) (x : Cluster) : (setCluster s i x).out = s.out := rfl
@[simp] theorem setCluster_reply (s : State) (i : Nat) (x : Cluster) : (setCluster s i x).reply = s.reply := rfl
@[simp] theorem setCluster_mem (s : State) (i : Nat) (x : Cluster) : (setCluster s i x).mem = s.mem := rfl
@[simp] theorem setCluster_hdrs (s : State) (i : Nat) (x : Cluster) : (setCluster s i x).hdrs = s.hdrs := rfl
@[simp] theorem setCluster_glob (s : State) (i : Nat) (x : Cluster) : (setCluster s i x).glob = s.glob := rfl
@[simp] theorem setCluster_parts (s : State) (i : Nat) (x : Cluster) : (setCluster s i x).parts = s.parts := rfl
@[simp] theorem setCluster_pcie (s : State) (i : Nat) (x : Cluster) : (setCluster s i x).pcie = s.pcie := rfl
@[simp] theorem setCluster_accord (s : State) (i : Nat) (x : Cluster) : (setCluster s i x).accord = s.accord := rfl
@[simp] theorem setCluster_cores (s : State) (i : Nat) (x : Cluster) : (setCluster s i x).cores = s.cores := rfl
@[simp] theorem setCluster_net (s : State) (i : Nat) (x : Cluster) : (setCluster s i x).net = s.net := rfl
@[simp] theorem setCluster_mcs (s : State) (i : Nat) (x : Cluster) : (setCluster s i x).mcs = s.mcs := rfl
@[simp] theorem setCluster_seq (s : State) (i : Nat) (x : Cluster) : (setCluster s i x).seq = s.seq := rfl
@[simp] theorem setCluster_reports (s : State) (i : Nat) (x : Cluster) : (setCluster s i x).reports = s.reports := rfl
@[simp] theorem setCluster_queues (s : State) (i : Nat) (x : Cluster) : (setCluster s i x).queues = s.queues := rfl
@[simp] theorem setCluster_atoms (s : State) (i : Nat) (x : Cluster) : (setCluster s i x).atoms = s.atoms := rfl
@[simp] theorem setCluster_iods (s : State) (i : Nat) (x : Cluster) : (setCluster s i x).iods = s.iods := rfl
@[simp] theorem setCluster_ses (s : State) (i : Nat) (x : Cluster) : (setCluster s i x).ses = s.ses := rfl
@[simp] theorem setCluster_groups (s : State) (i : Nat) (x : Cluster) : (setCluster s i x).groups = s.groups := rfl
@[simp] theorem setCluster_grpPages (s : State) (i : Nat) (x : Cluster) : (setCluster s i x).grpPages = s.grpPages := rfl
@[simp] theorem setCluster_ports (s : State) (i : Nat) (x : Cluster) : (setCluster s i x).ports = s.ports := rfl
@[simp] theorem setCluster_faults (s : State) (i : Nat) (x : Cluster) : (setCluster s i x).faults = s.faults := rfl
@[simp] theorem setCluster_pwr (s : State) (i : Nat) (x : Cluster) : (setCluster s i x).pwr = s.pwr := rfl
@[simp] theorem setCluster_vial (s : State) (i : Nat) (x : Cluster) : (setCluster s i x).vial = s.vial := rfl
@[simp] theorem setCluster_nose (s : State) (i : Nat) (x : Cluster) : (setCluster s i x).nose = s.nose := rfl
@[simp] theorem core_setCluster (s : State) (i : Nat) (x : Cluster) (j : Nat) : core (setCluster s i x) j = core s j := rfl
@[simp] theorem part_setCluster (s : State) (i : Nat) (x : Cluster) (j : Nat) : part (setCluster s i x) j = part s j := rfl
@[simp] theorem mc_setCluster (s : State) (i : Nat) (x : Cluster) (j : Nat) : mc (setCluster s i x) j = mc s j := rfl
@[simp] theorem queue_setCluster (s : State) (i : Nat) (x : Cluster) (j : Nat) : queue (setCluster s i x) j = queue s j := rfl
@[simp] theorem atom_setCluster (s : State) (i : Nat) (x : Cluster) (j : Nat) : atom (setCluster s i x) j = atom s j := rfl
@[simp] theorem iod_setCluster (s : State) (i : Nat) (x : Cluster) (j : Nat) : iod (setCluster s i x) j = iod s j := rfl
@[simp] theorem port_setCluster (s : State) (i : Nat) (x : Cluster) (j : Nat) : port (setCluster s i x) j = port s j := rfl
@[simp] theorem se_setCluster (s : State) (i : Nat) (x : Cluster) (j : Nat) : se (setCluster s i x) j = se s j := rfl
@[simp] theorem group_setCluster (s : State) (i : Nat) (x : Cluster) (j : Nat) : group (setCluster s i x) j = group s j := rfl
@[simp] theorem grpPage_setCluster (s : State) (i : Nat) (x : Cluster) (j : Nat) : grpPage (setCluster s i x) j = grpPage s j := rfl
@[simp] theorem hdr_setCluster (s : State) (i : Nat) (x : Cluster) (j : Nat) : hdr (setCluster s i x) j = hdr s j := rfl

/-! ### parts -/

@[simp] theorem part_setPart (s : State) (i : Nat) (x : Part) : part (setPart s i x) i = x := sget_sput_same _ _ _ _
theorem part_setPart_other (s : State) (i : Nat) (x : Part) {j : Nat} (h : j ≠ i) : part (setPart s i x) j = part s j := sget_sput_other _ _ _ h
@[simp] theorem setPart_setPart (s : State) (i : Nat) (x : Part) (y : Part) : setPart (setPart s i x) i y = setPart s i y := by simp [setPart]
@[simp] theorem modPart_eq (s : State) (i : Nat) (f : Part → Part) : modPart s i f = setPart s i (f (part s i)) := rfl
@[simp] theorem setPart_variant (s : State) (i : Nat) (x : Part) : (setPart s i x).variant = s.variant := rfl
@[simp] theorem setPart_time (s : State) (i : Nat) (x : Part) : (setPart s i x).time = s.time := rfl
@[simp] theorem setPart_freeCtr (s : State) (i : Nat) (x : Part) : (setPart s i x).freeCtr = s.freeCtr := rfl
@[simp] theorem setPart_pending (s : State) (i : Nat) (x : Part) : (setPart s i x).pending = s.pending := rfl
@[simp] theorem setPart_out (s : State) (i : Nat) (x : Part) : (setPart s i x).out = s.out := rfl
@[simp] theorem setPart_reply (s : State) (i : Nat) (x : Part) : (setPart s i x).reply = s.reply := rfl
@[simp] theorem setPart_mem (s : State) (i : Nat) (x : Part) : (setPart s i x).mem = s.mem := rfl
@[simp] theorem setPart_hdrs (s : State) (i : Nat) (x : Part) : (setPart s i x).hdrs = s.hdrs := rfl
@[simp] theorem setPart_glob (s : State) (i : Nat) (x : Part) : (setPart s i x).glob = s.glob := rfl
@[simp] theorem setPart_pcie (s : State) (i : Nat) (x : Part) : (setPart s i x).pcie = s.pcie := rfl
@[simp] theorem setPart_accord (s : State) (i : Nat) (x : Part) : (setPart s i x).accord = s.accord := rfl
@[simp] theorem setPart_clusters (s : State) (i : Nat) (x : Part) : (setPart s i x).clusters = s.clusters := rfl
@[simp] theorem setPart_cores (s : State) (i : Nat) (x : Part) : (setPart s i x).cores = s.cores := rfl
@[simp] theorem setPart_net (s : State) (i : Nat) (x : Part) : (setPart s i x).net = s.net := rfl
@[simp] theorem setPart_mcs (s : State) (i : Nat) (x : Part) : (setPart s i x).mcs = s.mcs := rfl
@[simp] theorem setPart_seq (s : State) (i : Nat) (x : Part) : (setPart s i x).seq = s.seq := rfl
@[simp] theorem setPart_reports (s : State) (i : Nat) (x : Part) : (setPart s i x).reports = s.reports := rfl
@[simp] theorem setPart_queues (s : State) (i : Nat) (x : Part) : (setPart s i x).queues = s.queues := rfl
@[simp] theorem setPart_atoms (s : State) (i : Nat) (x : Part) : (setPart s i x).atoms = s.atoms := rfl
@[simp] theorem setPart_iods (s : State) (i : Nat) (x : Part) : (setPart s i x).iods = s.iods := rfl
@[simp] theorem setPart_ses (s : State) (i : Nat) (x : Part) : (setPart s i x).ses = s.ses := rfl
@[simp] theorem setPart_groups (s : State) (i : Nat) (x : Part) : (setPart s i x).groups = s.groups := rfl
@[simp] theorem setPart_grpPages (s : State) (i : Nat) (x : Part) : (setPart s i x).grpPages = s.grpPages := rfl
@[simp] theorem setPart_ports (s : State) (i : Nat) (x : Part) : (setPart s i x).ports = s.ports := rfl
@[simp] theorem setPart_faults (s : State) (i : Nat) (x : Part) : (setPart s i x).faults = s.faults := rfl
@[simp] theorem setPart_pwr (s : State) (i : Nat) (x : Part) : (setPart s i x).pwr = s.pwr := rfl
@[simp] theorem setPart_vial (s : State) (i : Nat) (x : Part) : (setPart s i x).vial = s.vial := rfl
@[simp] theorem setPart_nose (s : State) (i : Nat) (x : Part) : (setPart s i x).nose = s.nose := rfl
@[simp] theorem core_setPart (s : State) (i : Nat) (x : Part) (j : Nat) : core (setPart s i x) j = core s j := rfl
@[simp] theorem cluster_setPart (s : State) (i : Nat) (x : Part) (j : Nat) : cluster (setPart s i x) j = cluster s j := rfl
@[simp] theorem mc_setPart (s : State) (i : Nat) (x : Part) (j : Nat) : mc (setPart s i x) j = mc s j := rfl
@[simp] theorem queue_setPart (s : State) (i : Nat) (x : Part) (j : Nat) : queue (setPart s i x) j = queue s j := rfl
@[simp] theorem atom_setPart (s : State) (i : Nat) (x : Part) (j : Nat) : atom (setPart s i x) j = atom s j := rfl
@[simp] theorem iod_setPart (s : State) (i : Nat) (x : Part) (j : Nat) : iod (setPart s i x) j = iod s j := rfl
@[simp] theorem port_setPart (s : State) (i : Nat) (x : Part) (j : Nat) : port (setPart s i x) j = port s j := rfl
@[simp] theorem se_setPart (s : State) (i : Nat) (x : Part) (j : Nat) : se (setPart s i x) j = se s j := rfl
@[simp] theorem group_setPart (s : State) (i : Nat) (x : Part) (j : Nat) : group (setPart s i x) j = group s j := rfl
@[simp] theorem grpPage_setPart (s : State) (i : Nat) (x : Part) (j : Nat) : grpPage (setPart s i x) j = grpPage s j := rfl
@[simp] theorem hdr_setPart (s : State) (i : Nat) (x : Part) (j : Nat) : hdr (setPart s i x) j = hdr s j := rfl

/-! ### mcs -/

@[simp] theorem mc_setMc (s : State) (i : Nat) (x : Mc) : mc (setMc s i x) i = x := sget_sput_same _ _ _ _
theorem mc_setMc_other (s : State) (i : Nat) (x : Mc) {j : Nat} (h : j ≠ i) : mc (setMc s i x) j = mc s j := sget_sput_other _ _ _ h
@[simp] theorem setMc_setMc (s : State) (i : Nat) (x : Mc) (y : Mc) : setMc (setMc s i x) i y = setMc s i y := by simp [setMc]
@[simp] theorem modMc_eq (s : State) (i : Nat) (f : Mc → Mc) : modMc s i f = setMc s i (f (mc s i)) := rfl
@[simp] theorem setMc_variant (s : State) (i : Nat) (x : Mc) : (setMc s i x).variant = s.variant := rfl
@[simp] theorem setMc_time (s : State) (i : Nat) (x : Mc) : (setMc s i x).time = s.time := rfl
@[simp] theorem setMc_freeCtr (s : State) (i : Nat) (x : Mc) : (setMc s i x).freeCtr = s.freeCtr := rfl
@[simp] theorem setMc_pending (s : State) (i : Nat) (x : Mc) : (setMc s i x).pending = s.pending := rfl
@[simp] theorem setMc_out (s : State) (i : Nat) (x : Mc) : (setMc s i x).out = s.out := rfl
@[simp] theorem setMc_reply (s : State) (i : Nat) (x : Mc) : (setMc s i x).reply = s.reply := rfl
@[simp] theorem setMc_mem (s : State) (i : Nat) (x : Mc) : (setMc s i x).mem = s.mem := rfl
@[simp] theorem setMc_hdrs (s : State) (i : Nat) (x : Mc) : (setMc s i x).hdrs = s.hdrs := rfl
@[simp] theorem setMc_glob (s : State) (i : Nat) (x : Mc) : (setMc s i x).glob = s.glob := rfl
@[simp] theorem setMc_parts (s : State) (i : Nat) (x : Mc) : (setMc s i x).parts = s.parts := rfl
@[simp] theorem setMc_pcie (s : State) (i : Nat) (x : Mc) : (setMc s i x).pcie = s.pcie := rfl
@[simp] theorem setMc_accord (s : State) (i : Nat) (x : Mc) : (setMc s i x).accord = s.accord := rfl
@[simp] theorem setMc_clusters (s : State) (i : Nat) (x : Mc) : (setMc s i x).clusters = s.clusters := rfl
@[simp] theorem setMc_cores (s : State) (i : Nat) (x : Mc) : (setMc s i x).cores = s.cores := rfl
@[simp] theorem setMc_net (s : State) (i : Nat) (x : Mc) : (setMc s i x).net = s.net := rfl
@[simp] theorem setMc_seq (s : State) (i : Nat) (x : Mc) : (setMc s i x).seq = s.seq := rfl
@[simp] theorem setMc_reports (s : State) (i : Nat) (x : Mc) : (setMc s i x).reports = s.reports := rfl
@[simp] theorem setMc_queues (s : State) (i : Nat) (x : Mc) : (setMc s i x).queues = s.queues := rfl
@[simp] theorem setMc_atoms (s : State) (i : Nat) (x : Mc) : (setMc s i x).atoms = s.atoms := rfl
@[simp] theorem setMc_iods (s : State) (i : Nat) (x : Mc) : (setMc s i x).iods = s.iods := rfl
@[simp] theorem setMc_ses (s : State) (i : Nat) (x : Mc) : (setMc s i x).ses = s.ses := rfl
@[simp] theorem setMc_groups (s : State) (i : Nat) (x : Mc) : (setMc s i x).groups = s.groups := rfl
@[simp] theorem setMc_grpPages (s : State) (i : Nat) (x : Mc) : (setMc s i x).grpPages = s.grpPages := rfl
@[simp] theorem setMc_ports (s : State) (i : Nat) (x : Mc) : (setMc s i x).ports = s.ports := rfl
@[simp] theorem setMc_faults (s : State) (i : Nat) (x : Mc) : (setMc s i x).faults = s.faults := rfl
@[simp] theorem setMc_pwr (s : State) (i : Nat) (x : Mc) : (setMc s i x).pwr = s.pwr := rfl
@[simp] theorem setMc_vial (s : State) (i : Nat) (x : Mc) : (setMc s i x).vial = s.vial := rfl
@[simp] theorem setMc_nose (s : State) (i : Nat) (x : Mc) : (setMc s i x).nose = s.nose := rfl
@[simp] theorem core_setMc (s : State) (i : Nat) (x : Mc) (j : Nat) : core (setMc s i x) j = core s j := rfl
@[simp] theorem cluster_setMc (s : State) (i : Nat) (x : Mc) (j : Nat) : cluster (setMc s i x) j = cluster s j := rfl
@[simp] theorem part_setMc (s : State) (i : Nat) (x : Mc) (j : Nat) : part (setMc s i x) j = part s j := rfl
@[simp] theorem queue_setMc (s : State) (i : Nat) (x : Mc) (j : Nat) : queue (setMc s i x) j = queue s j := rfl
@[simp] theorem atom_setMc (s : State) (i : Nat) (x : Mc) (j : Nat) : atom (setMc s i x) j = atom s j := rfl
@[simp] theorem iod_setMc (s : State) (i : Nat) (x : Mc) (j : Nat) : iod (setMc s i x) j = iod s j := rfl
@[simp] theorem port_setMc (s : State) (i : Nat) (x : Mc) (j : Nat) : port (setMc s i x) j = port s j := rfl
@[simp] theorem se_setMc (s : State) (i : Nat) (x : Mc) (j : Nat) : se (setMc s i x) j = se s j := rfl
@[simp] theorem group_setMc (s : State) (i : Nat) (x : Mc) (j : Nat) : group (setMc s i x) j = group s j := rfl
@[simp] theorem grpPage_setMc (s : State) (i : Nat) (x : Mc) (j : Nat) : grpPage (setMc s i x) j = grpPage s j := rfl
@[simp] theorem hdr_setMc (s : State) (i : Nat) (x : Mc) (j : Nat) : hdr (setMc s i x) j = hdr s j := rfl

/-! ### queues -/

@[simp] theorem queue_setQueue (s : State) (i : Nat) (x : Queue) : queue (setQueue s i x) i = x := sget_sput_same _ _ _ _
theorem queue_setQueue_other (s : State) (i : Nat) (x : Queue) {j : Nat} (h : j ≠ i) : queue (setQueue s i x) j = queue s j := sget_sput_other _ _ _ h
@[simp] theorem setQueue_setQueue (s : State) (i : Nat) (x : Queue) (y : Queue) : setQueue (setQueue s i x) i y = setQueue s i y := by simp [setQueue]
@[simp] theorem modQueue_eq (s : State) (i : Nat) (f : Queue → Queue) : modQueue s i f = setQueue s i (f (queue s i)) := rfl
@[simp] theorem setQueue_variant (s : State) (i : Nat) (x : Queue) : (setQueue s i x).variant = s.variant := rfl
@[simp] theorem setQueue_time (s : State) (i : Nat) (x : Queue) : (setQueue s i x).time = s.time := rfl
@[simp] theorem setQueue_freeCtr (s : State) (i : Nat) (x : Queue) : (setQueue s i x).freeCtr = s.freeCtr := rfl
@[simp] theorem setQueue_pending (s : State) (i : Nat) (x : Queue) : (setQueue s i x).pending = s.pending := rfl
@[simp] theorem setQueue_out (s : State) (i : Nat) (x : Queue) : (setQueue s i x).out = s.out := rfl
@[simp] theorem setQueue_reply (s : State) (i : Nat) (x : Queue) : (setQueue s i x).reply = s.reply := rfl
@[simp] theorem setQueue_mem (s : State) (i : Nat) (x : Queue) : (setQueue s i x).mem = s.mem := rfl
@[simp] theorem setQueue_hdrs (s : State) (i : Nat) (x : Queue) : (setQueue s i x).hdrs = s.hdrs := rfl
@[simp] theorem setQueue_glob (s : State) (i : Nat) (x : Queue) : (setQueue s i x).glob = s.glob := rfl
@[simp] theorem setQueue_parts (s : State) (i : Nat) (x : Queue) : (setQueue s i x).parts = s.parts := rfl
@[simp] theorem setQueue_pcie (s : State) (i : Nat) (x : Queue) : (setQueue s i x).pcie = s.pcie := rfl
@[simp] theorem setQueue_accord (s : State) (i : Nat) (x : Queue) : (setQueue s i x).accord = s.accord := rfl
@[simp] theorem setQueue_clusters (s : State) (i : Nat) (x : Queue) : (setQueue s i x).clusters = s.clusters := rfl
@[simp] theorem setQueue_cores (s : State) (i : Nat) (x : Queue) : (setQueue s i x).cores = s.cores := rfl
@[simp] theorem setQueue_net (s : State) (i : Nat) (x : Queue) : (setQueue s i x).net = s.net := rfl
@[simp] theorem setQueue_mcs (s : State) (i : Nat) (x : Queue) : (setQueue s i x).mcs = s.mcs := rfl
@[simp] theorem setQueue_seq (s : State) (i : Nat) (x : Queue) : (setQueue s i x).seq = s.seq := rfl
@[simp] theorem setQueue_reports (s : State) (i : Nat) (x : Queue) : (setQueue s i x).reports = s.reports := rfl
@[simp] theorem setQueue_atoms (s : State) (i : Nat) (x : Queue) : (setQueue s i x).atoms = s.atoms := rfl
@[simp] theorem setQueue_iods (s : State) (i : Nat) (x : Queue) : (setQueue s i x).iods = s.iods := rfl
@[simp] theorem setQueue_ses (s : State) (i : Nat) (x : Queue) : (setQueue s i x).ses = s.ses := rfl
@[simp] theorem setQueue_groups (s : State) (i : Nat) (x : Queue) : (setQueue s i x).groups = s.groups := rfl
@[simp] theorem setQueue_grpPages (s : State) (i : Nat) (x : Queue) : (setQueue s i x).grpPages = s.grpPages := rfl
@[simp] theorem setQueue_ports (s : State) (i : Nat) (x : Queue) : (setQueue s i x).ports = s.ports := rfl
@[simp] theorem setQueue_faults (s : State) (i : Nat) (x : Queue) : (setQueue s i x).faults = s.faults := rfl
@[simp] theorem setQueue_pwr (s : State) (i : Nat) (x : Queue) : (setQueue s i x).pwr = s.pwr := rfl
@[simp] theorem setQueue_vial (s : State) (i : Nat) (x : Queue) : (setQueue s i x).vial = s.vial := rfl
@[simp] theorem setQueue_nose (s : State) (i : Nat) (x : Queue) : (setQueue s i x).nose = s.nose := rfl
@[simp] theorem core_setQueue (s : State) (i : Nat) (x : Queue) (j : Nat) : core (setQueue s i x) j = core s j := rfl
@[simp] theorem cluster_setQueue (s : State) (i : Nat) (x : Queue) (j : Nat) : cluster (setQueue s i x) j = cluster s j := rfl
@[simp] theorem part_setQueue (s : State) (i : Nat) (x : Queue) (j : Nat) : part (setQueue s i x) j = part s j := rfl
@[simp] theorem mc_setQueue (s : State) (i : Nat) (x : Queue) (j : Nat) : mc (setQueue s i x) j = mc s j := rfl
@[simp] theorem atom_setQueue (s : State) (i : Nat) (x : Queue) (j : Nat) : atom (setQueue s i x) j = atom s j := rfl
@[simp] theorem iod_setQueue (s : State) (i : Nat) (x : Queue) (j : Nat) : iod (setQueue s i x) j = iod s j := rfl
@[simp] theorem port_setQueue (s : State) (i : Nat) (x : Queue) (j : Nat) : port (setQueue s i x) j = port s j := rfl
@[simp] theorem se_setQueue (s : State) (i : Nat) (x : Queue) (j : Nat) : se (setQueue s i x) j = se s j := rfl
@[simp] theorem group_setQueue (s : State) (i : Nat) (x : Queue) (j : Nat) : group (setQueue s i x) j = group s j := rfl
@[simp] theorem grpPage_setQueue (s : State) (i : Nat) (x : Queue) (j : Nat) : grpPage (setQueue s i x) j = grpPage s j := rfl
@[simp] theorem hdr_setQueue (s : State) (i : Nat) (x : Queue) (j : Nat) : hdr (setQueue s i x) j = hdr s j := rfl

/-! ### atoms -/

@[simp] theorem atom_setAtom (s : State) (i : Nat) (x : Atom) : atom (setAtom s i x) i = x := sget_sput_same _ _ _ _
theorem atom_setAtom_other (s : State) (i : Nat) (x : Atom) {j : Nat} (h : j ≠ i) : atom (setAtom s i x) j = atom s j := sget_sput_other _ _ _ h
@[simp] theorem setAtom_setAtom (s : State) (i : Nat) (x : Atom) (y : Atom) : setAtom (setAtom s i x) i y = setAtom s i y := by simp [setAtom]
@[simp] theorem modAtom_eq (s : State) (i : Nat) (f : Atom → Atom) : modAtom s i f = setAtom s i (f (atom s i)) := rfl
@[simp] theorem setAtom_variant (s : State) (i : Nat) (x : Atom) : (setAtom s i x).variant = s.variant := rfl
@[simp] theorem setAtom_time (s : State) (i : Nat) (x : Atom) : (setAtom s i x).time = s.time := rfl
@[simp] theorem setAtom_freeCtr (s : State) (i : Nat) (x : Atom) : (setAtom s i x).freeCtr = s.freeCtr := rfl
@[simp] theorem setAtom_pending (s : State) (i : Nat) (x : Atom) : (setAtom s i x).pending = s.pending := rfl
@[simp] theorem setAtom_out (s : State) (i : Nat) (x : Atom) : (setAtom s i x).out = s.out := rfl
@[simp] theorem setAtom_reply (s : State) (i : Nat) (x : Atom) : (setAtom s i x).reply = s.reply := rfl
@[simp] theorem setAtom_mem (s : State) (i : Nat) (x : Atom) : (setAtom s i x).mem = s.mem := rfl
@[simp] theorem setAtom_hdrs (s : State) (i : Nat) (x : Atom) : (setAtom s i x).hdrs = s.hdrs := rfl
@[simp] theorem setAtom_glob (s : State) (i : Nat) (x : Atom) : (setAtom s i x).glob = s.glob := rfl
@[simp] theorem setAtom_parts (s : State) (i : Nat) (x : Atom) : (setAtom s i x).parts = s.parts := rfl
@[simp] theorem setAtom_pcie (s : State) (i : Nat) (x : Atom) : (setAtom s i x).pcie = s.pcie := rfl
@[simp] theorem setAtom_accord (s : State) (i : Nat) (x : Atom) : (setAtom s i x).accord = s.accord := rfl
@[simp] theorem setAtom_clusters (s : State) (i : Nat) (x : Atom) : (setAtom s i x).clusters = s.clusters := rfl
@[simp] theorem setAtom_cores (s : State) (i : Nat) (x : Atom) : (setAtom s i x).cores = s.cores := rfl
@[simp] theorem setAtom_net (s : State) (i : Nat) (x : Atom) : (setAtom s i x).net = s.net := rfl
@[simp] theorem setAtom_mcs (s : State) (i : Nat) (x : Atom) : (setAtom s i x).mcs = s.mcs := rfl
@[simp] theorem setAtom_seq (s : State) (i : Nat) (x : Atom) : (setAtom s i x).seq = s.seq := rfl
@[simp] theorem setAtom_reports (s : State) (i : Nat) (x : Atom) : (setAtom s i x).reports = s.reports := rfl
@[simp] theorem setAtom_queues (s : State) (i : Nat) (x : Atom) : (setAtom s i x).queues = s.queues := rfl
@[simp] theorem setAtom_iods (s : State) (i : Nat) (x : Atom) : (setAtom s i x).iods = s.iods := rfl
@[simp] theorem setAtom_ses (s : State) (i : Nat) (x : Atom) : (setAtom s i x).ses = s.ses := rfl
@[simp] theorem setAtom_groups (s : State) (i : Nat) (x : Atom) : (setAtom s i x).groups = s.groups := rfl
@[simp] theorem setAtom_grpPages (s : State) (i : Nat) (x : Atom) : (setAtom s i x).grpPages = s.grpPages := rfl
@[simp] theorem setAtom_ports (s : State) (i : Nat) (x : Atom) : (setAtom s i x).ports = s.ports := rfl
@[simp] theorem setAtom_faults (s : State) (i : Nat) (x : Atom) : (setAtom s i x).faults = s.faults := rfl
@[simp] theorem setAtom_pwr (s : State) (i : Nat) (x : Atom) : (setAtom s i x).pwr = s.pwr := rfl
@[simp] theorem setAtom_vial (s : State) (i : Nat) (x : Atom) : (setAtom s i x).vial = s.vial := rfl
@[simp] theorem setAtom_nose (s : State) (i : Nat) (x : Atom) : (setAtom s i x).nose = s.nose := rfl
@[simp] theorem core_setAtom (s : State) (i : Nat) (x : Atom) (j : Nat) : core (setAtom s i x) j = core s j := rfl
@[simp] theorem cluster_setAtom (s : State) (i : Nat) (x : Atom) (j : Nat) : cluster (setAtom s i x) j = cluster s j := rfl
@[simp] theorem part_setAtom (s : State) (i : Nat) (x : Atom) (j : Nat) : part (setAtom s i x) j = part s j := rfl
@[simp] theorem mc_setAtom (s : State) (i : Nat) (x : Atom) (j : Nat) : mc (setAtom s i x) j = mc s j := rfl
@[simp] theorem queue_setAtom (s : State) (i : Nat) (x : Atom) (j : Nat) : queue (setAtom s i x) j = queue s j := rfl
@[simp] theorem iod_setAtom (s : State) (i : Nat) (x : Atom) (j : Nat) : iod (setAtom s i x) j = iod s j := rfl
@[simp] theorem port_setAtom (s : State) (i : Nat) (x : Atom) (j : Nat) : port (setAtom s i x) j = port s j := rfl
@[simp] theorem se_setAtom (s : State) (i : Nat) (x : Atom) (j : Nat) : se (setAtom s i x) j = se s j := rfl
@[simp] theorem group_setAtom (s : State) (i : Nat) (x : Atom) (j : Nat) : group (setAtom s i x) j = group s j := rfl
@[simp] theorem grpPage_setAtom (s : State) (i : Nat) (x : Atom) (j : Nat) : grpPage (setAtom s i x) j = grpPage s j := rfl
@[simp] theorem hdr_setAtom (s : State) (i : Nat) (x : Atom) (j : Nat) : hdr (setAtom s i x) j = hdr s j := rfl

/-! ### iods -/

@[simp] theorem iod_setIod (s : State) (i : Nat) (x : Iod) : iod (setIod s i x) i = x := sget_sput_same _ _ _ _
theorem iod_setIod_other (s : State) (i : Nat) (x : Iod) {j : Nat} (h : j ≠ i) : iod (setIod s i x) j = iod s j := sget_sput_other _ _ _ h
@[simp] theorem setIod_setIod (s : State) (i : Nat) (x : Iod) (y : Iod) : setIod (setIod s i x) i y = setIod s i y := by simp [setIod]
@[simp] theorem modIod_eq (s : State) (i : Nat) (f : Iod → Iod) : modIod s i f = setIod s i (f (iod s i)) := rfl
@[simp] theorem setIod_variant (s : State) (i : Nat) (x : Iod) : (setIod s i x).variant = s.variant := rfl
@[simp] theorem setIod_time (s : State) (i : Nat) (x : Iod) : (setIod s i x).time = s.time := rfl
@[simp] theorem setIod_freeCtr (s : State) (i : Nat) (x : Iod) : (setIod s i x).freeCtr = s.freeCtr := rfl
@[simp] theorem setIod_pending (s : State) (i : Nat) (x : Iod) : (setIod s i x).pending = s.pending := rfl
@[simp] theorem setIod_out (s : State) (i : Nat) (x : Iod) : (setIod s i x).out = s.out := rfl
@[simp] theorem setIod_reply (s : State) (i : Nat) (x : Iod) : (setIod s i x).reply = s.reply := rfl
@[simp] theorem setIod_mem (s : State) (i : Nat) (x : Iod) : (setIod s i x).mem = s.mem := rfl
@[simp] theorem setIod_hdrs (s : State) (i : Nat) (x : Iod) : (setIod s i x).hdrs = s.hdrs := rfl
@[simp] theorem setIod_glob (s : State) (i : Nat) (x : Iod) : (setIod s i x).glob = s.glob := rfl
@[simp] theorem setIod_parts (s : State) (i : Nat) (x : Iod) : (setIod s i x).parts = s.parts := rfl
@[simp] theorem setIod_pcie (s : State) (i : Nat) (x : Iod) : (setIod s i x).pcie = s.pcie := rfl
@[simp] theorem setIod_accord (s : State) (i : Nat) (x : Iod) : (setIod s i x).accord = s.accord := rfl
@[simp] theorem setIod_clusters (s : State) (i : Nat) (x : Iod) : (setIod s i x).clusters = s.clusters := rfl
@[simp] theorem setIod_cores (s : State) (i : Nat) (x : Iod) : (setIod s i x).cores = s.cores := rfl
@[simp] theorem setIod_net (s : State) (i : Nat) (x : Iod) : (setIod s i x).net = s.net := rfl
@[simp] theorem setIod_mcs (s : State) (i : Nat) (x : Iod) : (setIod s i x).mcs = s.mcs := rfl
@[simp] theorem setIod_seq (s : State) (i : Nat) (x : Iod) : (setIod s i x).seq = s.seq := rfl
@[simp] theorem setIod_reports (s : State) (i : Nat) (x : Iod) : (setIod s i x).reports = s.reports := rfl
@[simp] theorem setIod_queues (s : State) (i : Nat) (x : Iod) : (setIod s i x).queues = s.queues := rfl
@[simp] theorem setIod_atoms (s : State) (i : Nat) (x : Iod) : (setIod s i x).atoms = s.atoms := rfl
@[simp] theorem setIod_ses (s : State) (i : Nat) (x : Iod) : (setIod s i x).ses = s.ses := rfl
@[simp] theorem setIod_groups (s : State) (i : Nat) (x : Iod) : (setIod s i x).groups = s.groups := rfl
@[simp] theorem setIod_grpPages (s : State) (i : Nat) (x : Iod) : (setIod s i x).grpPages = s.grpPages := rfl
@[simp] theorem setIod_ports (s : State) (i : Nat) (x : Iod) : (setIod s i x).ports = s.ports := rfl
@[simp] theorem setIod_faults (s : State) (i : Nat) (x : Iod) : (setIod s i x).faults = s.faults := rfl
@[simp] theorem setIod_pwr (s : State) (i : Nat) (x : Iod) : (setIod s i x).pwr = s.pwr := rfl
@[simp] theorem setIod_vial (s : State) (i : Nat) (x : Iod) : (setIod s i x).vial = s.vial := rfl
@[simp] theorem setIod_nose (s : State) (i : Nat) (x : Iod) : (setIod s i x).nose = s.nose := rfl
@[simp] theorem core_setIod (s : State) (i : Nat) (x : Iod) (j : Nat) : core (setIod s i x) j = core s j := rfl
@[simp] theorem cluster_setIod (s : State) (i : Nat) (x : Iod) (j : Nat) : cluster (setIod s i x) j = cluster s j := rfl
@[simp] theorem part_setIod (s : State) (i : Nat) (x : Iod) (j : Nat) : part (setIod s i x) j = part s j := rfl
@[simp] theorem mc_setIod (s : State) (i : Nat) (x : Iod) (j : Nat) : mc (setIod s i x) j = mc s j := rfl
@[simp] theorem queue_setIod (s : State) (i : Nat) (x : Iod) (j : Nat) : queue (setIod s i x) j = queue s j := rfl
@[simp] theorem atom_setIod (s : State) (i : Nat) (x : Iod) (j : Nat) : atom (setIod s i x) j = atom s j := rfl
@[simp] theorem port_setIod (s : State) (i : Nat) (x : Iod) (j : Nat) : port (setIod s i x) j = port s j := rfl
@[simp] theorem se_setIod (s : State) (i : Nat) (x : Iod) (j : Nat) : se (setIod s i x) j = se s j := rfl
@[simp] theorem group_setIod (s : State) (i : Nat) (x : Iod) (j : Nat) : group (setIod s i x) j = group s j := rfl
@[simp] theorem grpPage_setIod (s : State) (i : Nat) (x : Iod) (j : Nat) : grpPage (setIod s i x) j = grpPage s j := rfl
@[simp] theorem hdr_setIod (s : State) (i : Nat) (x : Iod) (j : Nat) : hdr (setIod s i x) j = hdr s j := rfl

/-! ### ports -/

@[simp] theorem port_setPort (s : State) (i : Nat) (x : Port) : port (setPort s i x) i = x := sget_sput_same _ _ _ _
theorem port_setPort_other (s : State) (i : Nat) (x : Port) {j : Nat} (h : j ≠ i) : port (setPort s i x) j = port s j := sget_sput_other _ _ _ h
@[simp] theorem setPort_setPort (s : State) (i : Nat) (x : Port) (y : Port) : setPort (setPort s i x) i y = setPort s i y := by simp [setPort]
@[simp] theorem modPort_eq (s : State) (i : Nat) (f : Port → Port) : modPort s i f = setPort s i (f (port s i)) := rfl
@[simp] theorem setPort_variant (s : State) (i : Nat) (x : Port) : (setPort s i x).variant = s.variant := rfl
@[simp] theorem setPort_time (s : State) (i : Nat) (x : Port) : (setPort s i x).time = s.time := rfl
@[simp] theorem setPort_freeCtr (s : State) (i : Nat) (x : Port) : (setPort s i x).freeCtr = s.freeCtr := rfl
@[simp] theorem setPort_pending (s : State) (i : Nat) (x : Port) : (setPort s i x).pending = s.pending := rfl
@[simp] theorem setPort_out (s : State) (i : Nat) (x : Port) : (setPort s i x).out = s.out := rfl
@[simp] theorem setPort_reply (s : State) (i : Nat) (x : Port) : (setPort s i x).reply = s.reply := rfl
@[simp] theorem setPort_mem (s : State) (i : Nat) (x : Port) : (setPort s i x).mem = s.mem := rfl
@[simp] theorem setPort_hdrs (s : State) (i : Nat) (x : Port) : (setPort s i x).hdrs = s.hdrs := rfl
@[simp] theorem setPort_glob (s : State) (i : Nat) (x : Port) : (setPort s i x).glob = s.glob := rfl
@[simp] theorem setPort_parts (s : State) (i : Nat) (x : Port) : (setPort s i x).parts = s.parts := rfl
@[simp] theorem setPort_pcie (s : State) (i : Nat) (x : Port) : (setPort s i x).pcie = s.pcie := rfl
@[simp] theorem setPort_accord (s : State) (i : Nat) (x : Port) : (setPort s i x).accord = s.accord := rfl
@[simp] theorem setPort_clusters (s : State) (i : Nat) (x : Port) : (setPort s i x).clusters = s.clusters := rfl
@[simp] theorem setPort_cores (s : State) (i : Nat) (x : Port) : (setPort s i x).cores = s.cores := rfl
@[simp] theorem setPort_net (s : State) (i : Nat) (x : Port) : (setPort s i x).net = s.net := rfl
@[simp] theorem setPort_mcs (s : State) (i : Nat) (x : Port) : (setPort s i x).mcs = s.mcs := rfl
@[simp] theorem setPort_seq (s : State) (i : Nat) (x : Port) : (setPort s i x).seq = s.seq := rfl
@[simp] theorem setPort_reports (s : State) (i : Nat) (x : Port) : (setPort s i x).reports = s.reports := rfl
@[simp] theorem setPort_queues (s : State) (i : Nat) (x : Port) : (setPort s i x).queues = s.queues := rfl
@[simp] theorem setPort_atoms (s : State) (i : Nat) (x : Port) : (setPort s i x).atoms = s.atoms := rfl
@[simp] theorem setPort_iods (s : State) (i : Nat) (x : Port) : (setPort s i x).iods = s.iods := rfl
@[simp] theorem setPort_ses (s : State) (i : Nat) (x : Port) : (setPort s i x).ses = s.ses := rfl
@[simp] theorem setPort_groups (s : State) (i : Nat) (x : Port) : (setPort s i x).groups = s.groups := rfl
@[simp] theorem setPort_grpPages (s : State) (i : Nat) (x : Port) : (setPort s i x).grpPages = s.grpPages := rfl
@[simp] theorem setPort_faults (s : State) (i : Nat) (x : Port) : (setPort s i x).faults = s.faults := rfl
@[simp] theorem setPort_pwr (s : State) (i : Nat) (x : Port) : (setPort s i x).pwr = s.pwr := rfl
@[simp] theorem setPort_vial (s : State) (i : Nat) (x : Port) : (setPort s i x).vial = s.vial := rfl
@[simp] theorem setPort_nose (s : State) (i : Nat) (x : Port) : (setPort s i x).nose = s.nose := rfl
@[simp] theorem core_setPort (s : State) (i : Nat) (x : Port) (j : Nat) : core (setPort s i x) j = core s j := rfl
@[simp] theorem cluster_setPort (s : State) (i : Nat) (x : Port) (j : Nat) : cluster (setPort s i x) j = cluster s j := rfl
@[simp] theorem part_setPort (s : State) (i : Nat) (x : Port) (j : Nat) : part (setPort s i x) j = part s j := rfl
@[simp] theorem mc_setPort (s : State) (i : Nat) (x : Port) (j : Nat) : mc (setPort s i x) j = mc s j := rfl
@[simp] theorem queue_setPort (s : State) (i : Nat) (x : Port) (j : Nat) : queue (setPort s i x) j = queue s j := rfl
@[simp] theorem atom_setPort (s : State) (i : Nat) (x : Port) (j : Nat) : atom (setPort s i x) j = atom s j := rfl
@[simp] theorem iod_setPort (s : State) (i : Nat) (x : Port) (j : Nat) : iod (setPort s i x) j = iod s j := rfl
@[simp] theorem se_setPort (s : State) (i : Nat) (x : Port) (j : Nat) : se (setPort s i x) j = se s j := rfl
@[simp] theorem group_setPort (s : State) (i : Nat) (x : Port) (j : Nat) : group (setPort s i x) j = group s j := rfl
@[simp] theorem grpPage_setPort (s : State) (i : Nat) (x : Port) (j : Nat) : grpPage (setPort s i x) j = grpPage s j := rfl
@[simp] theorem hdr_setPort (s : State) (i : Nat) (x : Port) (j : Nat) : hdr (setPort s i x) j = hdr s j := rfl

/-! ### ses -/

@[simp] theorem seStamp_scrubEn (t : Nat) (e f : Se) : (seStamp t e f).scrubEn = f.scrubEn := by unfold seStamp; split <;> rfl
@[simp] theorem seStamp_ctrSel (t : Nat) (e f : Se) : (seStamp t e f).ctrSel = f.ctrSel := by unfold seStamp; split <;> rfl
@[simp] theorem seStamp_ctrs (t : Nat) (e f : Se) : (seStamp t e f).ctrs = f.ctrs := by unfold seStamp; split <;> rfl
@[simp] theorem seStamp_scrubPos (t : Nat) (e f : Se) : (seStamp t e f).scrubPos = f.scrubPos := by unfold seStamp; split <;> rfl
@[simp] theorem seStamp_scrubPasses (t : Nat) (e f : Se) : (seStamp t e f).scrubPasses = f.scrubPasses := by unfold seStamp; split <;> rfl
@[simp] theorem seStamp_scrubFixed (t : Nat) (e f : Se) : (seStamp t e f).scrubFixed = f.scrubFixed := by unfold seStamp; split <;> rfl
@[simp] theorem seStamp_nonfinite (t : Nat) (e f : Se) : (seStamp t e f).nonfinite = f.nonfinite := by unfold seStamp; split <;> rfl
@[simp] theorem seStamp_digestFail (t : Nat) (e f : Se) : (seStamp t e f).digestFail = f.digestFail := by unfold seStamp; split <;> rfl
@[simp] theorem seStamp_holdRefused (t : Nat) (e f : Se) : (seStamp t e f).holdRefused = f.holdRefused := by unfold seStamp; split <;> rfl
@[simp] theorem seStamp_cmds (t : Nat) (e f : Se) : (seStamp t e f).cmds = f.cmds := by unfold seStamp; split <;> rfl
@[simp] theorem seStamp_lastQueue (t : Nat) (e f : Se) : (seStamp t e f).lastQueue = f.lastQueue := by unfold seStamp; split <;> rfl
@[simp] theorem seStamp_slots (t : Nat) (e f : Se) : (seStamp t e f).slots = f.slots := by unfold seStamp; split <;> rfl
@[simp] theorem seStamp_silUsed (t : Nat) (e f : Se) : (seStamp t e f).silUsed = f.silUsed := by unfold seStamp; split <;> rfl
@[simp] theorem sePending_seStamp (t : Nat) (e f : Se) : sePending (seStamp t e f) = sePending f := by simp [sePending]
@[simp] theorem se_setSe (s : State) (i : Nat) (x : Se) : se (setSe s i x) i = seStamp s.accord.master (se s i) x := sget_sput_same _ _ _ _
theorem se_setSe_other (s : State) (i : Nat) (x : Se) {j : Nat} (h : j ≠ i) : se (setSe s i x) j = se s j := sget_sput_other _ _ _ h
@[simp] theorem modSe_eq (s : State) (i : Nat) (f : Se → Se) : modSe s i f = setSe s i (f (se s i)) := rfl
@[simp] theorem setSe_variant (s : State) (i : Nat) (x : Se) : (setSe s i x).variant = s.variant := rfl
@[simp] theorem setSe_time (s : State) (i : Nat) (x : Se) : (setSe s i x).time = s.time := rfl
@[simp] theorem setSe_freeCtr (s : State) (i : Nat) (x : Se) : (setSe s i x).freeCtr = s.freeCtr := rfl
@[simp] theorem setSe_pending (s : State) (i : Nat) (x : Se) : (setSe s i x).pending = s.pending := rfl
@[simp] theorem setSe_out (s : State) (i : Nat) (x : Se) : (setSe s i x).out = s.out := rfl
@[simp] theorem setSe_reply (s : State) (i : Nat) (x : Se) : (setSe s i x).reply = s.reply := rfl
@[simp] theorem setSe_mem (s : State) (i : Nat) (x : Se) : (setSe s i x).mem = s.mem := rfl
@[simp] theorem setSe_hdrs (s : State) (i : Nat) (x : Se) : (setSe s i x).hdrs = s.hdrs := rfl
@[simp] theorem setSe_glob (s : State) (i : Nat) (x : Se) : (setSe s i x).glob = s.glob := rfl
@[simp] theorem setSe_parts (s : State) (i : Nat) (x : Se) : (setSe s i x).parts = s.parts := rfl
@[simp] theorem setSe_pcie (s : State) (i : Nat) (x : Se) : (setSe s i x).pcie = s.pcie := rfl
@[simp] theorem setSe_accord (s : State) (i : Nat) (x : Se) : (setSe s i x).accord = s.accord := rfl
@[simp] theorem setSe_clusters (s : State) (i : Nat) (x : Se) : (setSe s i x).clusters = s.clusters := rfl
@[simp] theorem setSe_cores (s : State) (i : Nat) (x : Se) : (setSe s i x).cores = s.cores := rfl
@[simp] theorem setSe_net (s : State) (i : Nat) (x : Se) : (setSe s i x).net = s.net := rfl
@[simp] theorem setSe_mcs (s : State) (i : Nat) (x : Se) : (setSe s i x).mcs = s.mcs := rfl
@[simp] theorem setSe_seq (s : State) (i : Nat) (x : Se) : (setSe s i x).seq = s.seq := rfl
@[simp] theorem setSe_reports (s : State) (i : Nat) (x : Se) : (setSe s i x).reports = s.reports := rfl
@[simp] theorem setSe_queues (s : State) (i : Nat) (x : Se) : (setSe s i x).queues = s.queues := rfl
@[simp] theorem setSe_atoms (s : State) (i : Nat) (x : Se) : (setSe s i x).atoms = s.atoms := rfl
@[simp] theorem setSe_iods (s : State) (i : Nat) (x : Se) : (setSe s i x).iods = s.iods := rfl
@[simp] theorem setSe_groups (s : State) (i : Nat) (x : Se) : (setSe s i x).groups = s.groups := rfl
@[simp] theorem setSe_grpPages (s : State) (i : Nat) (x : Se) : (setSe s i x).grpPages = s.grpPages := rfl
@[simp] theorem setSe_ports (s : State) (i : Nat) (x : Se) : (setSe s i x).ports = s.ports := rfl
@[simp] theorem setSe_faults (s : State) (i : Nat) (x : Se) : (setSe s i x).faults = s.faults := rfl
@[simp] theorem setSe_pwr (s : State) (i : Nat) (x : Se) : (setSe s i x).pwr = s.pwr := rfl
@[simp] theorem setSe_vial (s : State) (i : Nat) (x : Se) : (setSe s i x).vial = s.vial := rfl
@[simp] theorem setSe_nose (s : State) (i : Nat) (x : Se) : (setSe s i x).nose = s.nose := rfl
@[simp] theorem core_setSe (s : State) (i : Nat) (x : Se) (j : Nat) : core (setSe s i x) j = core s j := rfl
@[simp] theorem cluster_setSe (s : State) (i : Nat) (x : Se) (j : Nat) : cluster (setSe s i x) j = cluster s j := rfl
@[simp] theorem part_setSe (s : State) (i : Nat) (x : Se) (j : Nat) : part (setSe s i x) j = part s j := rfl
@[simp] theorem mc_setSe (s : State) (i : Nat) (x : Se) (j : Nat) : mc (setSe s i x) j = mc s j := rfl
@[simp] theorem queue_setSe (s : State) (i : Nat) (x : Se) (j : Nat) : queue (setSe s i x) j = queue s j := rfl
@[simp] theorem atom_setSe (s : State) (i : Nat) (x : Se) (j : Nat) : atom (setSe s i x) j = atom s j := rfl
@[simp] theorem iod_setSe (s : State) (i : Nat) (x : Se) (j : Nat) : iod (setSe s i x) j = iod s j := rfl
@[simp] theorem port_setSe (s : State) (i : Nat) (x : Se) (j : Nat) : port (setSe s i x) j = port s j := rfl
@[simp] theorem group_setSe (s : State) (i : Nat) (x : Se) (j : Nat) : group (setSe s i x) j = group s j := rfl
@[simp] theorem grpPage_setSe (s : State) (i : Nat) (x : Se) (j : Nat) : grpPage (setSe s i x) j = grpPage s j := rfl
@[simp] theorem hdr_setSe (s : State) (i : Nat) (x : Se) (j : Nat) : hdr (setSe s i x) j = hdr s j := rfl

/-! ### groups -/

@[simp] theorem group_setGroup (s : State) (i : Nat) (x : Group) : group (setGroup s i x) i = x := sget_sput_same _ _ _ _
theorem group_setGroup_other (s : State) (i : Nat) (x : Group) {j : Nat} (h : j ≠ i) : group (setGroup s i x) j = group s j := sget_sput_other _ _ _ h
@[simp] theorem setGroup_setGroup (s : State) (i : Nat) (x : Group) (y : Group) : setGroup (setGroup s i x) i y = setGroup s i y := by simp [setGroup]
@[simp] theorem modGroup_eq (s : State) (i : Nat) (f : Group → Group) : modGroup s i f = setGroup s i (f (group s i)) := rfl
@[simp] theorem setGroup_variant (s : State) (i : Nat) (x : Group) : (setGroup s i x).variant = s.variant := rfl
@[simp] theorem setGroup_time (s : State) (i : Nat) (x : Group) : (setGroup s i x).time = s.time := rfl
@[simp] theorem setGroup_freeCtr (s : State) (i : Nat) (x : Group) : (setGroup s i x).freeCtr = s.freeCtr := rfl
@[simp] theorem setGroup_pending (s : State) (i : Nat) (x : Group) : (setGroup s i x).pending = s.pending := rfl
@[simp] theorem setGroup_out (s : State) (i : Nat) (x : Group) : (setGroup s i x).out = s.out := rfl
@[simp] theorem setGroup_reply (s : State) (i : Nat) (x : Group) : (setGroup s i x).reply = s.reply := rfl
@[simp] theorem setGroup_mem (s : State) (i : Nat) (x : Group) : (setGroup s i x).mem = s.mem := rfl
@[simp] theorem setGroup_hdrs (s : State) (i : Nat) (x : Group) : (setGroup s i x).hdrs = s.hdrs := rfl
@[simp] theorem setGroup_glob (s : State) (i : Nat) (x : Group) : (setGroup s i x).glob = s.glob := rfl
@[simp] theorem setGroup_parts (s : State) (i : Nat) (x : Group) : (setGroup s i x).parts = s.parts := rfl
@[simp] theorem setGroup_pcie (s : State) (i : Nat) (x : Group) : (setGroup s i x).pcie = s.pcie := rfl
@[simp] theorem setGroup_accord (s : State) (i : Nat) (x : Group) : (setGroup s i x).accord = s.accord := rfl
@[simp] theorem setGroup_clusters (s : State) (i : Nat) (x : Group) : (setGroup s i x).clusters = s.clusters := rfl
@[simp] theorem setGroup_cores (s : State) (i : Nat) (x : Group) : (setGroup s i x).cores = s.cores := rfl
@[simp] theorem setGroup_net (s : State) (i : Nat) (x : Group) : (setGroup s i x).net = s.net := rfl
@[simp] theorem setGroup_mcs (s : State) (i : Nat) (x : Group) : (setGroup s i x).mcs = s.mcs := rfl
@[simp] theorem setGroup_seq (s : State) (i : Nat) (x : Group) : (setGroup s i x).seq = s.seq := rfl
@[simp] theorem setGroup_reports (s : State) (i : Nat) (x : Group) : (setGroup s i x).reports = s.reports := rfl
@[simp] theorem setGroup_queues (s : State) (i : Nat) (x : Group) : (setGroup s i x).queues = s.queues := rfl
@[simp] theorem setGroup_atoms (s : State) (i : Nat) (x : Group) : (setGroup s i x).atoms = s.atoms := rfl
@[simp] theorem setGroup_iods (s : State) (i : Nat) (x : Group) : (setGroup s i x).iods = s.iods := rfl
@[simp] theorem setGroup_ses (s : State) (i : Nat) (x : Group) : (setGroup s i x).ses = s.ses := rfl
@[simp] theorem setGroup_grpPages (s : State) (i : Nat) (x : Group) : (setGroup s i x).grpPages = s.grpPages := rfl
@[simp] theorem setGroup_ports (s : State) (i : Nat) (x : Group) : (setGroup s i x).ports = s.ports := rfl
@[simp] theorem setGroup_faults (s : State) (i : Nat) (x : Group) : (setGroup s i x).faults = s.faults := rfl
@[simp] theorem setGroup_pwr (s : State) (i : Nat) (x : Group) : (setGroup s i x).pwr = s.pwr := rfl
@[simp] theorem setGroup_vial (s : State) (i : Nat) (x : Group) : (setGroup s i x).vial = s.vial := rfl
@[simp] theorem setGroup_nose (s : State) (i : Nat) (x : Group) : (setGroup s i x).nose = s.nose := rfl
@[simp] theorem core_setGroup (s : State) (i : Nat) (x : Group) (j : Nat) : core (setGroup s i x) j = core s j := rfl
@[simp] theorem cluster_setGroup (s : State) (i : Nat) (x : Group) (j : Nat) : cluster (setGroup s i x) j = cluster s j := rfl
@[simp] theorem part_setGroup (s : State) (i : Nat) (x : Group) (j : Nat) : part (setGroup s i x) j = part s j := rfl
@[simp] theorem mc_setGroup (s : State) (i : Nat) (x : Group) (j : Nat) : mc (setGroup s i x) j = mc s j := rfl
@[simp] theorem queue_setGroup (s : State) (i : Nat) (x : Group) (j : Nat) : queue (setGroup s i x) j = queue s j := rfl
@[simp] theorem atom_setGroup (s : State) (i : Nat) (x : Group) (j : Nat) : atom (setGroup s i x) j = atom s j := rfl
@[simp] theorem iod_setGroup (s : State) (i : Nat) (x : Group) (j : Nat) : iod (setGroup s i x) j = iod s j := rfl
@[simp] theorem port_setGroup (s : State) (i : Nat) (x : Group) (j : Nat) : port (setGroup s i x) j = port s j := rfl
@[simp] theorem se_setGroup (s : State) (i : Nat) (x : Group) (j : Nat) : se (setGroup s i x) j = se s j := rfl
@[simp] theorem grpPage_setGroup (s : State) (i : Nat) (x : Group) (j : Nat) : grpPage (setGroup s i x) j = grpPage s j := rfl
@[simp] theorem hdr_setGroup (s : State) (i : Nat) (x : Group) (j : Nat) : hdr (setGroup s i x) j = hdr s j := rfl

/-! ### grpPages -/

@[simp] theorem grpPage_modGrpPage (s : State) (i : Nat) (f : GrpPage → GrpPage) : grpPage (modGrpPage s i f) i = f (grpPage s i) := sget_sput_same _ _ _ _
theorem grpPage_modGrpPage_other (s : State) (i : Nat) (f : GrpPage → GrpPage) {j : Nat} (h : j ≠ i) : grpPage (modGrpPage s i f) j = grpPage s j := sget_sput_other _ _ _ h
@[simp] theorem modGrpPage_variant (s : State) (i : Nat) (f : GrpPage → GrpPage) : (modGrpPage s i f).variant = s.variant := rfl
@[simp] theorem modGrpPage_time (s : State) (i : Nat) (f : GrpPage → GrpPage) : (modGrpPage s i f).time = s.time := rfl
@[simp] theorem modGrpPage_freeCtr (s : State) (i : Nat) (f : GrpPage → GrpPage) : (modGrpPage s i f).freeCtr = s.freeCtr := rfl
@[simp] theorem modGrpPage_pending (s : State) (i : Nat) (f : GrpPage → GrpPage) : (modGrpPage s i f).pending = s.pending := rfl
@[simp] theorem modGrpPage_out (s : State) (i : Nat) (f : GrpPage → GrpPage) : (modGrpPage s i f).out = s.out := rfl
@[simp] theorem modGrpPage_reply (s : State) (i : Nat) (f : GrpPage → GrpPage) : (modGrpPage s i f).reply = s.reply := rfl
@[simp] theorem modGrpPage_mem (s : State) (i : Nat) (f : GrpPage → GrpPage) : (modGrpPage s i f).mem = s.mem := rfl
@[simp] theorem modGrpPage_hdrs (s : State) (i : Nat) (f : GrpPage → GrpPage) : (modGrpPage s i f).hdrs = s.hdrs := rfl
@[simp] theorem modGrpPage_glob (s : State) (i : Nat) (f : GrpPage → GrpPage) : (modGrpPage s i f).glob = s.glob := rfl
@[simp] theorem modGrpPage_parts (s : State) (i : Nat) (f : GrpPage → GrpPage) : (modGrpPage s i f).parts = s.parts := rfl
@[simp] theorem modGrpPage_pcie (s : State) (i : Nat) (f : GrpPage → GrpPage) : (modGrpPage s i f).pcie = s.pcie := rfl
@[simp] theorem modGrpPage_accord (s : State) (i : Nat) (f : GrpPage → GrpPage) : (modGrpPage s i f).accord = s.accord := rfl
@[simp] theorem modGrpPage_clusters (s : State) (i : Nat) (f : GrpPage → GrpPage) : (modGrpPage s i f).clusters = s.clusters := rfl
@[simp] theorem modGrpPage_cores (s : State) (i : Nat) (f : GrpPage → GrpPage) : (modGrpPage s i f).cores = s.cores := rfl
@[simp] theorem modGrpPage_net (s : State) (i : Nat) (f : GrpPage → GrpPage) : (modGrpPage s i f).net = s.net := rfl
@[simp] theorem modGrpPage_mcs (s : State) (i : Nat) (f : GrpPage → GrpPage) : (modGrpPage s i f).mcs = s.mcs := rfl
@[simp] theorem modGrpPage_seq (s : State) (i : Nat) (f : GrpPage → GrpPage) : (modGrpPage s i f).seq = s.seq := rfl
@[simp] theorem modGrpPage_reports (s : State) (i : Nat) (f : GrpPage → GrpPage) : (modGrpPage s i f).reports = s.reports := rfl
@[simp] theorem modGrpPage_queues (s : State) (i : Nat) (f : GrpPage → GrpPage) : (modGrpPage s i f).queues = s.queues := rfl
@[simp] theorem modGrpPage_atoms (s : State) (i : Nat) (f : GrpPage → GrpPage) : (modGrpPage s i f).atoms = s.atoms := rfl
@[simp] theorem modGrpPage_iods (s : State) (i : Nat) (f : GrpPage → GrpPage) : (modGrpPage s i f).iods = s.iods := rfl
@[simp] theorem modGrpPage_ses (s : State) (i : Nat) (f : GrpPage → GrpPage) : (modGrpPage s i f).ses = s.ses := rfl
@[simp] theorem modGrpPage_groups (s : State) (i : Nat) (f : GrpPage → GrpPage) : (modGrpPage s i f).groups = s.groups := rfl
@[simp] theorem modGrpPage_ports (s : State) (i : Nat) (f : GrpPage → GrpPage) : (modGrpPage s i f).ports = s.ports := rfl
@[simp] theorem modGrpPage_faults (s : State) (i : Nat) (f : GrpPage → GrpPage) : (modGrpPage s i f).faults = s.faults := rfl
@[simp] theorem modGrpPage_pwr (s : State) (i : Nat) (f : GrpPage → GrpPage) : (modGrpPage s i f).pwr = s.pwr := rfl
@[simp] theorem modGrpPage_vial (s : State) (i : Nat) (f : GrpPage → GrpPage) : (modGrpPage s i f).vial = s.vial := rfl
@[simp] theorem modGrpPage_nose (s : State) (i : Nat) (f : GrpPage → GrpPage) : (modGrpPage s i f).nose = s.nose := rfl
@[simp] theorem core_modGrpPage (s : State) (i : Nat) (f : GrpPage → GrpPage) (j : Nat) : core (modGrpPage s i f) j = core s j := rfl
@[simp] theorem cluster_modGrpPage (s : State) (i : Nat) (f : GrpPage → GrpPage) (j : Nat) : cluster (modGrpPage s i f) j = cluster s j := rfl
@[simp] theorem part_modGrpPage (s : State) (i : Nat) (f : GrpPage → GrpPage) (j : Nat) : part (modGrpPage s i f) j = part s j := rfl
@[simp] theorem mc_modGrpPage (s : State) (i : Nat) (f : GrpPage → GrpPage) (j : Nat) : mc (modGrpPage s i f) j = mc s j := rfl
@[simp] theorem queue_modGrpPage (s : State) (i : Nat) (f : GrpPage → GrpPage) (j : Nat) : queue (modGrpPage s i f) j = queue s j := rfl
@[simp] theorem atom_modGrpPage (s : State) (i : Nat) (f : GrpPage → GrpPage) (j : Nat) : atom (modGrpPage s i f) j = atom s j := rfl
@[simp] theorem iod_modGrpPage (s : State) (i : Nat) (f : GrpPage → GrpPage) (j : Nat) : iod (modGrpPage s i f) j = iod s j := rfl
@[simp] theorem port_modGrpPage (s : State) (i : Nat) (f : GrpPage → GrpPage) (j : Nat) : port (modGrpPage s i f) j = port s j := rfl
@[simp] theorem se_modGrpPage (s : State) (i : Nat) (f : GrpPage → GrpPage) (j : Nat) : se (modGrpPage s i f) j = se s j := rfl
@[simp] theorem group_modGrpPage (s : State) (i : Nat) (f : GrpPage → GrpPage) (j : Nat) : group (modGrpPage s i f) j = group s j := rfl
@[simp] theorem hdr_modGrpPage (s : State) (i : Nat) (f : GrpPage → GrpPage) (j : Nat) : hdr (modGrpPage s i f) j = hdr s j := rfl

/-! ### hdrs -/

@[simp] theorem hdr_setHdr (s : State) (i : Nat) (x : Hdr) : hdr (setHdr s i x) i = x := sget_sput_same _ _ _ _
theorem hdr_setHdr_other (s : State) (i : Nat) (x : Hdr) {j : Nat} (h : j ≠ i) : hdr (setHdr s i x) j = hdr s j := sget_sput_other _ _ _ h
@[simp] theorem setHdr_setHdr (s : State) (i : Nat) (x : Hdr) (y : Hdr) : setHdr (setHdr s i x) i y = setHdr s i y := by simp [setHdr]
@[simp] theorem setHdr_variant (s : State) (i : Nat) (x : Hdr) : (setHdr s i x).variant = s.variant := rfl
@[simp] theorem setHdr_time (s : State) (i : Nat) (x : Hdr) : (setHdr s i x).time = s.time := rfl
@[simp] theorem setHdr_freeCtr (s : State) (i : Nat) (x : Hdr) : (setHdr s i x).freeCtr = s.freeCtr := rfl
@[simp] theorem setHdr_pending (s : State) (i : Nat) (x : Hdr) : (setHdr s i x).pending = s.pending := rfl
@[simp] theorem setHdr_out (s : State) (i : Nat) (x : Hdr) : (setHdr s i x).out = s.out := rfl
@[simp] theorem setHdr_reply (s : State) (i : Nat) (x : Hdr) : (setHdr s i x).reply = s.reply := rfl
@[simp] theorem setHdr_mem (s : State) (i : Nat) (x : Hdr) : (setHdr s i x).mem = s.mem := rfl
@[simp] theorem setHdr_glob (s : State) (i : Nat) (x : Hdr) : (setHdr s i x).glob = s.glob := rfl
@[simp] theorem setHdr_parts (s : State) (i : Nat) (x : Hdr) : (setHdr s i x).parts = s.parts := rfl
@[simp] theorem setHdr_pcie (s : State) (i : Nat) (x : Hdr) : (setHdr s i x).pcie = s.pcie := rfl
@[simp] theorem setHdr_accord (s : State) (i : Nat) (x : Hdr) : (setHdr s i x).accord = s.accord := rfl
@[simp] theorem setHdr_clusters (s : State) (i : Nat) (x : Hdr) : (setHdr s i x).clusters = s.clusters := rfl
@[simp] theorem setHdr_cores (s : State) (i : Nat) (x : Hdr) : (setHdr s i x).cores = s.cores := rfl
@[simp] theorem setHdr_net (s : State) (i : Nat) (x : Hdr) : (setHdr s i x).net = s.net := rfl
@[simp] theorem setHdr_mcs (s : State) (i : Nat) (x : Hdr) : (setHdr s i x).mcs = s.mcs := rfl
@[simp] theorem setHdr_seq (s : State) (i : Nat) (x : Hdr) : (setHdr s i x).seq = s.seq := rfl
@[simp] theorem setHdr_reports (s : State) (i : Nat) (x : Hdr) : (setHdr s i x).reports = s.reports := rfl
@[simp] theorem setHdr_queues (s : State) (i : Nat) (x : Hdr) : (setHdr s i x).queues = s.queues := rfl
@[simp] theorem setHdr_atoms (s : State) (i : Nat) (x : Hdr) : (setHdr s i x).atoms = s.atoms := rfl
@[simp] theorem setHdr_iods (s : State) (i : Nat) (x : Hdr) : (setHdr s i x).iods = s.iods := rfl
@[simp] theorem setHdr_ses (s : State) (i : Nat) (x : Hdr) : (setHdr s i x).ses = s.ses := rfl
@[simp] theorem setHdr_groups (s : State) (i : Nat) (x : Hdr) : (setHdr s i x).groups = s.groups := rfl
@[simp] theorem setHdr_grpPages (s : State) (i : Nat) (x : Hdr) : (setHdr s i x).grpPages = s.grpPages := rfl
@[simp] theorem setHdr_ports (s : State) (i : Nat) (x : Hdr) : (setHdr s i x).ports = s.ports := rfl
@[simp] theorem setHdr_faults (s : State) (i : Nat) (x : Hdr) : (setHdr s i x).faults = s.faults := rfl
@[simp] theorem setHdr_pwr (s : State) (i : Nat) (x : Hdr) : (setHdr s i x).pwr = s.pwr := rfl
@[simp] theorem setHdr_vial (s : State) (i : Nat) (x : Hdr) : (setHdr s i x).vial = s.vial := rfl
@[simp] theorem setHdr_nose (s : State) (i : Nat) (x : Hdr) : (setHdr s i x).nose = s.nose := rfl
@[simp] theorem core_setHdr (s : State) (i : Nat) (x : Hdr) (j : Nat) : core (setHdr s i x) j = core s j := rfl
@[simp] theorem cluster_setHdr (s : State) (i : Nat) (x : Hdr) (j : Nat) : cluster (setHdr s i x) j = cluster s j := rfl
@[simp] theorem part_setHdr (s : State) (i : Nat) (x : Hdr) (j : Nat) : part (setHdr s i x) j = part s j := rfl
@[simp] theorem mc_setHdr (s : State) (i : Nat) (x : Hdr) (j : Nat) : mc (setHdr s i x) j = mc s j := rfl
@[simp] theorem queue_setHdr (s : State) (i : Nat) (x : Hdr) (j : Nat) : queue (setHdr s i x) j = queue s j := rfl
@[simp] theorem atom_setHdr (s : State) (i : Nat) (x : Hdr) (j : Nat) : atom (setHdr s i x) j = atom s j := rfl
@[simp] theorem iod_setHdr (s : State) (i : Nat) (x : Hdr) (j : Nat) : iod (setHdr s i x) j = iod s j := rfl
@[simp] theorem port_setHdr (s : State) (i : Nat) (x : Hdr) (j : Nat) : port (setHdr s i x) j = port s j := rfl
@[simp] theorem se_setHdr (s : State) (i : Nat) (x : Hdr) (j : Nat) : se (setHdr s i x) j = se s j := rfl
@[simp] theorem group_setHdr (s : State) (i : Nat) (x : Hdr) (j : Nat) : group (setHdr s i x) j = group s j := rfl
@[simp] theorem grpPage_setHdr (s : State) (i : Nat) (x : Hdr) (j : Nat) : grpPage (setHdr s i x) j = grpPage s j := rfl

end Sys2Proof.Machine
end

