-- ==== Sys2Proof/Laws/Frame.lean ====
section
/-! SUPPORT. Two relations between the state before and after: `Keeps` (the variant, the queue of waiting commands and every byte of
memory are the same) and `Sound` (the variant and the queue are the same, memory keeps its canonical form), with the lemmas that
carry them through choices, folds, option results and record updates. -/

namespace Sys2Proof.Machine

/-- The variant, the queue of waiting commands and memory are the same. -/
structure Keeps (s t : State) : Prop where
  mem : t.mem = s.mem
  variant : t.variant = s.variant
  pending : t.pending = s.pending

/-- The variant and the queue of waiting commands are the same, and memory keeps its canonical form. -/
structure Sound (s t : State) : Prop where
  wf : s.mem.wf = true → t.mem.wf = true
  variant : t.variant = s.variant
  pending : t.pending = s.pending

theorem Keeps.refl (s : State) : Keeps s s := ⟨rfl, rfl, rfl⟩
theorem Sound.refl (s : State) : Sound s s := ⟨id, rfl, rfl⟩
theorem Keeps.sound {s t : State} (h : Keeps s t) : Sound s t := ⟨fun w => h.mem ▸ w, h.variant, h.pending⟩
theorem Keeps.trans {s t u : State} (h : Keeps s t) (k : Keeps t u) : Keeps s u :=
  ⟨k.mem.trans h.mem, k.variant.trans h.variant, k.pending.trans h.pending⟩
theorem Sound.trans {s t u : State} (h : Sound s t) (k : Sound t u) : Sound s u :=
  ⟨fun w => k.wf (h.wf w), k.variant.trans h.variant, k.pending.trans h.pending⟩
theorem Keeps.ite {s a b : State} {c : Prop} [Decidable c] (ha : Keeps s a) (hb : Keeps s b) : Keeps s (if c then a else b) := by
  split <;> assumption
theorem Sound.ite {s a b : State} {c : Prop} [Decidable c] (ha : Sound s a) (hb : Sound s b) : Sound s (if c then a else b) := by
  split <;> assumption
theorem Keeps.foldl {α : Type} {s b : State} {f : State → α → State} {l : List α} (hb : Keeps s b) (hf : ∀ t x, Keeps t (f t x)) :
    Keeps s (l.foldl f b) := by
  induction l generalizing b with
  | nil => exact hb
  | cons x r ih => exact ih (hb.trans (hf b x))
theorem Sound.foldl {α : Type} {s b : State} {f : State → α → State} {l : List α} (hb : Sound s b) (hf : ∀ t x, Sound t (f t x)) :
    Sound s (l.foldl f b) := by
  induction l generalizing b with
  | nil => exact hb
  | cons x r ih => exact ih (hb.trans (hf b x))
theorem Keeps.foldr {α : Type} {s b : State} {f : α → State → State} {l : List α} (hb : Keeps s b) (hf : ∀ t x, Keeps t (f x t)) :
    Keeps s (l.foldr f b) := by
  induction l with
  | nil => exact hb
  | cons x r ih => exact ih.trans (hf _ x)
theorem Sound.foldr {α : Type} {s b : State} {f : α → State → State} {l : List α} (hb : Sound s b) (hf : ∀ t x, Sound t (f x t)) :
    Sound s (l.foldr f b) := by
  induction l with
  | nil => exact hb
  | cons x r ih => exact ih.trans (hf _ x)
theorem Keeps.getD {s d : State} {o : Option State} (hd : Keeps s d) (ho : ∀ t, o = some t → Keeps s t) : Keeps s (o.getD d) := by
  cases o with
  | none => exact hd
  | some t => exact ho t rfl

/-- A record update that leaves the three fields. -/
theorem keeps_upd {s b : State} {a1 : Nat} {a2 : Nat} {a4 : (List OutMsg)} {a5 : (List Byte)} {a7 : (SMap Hdr)} {a8 : Glob} {a9 : (SMap Part)} {a10 : Pcie} {a11 : Accord} {a12 : (SMap Cluster)} {a13 : (SMap Core)} {a14 : (List NetMsg)} {a15 : (SMap Mc)} {a16 : (SMap (BitVec 128))} {a17 : (List Report)} {a18 : (SMap Queue)} {a19 : (SMap Atom)} {a20 : (SMap Iod)} {a21 : (SMap Se)} {a22 : (SMap Group)} {a23 : (SMap GrpPage)} {a24 : (SMap Port)} {a25 : FaultLog} {a26 : Pwr} {a27 : Vial} {a28 : Nose} :
    Keeps s (State.mk b.variant a1 a2 b.pending a4 a5 b.mem a7 a8 a9 a10 a11 a12 a13 a14 a15 a16 a17 a18 a19 a20 a21 a22 a23 a24 a25 a26 a27 a28) ↔ Keeps s b :=
  ⟨fun h => ⟨h.mem, h.variant, h.pending⟩, fun h => ⟨h.mem, h.variant, h.pending⟩⟩
theorem sound_upd {s b : State} {a1 : Nat} {a2 : Nat} {a4 : (List OutMsg)} {a5 : (List Byte)} {a7 : (SMap Hdr)} {a8 : Glob} {a9 : (SMap Part)} {a10 : Pcie} {a11 : Accord} {a12 : (SMap Cluster)} {a13 : (SMap Core)} {a14 : (List NetMsg)} {a15 : (SMap Mc)} {a16 : (SMap (BitVec 128))} {a17 : (List Report)} {a18 : (SMap Queue)} {a19 : (SMap Atom)} {a20 : (SMap Iod)} {a21 : (SMap Se)} {a22 : (SMap Group)} {a23 : (SMap GrpPage)} {a24 : (SMap Port)} {a25 : FaultLog} {a26 : Pwr} {a27 : Vial} {a28 : Nose} :
    Sound s (State.mk b.variant a1 a2 b.pending a4 a5 b.mem a7 a8 a9 a10 a11 a12 a13 a14 a15 a16 a17 a18 a19 a20 a21 a22 a23 a24 a25 a26 a27 a28) ↔ Sound s b :=
  ⟨fun h => ⟨h.wf, h.variant, h.pending⟩, fun h => ⟨h.wf, h.variant, h.pending⟩⟩
/-- A record update that writes memory. -/
theorem Sound.updMem {s b : State} {a1 : Nat} {a2 : Nat} {a4 : (List OutMsg)} {a5 : (List Byte)} {a7 : (SMap Hdr)} {a8 : Glob} {a9 : (SMap Part)} {a10 : Pcie} {a11 : Accord} {a12 : (SMap Cluster)} {a13 : (SMap Core)} {a14 : (List NetMsg)} {a15 : (SMap Mc)} {a16 : (SMap (BitVec 128))} {a17 : (List Report)} {a18 : (SMap Queue)} {a19 : (SMap Atom)} {a20 : (SMap Iod)} {a21 : (SMap Se)} {a22 : (SMap Group)} {a23 : (SMap GrpPage)} {a24 : (SMap Port)} {a25 : FaultLog} {a26 : Pwr} {a27 : Vial} {a28 : Nose} {m : Mem}
    (h : Sound s b) (hm : b.mem.wf = true → m.wf = true) :
    Sound s (State.mk b.variant a1 a2 b.pending a4 a5 m a7 a8 a9 a10 a11 a12 a13 a14 a15 a16 a17 a18 a19 a20 a21 a22 a23 a24 a25 a26 a27 a28) :=
  ⟨fun w => hm (h.wf w), h.variant, h.pending⟩

end Sys2Proof.Machine
end

