-- ==== Sys2Proof/Laws/MemoryOps.lean ====
section
/-! SUPPORT. The typed writes of the machine (tiles, tensor elements, reductions in place) keep the canonical form of memory. -/

namespace Sys2Proof.Machine

set_option linter.all false

theorem writeTileFrom_wf (n t ncol i : Nat) (vs : List Nat) {m : Mem} (h : m.wf = true) : (writeTileFrom n t ncol i vs m).wf = true := by
  induction vs generalizing i m with
  | nil => exact h
  | cons x r ih =>
    unfold writeTileFrom
    apply ih
    split
    · exact writeLe_wf h _ _ _
    · exact h

theorem writeTile_wf {m : Mem} (h : m.wf = true) (n t ncol : Nat) (vs : List Nat) : (writeTile m n t ncol vs).wf = true :=
  writeTileFrom_wf n t ncol 0 vs h

theorem putVals_wf {m : Mem} (h : m.wf = true) (d : Desc) (vs : List Nat) : (putVals m d vs).wf = true :=
  wf_foldl (fun _ _ hm => writeLe_wf hm _ _ _) _ h

theorem putBits_wf (s : State) (n : Nat) (b : PBase) {m : Mem} (h : m.wf = true) (o : Int) (w x : Nat) : (putBits s n b m o w x).wf = true :=
  writeCells_wf h _

theorem reduceAt_wf {m : Mem} (h : m.wf = true) (t : Nat) (mx : Bool) (a x : Nat) : (reduceAt m t mx a x).wf = true := writeLe_wf h _ _ _

end Sys2Proof.Machine
end

