-- ==== Sys2Proof/Laws/KeepsBase.lean ====
section
/-! SUPPORT. What every operation leaves alone (the shared operations: headers, errors, reset and core state): `f_keeps` says that memory, the variant and the queue
stay, `f_sound` that the variant and the queue stay and memory keeps its canonical form. -/

namespace Sys2Proof.Machine

set_option linter.all false

theorem abandonCores_keeps {t0 : State} {s : State} {p : Nat} (hk : Keeps t0 s) : Keeps t0 (abandonCores s p) := by
  unfold abandonCores
  try dsimp only
  repeat' (first
    | (intro _) | (with_reducible exact Keeps.refl _) | (with_reducible assumption) | (with_reducible apply Keeps.ite)
    | (simp only [keeps_upd]) | (with_reducible apply Keeps.foldl) | (with_reducible apply Keeps.foldr) | (split))

theorem abandonCores_sound {t0 : State} {s : State} {p : Nat} (hk : Sound t0 s) : Sound t0
    (abandonCores s p) := hk.trans (abandonCores_keeps (Keeps.refl _)).sound

theorem fencePorts_keeps {t0 : State} {s : State} {p : Nat} (hk : Keeps t0 s) : Keeps t0 (fencePorts s p) := by
  unfold fencePorts
  try dsimp only
  repeat' (first
    | (intro _) | (with_reducible exact Keeps.refl _) | (with_reducible assumption) | (with_reducible apply Keeps.ite)
    | (simp only [keeps_upd]) | (with_reducible apply Keeps.foldl) | (with_reducible apply Keeps.foldr) | (split))

theorem fencePorts_sound {t0 : State} {s : State} {p : Nat} (hk : Sound t0 s) : Sound t0 (fencePorts s p) := hk.trans
    (fencePorts_keeps (Keeps.refl _)).sound

theorem bumpFree_keeps {t0 : State} {s : State} (hk : Keeps t0 s) : Keeps t0 (bumpFree s) := by
  unfold bumpFree
  try dsimp only
  repeat' (first
    | (intro _) | (with_reducible exact Keeps.refl _) | (with_reducible assumption) | (with_reducible apply Keeps.ite)
    | (simp only [keeps_upd]) | (with_reducible apply Keeps.foldl) | (with_reducible apply Keeps.foldr) | (split))

theorem bumpFree_sound {t0 : State} {s : State} (hk : Sound t0 s) : Sound t0 (bumpFree s) := hk.trans (bumpFree_keeps
    (Keeps.refl _)).sound

theorem loseRanges_sound {t0 : State} {s : State} {rs : List (Nat × Nat)} (hk : Sound t0 s) : Sound t0
    (loseRanges s rs) := by
  unfold loseRanges
  try dsimp only
  repeat' (first
    | (intro _) | (with_reducible exact Sound.refl _) | (with_reducible assumption) | (with_reducible apply Sound.ite)
    | (with_reducible apply bumpFree_sound) | (simp only [sound_upd]) | (with_reducible apply Sound.foldl)
    | (with_reducible apply Sound.foldr) | (with_reducible exact id) | (with_reducible apply writeByte_wf)
    | (with_reducible apply writeBytes_wf) | (with_reducible apply writeCells_wf) | (with_reducible apply writeLe_wf)
    | (with_reducible apply clearRange_wf) | (with_reducible apply loseRange_wf) | (with_reducible apply clearHole_wf)
    | (with_reducible apply coverHole_wf) | (with_reducible apply writeTile_wf) | (with_reducible apply reduceAt_wf)
    | (with_reducible apply putVals_wf) | (with_reducible apply wf_foldl) | (split)
    | (with_reducible apply Sound.updMem))

theorem loseOpen_sound {t0 : State} {s : State} {p : Nat} (hk : Sound t0 s) : Sound t0 (loseOpen s p) := by
  unfold loseOpen
  try dsimp only
  repeat' (first
    | (intro _) | (with_reducible exact Sound.refl _) | (with_reducible assumption) | (with_reducible apply Sound.ite)
    | (with_reducible apply loseRanges_sound) | (simp only [sound_upd]) | (with_reducible apply Sound.foldl)
    | (with_reducible apply Sound.foldr) | (split))

theorem cancelContexts_keeps {t0 : State} {s : State} {p : Nat} (hk : Keeps t0 s) : Keeps t0 (cancelContexts s p) := by
  unfold cancelContexts
  try dsimp only
  repeat' (first
    | (intro _) | (with_reducible exact Keeps.refl _) | (with_reducible assumption) | (with_reducible apply Keeps.ite)
    | (simp only [keeps_upd]) | (with_reducible apply Keeps.foldl) | (with_reducible apply Keeps.foldr) | (split))

theorem cancelContexts_sound {t0 : State} {s : State} {p : Nat} (hk : Sound t0 s) : Sound t0
    (cancelContexts s p) := hk.trans (cancelContexts_keeps (Keeps.refl _)).sound

theorem abandonEngines_sound {t0 : State} {s : State} {p : Nat} (hk : Sound t0 s) : Sound t0 (abandonEngines s p) := by
  unfold abandonEngines
  try dsimp only
  repeat' (first
    | (intro _) | (with_reducible exact Sound.refl _) | (with_reducible assumption) | (with_reducible apply Sound.ite)
    | (with_reducible apply fencePorts_sound) | (with_reducible apply loseOpen_sound)
    | (with_reducible apply cancelContexts_sound) | (simp only [sound_upd]) | (with_reducible apply Sound.foldl)
    | (with_reducible apply Sound.foldr) | (split))

theorem addEvent_keeps {t0 : State} {s : State} {pageId : Nat} {kind : Nat} {bit : Nat} {code : Nat} {info : Nat}
    (hk : Keeps t0 s) : Keeps t0 (addEvent s pageId kind bit code info) := by
  unfold addEvent
  try dsimp only
  repeat' (first
    | (intro _) | (with_reducible exact Keeps.refl _) | (with_reducible assumption) | (with_reducible apply Keeps.ite)
    | (simp only [keeps_upd]) | (with_reducible apply Keeps.foldl) | (with_reducible apply Keeps.foldr) | (split))

theorem addEvent_sound {t0 : State} {s : State} {pageId : Nat} {kind : Nat} {bit : Nat} {code : Nat} {info : Nat}
    (hk : Sound t0 s) : Sound t0 (addEvent s pageId kind bit code info) := hk.trans (addEvent_keeps (Keeps.refl _)).sound

theorem logRaise_keeps {t0 : State} {s : State} {p : Nat} {code : Nat} {n : Nat} (hk : Keeps t0 s) : Keeps t0
    (logRaise s p code n) := by
  unfold logRaise
  try dsimp only
  repeat' (first
    | (intro _) | (with_reducible exact Keeps.refl _) | (with_reducible assumption) | (with_reducible apply Keeps.ite)
    | (with_reducible apply addEvent_keeps) | (simp only [keeps_upd]) | (with_reducible apply Keeps.foldl)
    | (with_reducible apply Keeps.foldr) | (split))

theorem logRaise_sound {t0 : State} {s : State} {p : Nat} {code : Nat} {n : Nat} (hk : Sound t0 s) : Sound t0
    (logRaise s p code n) := hk.trans (logRaise_keeps (Keeps.refl _)).sound

theorem setHdr_keeps {t0 : State} {s : State} {p : Nat} {h : Hdr} (hk : Keeps t0 s) : Keeps t0 (setHdr s p h) := by
  unfold setHdr
  try dsimp only
  repeat' (first
    | (intro _) | (with_reducible exact Keeps.refl _) | (with_reducible assumption) | (with_reducible apply Keeps.ite)
    | (simp only [keeps_upd]) | (with_reducible apply Keeps.foldl) | (with_reducible apply Keeps.foldr) | (split))

theorem setHdr_sound {t0 : State} {s : State} {p : Nat} {h : Hdr} (hk : Sound t0 s) : Sound t0
    (setHdr s p h) := hk.trans (setHdr_keeps (Keeps.refl _)).sound

theorem sendMsi_keeps {t0 : State} {s : State} {v : Nat} (hk : Keeps t0 s) : Keeps t0 (sendMsi s v) := by
  unfold sendMsi
  try dsimp only
  repeat' (first
    | (intro _) | (with_reducible exact Keeps.refl _) | (with_reducible assumption) | (with_reducible apply Keeps.ite)
    | (simp only [keeps_upd]) | (with_reducible apply Keeps.foldl) | (with_reducible apply Keeps.foldr) | (split))

theorem sendMsi_sound {t0 : State} {s : State} {v : Nat} (hk : Sound t0 s) : Sound t0 (sendMsi s v) := hk.trans
    (sendMsi_keeps (Keeps.refl _)).sound

theorem sendMsis_keeps {t0 : State} {s : State} {v : Nat} {a2 : Nat} (hk : Keeps t0 s) : Keeps t0 (sendMsis s v a2) := by
  induction a2 generalizing s v with
  | zero =>
    rw [sendMsis]
    try dsimp only
    repeat' (first
      | (intro _) | (with_reducible exact Keeps.refl _) | (with_reducible assumption)
      | (with_reducible apply Keeps.ite) | (with_reducible apply sendMsi_keeps) | (simp only [keeps_upd])
      | (with_reducible apply Keeps.foldl) | (with_reducible apply Keeps.foldr) | (split))
  | succ k ih =>
    rw [sendMsis]
    try dsimp only
    repeat' (first
      | (intro _) | (with_reducible exact Keeps.refl _) | (with_reducible assumption)
      | (with_reducible apply Keeps.ite) | (with_reducible apply sendMsi_keeps) | (with_reducible apply ih)
      | (simp only [keeps_upd]) | (with_reducible apply Keeps.foldl) | (with_reducible apply Keeps.foldr) | (split))

theorem sendMsis_sound {t0 : State} {s : State} {v : Nat} {a2 : Nat} (hk : Sound t0 s) : Sound t0
    (sendMsis s v a2) := hk.trans (sendMsis_keeps (Keeps.refl _)).sound

theorem putEvt_keeps {t0 : State} {s : State} {p : Nat} {h : Hdr} {fresh : W32} (hk : Keeps t0 s) : Keeps t0
    (putEvt s p h fresh) := by
  unfold putEvt
  try dsimp only
  repeat' (first
    | (intro _) | (with_reducible exact Keeps.refl _) | (with_reducible assumption) | (with_reducible apply Keeps.ite)
    | (with_reducible apply setHdr_keeps) | (with_reducible apply sendMsis_keeps) | (simp only [keeps_upd])
    | (with_reducible apply Keeps.foldl) | (with_reducible apply Keeps.foldr) | (split))

theorem putEvt_sound {t0 : State} {s : State} {p : Nat} {h : Hdr} {fresh : W32} (hk : Sound t0 s) : Sound t0
    (putEvt s p h fresh) := hk.trans (putEvt_keeps (Keeps.refl _)).sound

theorem raiseCode_keeps {t0 : State} {s : State} {p : Nat} {m : W32} {code : Nat} (hk : Keeps t0 s) : Keeps t0
    (raiseCode s p m code) := by
  unfold raiseCode
  try dsimp only
  repeat' (first
    | (intro _) | (with_reducible exact Keeps.refl _) | (with_reducible assumption) | (with_reducible apply Keeps.ite)
    | (with_reducible apply logRaise_keeps) | (with_reducible apply putEvt_keeps) | (simp only [keeps_upd])
    | (with_reducible apply Keeps.foldl) | (with_reducible apply Keeps.foldr) | (split))

theorem raiseCode_sound {t0 : State} {s : State} {p : Nat} {m : W32} {code : Nat} (hk : Sound t0 s) : Sound t0
    (raiseCode s p m code) := hk.trans (raiseCode_keeps (Keeps.refl _)).sound

theorem raiseMask_keeps {t0 : State} {s : State} {p : Nat} {m : W32} (hk : Keeps t0 s) : Keeps t0 (raiseMask s p m) := by
  unfold raiseMask
  try dsimp only
  repeat' (first
    | (intro _) | (with_reducible exact Keeps.refl _) | (with_reducible assumption) | (with_reducible apply Keeps.ite)
    | (with_reducible apply raiseCode_keeps) | (simp only [keeps_upd]) | (with_reducible apply Keeps.foldl)
    | (with_reducible apply Keeps.foldr) | (split))

theorem raiseMask_sound {t0 : State} {s : State} {p : Nat} {m : W32} (hk : Sound t0 s) : Sound t0
    (raiseMask s p m) := hk.trans (raiseMask_keeps (Keeps.refl _)).sound

theorem raiseEvt_keeps {t0 : State} {s : State} {p : Nat} {n : Nat} (hk : Keeps t0 s) : Keeps t0 (raiseEvt s p n) := by
  unfold raiseEvt
  try dsimp only
  repeat' (first
    | (intro _) | (with_reducible exact Keeps.refl _) | (with_reducible assumption) | (with_reducible apply Keeps.ite)
    | (with_reducible apply raiseMask_keeps) | (simp only [keeps_upd]) | (with_reducible apply Keeps.foldl)
    | (with_reducible apply Keeps.foldr) | (split))

theorem raiseEvt_sound {t0 : State} {s : State} {p : Nat} {n : Nat} (hk : Sound t0 s) : Sound t0
    (raiseEvt s p n) := hk.trans (raiseEvt_keeps (Keeps.refl _)).sound

theorem settleFull_keeps {t0 : State} {s : State} (hk : Keeps t0 s) : Keeps t0 (settleFull s) := by
  unfold settleFull
  try dsimp only
  repeat' (first
    | (intro _) | (with_reducible exact Keeps.refl _) | (with_reducible assumption) | (with_reducible apply Keeps.ite)
    | (with_reducible apply raiseEvt_keeps) | (simp only [keeps_upd]) | (with_reducible apply Keeps.foldl)
    | (with_reducible apply Keeps.foldr) | (split))

theorem settleFull_sound {t0 : State} {s : State} (hk : Sound t0 s) : Sound t0 (settleFull s) := hk.trans
    (settleFull_keeps (Keeps.refl _)).sound

theorem abandonPart_sound {t0 : State} {s : State} {p : Nat} (hk : Sound t0 s) : Sound t0 (abandonPart s p) := by
  unfold abandonPart
  try dsimp only
  repeat' (first
    | (intro _) | (with_reducible exact Sound.refl _) | (with_reducible assumption) | (with_reducible apply Sound.ite)
    | (with_reducible apply settleFull_sound) | (with_reducible apply abandonEngines_sound)
    | (with_reducible apply abandonCores_sound) | (simp only [sound_upd]) | (with_reducible apply Sound.foldl)
    | (with_reducible apply Sound.foldr) | (split))

theorem setIod_keeps {t0 : State} {s : State} {x : Nat} {d : Iod} (hk : Keeps t0 s) : Keeps t0 (setIod s x d) := by
  unfold setIod
  try dsimp only
  repeat' (first
    | (intro _) | (with_reducible exact Keeps.refl _) | (with_reducible assumption) | (with_reducible apply Keeps.ite)
    | (simp only [keeps_upd]) | (with_reducible apply Keeps.foldl) | (with_reducible apply Keeps.foldr) | (split))

theorem setIod_sound {t0 : State} {s : State} {x : Nat} {d : Iod} (hk : Sound t0 s) : Sound t0
    (setIod s x d) := hk.trans (setIod_keeps (Keeps.refl _)).sound

theorem modIod_keeps {t0 : State} {s : State} {x : Nat} {f : Iod → Iod} (hk : Keeps t0 s) : Keeps t0 (modIod s x f) := by
  unfold modIod
  try dsimp only
  repeat' (first
    | (intro _) | (with_reducible exact Keeps.refl _) | (with_reducible assumption) | (with_reducible apply Keeps.ite)
    | (with_reducible apply setIod_keeps) | (simp only [keeps_upd]) | (with_reducible apply Keeps.foldl)
    | (with_reducible apply Keeps.foldr) | (split))

theorem modIod_sound {t0 : State} {s : State} {x : Nat} {f : Iod → Iod} (hk : Sound t0 s) : Sound t0
    (modIod s x f) := hk.trans (modIod_keeps (Keeps.refl _)).sound

theorem setPort_keeps {t0 : State} {s : State} {i : Nat} {x : Port} (hk : Keeps t0 s) : Keeps t0 (setPort s i x) := by
  unfold setPort
  try dsimp only
  repeat' (first
    | (intro _) | (with_reducible exact Keeps.refl _) | (with_reducible assumption) | (with_reducible apply Keeps.ite)
    | (simp only [keeps_upd]) | (with_reducible apply Keeps.foldl) | (with_reducible apply Keeps.foldr) | (split))

theorem setPort_sound {t0 : State} {s : State} {i : Nat} {x : Port} (hk : Sound t0 s) : Sound t0
    (setPort s i x) := hk.trans (setPort_keeps (Keeps.refl _)).sound

theorem modPort_keeps {t0 : State} {s : State} {i : Nat} {f : Port → Port} (hk : Keeps t0 s) : Keeps t0 (modPort s i f) := by
  unfold modPort
  try dsimp only
  repeat' (first
    | (intro _) | (with_reducible exact Keeps.refl _) | (with_reducible assumption) | (with_reducible apply Keeps.ite)
    | (with_reducible apply setPort_keeps) | (simp only [keeps_upd]) | (with_reducible apply Keeps.foldl)
    | (with_reducible apply Keeps.foldr) | (split))

theorem modPort_sound {t0 : State} {s : State} {i : Nat} {f : Port → Port} (hk : Sound t0 s) : Sound t0
    (modPort s i f) := hk.trans (modPort_keeps (Keeps.refl _)).sound

theorem mctpOut_keeps {t0 : State} {s : State} {b : Nat} {e : Nat} {ty : Nat} {bytes : List Byte}
    (hk : Keeps t0 s) : Keeps t0 (mctpOut s b e ty bytes) := by
  unfold mctpOut
  try dsimp only
  repeat' (first
    | (intro _) | (with_reducible exact Keeps.refl _) | (with_reducible assumption) | (with_reducible apply Keeps.ite)
    | (simp only [keeps_upd]) | (with_reducible apply Keeps.foldl) | (with_reducible apply Keeps.foldr) | (split))

theorem mctpOut_sound {t0 : State} {s : State} {b : Nat} {e : Nat} {ty : Nat} {bytes : List Byte}
    (hk : Sound t0 s) : Sound t0 (mctpOut s b e ty bytes) := hk.trans (mctpOut_keeps (Keeps.refl _)).sound

theorem platformEvent_keeps {t0 : State} {s : State} {cls : Nat} {bytes : List Byte} (hk : Keeps t0 s) : Keeps t0
    (platformEvent s cls bytes) := by
  unfold platformEvent
  try dsimp only
  repeat' (first
    | (intro _) | (with_reducible exact Keeps.refl _) | (with_reducible assumption) | (with_reducible apply Keeps.ite)
    | (with_reducible apply mctpOut_keeps) | (simp only [keeps_upd]) | (with_reducible apply Keeps.foldl)
    | (with_reducible apply Keeps.foldr) | (split))

theorem platformEvent_sound {t0 : State} {s : State} {cls : Nat} {bytes : List Byte} (hk : Sound t0 s) : Sound t0
    (platformEvent s cls bytes) := hk.trans (platformEvent_keeps (Keeps.refl _)).sound

theorem blotterEvent_keeps {t0 : State} {s : State} {b : Blotter} (hk : Keeps t0 s) : Keeps t0 (blotterEvent s b) := by
  unfold blotterEvent
  try dsimp only
  repeat' (first
    | (intro _) | (with_reducible exact Keeps.refl _) | (with_reducible assumption) | (with_reducible apply Keeps.ite)
    | (with_reducible apply platformEvent_keeps) | (simp only [keeps_upd]) | (with_reducible apply Keeps.foldl)
    | (with_reducible apply Keeps.foldr) | (split))

theorem blotterEvent_sound {t0 : State} {s : State} {b : Blotter} (hk : Sound t0 s) : Sound t0
    (blotterEvent s b) := hk.trans (blotterEvent_keeps (Keeps.refl _)).sound

theorem writeBlotter_keeps {t0 : State} {s : State} {b : Blotter} (hk : Keeps t0 s) : Keeps t0 (writeBlotter s b) := by
  unfold writeBlotter
  try dsimp only
  repeat' (first
    | (intro _) | (with_reducible exact Keeps.refl _) | (with_reducible assumption) | (with_reducible apply Keeps.ite)
    | (with_reducible apply raiseEvt_keeps) | (with_reducible apply blotterEvent_keeps)
    | (with_reducible apply addEvent_keeps) | (simp only [keeps_upd]) | (with_reducible apply Keeps.foldl)
    | (with_reducible apply Keeps.foldr) | (split))

theorem writeBlotter_sound {t0 : State} {s : State} {b : Blotter} (hk : Sound t0 s) : Sound t0
    (writeBlotter s b) := hk.trans (writeBlotter_keeps (Keeps.refl _)).sound

theorem issueBlotter_keeps {t0 : State} {s : State} {b : Blotter} (hk : Keeps t0 s) : Keeps t0 (issueBlotter s b) := by
  unfold issueBlotter
  try dsimp only
  repeat' (first
    | (intro _) | (with_reducible exact Keeps.refl _) | (with_reducible assumption) | (with_reducible apply Keeps.ite)
    | (with_reducible apply writeBlotter_keeps) | (simp only [keeps_upd]) | (with_reducible apply Keeps.foldl)
    | (with_reducible apply Keeps.foldr) | (split))

theorem issueBlotter_sound {t0 : State} {s : State} {b : Blotter} (hk : Sound t0 s) : Sound t0
    (issueBlotter s b) := hk.trans (issueBlotter_keeps (Keeps.refl _)).sound

theorem correctedMany_keeps {t0 : State} {s : State} {page : Nat} {n : Nat} {b : Blotter}
    (hk : Keeps t0 s) : Keeps t0 (correctedMany s page n b) := by
  unfold correctedMany
  try dsimp only
  repeat' (first
    | (intro _) | (with_reducible exact Keeps.refl _) | (with_reducible assumption) | (with_reducible apply Keeps.ite)
    | (with_reducible apply issueBlotter_keeps) | (simp only [keeps_upd]) | (with_reducible apply Keeps.foldl)
    | (with_reducible apply Keeps.foldr) | (split))

theorem correctedMany_sound {t0 : State} {s : State} {page : Nat} {n : Nat} {b : Blotter}
    (hk : Sound t0 s) : Sound t0 (correctedMany s page n b) := hk.trans (correctedMany_keeps (Keeps.refl _)).sound

theorem recordErr_keeps {t0 : State} {s : State} {p : Nat} {code : Nat} {lo : Nat} {hi : Nat}
    (hk : Keeps t0 s) : Keeps t0 (recordErr s p code lo hi) := by
  unfold recordErr
  try dsimp only
  repeat' (first
    | (intro _) | (with_reducible exact Keeps.refl _) | (with_reducible assumption) | (with_reducible apply Keeps.ite)
    | (with_reducible apply raiseCode_keeps) | (with_reducible apply setHdr_keeps) | (simp only [keeps_upd])
    | (with_reducible apply Keeps.foldl) | (with_reducible apply Keeps.foldr) | (split))

theorem recordErr_sound {t0 : State} {s : State} {p : Nat} {code : Nat} {lo : Nat} {hi : Nat}
    (hk : Sound t0 s) : Sound t0 (recordErr s p code lo hi) := hk.trans (recordErr_keeps (Keeps.refl _)).sound

theorem setPart_keeps {t0 : State} {s : State} {p : Nat} {x : Part} (hk : Keeps t0 s) : Keeps t0 (setPart s p x) := by
  unfold setPart
  try dsimp only
  repeat' (first
    | (intro _) | (with_reducible exact Keeps.refl _) | (with_reducible assumption) | (with_reducible apply Keeps.ite)
    | (simp only [keeps_upd]) | (with_reducible apply Keeps.foldl) | (with_reducible apply Keeps.foldr) | (split))

theorem setPart_sound {t0 : State} {s : State} {p : Nat} {x : Part} (hk : Sound t0 s) : Sound t0
    (setPart s p x) := hk.trans (setPart_keeps (Keeps.refl _)).sound

theorem modPart_keeps {t0 : State} {s : State} {p : Nat} {f : Part → Part} (hk : Keeps t0 s) : Keeps t0 (modPart s p f) := by
  unfold modPart
  try dsimp only
  repeat' (first
    | (intro _) | (with_reducible exact Keeps.refl _) | (with_reducible assumption) | (with_reducible apply Keeps.ite)
    | (with_reducible apply setPart_keeps) | (simp only [keeps_upd]) | (with_reducible apply Keeps.foldl)
    | (with_reducible apply Keeps.foldr) | (split))

theorem modPart_sound {t0 : State} {s : State} {p : Nat} {f : Part → Part} (hk : Sound t0 s) : Sound t0
    (modPart s p f) := hk.trans (modPart_keeps (Keeps.refl _)).sound

theorem setMc_keeps {t0 : State} {s : State} {i : Nat} {x : Mc} (hk : Keeps t0 s) : Keeps t0 (setMc s i x) := by
  unfold setMc
  try dsimp only
  repeat' (first
    | (intro _) | (with_reducible exact Keeps.refl _) | (with_reducible assumption) | (with_reducible apply Keeps.ite)
    | (simp only [keeps_upd]) | (with_reducible apply Keeps.foldl) | (with_reducible apply Keeps.foldr) | (split))

theorem setMc_sound {t0 : State} {s : State} {i : Nat} {x : Mc} (hk : Sound t0 s) : Sound t0
    (setMc s i x) := hk.trans (setMc_keeps (Keeps.refl _)).sound

theorem modMc_keeps {t0 : State} {s : State} {i : Nat} {f : Mc → Mc} (hk : Keeps t0 s) : Keeps t0 (modMc s i f) := by
  unfold modMc
  try dsimp only
  repeat' (first
    | (intro _) | (with_reducible exact Keeps.refl _) | (with_reducible assumption) | (with_reducible apply Keeps.ite)
    | (with_reducible apply setMc_keeps) | (simp only [keeps_upd]) | (with_reducible apply Keeps.foldl)
    | (with_reducible apply Keeps.foldr) | (split))

theorem modMc_sound {t0 : State} {s : State} {i : Nat} {f : Mc → Mc} (hk : Sound t0 s) : Sound t0
    (modMc s i f) := hk.trans (modMc_keeps (Keeps.refl _)).sound

theorem imbStart_keeps {t0 : State} {s : State} {i : Nat} (hk : Keeps t0 s) : Keeps t0 (imbStart s i) := by
  unfold imbStart
  try dsimp only
  repeat' (first
    | (intro _) | (with_reducible exact Keeps.refl _) | (with_reducible assumption) | (with_reducible apply Keeps.ite)
    | (with_reducible apply modMc_keeps) | (simp only [keeps_upd]) | (with_reducible apply Keeps.foldl)
    | (with_reducible apply Keeps.foldr) | (split))

theorem imbStart_sound {t0 : State} {s : State} {i : Nat} (hk : Sound t0 s) : Sound t0 (imbStart s i) := hk.trans
    (imbStart_keeps (Keeps.refl _)).sound

theorem setCluster_keeps {t0 : State} {s : State} {g : Nat} {c : Cluster} (hk : Keeps t0 s) : Keeps t0
    (setCluster s g c) := by
  unfold setCluster
  try dsimp only
  repeat' (first
    | (intro _) | (with_reducible exact Keeps.refl _) | (with_reducible assumption) | (with_reducible apply Keeps.ite)
    | (simp only [keeps_upd]) | (with_reducible apply Keeps.foldl) | (with_reducible apply Keeps.foldr) | (split))

theorem setCluster_sound {t0 : State} {s : State} {g : Nat} {c : Cluster} (hk : Sound t0 s) : Sound t0
    (setCluster s g c) := hk.trans (setCluster_keeps (Keeps.refl _)).sound

theorem modCluster_keeps {t0 : State} {s : State} {g : Nat} {f : Cluster → Cluster} (hk : Keeps t0 s) : Keeps t0
    (modCluster s g f) := by
  unfold modCluster
  try dsimp only
  repeat' (first
    | (intro _) | (with_reducible exact Keeps.refl _) | (with_reducible assumption) | (with_reducible apply Keeps.ite)
    | (with_reducible apply setCluster_keeps) | (simp only [keeps_upd]) | (with_reducible apply Keeps.foldl)
    | (with_reducible apply Keeps.foldr) | (split))

theorem modCluster_sound {t0 : State} {s : State} {g : Nat} {f : Cluster → Cluster} (hk : Sound t0 s) : Sound t0
    (modCluster s g f) := hk.trans (modCluster_keeps (Keeps.refl _)).sound

theorem setCore_keeps {t0 : State} {s : State} {n : Nat} {c : Core} (hk : Keeps t0 s) : Keeps t0 (setCore s n c) := by
  unfold setCore
  try dsimp only
  repeat' (first
    | (intro _) | (with_reducible exact Keeps.refl _) | (with_reducible assumption) | (with_reducible apply Keeps.ite)
    | (simp only [keeps_upd]) | (with_reducible apply Keeps.foldl) | (with_reducible apply Keeps.foldr) | (split))

theorem setCore_sound {t0 : State} {s : State} {n : Nat} {c : Core} (hk : Sound t0 s) : Sound t0
    (setCore s n c) := hk.trans (setCore_keeps (Keeps.refl _)).sound

theorem predict_keeps {t0 : State} {s : State} {n : Nat} (hk : Keeps t0 s) : Keeps t0 (predict s n) := by
  unfold predict
  try dsimp only
  repeat' (first
    | (intro _) | (with_reducible exact Keeps.refl _) | (with_reducible assumption) | (with_reducible apply Keeps.ite)
    | (with_reducible apply modCluster_keeps) | (with_reducible apply setCore_keeps) | (simp only [keeps_upd])
    | (with_reducible apply Keeps.foldl) | (with_reducible apply Keeps.foldr) | (split))

theorem predict_sound {t0 : State} {s : State} {n : Nat} (hk : Sound t0 s) : Sound t0 (predict s n) := hk.trans
    (predict_keeps (Keeps.refl _)).sound

theorem modCore_keeps {t0 : State} {s : State} {n : Nat} {f : Core → Core} (hk : Keeps t0 s) : Keeps t0 (modCore s n f) := by
  unfold modCore
  try dsimp only
  repeat' (first
    | (intro _) | (with_reducible exact Keeps.refl _) | (with_reducible assumption) | (with_reducible apply Keeps.ite)
    | (with_reducible apply setCore_keeps) | (simp only [keeps_upd]) | (with_reducible apply Keeps.foldl)
    | (with_reducible apply Keeps.foldr) | (split))

theorem modCore_sound {t0 : State} {s : State} {n : Nat} {f : Core → Core} (hk : Sound t0 s) : Sound t0
    (modCore s n f) := hk.trans (modCore_keeps (Keeps.refl _)).sound

theorem admitWake_keeps {t0 : State} {s : State} {w : WakeReq} (hk : Keeps t0 s) : Keeps t0 (admitWake s w) := by
  unfold admitWake
  try dsimp only
  repeat' (first
    | (intro _) | (with_reducible exact Keeps.refl _) | (with_reducible assumption) | (with_reducible apply Keeps.ite)
    | (with_reducible apply modCore_keeps) | (simp only [keeps_upd]) | (with_reducible apply Keeps.foldl)
    | (with_reducible apply Keeps.foldr) | (split))

theorem admitWake_sound {t0 : State} {s : State} {w : WakeReq} (hk : Sound t0 s) : Sound t0
    (admitWake s w) := hk.trans (admitWake_keeps (Keeps.refl _)).sound

theorem admitAll_keeps {t0 : State} {a0 : Nat} {a1 : State} (hk : Keeps t0 a1) : Keeps t0 (admitAll a0 a1) := by
  induction a0 generalizing a1 with
  | zero =>
    rw [admitAll]
    try dsimp only
    repeat' (first
      | (intro _) | (with_reducible exact Keeps.refl _) | (with_reducible assumption)
      | (with_reducible apply Keeps.ite) | (with_reducible apply admitWake_keeps) | (simp only [keeps_upd])
      | (with_reducible apply Keeps.foldl) | (with_reducible apply Keeps.foldr) | (split))
  | succ k ih =>
    rw [admitAll]
    try dsimp only
    repeat' (first
      | (intro _) | (with_reducible exact Keeps.refl _) | (with_reducible assumption)
      | (with_reducible apply Keeps.ite) | (with_reducible apply admitWake_keeps) | (with_reducible apply ih)
      | (simp only [keeps_upd]) | (with_reducible apply Keeps.foldl) | (with_reducible apply Keeps.foldr) | (split))

theorem admitAll_sound {t0 : State} {a0 : Nat} {a1 : State} (hk : Sound t0 a1) : Sound t0
    (admitAll a0 a1) := hk.trans (admitAll_keeps (Keeps.refl _)).sound

theorem openWindow_keeps {t0 : State} {s : State} (hk : Keeps t0 s) : Keeps t0 (openWindow s) := by
  unfold openWindow
  try dsimp only
  repeat' (first
    | (intro _) | (with_reducible exact Keeps.refl _) | (with_reducible assumption) | (with_reducible apply Keeps.ite)
    | (with_reducible apply admitAll_keeps) | (simp only [keeps_upd]) | (with_reducible apply Keeps.foldl)
    | (with_reducible apply Keeps.foldr) | (split))

theorem openWindow_sound {t0 : State} {s : State} (hk : Sound t0 s) : Sound t0 (openWindow s) := hk.trans
    (openWindow_keeps (Keeps.refl _)).sound

theorem requestWake_keeps {t0 : State} {s : State} {n : Nat} {toState : Nat} {pred : Bool}
    (hk : Keeps t0 s) : Keeps t0 (requestWake s n toState pred) := by
  unfold requestWake
  try dsimp only
  repeat' (first
    | (intro _) | (with_reducible exact Keeps.refl _) | (with_reducible assumption) | (with_reducible apply Keeps.ite)
    | (with_reducible apply predict_keeps) | (with_reducible apply modCore_keeps)
    | (with_reducible apply openWindow_keeps) | (with_reducible apply admitAll_keeps) | (simp only [keeps_upd])
    | (with_reducible apply Keeps.foldl) | (with_reducible apply Keeps.foldr) | (split))

theorem requestWake_sound {t0 : State} {s : State} {n : Nat} {toState : Nat} {pred : Bool}
    (hk : Sound t0 s) : Sound t0 (requestWake s n toState pred) := hk.trans (requestWake_keeps (Keeps.refl _)).sound

theorem takeRole_keeps {t0 : State} {s : State} {g : Nat} {i : Nat} (hk : Keeps t0 s) : Keeps t0 (takeRole s g i) := by
  unfold takeRole
  try dsimp only
  repeat' (first
    | (intro _) | (with_reducible exact Keeps.refl _) | (with_reducible assumption) | (with_reducible apply Keeps.ite)
    | (with_reducible apply settleFull_keeps) | (with_reducible apply modCluster_keeps)
    | (with_reducible apply requestWake_keeps) | (with_reducible apply modCore_keeps) | (simp only [keeps_upd])
    | (with_reducible apply Keeps.foldl) | (with_reducible apply Keeps.foldr) | (split))

theorem takeRole_sound {t0 : State} {s : State} {g : Nat} {i : Nat} (hk : Sound t0 s) : Sound t0
    (takeRole s g i) := hk.trans (takeRole_keeps (Keeps.refl _)).sound

theorem request_keeps {t0 : State} {s : State} {p : HbmPlace} {write : Bool} {keepOpen : Bool} {drains : Nat}
    (hk : Keeps t0 s) : Keeps t0 (request s p write keepOpen drains) := by
  unfold request
  try dsimp only
  repeat' (first
    | (intro _) | (with_reducible exact Keeps.refl _) | (with_reducible assumption) | (with_reducible apply Keeps.ite)
    | (with_reducible apply modMc_keeps) | (simp only [keeps_upd]) | (with_reducible apply Keeps.foldl)
    | (with_reducible apply Keeps.foldr) | (split))

theorem request_sound {t0 : State} {s : State} {p : HbmPlace} {write : Bool} {keepOpen : Bool} {drains : Nat}
    (hk : Sound t0 s) : Sound t0 (request s p write keepOpen drains) := hk.trans (request_keeps (Keeps.refl _)).sound

theorem startExit_keeps {t0 : State} {s : State} {i : Nat} (hk : Keeps t0 s) : Keeps t0 (startExit s i) := by
  unfold startExit
  try dsimp only
  repeat' (first
    | (intro _) | (with_reducible exact Keeps.refl _) | (with_reducible assumption) | (with_reducible apply Keeps.ite)
    | (with_reducible apply modMc_keeps) | (simp only [keeps_upd]) | (with_reducible apply Keeps.foldl)
    | (with_reducible apply Keeps.foldr) | (split))

theorem startExit_sound {t0 : State} {s : State} {i : Nat} (hk : Sound t0 s) : Sound t0 (startExit s i) := hk.trans
    (startExit_keeps (Keeps.refl _)).sound

theorem hbmTouch_keeps {t0 : State} {s : State} {as : List Nat} {write : Bool} (hk : Keeps t0 s) : Keeps t0
    (hbmTouch s as write) := by
  unfold hbmTouch
  try dsimp only
  repeat' (first
    | (intro _) | (with_reducible exact Keeps.refl _) | (with_reducible assumption) | (with_reducible apply Keeps.ite)
    | (with_reducible apply request_keeps) | (with_reducible apply startExit_keeps) | (simp only [keeps_upd])
    | (with_reducible apply Keeps.foldl) | (with_reducible apply Keeps.foldr) | (split))

theorem hbmTouch_sound {t0 : State} {s : State} {as : List Nat} {write : Bool} (hk : Sound t0 s) : Sound t0
    (hbmTouch s as write) := hk.trans (hbmTouch_keeps (Keeps.refl _)).sound

theorem setSe_keeps {t0 : State} {s : State} {i : Nat} {x : Se} (hk : Keeps t0 s) : Keeps t0 (setSe s i x) := by
  unfold setSe
  try dsimp only
  repeat' (first
    | (intro _) | (with_reducible exact Keeps.refl _) | (with_reducible assumption) | (with_reducible apply Keeps.ite)
    | (simp only [keeps_upd]) | (with_reducible apply Keeps.foldl) | (with_reducible apply Keeps.foldr) | (split))

theorem setSe_sound {t0 : State} {s : State} {i : Nat} {x : Se} (hk : Sound t0 s) : Sound t0
    (setSe s i x) := hk.trans (setSe_keeps (Keeps.refl _)).sound

theorem modSe_keeps {t0 : State} {s : State} {i : Nat} {f : Se → Se} (hk : Keeps t0 s) : Keeps t0 (modSe s i f) := by
  unfold modSe
  try dsimp only
  repeat' (first
    | (intro _) | (with_reducible exact Keeps.refl _) | (with_reducible assumption) | (with_reducible apply Keeps.ite)
    | (with_reducible apply setSe_keeps) | (simp only [keeps_upd]) | (with_reducible apply Keeps.foldl)
    | (with_reducible apply Keeps.foldr) | (split))

theorem modSe_sound {t0 : State} {s : State} {i : Nat} {f : Se → Se} (hk : Sound t0 s) : Sound t0
    (modSe s i f) := hk.trans (modSe_keeps (Keeps.refl _)).sound

theorem dropWake_keeps {t0 : State} {s : State} {n : Nat} (hk : Keeps t0 s) : Keeps t0 (dropWake s n) := by
  unfold dropWake
  try dsimp only
  repeat' (first
    | (intro _) | (with_reducible exact Keeps.refl _) | (with_reducible assumption) | (with_reducible apply Keeps.ite)
    | (simp only [keeps_upd]) | (with_reducible apply Keeps.foldl) | (with_reducible apply Keeps.foldr) | (split))

theorem dropWake_sound {t0 : State} {s : State} {n : Nat} (hk : Sound t0 s) : Sound t0 (dropWake s n) := hk.trans
    (dropWake_keeps (Keeps.refl _)).sound

theorem passRole_keeps {t0 : State} {s : State} {g : Nat} {a : Nat} (hk : Keeps t0 s) : Keeps t0 (passRole s g a) := by
  unfold passRole
  try dsimp only
  repeat' (first
    | (intro _) | (with_reducible exact Keeps.refl _) | (with_reducible assumption) | (with_reducible apply Keeps.ite)
    | (with_reducible apply takeRole_keeps) | (with_reducible apply setCluster_keeps) | (simp only [keeps_upd])
    | (with_reducible apply Keeps.foldl) | (with_reducible apply Keeps.foldr) | (split))

theorem passRole_sound {t0 : State} {s : State} {g : Nat} {a : Nat} (hk : Sound t0 s) : Sound t0
    (passRole s g a) := hk.trans (passRole_keeps (Keeps.refl _)).sound

theorem report_keeps {t0 : State} {s : State} {r : Run} {code : Nat} {g31 : W64} (hk : Keeps t0 s) : Keeps t0
    (report s r code g31) := by
  unfold report
  try dsimp only
  repeat' (first
    | (intro _) | (with_reducible exact Keeps.refl _) | (with_reducible assumption) | (with_reducible apply Keeps.ite)
    | (simp only [keeps_upd]) | (with_reducible apply Keeps.foldl) | (with_reducible apply Keeps.foldr) | (split))

theorem report_sound {t0 : State} {s : State} {r : Run} {code : Nat} {g31 : W64} (hk : Sound t0 s) : Sound t0
    (report s r code g31) := hk.trans (report_keeps (Keeps.refl _)).sound

theorem settleStop_keeps {t0 : State} {s : State} {n : Nat} (hk : Keeps t0 s) : Keeps t0 (settleStop s n) := by
  unfold settleStop
  try dsimp only
  repeat' (first
    | (intro _) | (with_reducible exact Keeps.refl _) | (with_reducible assumption) | (with_reducible apply Keeps.ite)
    | (with_reducible apply dropWake_keeps) | (with_reducible apply setCore_keeps)
    | (with_reducible apply settleFull_keeps) | (with_reducible apply passRole_keeps)
    | (with_reducible apply modCluster_keeps) | (with_reducible apply raiseCode_keeps)
    | (with_reducible apply report_keeps) | (simp only [keeps_upd]) | (with_reducible apply Keeps.foldl)
    | (with_reducible apply Keeps.foldr) | (split))

theorem settleStop_sound {t0 : State} {s : State} {n : Nat} (hk : Sound t0 s) : Sound t0 (settleStop s n) := hk.trans
    (settleStop_keeps (Keeps.refl _)).sound

theorem nextSample_keeps {t0 : State} {s : State} {g : Nat} (hk : Keeps t0 s) : Keeps t0 (nextSample s g) := by
  unfold nextSample
  try dsimp only
  repeat' (first
    | (intro _) | (with_reducible exact Keeps.refl _) | (with_reducible assumption) | (with_reducible apply Keeps.ite)
    | (with_reducible apply setCore_keeps) | (with_reducible apply bumpFree_keeps)
    | (with_reducible apply setCluster_keeps) | (simp only [keeps_upd]) | (with_reducible apply Keeps.foldl)
    | (with_reducible apply Keeps.foldr) | (split))

theorem nextSample_sound {t0 : State} {s : State} {g : Nat} (hk : Sound t0 s) : Sound t0 (nextSample s g) := hk.trans
    (nextSample_keeps (Keeps.refl _)).sound

theorem leaveRole_keeps {t0 : State} {s : State} {g : Nat} (hk : Keeps t0 s) : Keeps t0 (leaveRole s g) := by
  unfold leaveRole
  try dsimp only
  repeat' (first
    | (intro _) | (with_reducible exact Keeps.refl _) | (with_reducible assumption) | (with_reducible apply Keeps.ite)
    | (with_reducible apply modCluster_keeps) | (with_reducible apply modCore_keeps) | (simp only [keeps_upd])
    | (with_reducible apply Keeps.foldl) | (with_reducible apply Keeps.foldr) | (split))

theorem leaveRole_sound {t0 : State} {s : State} {g : Nat} (hk : Sound t0 s) : Sound t0 (leaveRole s g) := hk.trans
    (leaveRole_keeps (Keeps.refl _)).sound

theorem dropRole_keeps {t0 : State} {s : State} {g : Nat} (hk : Keeps t0 s) : Keeps t0 (dropRole s g) := by
  unfold dropRole
  try dsimp only
  repeat' (first
    | (intro _) | (with_reducible exact Keeps.refl _) | (with_reducible assumption) | (with_reducible apply Keeps.ite)
    | (with_reducible apply settleFull_keeps) | (with_reducible apply leaveRole_keeps) | (simp only [keeps_upd])
    | (with_reducible apply Keeps.foldl) | (with_reducible apply Keeps.foldr) | (split))

theorem dropRole_sound {t0 : State} {s : State} {g : Nat} (hk : Sound t0 s) : Sound t0 (dropRole s g) := hk.trans
    (dropRole_keeps (Keeps.refl _)).sound

theorem tryRotate_keeps {t0 : State} {s : State} {g : Nat} (hk : Keeps t0 s) : Keeps t0 (tryRotate s g) := by
  unfold tryRotate
  try dsimp only
  repeat' (first
    | (intro _) | (with_reducible exact Keeps.refl _) | (with_reducible assumption) | (with_reducible apply Keeps.ite)
    | (with_reducible apply passRole_keeps) | (with_reducible apply takeRole_keeps)
    | (with_reducible apply leaveRole_keeps) | (simp only [keeps_upd]) | (with_reducible apply Keeps.foldl)
    | (with_reducible apply Keeps.foldr) | (split))

theorem tryRotate_sound {t0 : State} {s : State} {g : Nat} (hk : Sound t0 s) : Sound t0 (tryRotate s g) := hk.trans
    (tryRotate_keeps (Keeps.refl _)).sound

theorem setAtom_keeps {t0 : State} {s : State} {x : Nat} {a : Atom} (hk : Keeps t0 s) : Keeps t0 (setAtom s x a) := by
  unfold setAtom
  try dsimp only
  repeat' (first
    | (intro _) | (with_reducible exact Keeps.refl _) | (with_reducible assumption) | (with_reducible apply Keeps.ite)
    | (simp only [keeps_upd]) | (with_reducible apply Keeps.foldl) | (with_reducible apply Keeps.foldr) | (split))

theorem setAtom_sound {t0 : State} {s : State} {x : Nat} {a : Atom} (hk : Sound t0 s) : Sound t0
    (setAtom s x a) := hk.trans (setAtom_keeps (Keeps.refl _)).sound

theorem modAtom_keeps {t0 : State} {s : State} {x : Nat} {f : Atom → Atom} (hk : Keeps t0 s) : Keeps t0 (modAtom s x f) := by
  unfold modAtom
  try dsimp only
  repeat' (first
    | (intro _) | (with_reducible exact Keeps.refl _) | (with_reducible assumption) | (with_reducible apply Keeps.ite)
    | (with_reducible apply setAtom_keeps) | (simp only [keeps_upd]) | (with_reducible apply Keeps.foldl)
    | (with_reducible apply Keeps.foldr) | (split))

theorem modAtom_sound {t0 : State} {s : State} {x : Nat} {f : Atom → Atom} (hk : Sound t0 s) : Sound t0
    (modAtom s x f) := hk.trans (modAtom_keeps (Keeps.refl _)).sound

theorem countPath_keeps {t0 : State} {s : State} {p : List (Nat × NetLink)} {k : Nat} (hk : Keeps t0 s) : Keeps t0
    (countPath s p k) := by
  unfold countPath
  try dsimp only
  repeat' (first
    | (intro _) | (with_reducible exact Keeps.refl _) | (with_reducible assumption) | (with_reducible apply Keeps.ite)
    | (with_reducible apply bumpFree_keeps) | (with_reducible apply modCluster_keeps) | (simp only [keeps_upd])
    | (with_reducible apply Keeps.foldl) | (with_reducible apply Keeps.foldr) | (split))

theorem countPath_sound {t0 : State} {s : State} {p : List (Nat × NetLink)} {k : Nat} (hk : Sound t0 s) : Sound t0
    (countPath s p k) := hk.trans (countPath_keeps (Keeps.refl _)).sound

theorem noteErr_keeps {t0 : State} {s : State} {p : Nat} {code : Nat} {lo : Nat} {hi : Nat}
    (hk : Keeps t0 s) : Keeps t0 (noteErr s p code lo hi) := by
  unfold noteErr
  try dsimp only
  repeat' (first
    | (intro _) | (with_reducible exact Keeps.refl _) | (with_reducible assumption) | (with_reducible apply Keeps.ite)
    | (with_reducible apply setHdr_keeps) | (simp only [keeps_upd]) | (with_reducible apply Keeps.foldl)
    | (with_reducible apply Keeps.foldr) | (split))

theorem noteErr_sound {t0 : State} {s : State} {p : Nat} {code : Nat} {lo : Nat} {hi : Nat}
    (hk : Sound t0 s) : Sound t0 (noteErr s p code lo hi) := hk.trans (noteErr_keeps (Keeps.refl _)).sound

theorem stopCore_keeps {t0 : State} {s : State} {n : Nat} {code : Nat} {lo : Nat} {hi : Nat}
    (hk : Keeps t0 s) : Keeps t0 (stopCore s n code lo hi) := by
  unfold stopCore
  try dsimp only
  repeat' (first
    | (intro _) | (with_reducible exact Keeps.refl _) | (with_reducible assumption) | (with_reducible apply Keeps.ite)
    | (with_reducible apply noteErr_keeps) | (with_reducible apply settleStop_keeps)
    | (with_reducible apply setCore_keeps) | (simp only [keeps_upd]) | (with_reducible apply Keeps.foldl)
    | (with_reducible apply Keeps.foldr) | (split))

theorem stopCore_sound {t0 : State} {s : State} {n : Nat} {code : Nat} {lo : Nat} {hi : Nat}
    (hk : Sound t0 s) : Sound t0 (stopCore s n code lo hi) := hk.trans (stopCore_keeps (Keeps.refl _)).sound

theorem applyInc_keeps {t0 : State} {s : State} {n : Nat} {i : Nat} {k : Nat} (hk : Keeps t0 s) : Keeps t0
    (applyInc s n i k) := by
  unfold applyInc
  try dsimp only
  repeat' (first
    | (intro _) | (with_reducible exact Keeps.refl _) | (with_reducible assumption) | (with_reducible apply Keeps.ite)
    | (with_reducible apply setCore_keeps) | (with_reducible apply stopCore_keeps)
    | (with_reducible apply requestWake_keeps) | (simp only [keeps_upd]) | (with_reducible apply Keeps.foldl)
    | (with_reducible apply Keeps.foldr) | (split))

theorem applyInc_sound {t0 : State} {s : State} {n : Nat} {i : Nat} {k : Nat} (hk : Sound t0 s) : Sound t0
    (applyInc s n i k) := hk.trans (applyInc_keeps (Keeps.refl _)).sound

theorem logOld_keeps {t0 : State} {s : State} {n : Nat} {cells : List Host.Cell} (hk : Keeps t0 s) : Keeps t0
    (logOld s n cells) := by
  unfold logOld
  try dsimp only
  repeat' (first
    | (intro _) | (with_reducible exact Keeps.refl _) | (with_reducible assumption) | (with_reducible apply Keeps.ite)
    | (with_reducible apply modCore_keeps) | (simp only [keeps_upd]) | (with_reducible apply Keeps.foldl)
    | (with_reducible apply Keeps.foldr) | (split))

theorem logOld_sound {t0 : State} {s : State} {n : Nat} {cells : List Host.Cell} (hk : Sound t0 s) : Sound t0
    (logOld s n cells) := hk.trans (logOld_keeps (Keeps.refl _)).sound

theorem portWrite_sound {t0 : State} {s : State} {n : Nat} {cells : List Host.Cell} (hk : Sound t0 s) : Sound t0
    (portWrite s n cells) := by
  unfold portWrite
  try dsimp only
  repeat' (first
    | (intro _) | (with_reducible exact Sound.refl _) | (with_reducible assumption) | (with_reducible apply Sound.ite)
    | (with_reducible apply setCore_sound) | (with_reducible apply logOld_sound)
    | (with_reducible apply stopCore_sound) | (simp only [sound_upd]) | (with_reducible apply Sound.foldl)
    | (with_reducible apply Sound.foldr) | (with_reducible exact id) | (with_reducible apply writeByte_wf)
    | (with_reducible apply writeBytes_wf) | (with_reducible apply writeCells_wf) | (with_reducible apply writeLe_wf)
    | (with_reducible apply clearRange_wf) | (with_reducible apply loseRange_wf) | (with_reducible apply clearHole_wf)
    | (with_reducible apply coverHole_wf) | (with_reducible apply writeTile_wf) | (with_reducible apply reduceAt_wf)
    | (with_reducible apply putVals_wf) | (with_reducible apply wf_foldl) | (split)
    | (with_reducible apply Sound.updMem))

theorem setQueue_keeps {t0 : State} {s : State} {q : Nat} {x : Queue} (hk : Keeps t0 s) : Keeps t0 (setQueue s q x) := by
  unfold setQueue
  try dsimp only
  repeat' (first
    | (intro _) | (with_reducible exact Keeps.refl _) | (with_reducible assumption) | (with_reducible apply Keeps.ite)
    | (simp only [keeps_upd]) | (with_reducible apply Keeps.foldl) | (with_reducible apply Keeps.foldr) | (split))

theorem setQueue_sound {t0 : State} {s : State} {q : Nat} {x : Queue} (hk : Sound t0 s) : Sound t0
    (setQueue s q x) := hk.trans (setQueue_keeps (Keeps.refl _)).sound

theorem modQueue_keeps {t0 : State} {s : State} {q : Nat} {f : Queue → Queue} (hk : Keeps t0 s) : Keeps t0
    (modQueue s q f) := by
  unfold modQueue
  try dsimp only
  repeat' (first
    | (intro _) | (with_reducible exact Keeps.refl _) | (with_reducible assumption) | (with_reducible apply Keeps.ite)
    | (with_reducible apply setQueue_keeps) | (simp only [keeps_upd]) | (with_reducible apply Keeps.foldl)
    | (with_reducible apply Keeps.foldr) | (split))

theorem modQueue_sound {t0 : State} {s : State} {q : Nat} {f : Queue → Queue} (hk : Sound t0 s) : Sound t0
    (modQueue s q f) := hk.trans (modQueue_keeps (Keeps.refl _)).sound

theorem bankPowerDown_keeps {t0 : State} {s : State} {i : Nat} {c : Nat} {b : Nat} (hk : Keeps t0 s) : Keeps t0
    (bankPowerDown s i c b) := by
  unfold bankPowerDown
  try dsimp only
  repeat' (first
    | (intro _) | (with_reducible exact Keeps.refl _) | (with_reducible assumption) | (with_reducible apply Keeps.ite)
    | (with_reducible apply setMc_keeps) | (simp only [keeps_upd]) | (with_reducible apply Keeps.foldl)
    | (with_reducible apply Keeps.foldr) | (split))

theorem bankPowerDown_sound {t0 : State} {s : State} {i : Nat} {c : Nat} {b : Nat} (hk : Sound t0 s) : Sound t0
    (bankPowerDown s i c b) := hk.trans (bankPowerDown_keeps (Keeps.refl _)).sound

theorem bankPoweredDown_keeps {t0 : State} {s : State} {i : Nat} {c : Nat} {b : Nat} (hk : Keeps t0 s) : Keeps t0
    (bankPoweredDown s i c b) := by
  unfold bankPoweredDown
  try dsimp only
  repeat' (first
    | (intro _) | (with_reducible exact Keeps.refl _) | (with_reducible assumption) | (with_reducible apply Keeps.ite)
    | (with_reducible apply setMc_keeps) | (simp only [keeps_upd]) | (with_reducible apply Keeps.foldl)
    | (with_reducible apply Keeps.foldr) | (split))

theorem bankPoweredDown_sound {t0 : State} {s : State} {i : Nat} {c : Nat} {b : Nat} (hk : Sound t0 s) : Sound t0
    (bankPoweredDown s i c b) := hk.trans (bankPoweredDown_keeps (Keeps.refl _)).sound

theorem setGroup_keeps {t0 : State} {s : State} {g : Nat} {x : Group} (hk : Keeps t0 s) : Keeps t0 (setGroup s g x) := by
  unfold setGroup
  try dsimp only
  repeat' (first
    | (intro _) | (with_reducible exact Keeps.refl _) | (with_reducible assumption) | (with_reducible apply Keeps.ite)
    | (simp only [keeps_upd]) | (with_reducible apply Keeps.foldl) | (with_reducible apply Keeps.foldr) | (split))

theorem setGroup_sound {t0 : State} {s : State} {g : Nat} {x : Group} (hk : Sound t0 s) : Sound t0
    (setGroup s g x) := hk.trans (setGroup_keeps (Keeps.refl _)).sound

theorem modGroup_keeps {t0 : State} {s : State} {g : Nat} {f : Group → Group} (hk : Keeps t0 s) : Keeps t0
    (modGroup s g f) := by
  unfold modGroup
  try dsimp only
  repeat' (first
    | (intro _) | (with_reducible exact Keeps.refl _) | (with_reducible assumption) | (with_reducible apply Keeps.ite)
    | (with_reducible apply setGroup_keeps) | (simp only [keeps_upd]) | (with_reducible apply Keeps.foldl)
    | (with_reducible apply Keeps.foldr) | (split))

theorem modGroup_sound {t0 : State} {s : State} {g : Nat} {f : Group → Group} (hk : Sound t0 s) : Sound t0
    (modGroup s g f) := hk.trans (modGroup_keeps (Keeps.refl _)).sound

theorem modGrpPage_keeps {t0 : State} {s : State} {p : Nat} {f : GrpPage → GrpPage} (hk : Keeps t0 s) : Keeps t0
    (modGrpPage s p f) := by
  unfold modGrpPage
  try dsimp only
  repeat' (first
    | (intro _) | (with_reducible exact Keeps.refl _) | (with_reducible assumption) | (with_reducible apply Keeps.ite)
    | (simp only [keeps_upd]) | (with_reducible apply Keeps.foldl) | (with_reducible apply Keeps.foldr) | (split))

theorem modGrpPage_sound {t0 : State} {s : State} {p : Nat} {f : GrpPage → GrpPage} (hk : Sound t0 s) : Sound t0
    (modGrpPage s p f) := hk.trans (modGrpPage_keeps (Keeps.refl _)).sound

theorem clearEvt_keeps {t0 : State} {s : State} {p : Nat} {m : W32} (hk : Keeps t0 s) : Keeps t0 (clearEvt s p m) := by
  unfold clearEvt
  try dsimp only
  repeat' (first
    | (intro _) | (with_reducible exact Keeps.refl _) | (with_reducible assumption) | (with_reducible apply Keeps.ite)
    | (with_reducible apply setHdr_keeps) | (simp only [keeps_upd]) | (with_reducible apply Keeps.foldl)
    | (with_reducible apply Keeps.foldr) | (split))

theorem clearEvt_sound {t0 : State} {s : State} {p : Nat} {m : W32} (hk : Sound t0 s) : Sound t0
    (clearEvt s p m) := hk.trans (clearEvt_keeps (Keeps.refl _)).sound

theorem clearErr_keeps {t0 : State} {s : State} {p : Nat} (hk : Keeps t0 s) : Keeps t0 (clearErr s p) := by
  unfold clearErr
  try dsimp only
  repeat' (first
    | (intro _) | (with_reducible exact Keeps.refl _) | (with_reducible assumption) | (with_reducible apply Keeps.ite)
    | (with_reducible apply setHdr_keeps) | (simp only [keeps_upd]) | (with_reducible apply Keeps.foldl)
    | (with_reducible apply Keeps.foldr) | (split))

theorem clearErr_sound {t0 : State} {s : State} {p : Nat} (hk : Sound t0 s) : Sound t0 (clearErr s p) := hk.trans
    (clearErr_keeps (Keeps.refl _)).sound

theorem sampleStart_keeps {t0 : State} {s : State} {n : Nat} {f : Flight} (hk : Keeps t0 s) : Keeps t0
    (sampleStart s n f) := by
  unfold sampleStart
  try dsimp only
  repeat' (first
    | (intro _) | (with_reducible exact Keeps.refl _) | (with_reducible assumption) | (with_reducible apply Keeps.ite)
    | (with_reducible apply setCore_keeps) | (with_reducible apply setCluster_keeps) | (simp only [keeps_upd])
    | (with_reducible apply Keeps.foldl) | (with_reducible apply Keeps.foldr) | (split))

theorem sampleStart_sound {t0 : State} {s : State} {n : Nat} {f : Flight} (hk : Sound t0 s) : Sound t0
    (sampleStart s n f) := hk.trans (sampleStart_keeps (Keeps.refl _)).sound

theorem startNext_keeps {t0 : State} {s : State} {n : Nat} {u : CUnit} (hk : Keeps t0 s) : Keeps t0 (startNext s n u) := by
  unfold startNext
  try dsimp only
  repeat' (first
    | (intro _) | (with_reducible exact Keeps.refl _) | (with_reducible assumption) | (with_reducible apply Keeps.ite)
    | (with_reducible apply sampleStart_keeps) | (with_reducible apply setCore_keeps) | (simp only [keeps_upd])
    | (with_reducible apply Keeps.foldl) | (with_reducible apply Keeps.foldr) | (split))

theorem startNext_sound {t0 : State} {s : State} {n : Nat} {u : CUnit} (hk : Sound t0 s) : Sound t0
    (startNext s n u) := hk.trans (startNext_keeps (Keeps.refl _)).sound

theorem complete_keeps {t0 : State} {s : State} {n : Nat} {f : Flight} (hk : Keeps t0 s) : Keeps t0 (complete s n f) := by
  unfold complete
  try dsimp only
  repeat' (first
    | (intro _) | (with_reducible exact Keeps.refl _) | (with_reducible assumption) | (with_reducible apply Keeps.ite)
    | (with_reducible apply setCore_keeps) | (with_reducible apply modCluster_keeps)
    | (with_reducible apply startNext_keeps) | (with_reducible apply settleStop_keeps) | (simp only [keeps_upd])
    | (with_reducible apply Keeps.foldl) | (with_reducible apply Keeps.foldr) | (split))

theorem complete_sound {t0 : State} {s : State} {n : Nat} {f : Flight} (hk : Sound t0 s) : Sound t0
    (complete s n f) := hk.trans (complete_keeps (Keeps.refl _)).sound

theorem setComp_keeps {t0 : State} {s : State} {q : Nat} (hk : Keeps t0 s) : Keeps t0 (setComp s q) := by
  unfold setComp
  try dsimp only
  repeat' (first
    | (intro _) | (with_reducible exact Keeps.refl _) | (with_reducible assumption) | (with_reducible apply Keeps.ite)
    | (with_reducible apply sendMsi_keeps) | (simp only [keeps_upd]) | (with_reducible apply Keeps.foldl)
    | (with_reducible apply Keeps.foldr) | (split))

theorem setComp_sound {t0 : State} {s : State} {q : Nat} (hk : Sound t0 s) : Sound t0 (setComp s q) := hk.trans
    (setComp_keeps (Keeps.refl _)).sound

theorem triggerReset_sound {t0 : State} {s : State} {p : Nat} {code : Nat} {cls : Nat} (hk : Sound t0 s) : Sound t0
    (triggerReset s p code cls) := by
  unfold triggerReset
  try dsimp only
  repeat' (first
    | (intro _) | (with_reducible exact Sound.refl _) | (with_reducible assumption) | (with_reducible apply Sound.ite)
    | (with_reducible apply modPart_sound) | (with_reducible apply abandonPart_sound) | (simp only [sound_upd])
    | (with_reducible apply Sound.foldl) | (with_reducible apply Sound.foldr) | (split))

theorem clearCores_sound {t0 : State} {s : State} {p : Nat} (hk : Sound t0 s) : Sound t0 (clearCores s p) := by
  unfold clearCores
  try dsimp only
  repeat' (first
    | (intro _) | (with_reducible exact Sound.refl _) | (with_reducible assumption) | (with_reducible apply Sound.ite)
    | (with_reducible apply bumpFree_sound) | (simp only [sound_upd]) | (with_reducible apply Sound.foldl)
    | (with_reducible apply Sound.foldr) | (with_reducible exact id) | (with_reducible apply writeByte_wf)
    | (with_reducible apply writeBytes_wf) | (with_reducible apply writeCells_wf) | (with_reducible apply writeLe_wf)
    | (with_reducible apply clearRange_wf) | (with_reducible apply loseRange_wf) | (with_reducible apply clearHole_wf)
    | (with_reducible apply coverHole_wf) | (with_reducible apply writeTile_wf) | (with_reducible apply reduceAt_wf)
    | (with_reducible apply putVals_wf) | (with_reducible apply wf_foldl) | (split)
    | (with_reducible apply Sound.updMem))

theorem clearEngines_keeps {t0 : State} {s : State} {p : Nat} (hk : Keeps t0 s) : Keeps t0 (clearEngines s p) := by
  unfold clearEngines
  try dsimp only
  repeat' (first
    | (intro _) | (with_reducible exact Keeps.refl _) | (with_reducible assumption) | (with_reducible apply Keeps.ite)
    | (simp only [keeps_upd]) | (with_reducible apply Keeps.foldl) | (with_reducible apply Keeps.foldr) | (split))

theorem clearEngines_sound {t0 : State} {s : State} {p : Nat} (hk : Sound t0 s) : Sound t0
    (clearEngines s p) := hk.trans (clearEngines_keeps (Keeps.refl _)).sound

theorem clearSeq_keeps {t0 : State} {s : State} {p : Nat} (hk : Keeps t0 s) : Keeps t0 (clearSeq s p) := by
  unfold clearSeq
  try dsimp only
  repeat' (first
    | (intro _) | (with_reducible exact Keeps.refl _) | (with_reducible assumption) | (with_reducible apply Keeps.ite)
    | (simp only [keeps_upd]) | (with_reducible apply Keeps.foldl) | (with_reducible apply Keeps.foldr) | (split))

theorem clearSeq_sound {t0 : State} {s : State} {p : Nat} (hk : Sound t0 s) : Sound t0 (clearSeq s p) := hk.trans
    (clearSeq_keeps (Keeps.refl _)).sound

theorem clearPart_sound {t0 : State} {s : State} {p : Nat} (hk : Sound t0 s) : Sound t0 (clearPart s p) := by
  unfold clearPart
  try dsimp only
  repeat' (first
    | (intro _) | (with_reducible exact Sound.refl _) | (with_reducible assumption) | (with_reducible apply Sound.ite)
    | (with_reducible apply settleFull_sound) | (with_reducible apply clearEngines_sound)
    | (with_reducible apply clearSeq_sound) | (with_reducible apply clearCores_sound) | (simp only [sound_upd])
    | (with_reducible apply Sound.foldl) | (with_reducible apply Sound.foldr) | (split))

theorem countHbm_keeps {t0 : State} {s : State} {n : Nat} {as : List Nat} (hk : Keeps t0 s) : Keeps t0
    (countHbm s n as) := by
  unfold countHbm
  try dsimp only
  repeat' (first
    | (intro _) | (with_reducible exact Keeps.refl _) | (with_reducible assumption) | (with_reducible apply Keeps.ite)
    | (with_reducible apply countPath_keeps) | (simp only [keeps_upd]) | (with_reducible apply Keeps.foldl)
    | (with_reducible apply Keeps.foldr) | (split))

theorem countHbm_sound {t0 : State} {s : State} {n : Nat} {as : List Nat} (hk : Sound t0 s) : Sound t0
    (countHbm s n as) := hk.trans (countHbm_keeps (Keeps.refl _)).sound

theorem coreHbm_keeps {t0 : State} {s : State} {n : Nat} {as : List Nat} {write : Bool} (hk : Keeps t0 s) : Keeps t0
    (coreHbm s n as write) := by
  unfold coreHbm
  try dsimp only
  repeat' (first
    | (intro _) | (with_reducible exact Keeps.refl _) | (with_reducible assumption) | (with_reducible apply Keeps.ite)
    | (with_reducible apply hbmTouch_keeps) | (with_reducible apply countHbm_keeps) | (simp only [keeps_upd])
    | (with_reducible apply Keeps.foldl) | (with_reducible apply Keeps.foldr) | (split))

theorem coreHbm_sound {t0 : State} {s : State} {n : Nat} {as : List Nat} {write : Bool} (hk : Sound t0 s) : Sound t0
    (coreHbm s n as write) := hk.trans (coreHbm_keeps (Keeps.refl _)).sound

theorem correctedBlotter_keeps {t0 : State} {s : State} {page : Nat} {b : Blotter} (hk : Keeps t0 s) : Keeps t0
    (correctedBlotter s page b) := by
  unfold correctedBlotter
  try dsimp only
  repeat' (first
    | (intro _) | (with_reducible exact Keeps.refl _) | (with_reducible assumption) | (with_reducible apply Keeps.ite)
    | (with_reducible apply correctedMany_keeps) | (simp only [keeps_upd]) | (with_reducible apply Keeps.foldl)
    | (with_reducible apply Keeps.foldr) | (split))

theorem correctedBlotter_sound {t0 : State} {s : State} {page : Nat} {b : Blotter} (hk : Sound t0 s) : Sound t0
    (correctedBlotter s page b) := hk.trans (correctedBlotter_keeps (Keeps.refl _)).sound

theorem enqueue_keeps {t0 : State} {s : State} {n : Nat} {f : Flight} (hk : Keeps t0 s) : Keeps t0 (enqueue s n f) := by
  unfold enqueue
  try dsimp only
  repeat' (first
    | (intro _) | (with_reducible exact Keeps.refl _) | (with_reducible assumption) | (with_reducible apply Keeps.ite)
    | (with_reducible apply startNext_keeps) | (with_reducible apply setCore_keeps) | (simp only [keeps_upd])
    | (with_reducible apply Keeps.foldl) | (with_reducible apply Keeps.foldr) | (split))

theorem enqueue_sound {t0 : State} {s : State} {n : Nat} {f : Flight} (hk : Sound t0 s) : Sound t0
    (enqueue s n f) := hk.trans (enqueue_keeps (Keeps.refl _)).sound

theorem injectInc_keeps {t0 : State} {s : State} {n : Nat} {m : NetMsg} (hk : Keeps t0 s) : Keeps t0 (injectInc s n m) := by
  unfold injectInc
  try dsimp only
  repeat' (first
    | (intro _) | (with_reducible exact Keeps.refl _) | (with_reducible assumption) | (with_reducible apply Keeps.ite)
    | (with_reducible apply bumpFree_keeps) | (simp only [keeps_upd]) | (with_reducible apply Keeps.foldl)
    | (with_reducible apply Keeps.foldr) | (split))

theorem injectInc_sound {t0 : State} {s : State} {n : Nat} {m : NetMsg} (hk : Sound t0 s) : Sound t0
    (injectInc s n m) := hk.trans (injectInc_keeps (Keeps.refl _)).sound

theorem sendInc_keeps {t0 : State} {s : State} {n : Nat} {dst : Nat} {ctr : Nat} {k : Nat} {fence : List Nat}
    (hk : Keeps t0 s) : Keeps t0 (sendInc s n dst ctr k fence) := by
  unfold sendInc
  try dsimp only
  repeat' (first
    | (intro _) | (with_reducible exact Keeps.refl _) | (with_reducible assumption) | (with_reducible apply Keeps.ite)
    | (with_reducible apply injectInc_keeps) | (simp only [keeps_upd]) | (with_reducible apply Keeps.foldl)
    | (with_reducible apply Keeps.foldr) | (split))

theorem sendInc_sound {t0 : State} {s : State} {n : Nat} {dst : Nat} {ctr : Nat} {k : Nat} {fence : List Nat}
    (hk : Sound t0 s) : Sound t0 (sendInc s n dst ctr k fence) := hk.trans (sendInc_keeps (Keeps.refl _)).sound

theorem resetByFault_sound {t0 : State} {s : State} {p : Nat} {b : Blotter} (hk : Sound t0 s) : Sound t0
    (resetByFault s p b) := by
  unfold resetByFault
  try dsimp only
  repeat' (first
    | (intro _) | (with_reducible exact Sound.refl _) | (with_reducible assumption) | (with_reducible apply Sound.ite)
    | (with_reducible apply triggerReset_sound) | (with_reducible apply issueBlotter_sound) | (simp only [sound_upd])
    | (with_reducible apply Sound.foldl) | (with_reducible apply Sound.foldr) | (split))

theorem countCorrected_keeps {t0 : State} {s : State} {p : Nat} (hk : Keeps t0 s) : Keeps t0 (countCorrected s p) := by
  unfold countCorrected
  try dsimp only
  repeat' (first
    | (intro _) | (with_reducible exact Keeps.refl _) | (with_reducible assumption) | (with_reducible apply Keeps.ite)
    | (with_reducible apply setHdr_keeps) | (simp only [keeps_upd]) | (with_reducible apply Keeps.foldl)
    | (with_reducible apply Keeps.foldr) | (split))

theorem countCorrected_sound {t0 : State} {s : State} {p : Nat} (hk : Sound t0 s) : Sound t0
    (countCorrected s p) := hk.trans (countCorrected_keeps (Keeps.refl _)).sound

theorem triggerAll_sound {t0 : State} {s : State} {ps : List Nat} {code : Nat} {cls : Nat}
    (hk : Sound t0 s) : Sound t0 (triggerAll s ps code cls) := by
  unfold triggerAll
  try dsimp only
  repeat' (first
    | (intro _) | (with_reducible exact Sound.refl _) | (with_reducible assumption) | (with_reducible apply Sound.ite)
    | (with_reducible apply triggerReset_sound) | (simp only [sound_upd]) | (with_reducible apply Sound.foldl)
    | (with_reducible apply Sound.foldr) | (split))

theorem resetsByFault_sound {t0 : State} {s : State} {ps : List Nat} {b : Blotter} (hk : Sound t0 s) : Sound t0
    (resetsByFault s ps b) := by
  unfold resetsByFault
  try dsimp only
  repeat' (first
    | (intro _) | (with_reducible exact Sound.refl _) | (with_reducible assumption) | (with_reducible apply Sound.ite)
    | (with_reducible apply resetByFault_sound) | (with_reducible apply triggerAll_sound)
    | (with_reducible apply issueBlotter_sound) | (simp only [sound_upd]) | (with_reducible apply Sound.foldl)
    | (with_reducible apply Sound.foldr) | (split))

theorem netDrop_keeps {t0 : State} {s : State} {i : Nat} (hk : Keeps t0 s) : Keeps t0 (netDrop s i) := by
  unfold netDrop
  try dsimp only
  repeat' (first
    | (intro _) | (with_reducible exact Keeps.refl _) | (with_reducible assumption) | (with_reducible apply Keeps.ite)
    | (simp only [keeps_upd]) | (with_reducible apply Keeps.foldl) | (with_reducible apply Keeps.foldr) | (split))

theorem netDrop_sound {t0 : State} {s : State} {i : Nat} (hk : Sound t0 s) : Sound t0 (netDrop s i) := hk.trans
    (netDrop_keeps (Keeps.refl _)).sound

theorem cureArith_keeps {t0 : State} {s : State} {n : Nat} {f : Flight} (hk : Keeps t0 s) : Keeps t0 (cureArith s n f) := by
  unfold cureArith
  try dsimp only
  repeat' (first
    | (intro _) | (with_reducible exact Keeps.refl _) | (with_reducible assumption) | (with_reducible apply Keeps.ite)
    | (with_reducible apply raiseEvt_keeps) | (with_reducible apply modCluster_keeps)
    | (with_reducible apply correctedBlotter_keeps) | (simp only [keeps_upd]) | (with_reducible apply Keeps.foldl)
    | (with_reducible apply Keeps.foldr) | (split))

theorem cureArith_sound {t0 : State} {s : State} {n : Nat} {f : Flight} (hk : Sound t0 s) : Sound t0
    (cureArith s n f) := hk.trans (cureArith_keeps (Keeps.refl _)).sound

theorem eccCount_keeps {t0 : State} {s : State} {p : HbmPlace} {a : Nat} {k : Nat} (hk : Keeps t0 s) : Keeps t0
    (eccCount s p a k) := by
  unfold eccCount
  try dsimp only
  repeat' (first
    | (intro _) | (with_reducible exact Keeps.refl _) | (with_reducible assumption) | (with_reducible apply Keeps.ite)
    | (with_reducible apply modMc_keeps) | (with_reducible apply correctedBlotter_keeps)
    | (with_reducible apply raiseEvt_keeps) | (simp only [keeps_upd]) | (with_reducible apply Keeps.foldl)
    | (with_reducible apply Keeps.foldr) | (split))

theorem eccCount_sound {t0 : State} {s : State} {p : HbmPlace} {a : Nat} {k : Nat} (hk : Sound t0 s) : Sound t0
    (eccCount s p a k) := hk.trans (eccCount_keeps (Keeps.refl _)).sound

theorem eccCorrected_keeps {t0 : State} {s : State} {p : HbmPlace} {a : Nat} (hk : Keeps t0 s) : Keeps t0
    (eccCorrected s p a) := by
  unfold eccCorrected
  try dsimp only
  repeat' (first
    | (intro _) | (with_reducible exact Keeps.refl _) | (with_reducible assumption) | (with_reducible apply Keeps.ite)
    | (with_reducible apply eccCount_keeps) | (simp only [keeps_upd]) | (with_reducible apply Keeps.foldl)
    | (with_reducible apply Keeps.foldr) | (split))

theorem eccCorrected_sound {t0 : State} {s : State} {p : HbmPlace} {a : Nat} (hk : Sound t0 s) : Sound t0
    (eccCorrected s p a) := hk.trans (eccCorrected_keeps (Keeps.refl _)).sound

theorem eccUncorrectable_sound {t0 : State} {s : State} {p : HbmPlace} {a : Nat} (hk : Sound t0 s) : Sound t0
    (eccUncorrectable s p a) := by
  unfold eccUncorrectable
  try dsimp only
  repeat' (first
    | (intro _) | (with_reducible exact Sound.refl _) | (with_reducible assumption) | (with_reducible apply Sound.ite)
    | (with_reducible apply modMc_sound) | (with_reducible apply raiseEvt_sound)
    | (with_reducible apply recordErr_sound) | (with_reducible apply resetByFault_sound) | (simp only [sound_upd])
    | (with_reducible apply Sound.foldl) | (with_reducible apply Sound.foldr) | (split))

theorem eccResult_sound {t0 : State} {s : State} {p : HbmPlace} {a : Nat} {e : Ecc} (hk : Sound t0 s) : Sound t0
    (eccResult s p a e) := by
  unfold eccResult
  try dsimp only
  repeat' (first
    | (intro _) | (with_reducible exact Sound.refl _) | (with_reducible assumption) | (with_reducible apply Sound.ite)
    | (with_reducible apply eccCorrected_sound) | (with_reducible apply eccUncorrectable_sound)
    | (simp only [sound_upd]) | (with_reducible apply Sound.foldl) | (with_reducible apply Sound.foldr) | (split))

theorem eccAt_sound {t0 : State} {s : State} {a : Nat} {e : Ecc} (hk : Sound t0 s) : Sound t0 (eccAt s a e) := by
  unfold eccAt
  try dsimp only
  repeat' (first
    | (intro _) | (with_reducible exact Sound.refl _) | (with_reducible assumption) | (with_reducible apply Sound.ite)
    | (with_reducible apply eccResult_sound) | (simp only [sound_upd]) | (with_reducible apply Sound.foldl)
    | (with_reducible apply Sound.foldr) | (split))

theorem withCheck_keeps {t0 : State} {s : State} {n : Nat} {f : Flight} {chk : Chk} {good : State → State} (hg : ∀
    {t0 t : State}, Keeps t0 t → Keeps t0 (good t)) (hk : Keeps t0 s) : Keeps t0 (withCheck s n f chk good) := by
  unfold withCheck
  try dsimp only
  repeat' (first
    | (intro _) | (with_reducible exact Keeps.refl _) | (with_reducible assumption) | (with_reducible apply Keeps.ite)
    | (with_reducible apply complete_keeps) | (with_reducible apply cureArith_keeps)
    | (with_reducible apply stopCore_keeps) | (with_reducible apply issueBlotter_keeps) | (with_reducible apply hg)
    | (simp only [keeps_upd]) | (with_reducible apply Keeps.foldl) | (with_reducible apply Keeps.foldr) | (split))

theorem withCheck_sound {t0 : State} {s : State} {n : Nat} {f : Flight} {chk : Chk} {good : State → State} (hg : ∀
    {t0 t : State}, Sound t0 t → Sound t0 (good t)) (hk : Sound t0 s) : Sound t0 (withCheck s n f chk good) := by
  unfold withCheck
  try dsimp only
  repeat' (first
    | (intro _) | (with_reducible exact Sound.refl _) | (with_reducible assumption) | (with_reducible apply Sound.ite)
    | (with_reducible apply complete_sound) | (with_reducible apply cureArith_sound)
    | (with_reducible apply stopCore_sound) | (with_reducible apply issueBlotter_sound) | (with_reducible apply hg)
    | (simp only [sound_upd]) | (with_reducible apply Sound.foldl) | (with_reducible apply Sound.foldr) | (split))

theorem hbmMeets_sound {t0 : State} {s : State} {as : List Nat} {es : List (Nat × Ecc)} (hk : Sound t0 s) : Sound t0
    (hbmMeets s as es) := by
  unfold hbmMeets
  try dsimp only
  repeat' (first
    | (intro _) | (with_reducible exact Sound.refl _) | (with_reducible assumption) | (with_reducible apply Sound.ite)
    | (with_reducible apply eccAt_sound) | (simp only [sound_upd]) | (with_reducible apply Sound.foldl)
    | (with_reducible apply Sound.foldr) | (split))

theorem releaseFence_keeps {t0 : State} {s : State} {n : Nat} {id : Nat} (hk : Keeps t0 s) : Keeps t0
    (releaseFence s n id) := by
  unfold releaseFence
  try dsimp only
  repeat' (first
    | (intro _) | (with_reducible exact Keeps.refl _) | (with_reducible assumption) | (with_reducible apply Keeps.ite)
    | (with_reducible apply injectInc_keeps) | (simp only [keeps_upd]) | (with_reducible apply Keeps.foldl)
    | (with_reducible apply Keeps.foldr) | (split))

theorem releaseFence_sound {t0 : State} {s : State} {n : Nat} {id : Nat} (hk : Sound t0 s) : Sound t0
    (releaseFence s n id) := hk.trans (releaseFence_keeps (Keeps.refl _)).sound

theorem reqEcc_sound {t0 : State} {s : State} {r : HbmReq} (hk : Sound t0 s) : Sound t0 (reqEcc s r) := by
  unfold reqEcc
  try dsimp only
  repeat' (first
    | (intro _) | (with_reducible exact Sound.refl _) | (with_reducible assumption) | (with_reducible apply Sound.ite)
    | (with_reducible apply eccAt_sound) | (simp only [sound_upd]) | (with_reducible apply Sound.foldl)
    | (with_reducible apply Sound.foldr) | (split))

theorem serveReq_sound {t0 : State} {s : State} {p : HbmPlace} {r : HbmReq} (hk : Sound t0 s) : Sound t0
    (serveReq s p r) := by
  unfold serveReq
  try dsimp only
  repeat' (first
    | (intro _) | (with_reducible exact Sound.refl _) | (with_reducible assumption) | (with_reducible apply Sound.ite)
    | (with_reducible apply request_sound) | (with_reducible apply reqEcc_sound) | (with_reducible apply modMc_sound)
    | (simp only [sound_upd]) | (with_reducible apply Sound.foldl) | (with_reducible apply Sound.foldr)
    | (with_reducible exact id) | (with_reducible apply writeByte_wf) | (with_reducible apply writeBytes_wf)
    | (with_reducible apply writeCells_wf) | (with_reducible apply writeLe_wf) | (with_reducible apply clearRange_wf)
    | (with_reducible apply loseRange_wf) | (with_reducible apply clearHole_wf) | (with_reducible apply coverHole_wf)
    | (with_reducible apply writeTile_wf) | (with_reducible apply reduceAt_wf) | (with_reducible apply putVals_wf)
    | (with_reducible apply wf_foldl) | (split) | (with_reducible apply Sound.updMem))

theorem hbmRequest_sound {t0 : State} {s : State} {r : HbmReq} (hk : Sound t0 s) : Sound t0 (hbmRequest s r) := by
  unfold hbmRequest
  try dsimp only
  repeat' (first
    | (intro _) | (with_reducible exact Sound.refl _) | (with_reducible assumption) | (with_reducible apply Sound.ite)
    | (with_reducible apply serveReq_sound) | (with_reducible apply modMc_sound)
    | (with_reducible apply startExit_sound) | (simp only [sound_upd]) | (with_reducible apply Sound.foldl)
    | (with_reducible apply Sound.foldr) | (split))

theorem hbmAccess_sound {t0 : State} {s : State} {a : Nat} {k : Nat} {mk : Nat → Nat → HbmOp} {ecc : List Ecc}
    {rmw : Bool} {keepOpen : Bool} {drains : Nat} (hk : Sound t0 s) : Sound t0
    (hbmAccess s a k mk ecc rmw keepOpen drains) := by
  unfold hbmAccess
  try dsimp only
  repeat' (first
    | (intro _) | (with_reducible exact Sound.refl _) | (with_reducible assumption) | (with_reducible apply Sound.ite)
    | (with_reducible apply hbmRequest_sound) | (simp only [sound_upd]) | (with_reducible apply Sound.foldl)
    | (with_reducible apply Sound.foldr) | (split))

theorem hbmRead_sound {t0 : State} {s : State} {a : Nat} {k : Nat} {ecc : List Ecc} {keepOpen : Bool}
    (hk : Sound t0 s) : Sound t0 (hbmRead s a k ecc keepOpen) := by
  unfold hbmRead
  try dsimp only
  repeat' (first
    | (intro _) | (with_reducible exact Sound.refl _) | (with_reducible assumption) | (with_reducible apply Sound.ite)
    | (with_reducible apply hbmAccess_sound) | (simp only [sound_upd]) | (with_reducible apply Sound.foldl)
    | (with_reducible apply Sound.foldr) | (split))

theorem execHbmRead_sound {addr : Nat} {len : Nat} {ecc : List Ecc} {keepOpen : Bool} {s : State} {t0 : State}
    (he : execHbmRead addr len ecc keepOpen s = .next t0) : Sound s t0 := by
  unfold execHbmRead at he
  first | (replace he := Host.Outcome.next.inj he; subst he) | cases he
  repeat' (first
    | (intro _) | (with_reducible exact Sound.refl _) | (with_reducible assumption) | (with_reducible apply Sound.ite)
    | (with_reducible apply hbmRead_sound) | (simp only [sound_upd]) | (with_reducible apply Sound.foldl)
    | (with_reducible apply Sound.foldr) | (split))

theorem hbmWrite_sound {t0 : State} {s : State} {a : Nat} {bs : List Byte} {ecc : List Ecc} {keepOpen : Bool}
    {drains : Nat} (hk : Sound t0 s) : Sound t0 (hbmWrite s a bs ecc keepOpen drains) := by
  unfold hbmWrite
  try dsimp only
  repeat' (first
    | (intro _) | (with_reducible exact Sound.refl _) | (with_reducible assumption) | (with_reducible apply Sound.ite)
    | (with_reducible apply hbmAccess_sound) | (simp only [sound_upd]) | (with_reducible apply Sound.foldl)
    | (with_reducible apply Sound.foldr) | (split))

theorem execHbmWrite_sound {addr : Nat} {data : List Byte} {ecc : List Ecc} {keepOpen : Bool} {drains : Nat}
    {s : State} {t0 : State} (he : execHbmWrite addr data ecc keepOpen drains s = .next t0) : Sound s t0 := by
  unfold execHbmWrite at he
  first | (replace he := Host.Outcome.next.inj he; subst he) | cases he
  repeat' (first
    | (intro _) | (with_reducible exact Sound.refl _) | (with_reducible assumption) | (with_reducible apply Sound.ite)
    | (with_reducible apply hbmWrite_sound) | (simp only [sound_upd]) | (with_reducible apply Sound.foldl)
    | (with_reducible apply Sound.foldr) | (split))

theorem hbmReduce_sound {t0 : State} {s : State} {a : Nat} {bf16 : Bool} {mx : Bool} {x : W32} {ecc : List Ecc}
    (hk : Sound t0 s) : Sound t0 (hbmReduce s a bf16 mx x ecc) := by
  unfold hbmReduce
  try dsimp only
  repeat' (first
    | (intro _) | (with_reducible exact Sound.refl _) | (with_reducible assumption) | (with_reducible apply Sound.ite)
    | (with_reducible apply hbmRequest_sound) | (simp only [sound_upd]) | (with_reducible apply Sound.foldl)
    | (with_reducible apply Sound.foldr) | (split))

theorem execHbmReduceStore_sound {addr : Nat} {bf16 : Bool} {mx : Bool} {value : W32} {ecc : List Ecc} {s : State}
    {t0 : State} (he : execHbmReduceStore addr bf16 mx value ecc s = .next t0) : Sound s t0 := by
  unfold execHbmReduceStore at he
  first | (replace he := Host.Outcome.next.inj he; subst he) | cases he
  repeat' (first
    | (intro _) | (with_reducible exact Sound.refl _) | (with_reducible assumption) | (with_reducible apply Sound.ite)
    | (with_reducible apply hbmReduce_sound) | (simp only [sound_upd]) | (with_reducible apply Sound.foldl)
    | (with_reducible apply Sound.foldr) | (split))

theorem hbmRefresh_keeps {t0 : State} {s : State} {i : Nat} {c : Nat} {b : Nat} {drains : Nat} {onDie : Nat}
    (hk : Keeps t0 s) : Keeps t0 (hbmRefresh s i c b drains onDie) := by
  unfold hbmRefresh
  try dsimp only
  repeat' (first
    | (intro _) | (with_reducible exact Keeps.refl _) | (with_reducible assumption) | (with_reducible apply Keeps.ite)
    | (with_reducible apply modMc_keeps) | (with_reducible apply eccCount_keeps) | (simp only [keeps_upd])
    | (with_reducible apply Keeps.foldl) | (with_reducible apply Keeps.foldr) | (split))

theorem hbmRefresh_sound {t0 : State} {s : State} {i : Nat} {c : Nat} {b : Nat} {drains : Nat} {onDie : Nat}
    (hk : Sound t0 s) : Sound t0 (hbmRefresh s i c b drains onDie) := hk.trans (hbmRefresh_keeps (Keeps.refl _)).sound

theorem execHbmRefresh_keeps {site : Nat} {pc : Nat} {bank : Nat} {drains : Nat} {onDie : Nat} {s : State}
    {t0 : State} (he : execHbmRefresh site pc bank drains onDie s = .next t0) : Keeps s t0 := by
  unfold execHbmRefresh at he
  first | (replace he := Host.Outcome.next.inj he; subst he) | cases he
  repeat' (first
    | (intro _) | (with_reducible exact Keeps.refl _) | (with_reducible assumption) | (with_reducible apply Keeps.ite)
    | (with_reducible apply hbmRefresh_keeps) | (simp only [keeps_upd]) | (with_reducible apply Keeps.foldl)
    | (with_reducible apply Keeps.foldr) | (split))

theorem overTemp_sound {t0 : State} {s : State} {i : Nat} (hk : Sound t0 s) : Sound t0 (overTemp s i) := by
  unfold overTemp
  try dsimp only
  repeat' (first
    | (intro _) | (with_reducible exact Sound.refl _) | (with_reducible assumption) | (with_reducible apply Sound.ite)
    | (with_reducible apply recordErr_sound) | (with_reducible apply modMc_sound)
    | (with_reducible apply resetByFault_sound) | (simp only [sound_upd]) | (with_reducible apply Sound.foldl)
    | (with_reducible apply Sound.foldr) | (split))

theorem tempSample_sound {t0 : State} {s : State} {i : Nat} {ts : List Nat} (hk : Sound t0 s) : Sound t0
    (tempSample s i ts) := by
  unfold tempSample
  try dsimp only
  repeat' (first
    | (intro _) | (with_reducible exact Sound.refl _) | (with_reducible assumption) | (with_reducible apply Sound.ite)
    | (with_reducible apply bumpFree_sound) | (with_reducible apply setMc_sound)
    | (with_reducible apply raiseEvt_sound) | (with_reducible apply overTemp_sound) | (simp only [sound_upd])
    | (with_reducible apply Sound.foldl) | (with_reducible apply Sound.foldr) | (split))

theorem execHbmTempSample_sound {site : Nat} {temps : List Nat} {s : State} {t0 : State}
    (he : execHbmTempSample site temps s = .next t0) : Sound s t0 := by
  unfold execHbmTempSample at he
  first | (replace he := Host.Outcome.next.inj he; subst he) | cases he
  repeat' (first
    | (intro _) | (with_reducible exact Sound.refl _) | (with_reducible assumption) | (with_reducible apply Sound.ite)
    | (with_reducible apply tempSample_sound) | (simp only [sound_upd]) | (with_reducible apply Sound.foldl)
    | (with_reducible apply Sound.foldr) | (split))

theorem imbWindowEnd_keeps {t0 : State} {s : State} {i : Nat} (hk : Keeps t0 s) : Keeps t0 (imbWindowEnd s i) := by
  unfold imbWindowEnd
  try dsimp only
  repeat' (first
    | (intro _) | (with_reducible exact Keeps.refl _) | (with_reducible assumption) | (with_reducible apply Keeps.ite)
    | (with_reducible apply bumpFree_keeps) | (with_reducible apply setMc_keeps)
    | (with_reducible apply raiseEvt_keeps) | (simp only [keeps_upd]) | (with_reducible apply Keeps.foldl)
    | (with_reducible apply Keeps.foldr) | (split))

theorem imbWindowEnd_sound {t0 : State} {s : State} {i : Nat} (hk : Sound t0 s) : Sound t0
    (imbWindowEnd s i) := hk.trans (imbWindowEnd_keeps (Keeps.refl _)).sound

theorem execImbWindowEnd_keeps {site : Nat} {s : State} {t0 : State}
    (he : execImbWindowEnd site s = .next t0) : Keeps s t0 := by
  unfold execImbWindowEnd at he
  first | (replace he := Host.Outcome.next.inj he; subst he) | cases he
  repeat' (first
    | (intro _) | (with_reducible exact Keeps.refl _) | (with_reducible assumption) | (with_reducible apply Keeps.ite)
    | (with_reducible apply imbWindowEnd_keeps) | (simp only [keeps_upd]) | (with_reducible apply Keeps.foldl)
    | (with_reducible apply Keeps.foldr) | (split))

theorem execBankPowerDown_keeps {site : Nat} {pc : Nat} {bank : Nat} {s : State} {t0 : State}
    (he : execBankPowerDown site pc bank s = .next t0) : Keeps s t0 := by
  unfold execBankPowerDown at he
  first | (replace he := Host.Outcome.next.inj he; subst he) | cases he
  repeat' (first
    | (intro _) | (with_reducible exact Keeps.refl _) | (with_reducible assumption) | (with_reducible apply Keeps.ite)
    | (with_reducible apply bankPowerDown_keeps) | (simp only [keeps_upd]) | (with_reducible apply Keeps.foldl)
    | (with_reducible apply Keeps.foldr) | (split))

theorem selfRefreshEntry_keeps {t0 : State} {s : State} {i : Nat} (hk : Keeps t0 s) : Keeps t0 (selfRefreshEntry s i) := by
  unfold selfRefreshEntry
  try dsimp only
  repeat' (first
    | (intro _) | (with_reducible exact Keeps.refl _) | (with_reducible assumption) | (with_reducible apply Keeps.ite)
    | (with_reducible apply setMc_keeps) | (simp only [keeps_upd]) | (with_reducible apply Keeps.foldl)
    | (with_reducible apply Keeps.foldr) | (split))

theorem selfRefreshEntry_sound {t0 : State} {s : State} {i : Nat} (hk : Sound t0 s) : Sound t0
    (selfRefreshEntry s i) := hk.trans (selfRefreshEntry_keeps (Keeps.refl _)).sound

theorem execSelfRefreshEntry_keeps {site : Nat} {s : State} {t0 : State}
    (he : execSelfRefreshEntry site s = .next t0) : Keeps s t0 := by
  unfold execSelfRefreshEntry at he
  first | (replace he := Host.Outcome.next.inj he; subst he) | cases he
  repeat' (first
    | (intro _) | (with_reducible exact Keeps.refl _) | (with_reducible assumption) | (with_reducible apply Keeps.ite)
    | (with_reducible apply selfRefreshEntry_keeps) | (simp only [keeps_upd]) | (with_reducible apply Keeps.foldl)
    | (with_reducible apply Keeps.foldr) | (split))

theorem releaseBlotters_keeps {t0 : State} {s : State} (hk : Keeps t0 s) : Keeps t0 (releaseBlotters s) := by
  unfold releaseBlotters
  try dsimp only
  repeat' (first
    | (intro _) | (with_reducible exact Keeps.refl _) | (with_reducible assumption) | (with_reducible apply Keeps.ite)
    | (with_reducible apply writeBlotter_keeps) | (simp only [keeps_upd]) | (with_reducible apply Keeps.foldl)
    | (with_reducible apply Keeps.foldr) | (split))

theorem releaseBlotters_sound {t0 : State} {s : State} (hk : Sound t0 s) : Sound t0 (releaseBlotters s) := hk.trans
    (releaseBlotters_keeps (Keeps.refl _)).sound

theorem execBankPoweredDown_keeps {site : Nat} {pc : Nat} {bank : Nat} {s : State} {t0 : State}
    (he : execBankPoweredDown site pc bank s = .next t0) : Keeps s t0 := by
  unfold execBankPoweredDown at he
  first | (replace he := Host.Outcome.next.inj he; subst he) | cases he
  repeat' (first
    | (intro _) | (with_reducible exact Keeps.refl _) | (with_reducible assumption) | (with_reducible apply Keeps.ite)
    | (with_reducible apply bankPoweredDown_keeps) | (simp only [keeps_upd]) | (with_reducible apply Keeps.foldl)
    | (with_reducible apply Keeps.foldr) | (split))

theorem exitDone_sound {t0 : State} {s : State} {i : Nat} (hk : Sound t0 s) : Sound t0 (exitDone s i) := by
  unfold exitDone
  try dsimp only
  repeat' (first
    | (intro _) | (with_reducible exact Sound.refl _) | (with_reducible assumption) | (with_reducible apply Sound.ite)
    | (with_reducible apply hbmRequest_sound) | (with_reducible apply modMc_sound) | (simp only [sound_upd])
    | (with_reducible apply Sound.foldl) | (with_reducible apply Sound.foldr) | (split))

theorem execSelfRefreshExitComplete_sound {site : Nat} {s : State} {t0 : State}
    (he : execSelfRefreshExitComplete site s = .next t0) : Sound s t0 := by
  unfold execSelfRefreshExitComplete at he
  first | (replace he := Host.Outcome.next.inj he; subst he) | cases he
  repeat' (first
    | (intro _) | (with_reducible exact Sound.refl _) | (with_reducible assumption) | (with_reducible apply Sound.ite)
    | (with_reducible apply exitDone_sound) | (simp only [sound_upd]) | (with_reducible apply Sound.foldl)
    | (with_reducible apply Sound.foldr) | (split))

end Sys2Proof.Machine
end

