-- ==== Sys2Proof/Laws/KeepsCore.lean ====
section
/-! SUPPORT. What every operation leaves alone (the compute cores, the accord and the checkers): `f_keeps` says that memory, the variant and the queue
stay, `f_sound` that the variant and the queue stay and memory keeps its canonical form. -/

namespace Sys2Proof.Machine

set_option linter.all false

theorem accStart_keeps {t0 : State} {s : State} (hk : Keeps t0 s) : Keeps t0 (accStart s) := by
  unfold accStart
  try dsimp only
  repeat' (first
    | (intro _) | (with_reducible exact Keeps.refl _) | (with_reducible assumption) | (with_reducible apply Keeps.ite)
    | (simp only [keeps_upd]) | (with_reducible apply Keeps.foldl) | (with_reducible apply Keeps.foldr) | (split))

theorem accStart_sound {t0 : State} {s : State} (hk : Sound t0 s) : Sound t0 (accStart s) := hk.trans (accStart_keeps
    (Keeps.refl _)).sound

theorem accStop_keeps {t0 : State} {s : State} (hk : Keeps t0 s) : Keeps t0 (accStop s) := by
  unfold accStop
  try dsimp only
  repeat' (first
    | (intro _) | (with_reducible exact Keeps.refl _) | (with_reducible assumption) | (with_reducible apply Keeps.ite)
    | (simp only [keeps_upd]) | (with_reducible apply Keeps.foldl) | (with_reducible apply Keeps.foldr) | (split))

theorem accStop_sound {t0 : State} {s : State} (hk : Sound t0 s) : Sound t0 (accStop s) := hk.trans (accStop_keeps
    (Keeps.refl _)).sound

theorem refEdge_keeps {t0 : State} {s : State} (hk : Keeps t0 s) : Keeps t0 (refEdge s) := by
  unfold refEdge
  try dsimp only
  repeat' (first
    | (intro _) | (with_reducible exact Keeps.refl _) | (with_reducible assumption) | (with_reducible apply Keeps.ite)
    | (with_reducible apply raiseEvt_keeps) | (simp only [keeps_upd]) | (with_reducible apply Keeps.foldl)
    | (with_reducible apply Keeps.foldr) | (split))

theorem refEdge_sound {t0 : State} {s : State} (hk : Sound t0 s) : Sound t0 (refEdge s) := hk.trans (refEdge_keeps
    (Keeps.refl _)).sound

theorem accTick_keeps {t0 : State} {s : State} (hk : Keeps t0 s) : Keeps t0 (accTick s) := by
  unfold accTick
  try dsimp only
  repeat' (first
    | (intro _) | (with_reducible exact Keeps.refl _) | (with_reducible assumption) | (with_reducible apply Keeps.ite)
    | (with_reducible apply refEdge_keeps) | (simp only [keeps_upd]) | (with_reducible apply Keeps.foldl)
    | (with_reducible apply Keeps.foldr) | (split))

theorem accTick_sound {t0 : State} {s : State} (hk : Sound t0 s) : Sound t0 (accTick s) := hk.trans (accTick_keeps
    (Keeps.refl _)).sound

theorem assignChecker_keeps {t0 : State} {s : State} {g : Nat} (hk : Keeps t0 s) : Keeps t0 (assignChecker s g) := by
  unfold assignChecker
  try dsimp only
  repeat' (first
    | (intro _) | (with_reducible exact Keeps.refl _) | (with_reducible assumption) | (with_reducible apply Keeps.ite)
    | (with_reducible apply takeRole_keeps) | (with_reducible apply setCluster_keeps) | (simp only [keeps_upd])
    | (with_reducible apply Keeps.foldl) | (with_reducible apply Keeps.foldr) | (split))

theorem assignChecker_sound {t0 : State} {s : State} {g : Nat} (hk : Sound t0 s) : Sound t0
    (assignChecker s g) := hk.trans (assignChecker_keeps (Keeps.refl _)).sound

theorem addBusy_keeps {t0 : State} {s : State} {n : Nat} (hk : Keeps t0 s) : Keeps t0 (addBusy s n) := by
  unfold addBusy
  try dsimp only
  repeat' (first
    | (intro _) | (with_reducible exact Keeps.refl _) | (with_reducible assumption) | (with_reducible apply Keeps.ite)
    | (with_reducible apply bumpFree_keeps) | (with_reducible apply modCluster_keeps) | (simp only [keeps_upd])
    | (with_reducible apply Keeps.foldl) | (with_reducible apply Keeps.foldr) | (split))

theorem addBusy_sound {t0 : State} {s : State} {n : Nat} (hk : Sound t0 s) : Sound t0 (addBusy s n) := hk.trans
    (addBusy_keeps (Keeps.refl _)).sound

theorem afterSample_keeps {t0 : State} {s : State} {g : Nat} (hk : Keeps t0 s) : Keeps t0 (afterSample s g) := by
  unfold afterSample
  try dsimp only
  repeat' (first
    | (intro _) | (with_reducible exact Keeps.refl _) | (with_reducible assumption) | (with_reducible apply Keeps.ite)
    | (with_reducible apply settleStop_keeps) | (with_reducible apply nextSample_keeps)
    | (with_reducible apply dropRole_keeps) | (with_reducible apply tryRotate_keeps) | (simp only [keeps_upd])
    | (with_reducible apply Keeps.foldl) | (with_reducible apply Keeps.foldr) | (split))

theorem afterSample_sound {t0 : State} {s : State} {g : Nat} (hk : Sound t0 s) : Sound t0
    (afterSample s g) := hk.trans (afterSample_keeps (Keeps.refl _)).sound

theorem refuseTesting_keeps {t0 : State} {s : State} {m : NetMsg} (hk : Keeps t0 s) : Keeps t0 (refuseTesting s m) := by
  unfold refuseTesting
  try dsimp only
  repeat' (first
    | (intro _) | (with_reducible exact Keeps.refl _) | (with_reducible assumption) | (with_reducible apply Keeps.ite)
    | (with_reducible apply recordErr_keeps) | (simp only [keeps_upd]) | (with_reducible apply Keeps.foldl)
    | (with_reducible apply Keeps.foldr) | (split))

theorem refuseTesting_sound {t0 : State} {s : State} {m : NetMsg} (hk : Sound t0 s) : Sound t0
    (refuseTesting s m) := hk.trans (refuseTesting_keeps (Keeps.refl _)).sound

theorem landMsg_sound {t0 : State} {s : State} {m : NetMsg} (hk : Sound t0 s) : Sound t0 (landMsg s m) := by
  unfold landMsg
  try dsimp only
  repeat' (first
    | (intro _) | (with_reducible exact Sound.refl _) | (with_reducible assumption) | (with_reducible apply Sound.ite)
    | (with_reducible apply portWrite_sound) | (with_reducible apply applyInc_sound) | (simp only [sound_upd])
    | (with_reducible apply Sound.foldl) | (with_reducible apply Sound.foldr) | (split))

theorem arriveFlit_sound {t0 : State} {s : State} {m : NetMsg} (hk : Sound t0 s) : Sound t0 (arriveFlit s m) := by
  unfold arriveFlit
  try dsimp only
  repeat' (first
    | (intro _) | (with_reducible exact Sound.refl _) | (with_reducible assumption) | (with_reducible apply Sound.ite)
    | (with_reducible apply countPath_sound) | (with_reducible apply refuseTesting_sound)
    | (with_reducible apply landMsg_sound) | (simp only [sound_upd]) | (with_reducible apply Sound.foldl)
    | (with_reducible apply Sound.foldr) | (split))

theorem launchRun_keeps {t0 : State} {s : State} {n : Nat} (hk : Keeps t0 s) : Keeps t0 (launchRun s n) := by
  unfold launchRun
  try dsimp only
  repeat' (first
    | (intro _) | (with_reducible exact Keeps.refl _) | (with_reducible assumption) | (with_reducible apply Keeps.ite)
    | (with_reducible apply setCore_keeps) | (with_reducible apply modCluster_keeps) | (simp only [keeps_upd])
    | (with_reducible apply Keeps.foldl) | (with_reducible apply Keeps.foldr) | (split))

theorem launchRun_sound {t0 : State} {s : State} {n : Nat} (hk : Sound t0 s) : Sound t0 (launchRun s n) := hk.trans
    (launchRun_keeps (Keeps.refl _)).sound

theorem beginRun_sound {t0 : State} {s : State} {n : Nat} (hk : Sound t0 s) : Sound t0 (beginRun s n) := by
  unfold beginRun
  try dsimp only
  repeat' (first
    | (intro _) | (with_reducible exact Sound.refl _) | (with_reducible assumption) | (with_reducible apply Sound.ite)
    | (with_reducible apply setCore_sound) | (with_reducible apply portWrite_sound)
    | (with_reducible apply launchRun_sound) | (simp only [sound_upd]) | (with_reducible apply Sound.foldl)
    | (with_reducible apply Sound.foldr) | (split))

theorem coreStop_keeps {t0 : State} {s : State} {n : Nat} (hk : Keeps t0 s) : Keeps t0 (coreStop s n) := by
  unfold coreStop
  try dsimp only
  repeat' (first
    | (intro _) | (with_reducible exact Keeps.refl _) | (with_reducible assumption) | (with_reducible apply Keeps.ite)
    | (with_reducible apply stopCore_keeps) | (with_reducible apply setCore_keeps) | (simp only [keeps_upd])
    | (with_reducible apply Keeps.foldl) | (with_reducible apply Keeps.foldr) | (split))

theorem coreStop_sound {t0 : State} {s : State} {n : Nat} (hk : Sound t0 s) : Sound t0 (coreStop s n) := hk.trans
    (coreStop_keeps (Keeps.refl _)).sound

theorem coreReset_keeps {t0 : State} {s : State} {n : Nat} (hk : Keeps t0 s) : Keeps t0 (coreReset s n) := by
  unfold coreReset
  try dsimp only
  repeat' (first
    | (intro _) | (with_reducible exact Keeps.refl _) | (with_reducible assumption) | (with_reducible apply Keeps.ite)
    | (with_reducible apply tryRotate_keeps) | (with_reducible apply setCore_keeps)
    | (with_reducible apply dropWake_keeps) | (with_reducible apply report_keeps)
    | (with_reducible apply recordErr_keeps) | (with_reducible apply requestWake_keeps) | (simp only [keeps_upd])
    | (with_reducible apply Keeps.foldl) | (with_reducible apply Keeps.foldr) | (split))

theorem coreReset_sound {t0 : State} {s : State} {n : Nat} (hk : Sound t0 s) : Sound t0 (coreReset s n) := hk.trans
    (coreReset_keeps (Keeps.refl _)).sound

theorem dupCfgWrite_keeps {t0 : State} {s : State} {g : Nat} {v : W32} (hk : Keeps t0 s) : Keeps t0 (dupCfgWrite s g v) := by
  unfold dupCfgWrite
  try dsimp only
  repeat' (first
    | (intro _) | (with_reducible exact Keeps.refl _) | (with_reducible assumption) | (with_reducible apply Keeps.ite)
    | (with_reducible apply settleFull_keeps) | (with_reducible apply setCluster_keeps)
    | (with_reducible apply passRole_keeps) | (with_reducible apply dropRole_keeps) | (simp only [keeps_upd])
    | (with_reducible apply Keeps.foldl) | (with_reducible apply Keeps.foldr) | (split))

theorem dupCfgWrite_sound {t0 : State} {s : State} {g : Nat} {v : W32} (hk : Sound t0 s) : Sound t0
    (dupCfgWrite s g v) := hk.trans (dupCfgWrite_keeps (Keeps.refl _)).sound

theorem bumpMove_keeps {t0 : State} {s : State} {n : Nat} {v : MoveView} (hk : Keeps t0 s) : Keeps t0 (bumpMove s n v) := by
  unfold bumpMove
  try dsimp only
  repeat' (first
    | (intro _) | (with_reducible exact Keeps.refl _) | (with_reducible assumption) | (with_reducible apply Keeps.ite)
    | (with_reducible apply bumpFree_keeps) | (simp only [keeps_upd]) | (with_reducible apply Keeps.foldl)
    | (with_reducible apply Keeps.foldr) | (split))

theorem bumpMove_sound {t0 : State} {s : State} {n : Nat} {v : MoveView} (hk : Sound t0 s) : Sound t0
    (bumpMove s n v) := hk.trans (bumpMove_keeps (Keeps.refl _)).sound

theorem checkerRotate_keeps {t0 : State} {s : State} {g : Nat} (hk : Keeps t0 s) : Keeps t0 (checkerRotate s g) := by
  unfold checkerRotate
  try dsimp only
  repeat' (first
    | (intro _) | (with_reducible exact Keeps.refl _) | (with_reducible assumption) | (with_reducible apply Keeps.ite)
    | (with_reducible apply tryRotate_keeps) | (with_reducible apply setCluster_keeps) | (simp only [keeps_upd])
    | (with_reducible apply Keeps.foldl) | (with_reducible apply Keeps.foldr) | (split))

theorem checkerRotate_sound {t0 : State} {s : State} {g : Nat} (hk : Sound t0 s) : Sound t0
    (checkerRotate s g) := hk.trans (checkerRotate_keeps (Keeps.refl _)).sound

theorem coreCe_keeps {t0 : State} {s : State} {n : Nat} (hk : Keeps t0 s) : Keeps t0 (coreCe s n) := by
  unfold coreCe
  try dsimp only
  repeat' (first
    | (intro _) | (with_reducible exact Keeps.refl _) | (with_reducible assumption) | (with_reducible apply Keeps.ite)
    | (with_reducible apply correctedBlotter_keeps) | (with_reducible apply modCore_keeps) | (simp only [keeps_upd])
    | (with_reducible apply Keeps.foldl) | (with_reducible apply Keeps.foldr) | (split))

theorem coreCe_sound {t0 : State} {s : State} {n : Nat} (hk : Sound t0 s) : Sound t0 (coreCe s n) := hk.trans
    (coreCe_keeps (Keeps.refl _)).sound

theorem refuse_keeps {t0 : State} {s : State} {n : Nat} {code : Nat} {lo : Nat} (hk : Keeps t0 s) : Keeps t0
    (refuse s n code lo) := by
  unfold refuse
  try dsimp only
  repeat' (first
    | (intro _) | (with_reducible exact Keeps.refl _) | (with_reducible assumption) | (with_reducible apply Keeps.ite)
    | (with_reducible apply stopCore_keeps) | (with_reducible apply modCore_keeps) | (simp only [keeps_upd])
    | (with_reducible apply Keeps.foldl) | (with_reducible apply Keeps.foldr) | (split))

theorem refuse_sound {t0 : State} {s : State} {n : Nat} {code : Nat} {lo : Nat} (hk : Sound t0 s) : Sound t0
    (refuse s n code lo) := hk.trans (refuse_keeps (Keeps.refl _)).sound

theorem issued_keeps {t0 : State} {s : State} {n : Nat} {w : W64} {pc : Nat} (hk : Keeps t0 s) : Keeps t0
    (issued s n w pc) := by
  unfold issued
  try dsimp only
  repeat' (first
    | (intro _) | (with_reducible exact Keeps.refl _) | (with_reducible assumption) | (with_reducible apply Keeps.ite)
    | (with_reducible apply modCore_keeps) | (simp only [keeps_upd]) | (with_reducible apply Keeps.foldl)
    | (with_reducible apply Keeps.foldr) | (split))

theorem issued_sound {t0 : State} {s : State} {n : Nat} {w : W64} {pc : Nat} (hk : Sound t0 s) : Sound t0
    (issued s n w pc) := hk.trans (issued_keeps (Keeps.refl _)).sound

theorem issueMove_keeps {t0 : State} {s : State} {n : Nat} {w : W64} (hk : Keeps t0 s) : Keeps t0 (issueMove s n w) := by
  unfold issueMove
  try dsimp only
  repeat' (first
    | (intro _) | (with_reducible exact Keeps.refl _) | (with_reducible assumption) | (with_reducible apply Keeps.ite)
    | (with_reducible apply refuse_keeps) | (with_reducible apply enqueue_keeps) | (with_reducible apply issued_keeps)
    | (with_reducible apply bumpMove_keeps) | (simp only [keeps_upd]) | (with_reducible apply Keeps.foldl)
    | (with_reducible apply Keeps.foldr) | (split))

theorem issueMove_sound {t0 : State} {s : State} {n : Nat} {w : W64} (hk : Sound t0 s) : Sound t0
    (issueMove s n w) := hk.trans (issueMove_keeps (Keeps.refl _)).sound

theorem issueUnit_keeps {t0 : State} {s : State} {n : Nat} {w : W64} {u : CUnit} (hk : Keeps t0 s) : Keeps t0
    (issueUnit s n w u) := by
  unfold issueUnit
  try dsimp only
  repeat' (first
    | (intro _) | (with_reducible exact Keeps.refl _) | (with_reducible assumption) | (with_reducible apply Keeps.ite)
    | (with_reducible apply refuse_keeps) | (with_reducible apply enqueue_keeps) | (with_reducible apply issued_keeps)
    | (simp only [keeps_upd]) | (with_reducible apply Keeps.foldl) | (with_reducible apply Keeps.foldr) | (split))

theorem issueUnit_sound {t0 : State} {s : State} {n : Nat} {w : W64} {u : CUnit} (hk : Sound t0 s) : Sound t0
    (issueUnit s n w u) := hk.trans (issueUnit_keeps (Keeps.refl _)).sound

theorem issueLocal_keeps {t0 : State} {s : State} {n : Nat} {w : W64} (hk : Keeps t0 s) : Keeps t0 (issueLocal s n w) := by
  unfold issueLocal
  try dsimp only
  repeat' (first
    | (intro _) | (with_reducible exact Keeps.refl _) | (with_reducible assumption) | (with_reducible apply Keeps.ite)
    | (with_reducible apply refuse_keeps) | (with_reducible apply issued_keeps) | (with_reducible apply modCore_keeps)
    | (with_reducible apply setCore_keeps) | (with_reducible apply sendInc_keeps) | (simp only [keeps_upd])
    | (with_reducible apply Keeps.foldl) | (with_reducible apply Keeps.foldr) | (split))

theorem issueLocal_sound {t0 : State} {s : State} {n : Nat} {w : W64} (hk : Sound t0 s) : Sound t0
    (issueLocal s n w) := hk.trans (issueLocal_keeps (Keeps.refl _)).sound

theorem tryIssue_keeps {t0 : State} {s : State} {n : Nat} {w : W64} (hk : Keeps t0 s) : Keeps t0 (tryIssue s n w) := by
  unfold tryIssue
  try dsimp only
  repeat' (first
    | (intro _) | (with_reducible exact Keeps.refl _) | (with_reducible assumption) | (with_reducible apply Keeps.ite)
    | (with_reducible apply issueMove_keeps) | (with_reducible apply refuse_keeps)
    | (with_reducible apply issueUnit_keeps) | (with_reducible apply setCore_keeps)
    | (with_reducible apply issueLocal_keeps) | (simp only [keeps_upd]) | (with_reducible apply Keeps.foldl)
    | (with_reducible apply Keeps.foldr) | (split))

theorem tryIssue_sound {t0 : State} {s : State} {n : Nat} {w : W64} (hk : Sound t0 s) : Sound t0
    (tryIssue s n w) := hk.trans (tryIssue_keeps (Keeps.refl _)).sound

theorem coreRow_keeps {t0 : State} {s : State} {n : Nat} {o : Nat} (hk : Keeps t0 s) : Keeps t0 (coreRow s n o) := by
  unfold coreRow
  try dsimp only
  repeat' (first
    | (intro _) | (with_reducible exact Keeps.refl _) | (with_reducible assumption) | (with_reducible apply Keeps.ite)
    | (with_reducible apply stopCore_keeps) | (with_reducible apply setCore_keeps)
    | (with_reducible apply tryIssue_keeps) | (simp only [keeps_upd]) | (with_reducible apply Keeps.foldl)
    | (with_reducible apply Keeps.foldr) | (split))

theorem coreRow_sound {t0 : State} {s : State} {n : Nat} {o : Nat} (hk : Sound t0 s) : Sound t0
    (coreRow s n o) := hk.trans (coreRow_keeps (Keeps.refl _)).sound

theorem coreUe_sound {t0 : State} {s : State} {n : Nat} {code : Nat} (hk : Sound t0 s) : Sound t0 (coreUe s n code) := by
  unfold coreUe
  try dsimp only
  repeat' (first
    | (intro _) | (with_reducible exact Sound.refl _) | (with_reducible assumption) | (with_reducible apply Sound.ite)
    | (with_reducible apply resetByFault_sound) | (with_reducible apply recordErr_sound) | (simp only [sound_upd])
    | (with_reducible apply Sound.foldl) | (with_reducible apply Sound.foldr) | (split))

theorem seqCheck_keeps {t0 : State} {s : State} {n : Nat} (hk : Keeps t0 s) : Keeps t0 (seqCheck s n) := by
  unfold seqCheck
  try dsimp only
  repeat' (first
    | (intro _) | (with_reducible exact Keeps.refl _) | (with_reducible assumption) | (with_reducible apply Keeps.ite)
    | (with_reducible apply stopCore_keeps) | (with_reducible apply issueBlotter_keeps) | (simp only [keeps_upd])
    | (with_reducible apply Keeps.foldl) | (with_reducible apply Keeps.foldr) | (split))

theorem seqCheck_sound {t0 : State} {s : State} {n : Nat} (hk : Sound t0 s) : Sound t0 (seqCheck s n) := hk.trans
    (seqCheck_keeps (Keeps.refl _)).sound

theorem coreRowMet_sound {t0 : State} {s : State} {n : Nat} {o : Nat} {m : Met} (hk : Sound t0 s) : Sound t0
    (coreRowMet s n o m) := by
  unfold coreRowMet
  try dsimp only
  repeat' (first
    | (intro _) | (with_reducible exact Sound.refl _) | (with_reducible assumption) | (with_reducible apply Sound.ite)
    | (with_reducible apply coreRow_sound) | (with_reducible apply coreCe_sound) | (with_reducible apply coreUe_sound)
    | (with_reducible apply seqCheck_sound) | (simp only [sound_upd]) | (with_reducible apply Sound.foldl)
    | (with_reducible apply Sound.foldr) | (split))

theorem coreTick_keeps {t0 : State} {s : State} (hk : Keeps t0 s) : Keeps t0 (coreTick s) := by
  unfold coreTick
  try dsimp only
  repeat' (first
    | (intro _) | (with_reducible exact Keeps.refl _) | (with_reducible assumption) | (with_reducible apply Keeps.ite)
    | (with_reducible apply accTick_keeps) | (simp only [keeps_upd]) | (with_reducible apply Keeps.foldl)
    | (with_reducible apply Keeps.foldr) | (split))

theorem coreTick_sound {t0 : State} {s : State} (hk : Sound t0 s) : Sound t0 (coreTick s) := hk.trans (coreTick_keeps
    (Keeps.refl _)).sound

theorem flitMeets_sound {t0 : State} {s : State} {p : List (Nat × NetLink)} {k : Nat} {dst : Nat} {q : Nat}
    {o : FlitOut} {take : State → State} (hg : ∀ {t0 t : State}, Sound t0 t → Sound t0 (take t))
    (hk : Sound t0 s) : Sound t0 (flitMeets s p k dst q o take) := by
  unfold flitMeets
  try dsimp only
  repeat' (first
    | (intro _) | (with_reducible exact Sound.refl _) | (with_reducible assumption) | (with_reducible apply Sound.ite)
    | (with_reducible apply countPath_sound) | (with_reducible apply modCluster_sound)
    | (with_reducible apply correctedBlotter_sound) | (with_reducible apply recordErr_sound)
    | (with_reducible apply resetByFault_sound) | (with_reducible apply resetsByFault_sound)
    | (with_reducible apply hg) | (simp only [sound_upd]) | (with_reducible apply Sound.foldl)
    | (with_reducible apply Sound.foldr) | (split))

theorem landFlit_sound {t0 : State} {s : State} {i : Nat} {m : NetMsg} {o : FlitOut} (hk : Sound t0 s) : Sound t0
    (landFlit s i m o) := by
  unfold landFlit
  try dsimp only
  repeat' (first
    | (intro _) | (with_reducible exact Sound.refl _) | (with_reducible assumption) | (with_reducible apply Sound.ite)
    | (with_reducible apply flitMeets_sound) | (with_reducible apply netDrop_sound)
    | (with_reducible apply arriveFlit_sound) | (simp only [sound_upd]) | (with_reducible apply Sound.foldl)
    | (with_reducible apply Sound.foldr) | (split))

theorem counterIncrement_sound {t0 : State} {s : State} {n : Nat} {which : Nat} {o : FlitOut}
    (hk : Sound t0 s) : Sound t0 (counterIncrement s n which o) := by
  unfold counterIncrement
  try dsimp only
  repeat' (first
    | (intro _) | (with_reducible exact Sound.refl _) | (with_reducible assumption) | (with_reducible apply Sound.ite)
    | (with_reducible apply landFlit_sound) | (simp only [sound_upd]) | (with_reducible apply Sound.foldl)
    | (with_reducible apply Sound.foldr) | (split))

theorem counterWaitMet_keeps {t0 : State} {s : State} {n : Nat} (hk : Keeps t0 s) : Keeps t0 (counterWaitMet s n) := by
  unfold counterWaitMet
  try dsimp only
  repeat' (first
    | (intro _) | (with_reducible exact Keeps.refl _) | (with_reducible assumption) | (with_reducible apply Keeps.ite)
    | (with_reducible apply tryIssue_keeps) | (simp only [keeps_upd]) | (with_reducible apply Keeps.foldl)
    | (with_reducible apply Keeps.foldr) | (split))

theorem counterWaitMet_sound {t0 : State} {s : State} {n : Nat} (hk : Sound t0 s) : Sound t0
    (counterWaitMet s n) := hk.trans (counterWaitMet_keeps (Keeps.refl _)).sound

theorem ctileBad_sound {t0 : State} {s : State} {n : Nat} {f : Flight} {b : Nat × Nat × Nat}
    (hk : Sound t0 s) : Sound t0 (ctileBad s n f b) := by
  unfold ctileBad
  try dsimp only
  repeat' (first
    | (intro _) | (with_reducible exact Sound.refl _) | (with_reducible assumption) | (with_reducible apply Sound.ite)
    | (with_reducible apply addBusy_sound) | (with_reducible apply complete_sound)
    | (with_reducible apply stopCore_sound) | (simp only [sound_upd]) | (with_reducible apply Sound.foldl)
    | (with_reducible apply Sound.foldr) | (with_reducible exact id) | (with_reducible apply writeByte_wf)
    | (with_reducible apply writeBytes_wf) | (with_reducible apply writeCells_wf) | (with_reducible apply writeLe_wf)
    | (with_reducible apply clearRange_wf) | (with_reducible apply loseRange_wf) | (with_reducible apply clearHole_wf)
    | (with_reducible apply coverHole_wf) | (with_reducible apply writeTile_wf) | (with_reducible apply reduceAt_wf)
    | (with_reducible apply putVals_wf) | (with_reducible apply wf_foldl) | (split)
    | (with_reducible apply Sound.updMem))

theorem dupMismatch_keeps {t0 : State} {s : State} {g : Nat} {i : Nat} {x : Sample} (hk : Keeps t0 s) : Keeps t0
    (dupMismatch s g i x) := by
  unfold dupMismatch
  try dsimp only
  repeat' (first
    | (intro _) | (with_reducible exact Keeps.refl _) | (with_reducible assumption) | (with_reducible apply Keeps.ite)
    | (with_reducible apply raiseEvt_keeps) | (with_reducible apply stopCore_keeps)
    | (with_reducible apply recordErr_keeps) | (with_reducible apply modCore_keeps)
    | (with_reducible apply modCluster_keeps) | (with_reducible apply issueBlotter_keeps)
    | (with_reducible apply nextSample_keeps) | (with_reducible apply settleFull_keeps)
    | (with_reducible apply passRole_keeps) | (simp only [keeps_upd]) | (with_reducible apply Keeps.foldl)
    | (with_reducible apply Keeps.foldr) | (split))

theorem dupMismatch_sound {t0 : State} {s : State} {g : Nat} {i : Nat} {x : Sample} (hk : Sound t0 s) : Sound t0
    (dupMismatch s g i x) := hk.trans (dupMismatch_keeps (Keeps.refl _)).sound

theorem dupCompare_keeps {t0 : State} {s : State} {g : Nat} {mismatch : Bool} (hk : Keeps t0 s) : Keeps t0
    (dupCompare s g mismatch) := by
  unfold dupCompare
  try dsimp only
  repeat' (first
    | (intro _) | (with_reducible exact Keeps.refl _) | (with_reducible assumption) | (with_reducible apply Keeps.ite)
    | (with_reducible apply setCluster_keeps) | (with_reducible apply dupMismatch_keeps)
    | (with_reducible apply afterSample_keeps) | (simp only [keeps_upd]) | (with_reducible apply Keeps.foldl)
    | (with_reducible apply Keeps.foldr) | (split))

theorem dupCompare_sound {t0 : State} {s : State} {g : Nat} {mismatch : Bool} (hk : Sound t0 s) : Sound t0
    (dupCompare s g mismatch) := hk.trans (dupCompare_keeps (Keeps.refl _)).sound

theorem putTile_sound {t0 : State} {s : State} {n : Nat} {f : Flight} {vs : List Nat} (hk : Sound t0 s) : Sound t0
    (putTile s n f vs) := by
  unfold putTile
  try dsimp only
  repeat' (first
    | (intro _) | (with_reducible exact Sound.refl _) | (with_reducible assumption) | (with_reducible apply Sound.ite)
    | (with_reducible apply bumpFree_sound) | (simp only [sound_upd]) | (with_reducible apply Sound.foldl)
    | (with_reducible apply Sound.foldr) | (with_reducible exact id) | (with_reducible apply writeByte_wf)
    | (with_reducible apply writeBytes_wf) | (with_reducible apply writeCells_wf) | (with_reducible apply writeLe_wf)
    | (with_reducible apply clearRange_wf) | (with_reducible apply loseRange_wf) | (with_reducible apply clearHole_wf)
    | (with_reducible apply coverHole_wf) | (with_reducible apply writeTile_wf) | (with_reducible apply reduceAt_wf)
    | (with_reducible apply putVals_wf) | (with_reducible apply wf_foldl) | (split)
    | (with_reducible apply Sound.updMem))

theorem noteSample_keeps {t0 : State} {s : State} {n : Nat} {f : Flight} {o : OpLines} {first : List Nat}
    {vs : List Nat} (hk : Keeps t0 s) : Keeps t0 (noteSample s n f o first vs) := by
  unfold noteSample
  try dsimp only
  repeat' (first
    | (intro _) | (with_reducible exact Keeps.refl _) | (with_reducible assumption) | (with_reducible apply Keeps.ite)
    | (with_reducible apply modCluster_keeps) | (simp only [keeps_upd]) | (with_reducible apply Keeps.foldl)
    | (with_reducible apply Keeps.foldr) | (split))

theorem noteSample_sound {t0 : State} {s : State} {n : Nat} {f : Flight} {o : OpLines} {first : List Nat}
    {vs : List Nat} (hk : Sound t0 s) : Sound t0 (noteSample s n f o first vs) := hk.trans (noteSample_keeps
    (Keeps.refl _)).sound

theorem nextPart_keeps {t0 : State} {s : State} {n : Nat} {f : Flight} (hk : Keeps t0 s) : Keeps t0 (nextPart s n f) := by
  unfold nextPart
  try dsimp only
  repeat' (first
    | (intro _) | (with_reducible exact Keeps.refl _) | (with_reducible assumption) | (with_reducible apply Keeps.ite)
    | (with_reducible apply startNext_keeps) | (with_reducible apply setCore_keeps) | (simp only [keeps_upd])
    | (with_reducible apply Keeps.foldl) | (with_reducible apply Keeps.foldr) | (split))

theorem nextPart_sound {t0 : State} {s : State} {n : Nat} {f : Flight} (hk : Sound t0 s) : Sound t0
    (nextPart s n f) := hk.trans (nextPart_keeps (Keeps.refl _)).sound

theorem endPart_sound {t0 : State} {s : State} {n : Nat} {f : Flight} {chk : Chk} {o : OpLines}
    (hk : Sound t0 s) : Sound t0 (endPart s n f chk o) := by
  unfold endPart
  try dsimp only
  repeat' (first
    | (intro _) | (with_reducible exact Sound.refl _) | (with_reducible assumption) | (with_reducible apply Sound.ite)
    | (with_reducible apply putTile_sound) | (with_reducible apply noteSample_sound)
    | (with_reducible apply withCheck_sound) | (with_reducible apply nextPart_sound)
    | (with_reducible apply cureArith_sound) | (simp only [sound_upd]) | (with_reducible apply Sound.foldl)
    | (with_reducible apply Sound.foldr) | (dsimp only [id]) | (split))

theorem execNop_sound {core : Nat} {met : Met} {s : State} {t0 : State}
    (he : execNop core met s = .next t0) : Sound s t0 := by
  unfold execNop at he
  first | (replace he := Host.Outcome.next.inj he; subst he) | cases he
  repeat' (first
    | (intro _) | (with_reducible exact Sound.refl _) | (with_reducible assumption) | (with_reducible apply Sound.ite)
    | (with_reducible apply coreRowMet_sound) | (simp only [sound_upd]) | (with_reducible apply Sound.foldl)
    | (with_reducible apply Sound.foldr) | (split))

theorem execAdd_sound {core : Nat} {met : Met} {s : State} {t0 : State}
    (he : execAdd core met s = .next t0) : Sound s t0 := by
  unfold execAdd at he
  first | (replace he := Host.Outcome.next.inj he; subst he) | cases he
  repeat' (first
    | (intro _) | (with_reducible exact Sound.refl _) | (with_reducible assumption) | (with_reducible apply Sound.ite)
    | (with_reducible apply coreRowMet_sound) | (simp only [sound_upd]) | (with_reducible apply Sound.foldl)
    | (with_reducible apply Sound.foldr) | (split))

theorem execSub_sound {core : Nat} {met : Met} {s : State} {t0 : State}
    (he : execSub core met s = .next t0) : Sound s t0 := by
  unfold execSub at he
  first | (replace he := Host.Outcome.next.inj he; subst he) | cases he
  repeat' (first
    | (intro _) | (with_reducible exact Sound.refl _) | (with_reducible assumption) | (with_reducible apply Sound.ite)
    | (with_reducible apply coreRowMet_sound) | (simp only [sound_upd]) | (with_reducible apply Sound.foldl)
    | (with_reducible apply Sound.foldr) | (split))

theorem execMul_sound {core : Nat} {met : Met} {s : State} {t0 : State}
    (he : execMul core met s = .next t0) : Sound s t0 := by
  unfold execMul at he
  first | (replace he := Host.Outcome.next.inj he; subst he) | cases he
  repeat' (first
    | (intro _) | (with_reducible exact Sound.refl _) | (with_reducible assumption) | (with_reducible apply Sound.ite)
    | (with_reducible apply coreRowMet_sound) | (simp only [sound_upd]) | (with_reducible apply Sound.foldl)
    | (with_reducible apply Sound.foldr) | (split))

theorem execAnd_sound {core : Nat} {met : Met} {s : State} {t0 : State}
    (he : execAnd core met s = .next t0) : Sound s t0 := by
  unfold execAnd at he
  first | (replace he := Host.Outcome.next.inj he; subst he) | cases he
  repeat' (first
    | (intro _) | (with_reducible exact Sound.refl _) | (with_reducible assumption) | (with_reducible apply Sound.ite)
    | (with_reducible apply coreRowMet_sound) | (simp only [sound_upd]) | (with_reducible apply Sound.foldl)
    | (with_reducible apply Sound.foldr) | (split))

theorem execOr_sound {core : Nat} {met : Met} {s : State} {t0 : State} (he : execOr core met s = .next t0) : Sound s t0 := by
  unfold execOr at he
  first | (replace he := Host.Outcome.next.inj he; subst he) | cases he
  repeat' (first
    | (intro _) | (with_reducible exact Sound.refl _) | (with_reducible assumption) | (with_reducible apply Sound.ite)
    | (with_reducible apply coreRowMet_sound) | (simp only [sound_upd]) | (with_reducible apply Sound.foldl)
    | (with_reducible apply Sound.foldr) | (split))

theorem execXor_sound {core : Nat} {met : Met} {s : State} {t0 : State}
    (he : execXor core met s = .next t0) : Sound s t0 := by
  unfold execXor at he
  first | (replace he := Host.Outcome.next.inj he; subst he) | cases he
  repeat' (first
    | (intro _) | (with_reducible exact Sound.refl _) | (with_reducible assumption) | (with_reducible apply Sound.ite)
    | (with_reducible apply coreRowMet_sound) | (simp only [sound_upd]) | (with_reducible apply Sound.foldl)
    | (with_reducible apply Sound.foldr) | (split))

theorem execShl_sound {core : Nat} {met : Met} {s : State} {t0 : State}
    (he : execShl core met s = .next t0) : Sound s t0 := by
  unfold execShl at he
  first | (replace he := Host.Outcome.next.inj he; subst he) | cases he
  repeat' (first
    | (intro _) | (with_reducible exact Sound.refl _) | (with_reducible assumption) | (with_reducible apply Sound.ite)
    | (with_reducible apply coreRowMet_sound) | (simp only [sound_upd]) | (with_reducible apply Sound.foldl)
    | (with_reducible apply Sound.foldr) | (split))

theorem execShr_sound {core : Nat} {met : Met} {s : State} {t0 : State}
    (he : execShr core met s = .next t0) : Sound s t0 := by
  unfold execShr at he
  first | (replace he := Host.Outcome.next.inj he; subst he) | cases he
  repeat' (first
    | (intro _) | (with_reducible exact Sound.refl _) | (with_reducible assumption) | (with_reducible apply Sound.ite)
    | (with_reducible apply coreRowMet_sound) | (simp only [sound_upd]) | (with_reducible apply Sound.foldl)
    | (with_reducible apply Sound.foldr) | (split))

theorem execSar_sound {core : Nat} {met : Met} {s : State} {t0 : State}
    (he : execSar core met s = .next t0) : Sound s t0 := by
  unfold execSar at he
  first | (replace he := Host.Outcome.next.inj he; subst he) | cases he
  repeat' (first
    | (intro _) | (with_reducible exact Sound.refl _) | (with_reducible assumption) | (with_reducible apply Sound.ite)
    | (with_reducible apply coreRowMet_sound) | (simp only [sound_upd]) | (with_reducible apply Sound.foldl)
    | (with_reducible apply Sound.foldr) | (split))

theorem execSlt_sound {core : Nat} {met : Met} {s : State} {t0 : State}
    (he : execSlt core met s = .next t0) : Sound s t0 := by
  unfold execSlt at he
  first | (replace he := Host.Outcome.next.inj he; subst he) | cases he
  repeat' (first
    | (intro _) | (with_reducible exact Sound.refl _) | (with_reducible assumption) | (with_reducible apply Sound.ite)
    | (with_reducible apply coreRowMet_sound) | (simp only [sound_upd]) | (with_reducible apply Sound.foldl)
    | (with_reducible apply Sound.foldr) | (split))

theorem execSltu_sound {core : Nat} {met : Met} {s : State} {t0 : State}
    (he : execSltu core met s = .next t0) : Sound s t0 := by
  unfold execSltu at he
  first | (replace he := Host.Outcome.next.inj he; subst he) | cases he
  repeat' (first
    | (intro _) | (with_reducible exact Sound.refl _) | (with_reducible assumption) | (with_reducible apply Sound.ite)
    | (with_reducible apply coreRowMet_sound) | (simp only [sound_upd]) | (with_reducible apply Sound.foldl)
    | (with_reducible apply Sound.foldr) | (split))

theorem execLui_sound {core : Nat} {met : Met} {s : State} {t0 : State}
    (he : execLui core met s = .next t0) : Sound s t0 := by
  unfold execLui at he
  first | (replace he := Host.Outcome.next.inj he; subst he) | cases he
  repeat' (first
    | (intro _) | (with_reducible exact Sound.refl _) | (with_reducible assumption) | (with_reducible apply Sound.ite)
    | (with_reducible apply coreRowMet_sound) | (simp only [sound_upd]) | (with_reducible apply Sound.foldl)
    | (with_reducible apply Sound.foldr) | (split))

theorem execRdcnt_sound {core : Nat} {met : Met} {s : State} {t0 : State}
    (he : execRdcnt core met s = .next t0) : Sound s t0 := by
  unfold execRdcnt at he
  first | (replace he := Host.Outcome.next.inj he; subst he) | cases he
  repeat' (first
    | (intro _) | (with_reducible exact Sound.refl _) | (with_reducible assumption) | (with_reducible apply Sound.ite)
    | (with_reducible apply coreRowMet_sound) | (simp only [sound_upd]) | (with_reducible apply Sound.foldl)
    | (with_reducible apply Sound.foldr) | (split))

theorem execRdacc_sound {core : Nat} {met : Met} {s : State} {t0 : State}
    (he : execRdacc core met s = .next t0) : Sound s t0 := by
  unfold execRdacc at he
  first | (replace he := Host.Outcome.next.inj he; subst he) | cases he
  repeat' (first
    | (intro _) | (with_reducible exact Sound.refl _) | (with_reducible assumption) | (with_reducible apply Sound.ite)
    | (with_reducible apply coreRowMet_sound) | (simp only [sound_upd]) | (with_reducible apply Sound.foldl)
    | (with_reducible apply Sound.foldr) | (split))

theorem execRdcap_sound {core : Nat} {met : Met} {s : State} {t0 : State}
    (he : execRdcap core met s = .next t0) : Sound s t0 := by
  unfold execRdcap at he
  first | (replace he := Host.Outcome.next.inj he; subst he) | cases he
  repeat' (first
    | (intro _) | (with_reducible exact Sound.refl _) | (with_reducible assumption) | (with_reducible apply Sound.ite)
    | (with_reducible apply coreRowMet_sound) | (simp only [sound_upd]) | (with_reducible apply Sound.foldl)
    | (with_reducible apply Sound.foldr) | (split))

theorem execBr_sound {core : Nat} {met : Met} {s : State} {t0 : State} (he : execBr core met s = .next t0) : Sound s t0 := by
  unfold execBr at he
  first | (replace he := Host.Outcome.next.inj he; subst he) | cases he
  repeat' (first
    | (intro _) | (with_reducible exact Sound.refl _) | (with_reducible assumption) | (with_reducible apply Sound.ite)
    | (with_reducible apply coreRowMet_sound) | (simp only [sound_upd]) | (with_reducible apply Sound.foldl)
    | (with_reducible apply Sound.foldr) | (split))

theorem execBeqz_sound {core : Nat} {met : Met} {s : State} {t0 : State}
    (he : execBeqz core met s = .next t0) : Sound s t0 := by
  unfold execBeqz at he
  first | (replace he := Host.Outcome.next.inj he; subst he) | cases he
  repeat' (first
    | (intro _) | (with_reducible exact Sound.refl _) | (with_reducible assumption) | (with_reducible apply Sound.ite)
    | (with_reducible apply coreRowMet_sound) | (simp only [sound_upd]) | (with_reducible apply Sound.foldl)
    | (with_reducible apply Sound.foldr) | (split))

theorem execBnez_sound {core : Nat} {met : Met} {s : State} {t0 : State}
    (he : execBnez core met s = .next t0) : Sound s t0 := by
  unfold execBnez at he
  first | (replace he := Host.Outcome.next.inj he; subst he) | cases he
  repeat' (first
    | (intro _) | (with_reducible exact Sound.refl _) | (with_reducible assumption) | (with_reducible apply Sound.ite)
    | (with_reducible apply coreRowMet_sound) | (simp only [sound_upd]) | (with_reducible apply Sound.foldl)
    | (with_reducible apply Sound.foldr) | (split))

theorem execEndProg_sound {core : Nat} {met : Met} {s : State} {t0 : State}
    (he : execEndProg core met s = .next t0) : Sound s t0 := by
  unfold execEndProg at he
  first | (replace he := Host.Outcome.next.inj he; subst he) | cases he
  repeat' (first
    | (intro _) | (with_reducible exact Sound.refl _) | (with_reducible assumption) | (with_reducible apply Sound.ite)
    | (with_reducible apply coreRowMet_sound) | (simp only [sound_upd]) | (with_reducible apply Sound.foldl)
    | (with_reducible apply Sound.foldr) | (split))

theorem execHset_sound {core : Nat} {met : Met} {s : State} {t0 : State}
    (he : execHset core met s = .next t0) : Sound s t0 := by
  unfold execHset at he
  first | (replace he := Host.Outcome.next.inj he; subst he) | cases he
  repeat' (first
    | (intro _) | (with_reducible exact Sound.refl _) | (with_reducible assumption) | (with_reducible apply Sound.ite)
    | (with_reducible apply coreRowMet_sound) | (simp only [sound_upd]) | (with_reducible apply Sound.foldl)
    | (with_reducible apply Sound.foldr) | (split))

theorem execHrel_sound {core : Nat} {met : Met} {s : State} {t0 : State}
    (he : execHrel core met s = .next t0) : Sound s t0 := by
  unfold execHrel at he
  first | (replace he := Host.Outcome.next.inj he; subst he) | cases he
  repeat' (first
    | (intro _) | (with_reducible exact Sound.refl _) | (with_reducible assumption) | (with_reducible apply Sound.ite)
    | (with_reducible apply coreRowMet_sound) | (simp only [sound_upd]) | (with_reducible apply Sound.foldl)
    | (with_reducible apply Sound.foldr) | (split))

theorem execWait_sound {core : Nat} {met : Met} {s : State} {t0 : State}
    (he : execWait core met s = .next t0) : Sound s t0 := by
  unfold execWait at he
  first | (replace he := Host.Outcome.next.inj he; subst he) | cases he
  repeat' (first
    | (intro _) | (with_reducible exact Sound.refl _) | (with_reducible assumption) | (with_reducible apply Sound.ite)
    | (with_reducible apply coreRowMet_sound) | (simp only [sound_upd]) | (with_reducible apply Sound.foldl)
    | (with_reducible apply Sound.foldr) | (split))

theorem execSignal_sound {core : Nat} {met : Met} {s : State} {t0 : State}
    (he : execSignal core met s = .next t0) : Sound s t0 := by
  unfold execSignal at he
  first | (replace he := Host.Outcome.next.inj he; subst he) | cases he
  repeat' (first
    | (intro _) | (with_reducible exact Sound.refl _) | (with_reducible assumption) | (with_reducible apply Sound.ite)
    | (with_reducible apply coreRowMet_sound) | (simp only [sound_upd]) | (with_reducible apply Sound.foldl)
    | (with_reducible apply Sound.foldr) | (split))

theorem execCset_sound {core : Nat} {met : Met} {s : State} {t0 : State}
    (he : execCset core met s = .next t0) : Sound s t0 := by
  unfold execCset at he
  first | (replace he := Host.Outcome.next.inj he; subst he) | cases he
  repeat' (first
    | (intro _) | (with_reducible exact Sound.refl _) | (with_reducible assumption) | (with_reducible apply Sound.ite)
    | (with_reducible apply coreRowMet_sound) | (simp only [sound_upd]) | (with_reducible apply Sound.foldl)
    | (with_reducible apply Sound.foldr) | (split))

theorem execTset_sound {core : Nat} {met : Met} {s : State} {t0 : State}
    (he : execTset core met s = .next t0) : Sound s t0 := by
  unfold execTset at he
  first | (replace he := Host.Outcome.next.inj he; subst he) | cases he
  repeat' (first
    | (intro _) | (with_reducible exact Sound.refl _) | (with_reducible assumption) | (with_reducible apply Sound.ite)
    | (with_reducible apply coreRowMet_sound) | (simp only [sound_upd]) | (with_reducible apply Sound.foldl)
    | (with_reducible apply Sound.foldr) | (split))

theorem execLaunchAt_sound {core : Nat} {met : Met} {s : State} {t0 : State}
    (he : execLaunchAt core met s = .next t0) : Sound s t0 := by
  unfold execLaunchAt at he
  first | (replace he := Host.Outcome.next.inj he; subst he) | cases he
  repeat' (first
    | (intro _) | (with_reducible exact Sound.refl _) | (with_reducible assumption) | (with_reducible apply Sound.ite)
    | (with_reducible apply coreRowMet_sound) | (simp only [sound_upd]) | (with_reducible apply Sound.foldl)
    | (with_reducible apply Sound.foldr) | (split))

theorem execUfence_sound {core : Nat} {met : Met} {s : State} {t0 : State}
    (he : execUfence core met s = .next t0) : Sound s t0 := by
  unfold execUfence at he
  first | (replace he := Host.Outcome.next.inj he; subst he) | cases he
  repeat' (first
    | (intro _) | (with_reducible exact Sound.refl _) | (with_reducible assumption) | (with_reducible apply Sound.ite)
    | (with_reducible apply coreRowMet_sound) | (simp only [sound_upd]) | (with_reducible apply Sound.foldl)
    | (with_reducible apply Sound.foldr) | (split))

theorem execMmaD_sound {core : Nat} {met : Met} {s : State} {t0 : State}
    (he : execMmaD core met s = .next t0) : Sound s t0 := by
  unfold execMmaD at he
  first | (replace he := Host.Outcome.next.inj he; subst he) | cases he
  repeat' (first
    | (intro _) | (with_reducible exact Sound.refl _) | (with_reducible assumption) | (with_reducible apply Sound.ite)
    | (with_reducible apply coreRowMet_sound) | (simp only [sound_upd]) | (with_reducible apply Sound.foldl)
    | (with_reducible apply Sound.foldr) | (split))

theorem execMmaS_sound {core : Nat} {met : Met} {s : State} {t0 : State}
    (he : execMmaS core met s = .next t0) : Sound s t0 := by
  unfold execMmaS at he
  first | (replace he := Host.Outcome.next.inj he; subst he) | cases he
  repeat' (first
    | (intro _) | (with_reducible exact Sound.refl _) | (with_reducible assumption) | (with_reducible apply Sound.ite)
    | (with_reducible apply coreRowMet_sound) | (simp only [sound_upd]) | (with_reducible apply Sound.foldl)
    | (with_reducible apply Sound.foldr) | (split))

theorem execMmaA_sound {core : Nat} {met : Met} {s : State} {t0 : State}
    (he : execMmaA core met s = .next t0) : Sound s t0 := by
  unfold execMmaA at he
  first | (replace he := Host.Outcome.next.inj he; subst he) | cases he
  repeat' (first
    | (intro _) | (with_reducible exact Sound.refl _) | (with_reducible assumption) | (with_reducible apply Sound.ite)
    | (with_reducible apply coreRowMet_sound) | (simp only [sound_upd]) | (with_reducible apply Sound.foldl)
    | (with_reducible apply Sound.foldr) | (split))

theorem execMoveL_sound {core : Nat} {met : Met} {s : State} {t0 : State}
    (he : execMoveL core met s = .next t0) : Sound s t0 := by
  unfold execMoveL at he
  first | (replace he := Host.Outcome.next.inj he; subst he) | cases he
  repeat' (first
    | (intro _) | (with_reducible exact Sound.refl _) | (with_reducible assumption) | (with_reducible apply Sound.ite)
    | (with_reducible apply coreRowMet_sound) | (simp only [sound_upd]) | (with_reducible apply Sound.foldl)
    | (with_reducible apply Sound.foldr) | (split))

theorem execMoveS_sound {core : Nat} {met : Met} {s : State} {t0 : State}
    (he : execMoveS core met s = .next t0) : Sound s t0 := by
  unfold execMoveS at he
  first | (replace he := Host.Outcome.next.inj he; subst he) | cases he
  repeat' (first
    | (intro _) | (with_reducible exact Sound.refl _) | (with_reducible assumption) | (with_reducible apply Sound.ite)
    | (with_reducible apply coreRowMet_sound) | (simp only [sound_upd]) | (with_reducible apply Sound.foldl)
    | (with_reducible apply Sound.foldr) | (split))

theorem moveReads_sound {t0 : State} {s : State} {n : Nat} {v : MoveView} {merged : List Nat} {es : List (Nat × Ecc)}
    (hk : Sound t0 s) : Sound t0 (moveReads s n v merged es) := by
  unfold moveReads
  try dsimp only
  repeat' (first
    | (intro _) | (with_reducible exact Sound.refl _) | (with_reducible assumption) | (with_reducible apply Sound.ite)
    | (with_reducible apply countPath_sound) | (with_reducible apply coreHbm_sound)
    | (with_reducible apply hbmMeets_sound) | (simp only [sound_upd]) | (with_reducible apply Sound.foldl)
    | (with_reducible apply Sound.foldr) | (split))

theorem execMoveX_sound {core : Nat} {met : Met} {s : State} {t0 : State}
    (he : execMoveX core met s = .next t0) : Sound s t0 := by
  unfold execMoveX at he
  first | (replace he := Host.Outcome.next.inj he; subst he) | cases he
  repeat' (first
    | (intro _) | (with_reducible exact Sound.refl _) | (with_reducible assumption) | (with_reducible apply Sound.ite)
    | (with_reducible apply coreRowMet_sound) | (simp only [sound_upd]) | (with_reducible apply Sound.foldl)
    | (with_reducible apply Sound.foldr) | (split))

theorem execVadd_sound {core : Nat} {met : Met} {s : State} {t0 : State}
    (he : execVadd core met s = .next t0) : Sound s t0 := by
  unfold execVadd at he
  first | (replace he := Host.Outcome.next.inj he; subst he) | cases he
  repeat' (first
    | (intro _) | (with_reducible exact Sound.refl _) | (with_reducible assumption) | (with_reducible apply Sound.ite)
    | (with_reducible apply coreRowMet_sound) | (simp only [sound_upd]) | (with_reducible apply Sound.foldl)
    | (with_reducible apply Sound.foldr) | (split))

theorem execVsub_sound {core : Nat} {met : Met} {s : State} {t0 : State}
    (he : execVsub core met s = .next t0) : Sound s t0 := by
  unfold execVsub at he
  first | (replace he := Host.Outcome.next.inj he; subst he) | cases he
  repeat' (first
    | (intro _) | (with_reducible exact Sound.refl _) | (with_reducible assumption) | (with_reducible apply Sound.ite)
    | (with_reducible apply coreRowMet_sound) | (simp only [sound_upd]) | (with_reducible apply Sound.foldl)
    | (with_reducible apply Sound.foldr) | (split))

theorem execVmul_sound {core : Nat} {met : Met} {s : State} {t0 : State}
    (he : execVmul core met s = .next t0) : Sound s t0 := by
  unfold execVmul at he
  first | (replace he := Host.Outcome.next.inj he; subst he) | cases he
  repeat' (first
    | (intro _) | (with_reducible exact Sound.refl _) | (with_reducible assumption) | (with_reducible apply Sound.ite)
    | (with_reducible apply coreRowMet_sound) | (simp only [sound_upd]) | (with_reducible apply Sound.foldl)
    | (with_reducible apply Sound.foldr) | (split))

theorem execVfma_sound {core : Nat} {met : Met} {s : State} {t0 : State}
    (he : execVfma core met s = .next t0) : Sound s t0 := by
  unfold execVfma at he
  first | (replace he := Host.Outcome.next.inj he; subst he) | cases he
  repeat' (first
    | (intro _) | (with_reducible exact Sound.refl _) | (with_reducible assumption) | (with_reducible apply Sound.ite)
    | (with_reducible apply coreRowMet_sound) | (simp only [sound_upd]) | (with_reducible apply Sound.foldl)
    | (with_reducible apply Sound.foldr) | (split))

theorem execVmin_sound {core : Nat} {met : Met} {s : State} {t0 : State}
    (he : execVmin core met s = .next t0) : Sound s t0 := by
  unfold execVmin at he
  first | (replace he := Host.Outcome.next.inj he; subst he) | cases he
  repeat' (first
    | (intro _) | (with_reducible exact Sound.refl _) | (with_reducible assumption) | (with_reducible apply Sound.ite)
    | (with_reducible apply coreRowMet_sound) | (simp only [sound_upd]) | (with_reducible apply Sound.foldl)
    | (with_reducible apply Sound.foldr) | (split))

theorem execVmax_sound {core : Nat} {met : Met} {s : State} {t0 : State}
    (he : execVmax core met s = .next t0) : Sound s t0 := by
  unfold execVmax at he
  first | (replace he := Host.Outcome.next.inj he; subst he) | cases he
  repeat' (first
    | (intro _) | (with_reducible exact Sound.refl _) | (with_reducible assumption) | (with_reducible apply Sound.ite)
    | (with_reducible apply coreRowMet_sound) | (simp only [sound_upd]) | (with_reducible apply Sound.foldl)
    | (with_reducible apply Sound.foldr) | (split))

theorem execVabs_sound {core : Nat} {met : Met} {s : State} {t0 : State}
    (he : execVabs core met s = .next t0) : Sound s t0 := by
  unfold execVabs at he
  first | (replace he := Host.Outcome.next.inj he; subst he) | cases he
  repeat' (first
    | (intro _) | (with_reducible exact Sound.refl _) | (with_reducible assumption) | (with_reducible apply Sound.ite)
    | (with_reducible apply coreRowMet_sound) | (simp only [sound_upd]) | (with_reducible apply Sound.foldl)
    | (with_reducible apply Sound.foldr) | (split))

theorem execVcmp_sound {core : Nat} {met : Met} {s : State} {t0 : State}
    (he : execVcmp core met s = .next t0) : Sound s t0 := by
  unfold execVcmp at he
  first | (replace he := Host.Outcome.next.inj he; subst he) | cases he
  repeat' (first
    | (intro _) | (with_reducible exact Sound.refl _) | (with_reducible assumption) | (with_reducible apply Sound.ite)
    | (with_reducible apply coreRowMet_sound) | (simp only [sound_upd]) | (with_reducible apply Sound.foldl)
    | (with_reducible apply Sound.foldr) | (split))

theorem execVsel_sound {core : Nat} {met : Met} {s : State} {t0 : State}
    (he : execVsel core met s = .next t0) : Sound s t0 := by
  unfold execVsel at he
  first | (replace he := Host.Outcome.next.inj he; subst he) | cases he
  repeat' (first
    | (intro _) | (with_reducible exact Sound.refl _) | (with_reducible assumption) | (with_reducible apply Sound.ite)
    | (with_reducible apply coreRowMet_sound) | (simp only [sound_upd]) | (with_reducible apply Sound.foldl)
    | (with_reducible apply Sound.foldr) | (split))

theorem execVcvt_sound {core : Nat} {met : Met} {s : State} {t0 : State}
    (he : execVcvt core met s = .next t0) : Sound s t0 := by
  unfold execVcvt at he
  first | (replace he := Host.Outcome.next.inj he; subst he) | cases he
  repeat' (first
    | (intro _) | (with_reducible exact Sound.refl _) | (with_reducible assumption) | (with_reducible apply Sound.ite)
    | (with_reducible apply coreRowMet_sound) | (simp only [sound_upd]) | (with_reducible apply Sound.foldl)
    | (with_reducible apply Sound.foldr) | (split))

theorem execVdiv_sound {core : Nat} {met : Met} {s : State} {t0 : State}
    (he : execVdiv core met s = .next t0) : Sound s t0 := by
  unfold execVdiv at he
  first | (replace he := Host.Outcome.next.inj he; subst he) | cases he
  repeat' (first
    | (intro _) | (with_reducible exact Sound.refl _) | (with_reducible assumption) | (with_reducible apply Sound.ite)
    | (with_reducible apply coreRowMet_sound) | (simp only [sound_upd]) | (with_reducible apply Sound.foldl)
    | (with_reducible apply Sound.foldr) | (split))

theorem execVsqrt_sound {core : Nat} {met : Met} {s : State} {t0 : State}
    (he : execVsqrt core met s = .next t0) : Sound s t0 := by
  unfold execVsqrt at he
  first | (replace he := Host.Outcome.next.inj he; subst he) | cases he
  repeat' (first
    | (intro _) | (with_reducible exact Sound.refl _) | (with_reducible assumption) | (with_reducible apply Sound.ite)
    | (with_reducible apply coreRowMet_sound) | (simp only [sound_upd]) | (with_reducible apply Sound.foldl)
    | (with_reducible apply Sound.foldr) | (split))

theorem execVrcp_sound {core : Nat} {met : Met} {s : State} {t0 : State}
    (he : execVrcp core met s = .next t0) : Sound s t0 := by
  unfold execVrcp at he
  first | (replace he := Host.Outcome.next.inj he; subst he) | cases he
  repeat' (first
    | (intro _) | (with_reducible exact Sound.refl _) | (with_reducible assumption) | (with_reducible apply Sound.ite)
    | (with_reducible apply coreRowMet_sound) | (simp only [sound_upd]) | (with_reducible apply Sound.foldl)
    | (with_reducible apply Sound.foldr) | (split))

theorem execVrsq_sound {core : Nat} {met : Met} {s : State} {t0 : State}
    (he : execVrsq core met s = .next t0) : Sound s t0 := by
  unfold execVrsq at he
  first | (replace he := Host.Outcome.next.inj he; subst he) | cases he
  repeat' (first
    | (intro _) | (with_reducible exact Sound.refl _) | (with_reducible assumption) | (with_reducible apply Sound.ite)
    | (with_reducible apply coreRowMet_sound) | (simp only [sound_upd]) | (with_reducible apply Sound.foldl)
    | (with_reducible apply Sound.foldr) | (split))

theorem execVexp2_sound {core : Nat} {met : Met} {s : State} {t0 : State}
    (he : execVexp2 core met s = .next t0) : Sound s t0 := by
  unfold execVexp2 at he
  first | (replace he := Host.Outcome.next.inj he; subst he) | cases he
  repeat' (first
    | (intro _) | (with_reducible exact Sound.refl _) | (with_reducible assumption) | (with_reducible apply Sound.ite)
    | (with_reducible apply coreRowMet_sound) | (simp only [sound_upd]) | (with_reducible apply Sound.foldl)
    | (with_reducible apply Sound.foldr) | (split))

theorem execVlog2_sound {core : Nat} {met : Met} {s : State} {t0 : State}
    (he : execVlog2 core met s = .next t0) : Sound s t0 := by
  unfold execVlog2 at he
  first | (replace he := Host.Outcome.next.inj he; subst he) | cases he
  repeat' (first
    | (intro _) | (with_reducible exact Sound.refl _) | (with_reducible assumption) | (with_reducible apply Sound.ite)
    | (with_reducible apply coreRowMet_sound) | (simp only [sound_upd]) | (with_reducible apply Sound.foldl)
    | (with_reducible apply Sound.foldr) | (split))

theorem execVrsum_sound {core : Nat} {met : Met} {s : State} {t0 : State}
    (he : execVrsum core met s = .next t0) : Sound s t0 := by
  unfold execVrsum at he
  first | (replace he := Host.Outcome.next.inj he; subst he) | cases he
  repeat' (first
    | (intro _) | (with_reducible exact Sound.refl _) | (with_reducible assumption) | (with_reducible apply Sound.ite)
    | (with_reducible apply coreRowMet_sound) | (simp only [sound_upd]) | (with_reducible apply Sound.foldl)
    | (with_reducible apply Sound.foldr) | (split))

theorem execVbcast_sound {core : Nat} {met : Met} {s : State} {t0 : State}
    (he : execVbcast core met s = .next t0) : Sound s t0 := by
  unfold execVbcast at he
  first | (replace he := Host.Outcome.next.inj he; subst he) | cases he
  repeat' (first
    | (intro _) | (with_reducible exact Sound.refl _) | (with_reducible assumption) | (with_reducible apply Sound.ite)
    | (with_reducible apply coreRowMet_sound) | (simp only [sound_upd]) | (with_reducible apply Sound.foldl)
    | (with_reducible apply Sound.foldr) | (split))

theorem execVld_sound {core : Nat} {met : Met} {s : State} {t0 : State}
    (he : execVld core met s = .next t0) : Sound s t0 := by
  unfold execVld at he
  first | (replace he := Host.Outcome.next.inj he; subst he) | cases he
  repeat' (first
    | (intro _) | (with_reducible exact Sound.refl _) | (with_reducible assumption) | (with_reducible apply Sound.ite)
    | (with_reducible apply coreRowMet_sound) | (simp only [sound_upd]) | (with_reducible apply Sound.foldl)
    | (with_reducible apply Sound.foldr) | (split))

theorem execVst_sound {core : Nat} {met : Met} {s : State} {t0 : State}
    (he : execVst core met s = .next t0) : Sound s t0 := by
  unfold execVst at he
  first | (replace he := Host.Outcome.next.inj he; subst he) | cases he
  repeat' (first
    | (intro _) | (with_reducible exact Sound.refl _) | (with_reducible assumption) | (with_reducible apply Sound.ite)
    | (with_reducible apply coreRowMet_sound) | (simp only [sound_upd]) | (with_reducible apply Sound.foldl)
    | (with_reducible apply Sound.foldr) | (split))

theorem execVlda_sound {core : Nat} {met : Met} {s : State} {t0 : State}
    (he : execVlda core met s = .next t0) : Sound s t0 := by
  unfold execVlda at he
  first | (replace he := Host.Outcome.next.inj he; subst he) | cases he
  repeat' (first
    | (intro _) | (with_reducible exact Sound.refl _) | (with_reducible assumption) | (with_reducible apply Sound.ite)
    | (with_reducible apply coreRowMet_sound) | (simp only [sound_upd]) | (with_reducible apply Sound.foldl)
    | (with_reducible apply Sound.foldr) | (split))

theorem execVsta_sound {core : Nat} {met : Met} {s : State} {t0 : State}
    (he : execVsta core met s = .next t0) : Sound s t0 := by
  unfold execVsta at he
  first | (replace he := Host.Outcome.next.inj he; subst he) | cases he
  repeat' (first
    | (intro _) | (with_reducible exact Sound.refl _) | (with_reducible assumption) | (with_reducible apply Sound.ite)
    | (with_reducible apply coreRowMet_sound) | (simp only [sound_upd]) | (with_reducible apply Sound.foldl)
    | (with_reducible apply Sound.foldr) | (split))

theorem execVmovg_sound {core : Nat} {met : Met} {s : State} {t0 : State}
    (he : execVmovg core met s = .next t0) : Sound s t0 := by
  unfold execVmovg at he
  first | (replace he := Host.Outcome.next.inj he; subst he) | cases he
  repeat' (first
    | (intro _) | (with_reducible exact Sound.refl _) | (with_reducible assumption) | (with_reducible apply Sound.ite)
    | (with_reducible apply coreRowMet_sound) | (simp only [sound_upd]) | (with_reducible apply Sound.foldl)
    | (with_reducible apply Sound.foldr) | (split))

theorem mmaDTileWrite_sound {t0 : State} {s : State} {n : Nat} {isPart : Bool} {chk : Chk}
    (hk : Sound t0 s) : Sound t0 (mmaDTileWrite s n isPart chk) := by
  unfold mmaDTileWrite
  try dsimp only
  repeat' (first
    | (intro _) | (with_reducible exact Sound.refl _) | (with_reducible assumption) | (with_reducible apply Sound.ite)
    | (with_reducible apply ctileBad_sound) | (with_reducible apply addBusy_sound)
    | (with_reducible apply endPart_sound) | (with_reducible apply withCheck_sound)
    | (with_reducible apply putTile_sound) | (with_reducible apply noteSample_sound) | (simp only [sound_upd])
    | (with_reducible apply Sound.foldl) | (with_reducible apply Sound.foldr) | (split))

theorem execMmaDTileWrite_sound {core : Nat} {part : Bool} {chk : Chk} {s : State} {t0 : State}
    (he : execMmaDTileWrite core part chk s = .next t0) : Sound s t0 := by
  unfold execMmaDTileWrite at he
  first | (replace he := Host.Outcome.next.inj he; subst he) | cases he
  repeat' (first
    | (intro _) | (with_reducible exact Sound.refl _) | (with_reducible assumption) | (with_reducible apply Sound.ite)
    | (with_reducible apply mmaDTileWrite_sound) | (simp only [sound_upd]) | (with_reducible apply Sound.foldl)
    | (with_reducible apply Sound.foldr) | (split))

theorem mmaAPart_sound {t0 : State} {s : State} {n : Nat} (hk : Sound t0 s) : Sound t0 (mmaAPart s n) := by
  unfold mmaAPart
  try dsimp only
  repeat' (first
    | (intro _) | (with_reducible exact Sound.refl _) | (with_reducible assumption) | (with_reducible apply Sound.ite)
    | (with_reducible apply ctileBad_sound) | (with_reducible apply setCore_sound)
    | (with_reducible apply modCluster_sound) | (simp only [sound_upd]) | (with_reducible apply Sound.foldl)
    | (with_reducible apply Sound.foldr) | (split))

theorem execMmaAPart_sound {core : Nat} {s : State} {t0 : State} (he : execMmaAPart core s = .next t0) : Sound s t0 := by
  unfold execMmaAPart at he
  first | (replace he := Host.Outcome.next.inj he; subst he) | cases he
  repeat' (first
    | (intro _) | (with_reducible exact Sound.refl _) | (with_reducible assumption) | (with_reducible apply Sound.ite)
    | (with_reducible apply mmaAPart_sound) | (simp only [sound_upd]) | (with_reducible apply Sound.foldl)
    | (with_reducible apply Sound.foldr) | (split))

theorem mergeTileWrite_sound {t0 : State} {s : State} {n : Nat} {chk : Chk} (hk : Sound t0 s) : Sound t0
    (mergeTileWrite s n chk) := by
  unfold mergeTileWrite
  try dsimp only
  repeat' (first
    | (intro _) | (with_reducible exact Sound.refl _) | (with_reducible assumption) | (with_reducible apply Sound.ite)
    | (with_reducible apply ctileBad_sound) | (with_reducible apply addBusy_sound)
    | (with_reducible apply endPart_sound) | (with_reducible apply modCluster_sound)
    | (with_reducible apply withCheck_sound) | (with_reducible apply putTile_sound)
    | (with_reducible apply noteSample_sound) | (simp only [sound_upd]) | (with_reducible apply Sound.foldl)
    | (with_reducible apply Sound.foldr) | (split))

theorem execMergeTileWrite_sound {core : Nat} {chk : Chk} {s : State} {t0 : State}
    (he : execMergeTileWrite core chk s = .next t0) : Sound s t0 := by
  unfold execMergeTileWrite at he
  first | (replace he := Host.Outcome.next.inj he; subst he) | cases he
  repeat' (first
    | (intro _) | (with_reducible exact Sound.refl _) | (with_reducible assumption) | (with_reducible apply Sound.ite)
    | (with_reducible apply mergeTileWrite_sound) | (simp only [sound_upd]) | (with_reducible apply Sound.foldl)
    | (with_reducible apply Sound.foldr) | (split))

theorem vecEffect_sound {t0 : State} {s : State} {n : Nat} {f : Flight} (hk : Sound t0 s) : Sound t0 (vecEffect s n f) := by
  unfold vecEffect
  try dsimp only
  repeat' (first
    | (intro _) | (with_reducible exact Sound.refl _) | (with_reducible assumption) | (with_reducible apply Sound.ite)
    | (with_reducible apply bumpFree_sound) | (with_reducible apply setCore_sound) | (simp only [sound_upd])
    | (with_reducible apply Sound.foldl) | (with_reducible apply Sound.foldr) | (with_reducible exact id)
    | (with_reducible apply writeByte_wf) | (with_reducible apply writeBytes_wf)
    | (with_reducible apply writeCells_wf) | (with_reducible apply writeLe_wf) | (with_reducible apply clearRange_wf)
    | (with_reducible apply loseRange_wf) | (with_reducible apply clearHole_wf) | (with_reducible apply coverHole_wf)
    | (with_reducible apply writeTile_wf) | (with_reducible apply reduceAt_wf) | (with_reducible apply putVals_wf)
    | (with_reducible apply wf_foldl) | (split) | (with_reducible apply Sound.updMem))

theorem vectorResult_sound {t0 : State} {s : State} {n : Nat} {chk : Chk} (hk : Sound t0 s) : Sound t0
    (vectorResult s n chk) := by
  unfold vectorResult
  try dsimp only
  repeat' (first
    | (intro _) | (with_reducible exact Sound.refl _) | (with_reducible assumption) | (with_reducible apply Sound.ite)
    | (with_reducible apply withCheck_sound) | (with_reducible apply vecEffect_sound) | (simp only [sound_upd])
    | (with_reducible apply Sound.foldl) | (with_reducible apply Sound.foldr) | (split))

theorem execVectorResult_sound {core : Nat} {chk : Chk} {s : State} {t0 : State}
    (he : execVectorResult core chk s = .next t0) : Sound s t0 := by
  unfold execVectorResult at he
  first | (replace he := Host.Outcome.next.inj he; subst he) | cases he
  repeat' (first
    | (intro _) | (with_reducible exact Sound.refl _) | (with_reducible assumption) | (with_reducible apply Sound.ite)
    | (with_reducible apply vectorResult_sound) | (simp only [sound_upd]) | (with_reducible apply Sound.foldl)
    | (with_reducible apply Sound.foldr) | (split))

theorem moveDone_keeps {t0 : State} {s : State} {n : Nat} {f : Flight} (hk : Keeps t0 s) : Keeps t0 (moveDone s n f) := by
  unfold moveDone
  try dsimp only
  repeat' (first
    | (intro _) | (with_reducible exact Keeps.refl _) | (with_reducible assumption) | (with_reducible apply Keeps.ite)
    | (with_reducible apply complete_keeps) | (with_reducible apply releaseFence_keeps)
    | (with_reducible apply applyInc_keeps) | (with_reducible apply sendInc_keeps) | (simp only [keeps_upd])
    | (with_reducible apply Keeps.foldl) | (with_reducible apply Keeps.foldr) | (split))

theorem moveDone_sound {t0 : State} {s : State} {n : Nat} {f : Flight} (hk : Sound t0 s) : Sound t0
    (moveDone s n f) := hk.trans (moveDone_keeps (Keeps.refl _)).sound

theorem localWrite_sound {t0 : State} {s : State} {n : Nat} {cs : List Host.Cell} (hk : Sound t0 s) : Sound t0
    (localWrite s n cs) := by
  unfold localWrite
  try dsimp only
  repeat' (first
    | (intro _) | (with_reducible exact Sound.refl _) | (with_reducible assumption) | (with_reducible apply Sound.ite)
    | (with_reducible apply coreHbm_sound) | (with_reducible apply portWrite_sound) | (simp only [sound_upd])
    | (with_reducible apply Sound.foldl) | (with_reducible apply Sound.foldr) | (with_reducible exact id)
    | (with_reducible apply writeByte_wf) | (with_reducible apply writeBytes_wf)
    | (with_reducible apply writeCells_wf) | (with_reducible apply writeLe_wf) | (with_reducible apply clearRange_wf)
    | (with_reducible apply loseRange_wf) | (with_reducible apply clearHole_wf) | (with_reducible apply coverHole_wf)
    | (with_reducible apply writeTile_wf) | (with_reducible apply reduceAt_wf) | (with_reducible apply putVals_wf)
    | (with_reducible apply wf_foldl) | (split) | (with_reducible apply Sound.updMem))

theorem localReduce_sound {t0 : State} {s : State} {n : Nat} {v : MoveView} (hk : Sound t0 s) : Sound t0
    (localReduce s n v) := by
  unfold localReduce
  try dsimp only
  repeat' (first
    | (intro _) | (with_reducible exact Sound.refl _) | (with_reducible assumption) | (with_reducible apply Sound.ite)
    | (with_reducible apply localWrite_sound) | (with_reducible apply bumpMove_sound) | (simp only [sound_upd])
    | (with_reducible apply Sound.foldl) | (with_reducible apply Sound.foldr) | (split))

theorem moveComplete_sound {t0 : State} {s : State} {n : Nat} {which : Nat} {es : List (Nat × Ecc)} {o : FlitOut}
    (hk : Sound t0 s) : Sound t0 (moveComplete s n which es o) := by
  unfold moveComplete
  try dsimp only
  repeat' (first
    | (intro _) | (with_reducible exact Sound.refl _) | (with_reducible assumption) | (with_reducible apply Sound.ite)
    | (with_reducible apply moveReads_sound) | (with_reducible apply moveDone_sound)
    | (with_reducible apply localReduce_sound) | (with_reducible apply localWrite_sound)
    | (with_reducible apply bumpMove_sound) | (with_reducible apply flitMeets_sound) | (simp only [sound_upd])
    | (with_reducible apply Sound.foldl) | (with_reducible apply Sound.foldr) | (split))

theorem programLoadDone_sound {t0 : State} {s : State} {n : Nat} {es : List (Nat × Ecc)} (hk : Sound t0 s) : Sound t0
    (programLoadDone s n es) := by
  unfold programLoadDone
  try dsimp only
  repeat' (first
    | (intro _) | (with_reducible exact Sound.refl _) | (with_reducible assumption) | (with_reducible apply Sound.ite)
    | (with_reducible apply hbmMeets_sound) | (with_reducible apply coreHbm_sound)
    | (with_reducible apply beginRun_sound) | (with_reducible apply modCore_sound) | (simp only [sound_upd])
    | (with_reducible apply Sound.foldl) | (with_reducible apply Sound.foldr) | (split))

theorem tileProgramEnd_keeps {t0 : State} {s : State} {n : Nat} (hk : Keeps t0 s) : Keeps t0 (tileProgramEnd s n) := by
  unfold tileProgramEnd
  try dsimp only
  repeat' (first
    | (intro _) | (with_reducible exact Keeps.refl _) | (with_reducible assumption) | (with_reducible apply Keeps.ite)
    | (with_reducible apply setCore_keeps) | (with_reducible apply tryRotate_keeps)
    | (with_reducible apply report_keeps) | (simp only [keeps_upd]) | (with_reducible apply Keeps.foldl)
    | (with_reducible apply Keeps.foldr) | (split))

theorem tileProgramEnd_sound {t0 : State} {s : State} {n : Nat} (hk : Sound t0 s) : Sound t0
    (tileProgramEnd s n) := hk.trans (tileProgramEnd_keeps (Keeps.refl _)).sound

theorem execTileProgramEnd_keeps {core : Nat} {s : State} {t0 : State}
    (he : execTileProgramEnd core s = .next t0) : Keeps s t0 := by
  unfold execTileProgramEnd at he
  first | (replace he := Host.Outcome.next.inj he; subst he) | cases he
  repeat' (first
    | (intro _) | (with_reducible exact Keeps.refl _) | (with_reducible assumption) | (with_reducible apply Keeps.ite)
    | (with_reducible apply tileProgramEnd_keeps) | (simp only [keeps_upd]) | (with_reducible apply Keeps.foldl)
    | (with_reducible apply Keeps.foldr) | (split))

theorem launchStampReached_keeps {t0 : State} {s : State} {n : Nat} (hk : Keeps t0 s) : Keeps t0
    (launchStampReached s n) := by
  unfold launchStampReached
  try dsimp only
  repeat' (first
    | (intro _) | (with_reducible exact Keeps.refl _) | (with_reducible assumption) | (with_reducible apply Keeps.ite)
    | (with_reducible apply setCore_keeps) | (with_reducible apply issueLocal_keeps) | (simp only [keeps_upd])
    | (with_reducible apply Keeps.foldl) | (with_reducible apply Keeps.foldr) | (split))

theorem launchStampReached_sound {t0 : State} {s : State} {n : Nat} (hk : Sound t0 s) : Sound t0
    (launchStampReached s n) := hk.trans (launchStampReached_keeps (Keeps.refl _)).sound

theorem execLaunchStampReached_keeps {core : Nat} {s : State} {t0 : State}
    (he : execLaunchStampReached core s = .next t0) : Keeps s t0 := by
  unfold execLaunchStampReached at he
  first | (replace he := Host.Outcome.next.inj he; subst he) | cases he
  repeat' (first
    | (intro _) | (with_reducible exact Keeps.refl _) | (with_reducible assumption) | (with_reducible apply Keeps.ite)
    | (with_reducible apply launchStampReached_keeps) | (simp only [keeps_upd]) | (with_reducible apply Keeps.foldl)
    | (with_reducible apply Keeps.foldr) | (split))

theorem waitLimitExpire_keeps {t0 : State} {s : State} {n : Nat} (hk : Keeps t0 s) : Keeps t0 (waitLimitExpire s n) := by
  unfold waitLimitExpire
  try dsimp only
  repeat' (first
    | (intro _) | (with_reducible exact Keeps.refl _) | (with_reducible assumption) | (with_reducible apply Keeps.ite)
    | (with_reducible apply setCore_keeps) | (with_reducible apply recordErr_keeps)
    | (with_reducible apply raiseEvt_keeps) | (simp only [keeps_upd]) | (with_reducible apply Keeps.foldl)
    | (with_reducible apply Keeps.foldr) | (split))

theorem waitLimitExpire_sound {t0 : State} {s : State} {n : Nat} (hk : Sound t0 s) : Sound t0
    (waitLimitExpire s n) := hk.trans (waitLimitExpire_keeps (Keeps.refl _)).sound

theorem execWaitLimitExpire_keeps {core : Nat} {s : State} {t0 : State}
    (he : execWaitLimitExpire core s = .next t0) : Keeps s t0 := by
  unfold execWaitLimitExpire at he
  first | (replace he := Host.Outcome.next.inj he; subst he) | cases he
  repeat' (first
    | (intro _) | (with_reducible exact Keeps.refl _) | (with_reducible assumption) | (with_reducible apply Keeps.ite)
    | (with_reducible apply waitLimitExpire_keeps) | (simp only [keeps_upd]) | (with_reducible apply Keeps.foldl)
    | (with_reducible apply Keeps.foldr) | (split))

theorem execCounterIncrement_sound {core : Nat} {which : Nat} {flit : FlitOut} {s : State} {t0 : State}
    (he : execCounterIncrement core which flit s = .next t0) : Sound s t0 := by
  unfold execCounterIncrement at he
  first | (replace he := Host.Outcome.next.inj he; subst he) | cases he
  repeat' (first
    | (intro _) | (with_reducible exact Sound.refl _) | (with_reducible assumption) | (with_reducible apply Sound.ite)
    | (with_reducible apply counterIncrement_sound) | (simp only [sound_upd]) | (with_reducible apply Sound.foldl)
    | (with_reducible apply Sound.foldr) | (split))

theorem remoteWriteLand_sound {t0 : State} {s : State} {n : Nat} {which : Nat} {o : FlitOut}
    (hk : Sound t0 s) : Sound t0 (remoteWriteLand s n which o) := by
  unfold remoteWriteLand
  try dsimp only
  repeat' (first
    | (intro _) | (with_reducible exact Sound.refl _) | (with_reducible assumption) | (with_reducible apply Sound.ite)
    | (with_reducible apply landFlit_sound) | (simp only [sound_upd]) | (with_reducible apply Sound.foldl)
    | (with_reducible apply Sound.foldr) | (split))

theorem execRemoteWriteLand_sound {core : Nat} {which : Nat} {flit : FlitOut} {s : State} {t0 : State}
    (he : execRemoteWriteLand core which flit s = .next t0) : Sound s t0 := by
  unfold execRemoteWriteLand at he
  first | (replace he := Host.Outcome.next.inj he; subst he) | cases he
  repeat' (first
    | (intro _) | (with_reducible exact Sound.refl _) | (with_reducible assumption) | (with_reducible apply Sound.ite)
    | (with_reducible apply remoteWriteLand_sound) | (simp only [sound_upd]) | (with_reducible apply Sound.foldl)
    | (with_reducible apply Sound.foldr) | (split))

theorem holdExpire_keeps {t0 : State} {s : State} {n : Nat} (hk : Keeps t0 s) : Keeps t0 (holdExpire s n) := by
  unfold holdExpire
  try dsimp only
  repeat' (first
    | (intro _) | (with_reducible exact Keeps.refl _) | (with_reducible assumption) | (with_reducible apply Keeps.ite)
    | (with_reducible apply modCluster_keeps) | (with_reducible apply setCore_keeps) | (simp only [keeps_upd])
    | (with_reducible apply Keeps.foldl) | (with_reducible apply Keeps.foldr) | (split))

theorem holdExpire_sound {t0 : State} {s : State} {n : Nat} (hk : Sound t0 s) : Sound t0 (holdExpire s n) := hk.trans
    (holdExpire_keeps (Keeps.refl _)).sound

theorem execHoldExpire_keeps {core : Nat} {s : State} {t0 : State} (he : execHoldExpire core s = .next t0) : Keeps s t0 := by
  unfold execHoldExpire at he
  first | (replace he := Host.Outcome.next.inj he; subst he) | cases he
  repeat' (first
    | (intro _) | (with_reducible exact Keeps.refl _) | (with_reducible assumption) | (with_reducible apply Keeps.ite)
    | (with_reducible apply holdExpire_keeps) | (simp only [keeps_upd]) | (with_reducible apply Keeps.foldl)
    | (with_reducible apply Keeps.foldr) | (split))

theorem launchWakeLead_keeps {t0 : State} {s : State} {n : Nat} (hk : Keeps t0 s) : Keeps t0 (launchWakeLead s n) := by
  unfold launchWakeLead
  try dsimp only
  repeat' (first
    | (intro _) | (with_reducible exact Keeps.refl _) | (with_reducible assumption) | (with_reducible apply Keeps.ite)
    | (with_reducible apply requestWake_keeps) | (simp only [keeps_upd]) | (with_reducible apply Keeps.foldl)
    | (with_reducible apply Keeps.foldr) | (split))

theorem launchWakeLead_sound {t0 : State} {s : State} {n : Nat} (hk : Sound t0 s) : Sound t0
    (launchWakeLead s n) := hk.trans (launchWakeLead_keeps (Keeps.refl _)).sound

theorem execLaunchWakeLead_keeps {core : Nat} {s : State} {t0 : State}
    (he : execLaunchWakeLead core s = .next t0) : Keeps s t0 := by
  unfold execLaunchWakeLead at he
  first | (replace he := Host.Outcome.next.inj he; subst he) | cases he
  repeat' (first
    | (intro _) | (with_reducible exact Keeps.refl _) | (with_reducible assumption) | (with_reducible apply Keeps.ite)
    | (with_reducible apply launchWakeLead_keeps) | (simp only [keeps_upd]) | (with_reducible apply Keeps.foldl)
    | (with_reducible apply Keeps.foldr) | (split))

theorem wakeWindow_keeps {t0 : State} {s : State} (hk : Keeps t0 s) : Keeps t0 (wakeWindow s) := by
  unfold wakeWindow
  try dsimp only
  repeat' (first
    | (intro _) | (with_reducible exact Keeps.refl _) | (with_reducible assumption) | (with_reducible apply Keeps.ite)
    | (with_reducible apply openWindow_keeps) | (simp only [keeps_upd]) | (with_reducible apply Keeps.foldl)
    | (with_reducible apply Keeps.foldr) | (split))

theorem wakeWindow_sound {t0 : State} {s : State} (hk : Sound t0 s) : Sound t0 (wakeWindow s) := hk.trans
    (wakeWindow_keeps (Keeps.refl _)).sound

theorem execWakeWindow_keeps {s : State} {t0 : State} (he : execWakeWindow s = .next t0) : Keeps s t0 := by
  unfold execWakeWindow at he
  first | (replace he := Host.Outcome.next.inj he; subst he) | cases he
  repeat' (first
    | (intro _) | (with_reducible exact Keeps.refl _) | (with_reducible assumption) | (with_reducible apply Keeps.ite)
    | (with_reducible apply wakeWindow_keeps) | (simp only [keeps_upd]) | (with_reducible apply Keeps.foldl)
    | (with_reducible apply Keeps.foldr) | (split))

theorem wakeComplete_sound {t0 : State} {s : State} {n : Nat} {good : Bool} (hk : Sound t0 s) : Sound t0
    (wakeComplete s n good) := by
  unfold wakeComplete
  try dsimp only
  repeat' (first
    | (intro _) | (with_reducible exact Sound.refl _) | (with_reducible assumption) | (with_reducible apply Sound.ite)
    | (with_reducible apply setCore_sound) | (with_reducible apply beginRun_sound)
    | (with_reducible apply launchRun_sound) | (with_reducible apply modCore_sound)
    | (with_reducible apply tryRotate_sound) | (with_reducible apply recordErr_sound)
    | (with_reducible apply issueBlotter_sound) | (with_reducible apply report_sound)
    | (with_reducible apply settleFull_sound) | (with_reducible apply passRole_sound)
    | (with_reducible apply modCluster_sound) | (simp only [sound_upd]) | (with_reducible apply Sound.foldl)
    | (with_reducible apply Sound.foldr) | (split))

theorem execWakeComplete_sound {core : Nat} {good : Bool} {s : State} {t0 : State}
    (he : execWakeComplete core good s = .next t0) : Sound s t0 := by
  unfold execWakeComplete at he
  first | (replace he := Host.Outcome.next.inj he; subst he) | cases he
  repeat' (first
    | (intro _) | (with_reducible exact Sound.refl _) | (with_reducible assumption) | (with_reducible apply Sound.ite)
    | (with_reducible apply wakeComplete_sound) | (simp only [sound_upd]) | (with_reducible apply Sound.foldl)
    | (with_reducible apply Sound.foldr) | (split))

theorem execAccPllLock_keeps {s : State} {t0 : State} (he : execAccPllLock s = .next t0) : Keeps s t0 := by
  unfold execAccPllLock at he
  first | (replace he := Host.Outcome.next.inj he; subst he) | cases he
  repeat' (first
    | (intro _) | (with_reducible exact Keeps.refl _) | (with_reducible assumption) | (with_reducible apply Keeps.ite)
    | (simp only [keeps_upd]) | (with_reducible apply Keeps.foldl) | (with_reducible apply Keeps.foldr) | (split))

theorem execAccModeSwitch_keeps {s : State} {t0 : State} (he : execAccModeSwitch s = .next t0) : Keeps s t0 := by
  unfold execAccModeSwitch at he
  first | (replace he := Host.Outcome.next.inj he; subst he) | cases he
  repeat' (first
    | (intro _) | (with_reducible exact Keeps.refl _) | (with_reducible assumption) | (with_reducible apply Keeps.ite)
    | (with_reducible apply refEdge_keeps) | (simp only [keeps_upd]) | (with_reducible apply Keeps.foldl)
    | (with_reducible apply Keeps.foldr) | (split))

theorem skewBlotter_keeps {t0 : State} {s : State} (hk : Keeps t0 s) : Keeps t0 (skewBlotter s) := by
  unfold skewBlotter
  try dsimp only
  repeat' (first
    | (intro _) | (with_reducible exact Keeps.refl _) | (with_reducible assumption) | (with_reducible apply Keeps.ite)
    | (with_reducible apply correctedBlotter_keeps) | (simp only [keeps_upd]) | (with_reducible apply Keeps.foldl)
    | (with_reducible apply Keeps.foldr) | (split))

theorem skewBlotter_sound {t0 : State} {s : State} (hk : Sound t0 s) : Sound t0 (skewBlotter s) := hk.trans
    (skewBlotter_keeps (Keeps.refl _)).sound

theorem execAccCopyCompare_keeps {unit : Nat} {err : Int} {s : State} {t0 : State}
    (he : execAccCopyCompare unit err s = .next t0) : Keeps s t0 := by
  unfold execAccCopyCompare at he
  first | (replace he := Host.Outcome.next.inj he; subst he) | cases he
  repeat' (first
    | (intro _) | (with_reducible exact Keeps.refl _) | (with_reducible assumption) | (with_reducible apply Keeps.ite)
    | (with_reducible apply skewBlotter_keeps) | (with_reducible apply raiseEvt_keeps)
    | (with_reducible apply recordErr_keeps) | (simp only [keeps_upd]) | (with_reducible apply Keeps.foldl)
    | (with_reducible apply Keeps.foldr) | (split))

theorem execDupCompare_keeps {cluster : Nat} {mismatch : Bool} {s : State} {t0 : State}
    (he : execDupCompare cluster mismatch s = .next t0) : Keeps s t0 := by
  unfold execDupCompare at he
  first | (replace he := Host.Outcome.next.inj he; subst he) | cases he
  repeat' (first
    | (intro _) | (with_reducible exact Keeps.refl _) | (with_reducible assumption) | (with_reducible apply Keeps.ite)
    | (with_reducible apply dupCompare_keeps) | (simp only [keeps_upd]) | (with_reducible apply Keeps.foldl)
    | (with_reducible apply Keeps.foldr) | (split))

theorem execCheckerRotate_keeps {cluster : Nat} {s : State} {t0 : State}
    (he : execCheckerRotate cluster s = .next t0) : Keeps s t0 := by
  unfold execCheckerRotate at he
  first | (replace he := Host.Outcome.next.inj he; subst he) | cases he
  repeat' (first
    | (intro _) | (with_reducible exact Keeps.refl _) | (with_reducible assumption) | (with_reducible apply Keeps.ite)
    | (with_reducible apply checkerRotate_keeps) | (simp only [keeps_upd]) | (with_reducible apply Keeps.foldl)
    | (with_reducible apply Keeps.foldr) | (split))

theorem loadCopies_keeps {t0 : State} {old : State} {s : State} (hk : Keeps t0 s) : Keeps t0 (loadCopies old s) := by
  unfold loadCopies
  try dsimp only
  repeat' (first
    | (intro _) | (with_reducible exact Keeps.refl _) | (with_reducible assumption) | (with_reducible apply Keeps.ite)
    | (simp only [keeps_upd]) | (with_reducible apply Keeps.foldl) | (with_reducible apply Keeps.foldr) | (split))

theorem loadCopies_sound {t0 : State} {old : State} {s : State} (hk : Sound t0 s) : Sound t0
    (loadCopies old s) := hk.trans (loadCopies_keeps (Keeps.refl _)).sound

theorem reservedIssue_keeps {t0 : State} {s : State} {n : Nat} (hk : Keeps t0 s) : Keeps t0 (reservedIssue s n) := by
  unfold reservedIssue
  try dsimp only
  repeat' (first
    | (intro _) | (with_reducible exact Keeps.refl _) | (with_reducible assumption) | (with_reducible apply Keeps.ite)
    | (with_reducible apply coreRow_keeps) | (simp only [keeps_upd]) | (with_reducible apply Keeps.foldl)
    | (with_reducible apply Keeps.foldr) | (split))

theorem reservedIssue_sound {t0 : State} {s : State} {n : Nat} (hk : Sound t0 s) : Sound t0
    (reservedIssue s n) := hk.trans (reservedIssue_keeps (Keeps.refl _)).sound

theorem execReservedOpcodeIssue_keeps {core : Nat} {s : State} {t0 : State}
    (he : execReservedOpcodeIssue core s = .next t0) : Keeps s t0 := by
  unfold execReservedOpcodeIssue at he
  first | (replace he := Host.Outcome.next.inj he; subst he) | cases he
  repeat' (first
    | (intro _) | (with_reducible exact Keeps.refl _) | (with_reducible assumption) | (with_reducible apply Keeps.ite)
    | (with_reducible apply reservedIssue_keeps) | (simp only [keeps_upd]) | (with_reducible apply Keeps.foldl)
    | (with_reducible apply Keeps.foldr) | (split))

end Sys2Proof.Machine
end

