-- ==== Sys2Proof/Laws/KeepsQueue.lean ====
section
/-! SUPPORT. What every operation leaves alone (HBM, links, command queues, stack engines and reduction groups): `f_keeps` says that memory, the variant and the queue
stay, `f_sound` that the variant and the queue stay and memory keeps its canonical form. -/

namespace Sys2Proof.Machine

set_option linter.all false

theorem portBlotter_keeps {t0 : State} {s : State} {i : Nat} {action : Nat} {n : Nat} (hk : Keeps t0 s) : Keeps t0
    (portBlotter s i action n) := by
  unfold portBlotter
  try dsimp only
  repeat' (first
    | (intro _) | (with_reducible exact Keeps.refl _) | (with_reducible assumption) | (with_reducible apply Keeps.ite)
    | (with_reducible apply correctedMany_keeps) | (simp only [keeps_upd]) | (with_reducible apply Keeps.foldl)
    | (with_reducible apply Keeps.foldr) | (split))

theorem portBlotter_sound {t0 : State} {s : State} {i : Nat} {action : Nat} {n : Nat} (hk : Sound t0 s) : Sound t0
    (portBlotter s i action n) := hk.trans (portBlotter_keeps (Keeps.refl _)).sound

theorem retrain_keeps {t0 : State} {s : State} {i : Nat} (hk : Keeps t0 s) : Keeps t0 (retrain s i) := by
  unfold retrain
  try dsimp only
  repeat' (first
    | (intro _) | (with_reducible exact Keeps.refl _) | (with_reducible assumption) | (with_reducible apply Keeps.ite)
    | (with_reducible apply modPort_keeps) | (with_reducible apply portBlotter_keeps)
    | (with_reducible apply raiseEvt_keeps) | (simp only [keeps_upd]) | (with_reducible apply Keeps.foldl)
    | (with_reducible apply Keeps.foldr) | (split))

theorem retrain_sound {t0 : State} {s : State} {i : Nat} (hk : Sound t0 s) : Sound t0 (retrain s i) := hk.trans
    (retrain_keeps (Keeps.refl _)).sound

theorem protocolErr_keeps {t0 : State} {s : State} {i : Nat} (hk : Keeps t0 s) : Keeps t0 (protocolErr s i) := by
  unfold protocolErr
  try dsimp only
  repeat' (first
    | (intro _) | (with_reducible exact Keeps.refl _) | (with_reducible assumption) | (with_reducible apply Keeps.ite)
    | (with_reducible apply retrain_keeps) | (with_reducible apply recordErr_keeps) | (simp only [keeps_upd])
    | (with_reducible apply Keeps.foldl) | (with_reducible apply Keeps.foldr) | (split))

theorem protocolErr_sound {t0 : State} {s : State} {i : Nat} (hk : Sound t0 s) : Sound t0
    (protocolErr s i) := hk.trans (protocolErr_keeps (Keeps.refl _)).sound

theorem acceptFlit_keeps {t0 : State} {s : State} {i : Nat} {vc : Nat} {first : Nat} {pay : List Byte}
    (hk : Keeps t0 s) : Keeps t0 (acceptFlit s i vc first pay) := by
  unfold acceptFlit
  try dsimp only
  repeat' (first
    | (intro _) | (with_reducible exact Keeps.refl _) | (with_reducible assumption) | (with_reducible apply Keeps.ite)
    | (with_reducible apply modIod_keeps) | (with_reducible apply setPort_keeps)
    | (with_reducible apply protocolErr_keeps) | (simp only [keeps_upd]) | (with_reducible apply Keeps.foldl)
    | (with_reducible apply Keeps.foldr) | (split))

theorem acceptFlit_sound {t0 : State} {s : State} {i : Nat} {vc : Nat} {first : Nat} {pay : List Byte}
    (hk : Sound t0 s) : Sound t0 (acceptFlit s i vc first pay) := hk.trans (acceptFlit_keeps (Keeps.refl _)).sound

theorem putSlot_keeps {t0 : State} {s : State} {i : Nat} {r : RSlot} (hk : Keeps t0 s) : Keeps t0 (putSlot s i r) := by
  unfold putSlot
  try dsimp only
  repeat' (first
    | (intro _) | (with_reducible exact Keeps.refl _) | (with_reducible assumption) | (with_reducible apply Keeps.ite)
    | (with_reducible apply modSe_keeps) | (simp only [keeps_upd]) | (with_reducible apply Keeps.foldl)
    | (with_reducible apply Keeps.foldr) | (split))

theorem putSlot_sound {t0 : State} {s : State} {i : Nat} {r : RSlot} (hk : Sound t0 s) : Sound t0
    (putSlot s i r) := hk.trans (putSlot_keeps (Keeps.refl _)).sound

theorem addAll_sound {t0 : State} {s : State} {i : Nat} {r : RSlot} {bodies : List (List Byte)}
    (hk : Sound t0 s) : Sound t0 (addAll s i r bodies) := by
  unfold addAll
  try dsimp only
  repeat' (first
    | (intro _) | (with_reducible exact Sound.refl _) | (with_reducible assumption) | (with_reducible apply Sound.ite)
    | (with_reducible apply hbmTouch_sound) | (with_reducible apply putSlot_sound) | (simp only [sound_upd])
    | (with_reducible apply Sound.foldl) | (with_reducible apply Sound.foldr) | (with_reducible exact id)
    | (with_reducible apply writeByte_wf) | (with_reducible apply writeBytes_wf)
    | (with_reducible apply writeCells_wf) | (with_reducible apply writeLe_wf) | (with_reducible apply clearRange_wf)
    | (with_reducible apply loseRange_wf) | (with_reducible apply clearHole_wf) | (with_reducible apply coverHole_wf)
    | (with_reducible apply writeTile_wf) | (with_reducible apply reduceAt_wf) | (with_reducible apply putVals_wf)
    | (with_reducible apply wf_foldl) | (split) | (with_reducible apply Sound.updMem))

theorem addMemCtr_keeps {t0 : State} {s : State} {i : Nat} {c : Nat} {k : Nat} (hk : Keeps t0 s) : Keeps t0
    (addMemCtr s i c k) := by
  unfold addMemCtr
  try dsimp only
  repeat' (first
    | (intro _) | (with_reducible exact Keeps.refl _) | (with_reducible assumption) | (with_reducible apply Keeps.ite)
    | (with_reducible apply modSe_keeps) | (simp only [keeps_upd]) | (with_reducible apply Keeps.foldl)
    | (with_reducible apply Keeps.foldr) | (split))

theorem addMemCtr_sound {t0 : State} {s : State} {i : Nat} {c : Nat} {k : Nat} (hk : Sound t0 s) : Sound t0
    (addMemCtr s i c k) := hk.trans (addMemCtr_keeps (Keeps.refl _)).sound

theorem advanceRead_sound {t0 : State} {a0 : Nat} {a1 : State} {a2 : Nat} {a3 : Nat} (hk : Sound t0 a1) : Sound t0
    (advanceRead a0 a1 a2 a3) := by
  induction a0 generalizing a1 a2 a3 with
  | zero =>
    rw [advanceRead]
    try dsimp only
    repeat' (first
      | (intro _) | (with_reducible exact Sound.refl _) | (with_reducible assumption)
      | (with_reducible apply Sound.ite) | (with_reducible apply modSe_sound) | (simp only [sound_upd])
      | (with_reducible apply Sound.foldl) | (with_reducible apply Sound.foldr) | (with_reducible exact id)
      | (with_reducible apply writeByte_wf) | (with_reducible apply writeBytes_wf)
      | (with_reducible apply writeCells_wf) | (with_reducible apply writeLe_wf)
      | (with_reducible apply clearRange_wf) | (with_reducible apply loseRange_wf)
      | (with_reducible apply clearHole_wf) | (with_reducible apply coverHole_wf)
      | (with_reducible apply writeTile_wf) | (with_reducible apply reduceAt_wf) | (with_reducible apply putVals_wf)
      | (with_reducible apply wf_foldl) | (split) | (with_reducible apply Sound.updMem))
  | succ k ih =>
    rw [advanceRead]
    try dsimp only
    repeat' (first
      | (intro _) | (with_reducible exact Sound.refl _) | (with_reducible assumption)
      | (with_reducible apply Sound.ite) | (with_reducible apply modSe_sound) | (with_reducible apply ih)
      | (simp only [sound_upd]) | (with_reducible apply Sound.foldl) | (with_reducible apply Sound.foldr)
      | (with_reducible exact id) | (with_reducible apply writeByte_wf) | (with_reducible apply writeBytes_wf)
      | (with_reducible apply writeCells_wf) | (with_reducible apply writeLe_wf)
      | (with_reducible apply clearRange_wf) | (with_reducible apply loseRange_wf)
      | (with_reducible apply clearHole_wf) | (with_reducible apply coverHole_wf)
      | (with_reducible apply writeTile_wf) | (with_reducible apply reduceAt_wf) | (with_reducible apply putVals_wf)
      | (with_reducible apply wf_foldl) | (split) | (with_reducible apply Sound.updMem))

theorem ageQueues_keeps {t0 : State} {s : State} (hk : Keeps t0 s) : Keeps t0 (ageQueues s) := by
  unfold ageQueues
  try dsimp only
  repeat' (first
    | (intro _) | (with_reducible exact Keeps.refl _) | (with_reducible assumption) | (with_reducible apply Keeps.ite)
    | (simp only [keeps_upd]) | (with_reducible apply Keeps.foldl) | (with_reducible apply Keeps.foldr) | (split))

theorem ageQueues_sound {t0 : State} {s : State} (hk : Sound t0 s) : Sound t0 (ageQueues s) := hk.trans
    (ageQueues_keeps (Keeps.refl _)).sound

theorem toInbox_keeps {t0 : State} {s : State} {x : Nat} {pt : Option Nat} {m : Msg} (hk : Keeps t0 s) : Keeps t0
    (toInbox s x pt m) := by
  unfold toInbox
  try dsimp only
  repeat' (first
    | (intro _) | (with_reducible exact Keeps.refl _) | (with_reducible assumption) | (with_reducible apply Keeps.ite)
    | (with_reducible apply modIod_keeps) | (simp only [keeps_upd]) | (with_reducible apply Keeps.foldl)
    | (with_reducible apply Keeps.foldr) | (split))

theorem toInbox_sound {t0 : State} {s : State} {x : Nat} {pt : Option Nat} {m : Msg} (hk : Sound t0 s) : Sound t0
    (toInbox s x pt m) := hk.trans (toInbox_keeps (Keeps.refl _)).sound

theorem outPort_keeps {t0 : State} {s : State} {x : Nat} {p : Nat} {m : Msg}  {t : State}
    (he : outPort s x p m = some t) (hk : Keeps t0 s) : Keeps t0 t := by
  unfold outPort at he
  try dsimp only at he
  repeat' split at he
  all_goals first | (cases he; done) | cases he
  all_goals repeat' (first
    | (intro _) | (with_reducible exact Keeps.refl _) | (with_reducible assumption) | (with_reducible apply Keeps.ite)
    | (with_reducible apply modIod_keeps) | (with_reducible apply modPort_keeps) | (simp only [keeps_upd])
    | (with_reducible apply Keeps.foldl) | (with_reducible apply Keeps.foldr) | (split))

theorem outPort_sound {t0 : State} {s : State} {x : Nat} {p : Nat} {m : Msg} {t : State}
    (he : outPort s x p m = some t) (hk : Sound t0 s) : Sound t0 t := hk.trans (outPort_keeps he (Keeps.refl _)).sound

theorem emit_keeps {t0 : State} {s : State} {x : Nat} {p : Nat} {m : Msg}  {t : State} (he : emit s x p m = some t)
    (hk : Keeps t0 s) : Keeps t0 t := by
  unfold emit at he
  split at he
  · split at he
    · cases he
    · cases he
      apply toInbox_keeps
      exact hk
  · exact outPort_keeps he hk

theorem emit_sound {t0 : State} {s : State} {x : Nat} {p : Nat} {m : Msg} {t : State} (he : emit s x p m = some t)
    (hk : Sound t0 s) : Sound t0 t := hk.trans (emit_keeps he (Keeps.refl _)).sound

theorem lostCtl_keeps {t0 : State} {s : State} {x : Nat} (hk : Keeps t0 s) : Keeps t0 (lostCtl s x) := by
  unfold lostCtl
  try dsimp only
  repeat' (first
    | (intro _) | (with_reducible exact Keeps.refl _) | (with_reducible assumption) | (with_reducible apply Keeps.ite)
    | (with_reducible apply raiseEvt_keeps) | (with_reducible apply modIod_keeps) | (simp only [keeps_upd])
    | (with_reducible apply Keeps.foldl) | (with_reducible apply Keeps.foldr) | (split))

theorem lostCtl_sound {t0 : State} {s : State} {x : Nat} (hk : Sound t0 s) : Sound t0 (lostCtl s x) := hk.trans
    (lostCtl_keeps (Keeps.refl _)).sound

theorem sendCtlAs_keeps {t0 : State} {s : State} {x : Nat} {p : Nat} {src : Nat} {m : Msg}
    (hk : Keeps t0 s) : Keeps t0 (sendCtlAs s x p src m) := by
  unfold sendCtlAs
  try dsimp only
  repeat' (first
    | (intro _) | (with_reducible exact Keeps.refl _) | (with_reducible assumption) | (with_reducible apply Keeps.ite)
    | (with_reducible apply emit_keeps (by assumption)) | (with_reducible apply lostCtl_keeps)
    | (simp only [keeps_upd]) | (with_reducible apply Keeps.foldl) | (with_reducible apply Keeps.foldr) | (split))

theorem sendCtlAs_sound {t0 : State} {s : State} {x : Nat} {p : Nat} {src : Nat} {m : Msg}
    (hk : Sound t0 s) : Sound t0 (sendCtlAs s x p src m) := hk.trans (sendCtlAs_keeps (Keeps.refl _)).sound

theorem sendCtl_keeps {t0 : State} {s : State} {x : Nat} {p : Nat} {m : Msg} (hk : Keeps t0 s) : Keeps t0
    (sendCtl s x p m) := by
  unfold sendCtl
  try dsimp only
  repeat' (first
    | (intro _) | (with_reducible exact Keeps.refl _) | (with_reducible assumption) | (with_reducible apply Keeps.ite)
    | (with_reducible apply sendCtlAs_keeps) | (simp only [keeps_upd]) | (with_reducible apply Keeps.foldl)
    | (with_reducible apply Keeps.foldr) | (split))

theorem sendCtl_sound {t0 : State} {s : State} {x : Nat} {p : Nat} {m : Msg} (hk : Sound t0 s) : Sound t0
    (sendCtl s x p m) := hk.trans (sendCtl_keeps (Keeps.refl _)).sound

theorem answer_keeps {t0 : State} {s : State} {x : Nat} {q : Nat} {kind : Nat} {code : Nat} {m : Msg}
    (hk : Keeps t0 s) : Keeps t0 (answer s x q kind code m) := by
  unfold answer
  try dsimp only
  repeat' (first
    | (intro _) | (with_reducible exact Keeps.refl _) | (with_reducible assumption) | (with_reducible apply Keeps.ite)
    | (with_reducible apply sendCtl_keeps) | (simp only [keeps_upd]) | (with_reducible apply Keeps.foldl)
    | (with_reducible apply Keeps.foldr) | (split))

theorem answer_sound {t0 : State} {s : State} {x : Nat} {q : Nat} {kind : Nat} {code : Nat} {m : Msg}
    (hk : Sound t0 s) : Sound t0 (answer s x q kind code m) := hk.trans (answer_keeps (Keeps.refl _)).sound

theorem putLand_keeps {t0 : State} {s : State} {x : Nat} {q : Nat} {m : Msg} {c : LandCtx}
    (hk : Keeps t0 s) : Keeps t0 (putLand s x q m c) := by
  unfold putLand
  try dsimp only
  repeat' (first
    | (intro _) | (with_reducible exact Keeps.refl _) | (with_reducible assumption) | (with_reducible apply Keeps.ite)
    | (with_reducible apply modIod_keeps) | (simp only [keeps_upd]) | (with_reducible apply Keeps.foldl)
    | (with_reducible apply Keeps.foldr) | (split))

theorem putLand_sound {t0 : State} {s : State} {x : Nat} {q : Nat} {m : Msg} {c : LandCtx}
    (hk : Sound t0 s) : Sound t0 (putLand s x q m c) := hk.trans (putLand_keeps (Keeps.refl _)).sound

theorem noteXfer_keeps {t0 : State} {s : State} {x : Nat} {q : Nat} {m : Msg} {refused : Bool}
    (hk : Keeps t0 s) : Keeps t0 (noteXfer s x q m refused) := by
  unfold noteXfer
  try dsimp only
  repeat' (first
    | (intro _) | (with_reducible exact Keeps.refl _) | (with_reducible assumption) | (with_reducible apply Keeps.ite)
    | (with_reducible apply putLand_keeps) | (simp only [keeps_upd]) | (with_reducible apply Keeps.foldl)
    | (with_reducible apply Keeps.foldr) | (split))

theorem noteXfer_sound {t0 : State} {s : State} {x : Nat} {q : Nat} {m : Msg} {refused : Bool}
    (hk : Sound t0 s) : Sound t0 (noteXfer s x q m refused) := hk.trans (noteXfer_keeps (Keeps.refl _)).sound

theorem answerBusy_keeps {t0 : State} {s : State} {x : Nat} {q : Nat} {m : Msg} (hk : Keeps t0 s) : Keeps t0
    (answerBusy s x q m) := by
  unfold answerBusy
  try dsimp only
  repeat' (first
    | (intro _) | (with_reducible exact Keeps.refl _) | (with_reducible assumption) | (with_reducible apply Keeps.ite)
    | (with_reducible apply noteXfer_keeps) | (with_reducible apply answer_keeps) | (simp only [keeps_upd])
    | (with_reducible apply Keeps.foldl) | (with_reducible apply Keeps.foldr) | (split))

theorem answerBusy_sound {t0 : State} {s : State} {x : Nat} {q : Nat} {m : Msg} (hk : Sound t0 s) : Sound t0
    (answerBusy s x q m) := hk.trans (answerBusy_keeps (Keeps.refl _)).sound

theorem staleIn_keeps {t0 : State} {s : State} {x : Nat} (hk : Keeps t0 s) : Keeps t0 (staleIn s x) := by
  unfold staleIn
  try dsimp only
  repeat' (first
    | (intro _) | (with_reducible exact Keeps.refl _) | (with_reducible assumption) | (with_reducible apply Keeps.ite)
    | (with_reducible apply raiseEvt_keeps) | (with_reducible apply modAtom_keeps) | (simp only [keeps_upd])
    | (with_reducible apply Keeps.foldl) | (with_reducible apply Keeps.foldr) | (split))

theorem staleIn_sound {t0 : State} {s : State} {x : Nat} (hk : Sound t0 s) : Sound t0 (staleIn s x) := hk.trans
    (staleIn_keeps (Keeps.refl _)).sound

theorem iodTouch_keeps {t0 : State} {s : State} {x : Nat} {as : List Nat} {write : Bool} (hk : Keeps t0 s) : Keeps t0
    (iodTouch s x as write) := by
  unfold iodTouch
  try dsimp only
  repeat' (first
    | (intro _) | (with_reducible exact Keeps.refl _) | (with_reducible assumption) | (with_reducible apply Keeps.ite)
    | (with_reducible apply hbmTouch_keeps) | (with_reducible apply countPath_keeps) | (simp only [keeps_upd])
    | (with_reducible apply Keeps.foldl) | (with_reducible apply Keeps.foldr) | (split))

theorem iodTouch_sound {t0 : State} {s : State} {x : Nat} {as : List Nat} {write : Bool} (hk : Sound t0 s) : Sound t0
    (iodTouch s x as write) := hk.trans (iodTouch_keeps (Keeps.refl _)).sound

theorem atomNote_keeps {t0 : State} {s : State} {x : Nat} {code : Nat} {ctx : Nat} {reason : Nat} {t : Nat}
    {rank : Nat} (hk : Keeps t0 s) : Keeps t0 (atomNote s x code ctx reason t rank) := by
  unfold atomNote
  try dsimp only
  repeat' (first
    | (intro _) | (with_reducible exact Keeps.refl _) | (with_reducible assumption) | (with_reducible apply Keeps.ite)
    | (with_reducible apply raiseEvt_keeps) | (with_reducible apply recordErr_keeps) | (simp only [keeps_upd])
    | (with_reducible apply Keeps.foldl) | (with_reducible apply Keeps.foldr) | (split))

theorem atomNote_sound {t0 : State} {s : State} {x : Nat} {code : Nat} {ctx : Nat} {reason : Nat} {t : Nat}
    {rank : Nat} (hk : Sound t0 s) : Sound t0 (atomNote s x code ctx reason t rank) := hk.trans (atomNote_keeps
    (Keeps.refl _)).sound

theorem refuseAt_keeps {t0 : State} {s : State} {pg : Nat} (hk : Keeps t0 s) : Keeps t0 (refuseAt s pg) := by
  unfold refuseAt
  try dsimp only
  repeat' (first
    | (intro _) | (with_reducible exact Keeps.refl _) | (with_reducible assumption) | (with_reducible apply Keeps.ite)
    | (with_reducible apply recordErr_keeps) | (with_reducible apply raiseEvt_keeps) | (simp only [keeps_upd])
    | (with_reducible apply Keeps.foldl) | (with_reducible apply Keeps.foldr) | (split))

theorem refuseAt_sound {t0 : State} {s : State} {pg : Nat} (hk : Sound t0 s) : Sound t0 (refuseAt s pg) := hk.trans
    (refuseAt_keeps (Keeps.refl _)).sound

theorem selAdd_keeps {t0 : State} {s : State} {u : Nat} {pg : Nat} {x : Nat} {k : Nat} (hk : Keeps t0 s) : Keeps t0
    (selAdd s u pg x k) := by
  unfold selAdd
  try dsimp only
  repeat' (first
    | (intro _) | (with_reducible exact Keeps.refl _) | (with_reducible assumption) | (with_reducible apply Keeps.ite)
    | (with_reducible apply countPath_keeps) | (with_reducible apply refuseAt_keeps)
    | (with_reducible apply applyInc_keeps) | (with_reducible apply addMemCtr_keeps) | (simp only [keeps_upd])
    | (with_reducible apply Keeps.foldl) | (with_reducible apply Keeps.foldr) | (split))

theorem selAdd_sound {t0 : State} {s : State} {u : Nat} {pg : Nat} {x : Nat} {k : Nat} (hk : Sound t0 s) : Sound t0
    (selAdd s u pg x k) := hk.trans (selAdd_keeps (Keeps.refl _)).sound

theorem settleChoice_keeps {t0 : State} {s : State} {x : Nat} {t : List Byte} {c : Ctx} (hk : Keeps t0 s) : Keeps t0
    (settleChoice s x t c) := by
  unfold settleChoice
  try dsimp only
  repeat' (first
    | (intro _) | (with_reducible exact Keeps.refl _) | (with_reducible assumption) | (with_reducible apply Keeps.ite)
    | (with_reducible apply selAdd_keeps) | (with_reducible apply modAtom_keeps) | (simp only [keeps_upd])
    | (with_reducible apply Keeps.foldl) | (with_reducible apply Keeps.foldr) | (split))

theorem settleChoice_sound {t0 : State} {s : State} {x : Nat} {t : List Byte} {c : Ctx} (hk : Sound t0 s) : Sound t0
    (settleChoice s x t c) := hk.trans (settleChoice_keeps (Keeps.refl _)).sound

theorem applyDrop_sound {t0 : State} {s : State} {x : Nat} {p : Nat} {reason : Nat} {t : List Byte}
    (hk : Sound t0 s) : Sound t0 (applyDrop s x p reason t) := by
  unfold applyDrop
  try dsimp only
  repeat' (first
    | (intro _) | (with_reducible exact Sound.refl _) | (with_reducible assumption) | (with_reducible apply Sound.ite)
    | (with_reducible apply staleIn_sound) | (with_reducible apply iodTouch_sound)
    | (with_reducible apply raiseEvt_sound) | (with_reducible apply modAtom_sound)
    | (with_reducible apply atomNote_sound) | (with_reducible apply settleChoice_sound) | (simp only [sound_upd])
    | (with_reducible apply Sound.foldl) | (with_reducible apply Sound.foldr) | (with_reducible exact id)
    | (with_reducible apply writeByte_wf) | (with_reducible apply writeBytes_wf)
    | (with_reducible apply writeCells_wf) | (with_reducible apply writeLe_wf) | (with_reducible apply clearRange_wf)
    | (with_reducible apply loseRange_wf) | (with_reducible apply clearHole_wf) | (with_reducible apply coverHole_wf)
    | (with_reducible apply writeTile_wf) | (with_reducible apply reduceAt_wf) | (with_reducible apply putVals_wf)
    | (with_reducible apply wf_foldl) | (split) | (with_reducible apply Sound.updMem))

theorem applyReturn_keeps {t0 : State} {s : State} {x : Nat} {t : List Byte} {c : Ctx} (hk : Keeps t0 s) : Keeps t0
    (applyReturn s x t c) := by
  unfold applyReturn
  try dsimp only
  repeat' (first
    | (intro _) | (with_reducible exact Keeps.refl _) | (with_reducible assumption) | (with_reducible apply Keeps.ite)
    | (with_reducible apply settleChoice_keeps) | (with_reducible apply modAtom_keeps) | (simp only [keeps_upd])
    | (with_reducible apply Keeps.foldl) | (with_reducible apply Keeps.foldr) | (split))

theorem applyReturn_sound {t0 : State} {s : State} {x : Nat} {t : List Byte} {c : Ctx} (hk : Sound t0 s) : Sound t0
    (applyReturn s x t c) := hk.trans (applyReturn_keeps (Keeps.refl _)).sound

theorem putRec_keeps {t0 : State} {s : State} {q : Nat} {i : Nat} {b : List Byte} {st : RecSt}
    (hk : Keeps t0 s) : Keeps t0 (putRec s q i b st) := by
  unfold putRec
  try dsimp only
  repeat' (first
    | (intro _) | (with_reducible exact Keeps.refl _) | (with_reducible assumption) | (with_reducible apply Keeps.ite)
    | (with_reducible apply modQueue_keeps) | (simp only [keeps_upd]) | (with_reducible apply Keeps.foldl)
    | (with_reducible apply Keeps.foldr) | (split))

theorem putRec_sound {t0 : State} {s : State} {q : Nat} {i : Nat} {b : List Byte} {st : RecSt}
    (hk : Sound t0 s) : Sound t0 (putRec s q i b st) := hk.trans (putRec_keeps (Keeps.refl _)).sound

theorem assign_sound {t0 : State} {s : State} {q : Nat} {i : Nat} {b : List Byte} {n : Nat}
    (hk : Sound t0 s) : Sound t0 (assign s q i b n) := by
  unfold assign
  try dsimp only
  repeat' (first
    | (intro _) | (with_reducible exact Sound.refl _) | (with_reducible assumption) | (with_reducible apply Sound.ite)
    | (with_reducible apply modCluster_sound) | (with_reducible apply putRec_sound)
    | (with_reducible apply setCore_sound) | (with_reducible apply requestWake_sound)
    | (with_reducible apply beginRun_sound) | (simp only [sound_upd]) | (with_reducible apply Sound.foldl)
    | (with_reducible apply Sound.foldr) | (split))

theorem queueErr_keeps {t0 : State} {s : State} {q : Nat} {code : Nat} {extra : Nat} {idx : Nat}
    (hk : Keeps t0 s) : Keeps t0 (queueErr s q code extra idx) := by
  unfold queueErr
  try dsimp only
  repeat' (first
    | (intro _) | (with_reducible exact Keeps.refl _) | (with_reducible assumption) | (with_reducible apply Keeps.ite)
    | (with_reducible apply recordErr_keeps) | (with_reducible apply raiseEvt_keeps) | (simp only [keeps_upd])
    | (with_reducible apply Keeps.foldl) | (with_reducible apply Keeps.foldr) | (split))

theorem queueErr_sound {t0 : State} {s : State} {q : Nat} {code : Nat} {extra : Nat} {idx : Nat}
    (hk : Sound t0 s) : Sound t0 (queueErr s q code extra idx) := hk.trans (queueErr_keeps (Keeps.refl _)).sound

theorem writeQcfg_keeps {t0 : State} {s : State} {q : Nat} {v : W64} (hk : Keeps t0 s) : Keeps t0 (writeQcfg s q v) := by
  unfold writeQcfg
  try dsimp only
  repeat' (first
    | (intro _) | (with_reducible exact Keeps.refl _) | (with_reducible assumption) | (with_reducible apply Keeps.ite)
    | (with_reducible apply queueErr_keeps) | (with_reducible apply setQueue_keeps) | (simp only [keeps_upd])
    | (with_reducible apply Keeps.foldl) | (with_reducible apply Keeps.foldr) | (split))

theorem writeQcfg_sound {t0 : State} {s : State} {q : Nat} {v : W64} (hk : Sound t0 s) : Sound t0
    (writeQcfg s q v) := hk.trans (writeQcfg_keeps (Keeps.refl _)).sound

theorem grpErr_keeps {t0 : State} {s : State} {p : Nat} {code : Nat} {g : Nat} {b : Nat} {rank : Nat} {peer : Nat}
    (hk : Keeps t0 s) : Keeps t0 (grpErr s p code g b rank peer) := by
  unfold grpErr
  try dsimp only
  repeat' (first
    | (intro _) | (with_reducible exact Keeps.refl _) | (with_reducible assumption) | (with_reducible apply Keeps.ite)
    | (with_reducible apply raiseEvt_keeps) | (with_reducible apply recordErr_keeps) | (simp only [keeps_upd])
    | (with_reducible apply Keeps.foldl) | (with_reducible apply Keeps.foldr) | (split))

theorem grpErr_sound {t0 : State} {s : State} {p : Nat} {code : Nat} {g : Nat} {b : Nat} {rank : Nat} {peer : Nat}
    (hk : Sound t0 s) : Sound t0 (grpErr s p code g b rank peer) := hk.trans (grpErr_keeps (Keeps.refl _)).sound

theorem grpCfgWrite_keeps {t0 : State} {s : State} {gn : Nat} {v : W32} (hk : Keeps t0 s) : Keeps t0
    (grpCfgWrite s gn v) := by
  unfold grpCfgWrite
  try dsimp only
  repeat' (first
    | (intro _) | (with_reducible exact Keeps.refl _) | (with_reducible assumption) | (with_reducible apply Keeps.ite)
    | (with_reducible apply grpErr_keeps) | (with_reducible apply setGroup_keeps) | (simp only [keeps_upd])
    | (with_reducible apply Keeps.foldl) | (with_reducible apply Keeps.foldr) | (split))

theorem grpCfgWrite_sound {t0 : State} {s : State} {gn : Nat} {v : W32} (hk : Sound t0 s) : Sound t0
    (grpCfgWrite s gn v) := hk.trans (grpCfgWrite_keeps (Keeps.refl _)).sound

theorem missed_keeps {t0 : State} {s : State} {p : Nat} {k : Nat} (hk : Keeps t0 s) : Keeps t0 (missed s p k) := by
  unfold missed
  try dsimp only
  repeat' (first
    | (intro _) | (with_reducible exact Keeps.refl _) | (with_reducible assumption) | (with_reducible apply Keeps.ite)
    | (with_reducible apply raiseEvt_keeps) | (with_reducible apply modGrpPage_keeps) | (simp only [keeps_upd])
    | (with_reducible apply Keeps.foldl) | (with_reducible apply Keeps.foldr) | (split))

theorem missed_sound {t0 : State} {s : State} {p : Nat} {k : Nat} (hk : Sound t0 s) : Sound t0
    (missed s p k) := hk.trans (missed_keeps (Keeps.refl _)).sound

theorem discardCarry_keeps {t0 : State} {s : State} {p : Nat} {g : Nat} (hk : Keeps t0 s) : Keeps t0
    (discardCarry s p g) := by
  unfold discardCarry
  try dsimp only
  repeat' (first
    | (intro _) | (with_reducible exact Keeps.refl _) | (with_reducible assumption) | (with_reducible apply Keeps.ite)
    | (with_reducible apply missed_keeps) | (with_reducible apply modSe_keeps) | (simp only [keeps_upd])
    | (with_reducible apply Keeps.foldl) | (with_reducible apply Keeps.foldr) | (split))

theorem discardCarry_sound {t0 : State} {s : State} {p : Nat} {g : Nat} (hk : Sound t0 s) : Sound t0
    (discardCarry s p g) := hk.trans (discardCarry_keeps (Keeps.refl _)).sound

theorem dropSends_keeps {t0 : State} {s : State} {p : Nat → Nat → Nat → Nat → Bool} (hk : Keeps t0 s) : Keeps t0
    (dropSends s p) := by
  unfold dropSends
  try dsimp only
  repeat' (first
    | (intro _) | (with_reducible exact Keeps.refl _) | (with_reducible assumption) | (with_reducible apply Keeps.ite)
    | (simp only [keeps_upd]) | (with_reducible apply Keeps.foldl) | (with_reducible apply Keeps.foldr) | (split))

theorem dropSends_sound {t0 : State} {s : State} {p : Nat → Nat → Nat → Nat → Bool} (hk : Sound t0 s) : Sound t0
    (dropSends s p) := hk.trans (dropSends_keeps (Keeps.refl _)).sound

theorem ringWrite_sound {t0 : State} {s : State} {i : Nat} {p : Nat} {e : List Byte} (hk : Sound t0 s) : Sound t0
    (ringWrite s i p e) := by
  unfold ringWrite
  try dsimp only
  repeat' (first
    | (intro _) | (with_reducible exact Sound.refl _) | (with_reducible assumption) | (with_reducible apply Sound.ite)
    | (with_reducible apply hbmTouch_sound) | (simp only [sound_upd]) | (with_reducible apply Sound.foldl)
    | (with_reducible apply Sound.foldr) | (with_reducible exact id) | (with_reducible apply writeByte_wf)
    | (with_reducible apply writeBytes_wf) | (with_reducible apply writeCells_wf) | (with_reducible apply writeLe_wf)
    | (with_reducible apply clearRange_wf) | (with_reducible apply loseRange_wf) | (with_reducible apply clearHole_wf)
    | (with_reducible apply coverHole_wf) | (with_reducible apply writeTile_wf) | (with_reducible apply reduceAt_wf)
    | (with_reducible apply putVals_wf) | (with_reducible apply wf_foldl) | (split)
    | (with_reducible apply Sound.updMem))

theorem logSettles_sound {t0 : State} {s : State} {i : Nat} {p : Nat} {r : RSlot} {l : List W64} (hk : Sound t0 s) :
    Sound t0 (logSettles s i p r l).1 := by
  induction l generalizing s r with
  | nil => exact hk
  | cons w rest ih =>
    rw [logSettles]
    try dsimp only
    repeat' split
    · exact ih (ringWrite_sound hk)
    · exact hk
    · exact raiseEvt_sound hk

theorem logSettles_sound' {t0 : State} {s : State} {i : Nat} {p : Nat} {r : RSlot} {l : List W64} {t : State} {y : RSlot}
    (e : logSettles s i p r l = (t, y)) (hk : Sound t0 s) : Sound t0 t := by
  have k := logSettles_sound (i := i) (p := p) (r := r) (l := l) hk
  rw [e] at k
  exact k

theorem logSettle_sound {t0 : State} {s : State} {i : Nat} {p : Nat} {r : RSlot} (hk : Sound t0 s) : Sound t0
    (logSettle s i p r).1 := by
  unfold logSettle
  try dsimp only
  repeat' (first
    | (intro _) | (with_reducible exact Sound.refl _) | (with_reducible assumption) | (with_reducible apply Sound.ite)
    | (with_reducible apply logSettles_sound) | (with_reducible apply logSettles_sound' (by assumption))
    | (simp only [sound_upd]) | (with_reducible apply Sound.foldl) | (with_reducible apply Sound.foldr) | (split))

theorem logSettle_sound' {t0 : State} {s : State} {i : Nat} {p : Nat} {r : RSlot} {t : State} {y : RSlot}
    (he : logSettle s i p r = (t, y)) (hk : Sound t0 s) : Sound t0 t := by
  have k := logSettle_sound (s := s) (i := i) (p := p) (r := r) hk
  rw [he] at k
  exact k

theorem settleSlot_sound {t0 : State} {s : State} {i : Nat} {p : Nat} {arg : W64} {r : RSlot}
    (hk : Sound t0 s) : Sound t0 (settleSlot s i p arg r) := by
  unfold settleSlot
  try dsimp only
  repeat' (first
    | (intro _) | (with_reducible exact Sound.refl _) | (with_reducible assumption) | (with_reducible apply Sound.ite)
    | (with_reducible apply dropSends_sound) | (with_reducible apply logSettle_sound)
    | (with_reducible apply logSettle_sound' (by assumption)) | (with_reducible apply putSlot_sound)
    | (simp only [sound_upd]) | (with_reducible apply Sound.foldl) | (with_reducible apply Sound.foldr) | (split))

theorem tryClose.putSlot0_keeps {t0 : State} {s : State} {i : Nat} {old : RSlot} {new : RSlot}
    (hk : Keeps t0 s) : Keeps t0 (tryClose.putSlot0 s i old new) := by
  unfold tryClose.putSlot0
  try dsimp only
  repeat' (first
    | (intro _) | (with_reducible exact Keeps.refl _) | (with_reducible assumption) | (with_reducible apply Keeps.ite)
    | (with_reducible apply modSe_keeps) | (simp only [keeps_upd]) | (with_reducible apply Keeps.foldl)
    | (with_reducible apply Keeps.foldr) | (split))

theorem tryClose.putSlot0_sound {t0 : State} {s : State} {i : Nat} {old : RSlot} {new : RSlot}
    (hk : Sound t0 s) : Sound t0 (tryClose.putSlot0 s i old new) := hk.trans (tryClose.putSlot0_keeps (Keeps.refl _)).sound

theorem dropSlot_keeps {t0 : State} {s : State} {i : Nat} {r : RSlot} (hk : Keeps t0 s) : Keeps t0 (dropSlot s i r) := by
  unfold dropSlot
  try dsimp only
  repeat' (first
    | (intro _) | (with_reducible exact Keeps.refl _) | (with_reducible assumption) | (with_reducible apply Keeps.ite)
    | (with_reducible apply modSe_keeps) | (simp only [keeps_upd]) | (with_reducible apply Keeps.foldl)
    | (with_reducible apply Keeps.foldr) | (split))

theorem dropSlot_sound {t0 : State} {s : State} {i : Nat} {r : RSlot} (hk : Sound t0 s) : Sound t0
    (dropSlot s i r) := hk.trans (dropSlot_keeps (Keeps.refl _)).sound

theorem seReport_keeps {t0 : State} {s : State} {q : Nat} {idx : Nat} {code : Nat} (hk : Keeps t0 s) : Keeps t0
    (seReport s q idx code) := by
  unfold seReport
  try dsimp only
  repeat' (first
    | (intro _) | (with_reducible exact Keeps.refl _) | (with_reducible assumption) | (with_reducible apply Keeps.ite)
    | (simp only [keeps_upd]) | (with_reducible apply Keeps.foldl) | (with_reducible apply Keeps.foldr) | (split))

theorem seReport_sound {t0 : State} {s : State} {q : Nat} {idx : Nat} {code : Nat} (hk : Sound t0 s) : Sound t0
    (seReport s q idx code) := hk.trans (seReport_keeps (Keeps.refl _)).sound

theorem redFail_keeps {t0 : State} {s : State} {i : Nat} {r : RSlot} {code : Nat} {hi : Nat}
    (hk : Keeps t0 s) : Keeps t0 (redFail s i r code hi) := by
  unfold redFail
  try dsimp only
  repeat' (first
    | (intro _) | (with_reducible exact Keeps.refl _) | (with_reducible assumption) | (with_reducible apply Keeps.ite)
    | (with_reducible apply raiseEvt_keeps) | (with_reducible apply recordErr_keeps)
    | (with_reducible apply seReport_keeps) | (simp only [keeps_upd]) | (with_reducible apply Keeps.foldl)
    | (with_reducible apply Keeps.foldr) | (split))

theorem redFail_sound {t0 : State} {s : State} {i : Nat} {r : RSlot} {code : Nat} {hi : Nat}
    (hk : Sound t0 s) : Sound t0 (redFail s i r code hi) := hk.trans (redFail_keeps (Keeps.refl _)).sound

theorem seSignals_keeps {t0 : State} {s : State} {i : Nat} {q : Nat} {idx : Nat} {b : List Byte}
    (hk : Keeps t0 s) : Keeps t0 (seSignals s i q idx b) := by
  unfold seSignals
  try dsimp only
  repeat' (first
    | (intro _) | (with_reducible exact Keeps.refl _) | (with_reducible assumption) | (with_reducible apply Keeps.ite)
    | (with_reducible apply seReport_keeps) | (with_reducible apply addMemCtr_keeps) | (simp only [keeps_upd])
    | (with_reducible apply Keeps.foldl) | (with_reducible apply Keeps.foldr) | (split))

theorem seSignals_sound {t0 : State} {s : State} {i : Nat} {q : Nat} {idx : Nat} {b : List Byte}
    (hk : Sound t0 s) : Sound t0 (seSignals s i q idx b) := hk.trans (seSignals_keeps (Keeps.refl _)).sound

theorem tryClose_sound {t0 : State} {s : State} {i : Nat} {g : Nat} {b : Nat} (hk : Sound t0 s) : Sound t0
    (tryClose s i g b) := by
  unfold tryClose
  try dsimp only
  repeat' (first
    | (intro _) | (with_reducible exact Sound.refl _) | (with_reducible assumption) | (with_reducible apply Sound.ite)
    | (with_reducible apply advanceRead_sound) | (with_reducible apply modSe_sound)
    | (with_reducible apply tryClose.putSlot0_sound) | (with_reducible apply dropSlot_sound)
    | (with_reducible apply redFail_sound) | (with_reducible apply grpErr_sound)
    | (with_reducible apply seSignals_sound) | (simp only [sound_upd]) | (with_reducible apply Sound.foldl)
    | (with_reducible apply Sound.foldr) | (split))

theorem grpSettle_sound {t0 : State} {s : State} {gn : Nat} (hk : Sound t0 s) : Sound t0 (grpSettle s gn) := by
  unfold grpSettle
  try dsimp only
  repeat' (first
    | (intro _) | (with_reducible exact Sound.refl _) | (with_reducible assumption) | (with_reducible apply Sound.ite)
    | (with_reducible apply grpErr_sound) | (with_reducible apply discardCarry_sound)
    | (with_reducible apply settleSlot_sound) | (with_reducible apply modGroup_sound)
    | (with_reducible apply tryClose_sound) | (simp only [sound_upd]) | (with_reducible apply Sound.foldl)
    | (with_reducible apply Sound.foldr) | (split))

theorem grpReshard_keeps {t0 : State} {s : State} {gn : Nat} (hk : Keeps t0 s) : Keeps t0 (grpReshard s gn) := by
  unfold grpReshard
  try dsimp only
  repeat' (first
    | (intro _) | (with_reducible exact Keeps.refl _) | (with_reducible assumption) | (with_reducible apply Keeps.ite)
    | (with_reducible apply grpErr_keeps) | (with_reducible apply setGroup_keeps) | (simp only [keeps_upd])
    | (with_reducible apply Keeps.foldl) | (with_reducible apply Keeps.foldr) | (split))

theorem grpReshard_sound {t0 : State} {s : State} {gn : Nat} (hk : Sound t0 s) : Sound t0
    (grpReshard s gn) := hk.trans (grpReshard_keeps (Keeps.refl _)).sound

theorem dropCmd_keeps {t0 : State} {s : State} {i : Nat} {c : SeCmd} (hk : Keeps t0 s) : Keeps t0 (dropCmd s i c) := by
  unfold dropCmd
  try dsimp only
  repeat' (first
    | (intro _) | (with_reducible exact Keeps.refl _) | (with_reducible assumption) | (with_reducible apply Keeps.ite)
    | (with_reducible apply modSe_keeps) | (simp only [keeps_upd]) | (with_reducible apply Keeps.foldl)
    | (with_reducible apply Keeps.foldr) | (split))

theorem dropCmd_sound {t0 : State} {s : State} {i : Nat} {c : SeCmd} (hk : Sound t0 s) : Sound t0
    (dropCmd s i c) := hk.trans (dropCmd_keeps (Keeps.refl _)).sound

theorem seFail_keeps {t0 : State} {s : State} {i : Nat} {c : SeCmd} {code : Nat} (hk : Keeps t0 s) : Keeps t0
    (seFail s i c code) := by
  unfold seFail
  try dsimp only
  repeat' (first
    | (intro _) | (with_reducible exact Keeps.refl _) | (with_reducible assumption) | (with_reducible apply Keeps.ite)
    | (with_reducible apply recordErr_keeps) | (with_reducible apply dropCmd_keeps)
    | (with_reducible apply seReport_keeps) | (with_reducible apply raiseEvt_keeps) | (simp only [keeps_upd])
    | (with_reducible apply Keeps.foldl) | (with_reducible apply Keeps.foldr) | (split))

theorem seFail_sound {t0 : State} {s : State} {i : Nat} {c : SeCmd} {code : Nat} (hk : Sound t0 s) : Sound t0
    (seFail s i c code) := hk.trans (seFail_keeps (Keeps.refl _)).sound

theorem epochAbort_keeps {t0 : State} {s : State} {g : Nat} (hk : Keeps t0 s) : Keeps t0 (epochAbort s g) := by
  unfold epochAbort
  try dsimp only
  repeat' (first
    | (intro _) | (with_reducible exact Keeps.refl _) | (with_reducible assumption) | (with_reducible apply Keeps.ite)
    | (with_reducible apply modSe_keeps) | (with_reducible apply redFail_keeps) | (with_reducible apply grpErr_keeps)
    | (with_reducible apply seFail_keeps) | (with_reducible apply dropSends_keeps)
    | (with_reducible apply discardCarry_keeps) | (with_reducible apply raiseEvt_keeps)
    | (with_reducible apply modGroup_keeps) | (simp only [keeps_upd]) | (with_reducible apply Keeps.foldl)
    | (with_reducible apply Keeps.foldr) | (split))

theorem epochAbort_sound {t0 : State} {s : State} {g : Nat} (hk : Sound t0 s) : Sound t0 (epochAbort s g) := hk.trans
    (epochAbort_keeps (Keeps.refl _)).sound

theorem grpCmd_sound {t0 : State} {s : State} {gn : Nat} {op : Nat} (hk : Sound t0 s) : Sound t0 (grpCmd s gn op) := by
  unfold grpCmd
  try dsimp only
  repeat' (first
    | (intro _) | (with_reducible exact Sound.refl _) | (with_reducible assumption) | (with_reducible apply Sound.ite)
    | (with_reducible apply grpSettle_sound) | (with_reducible apply grpReshard_sound)
    | (with_reducible apply epochAbort_sound) | (with_reducible apply grpErr_sound) | (simp only [sound_upd])
    | (with_reducible apply Sound.foldl) | (with_reducible apply Sound.foldr) | (split))

theorem layoutWrite_keeps {t0 : State} {s : State} {gn : Nat} {v : W32} (hk : Keeps t0 s) : Keeps t0
    (layoutWrite s gn v) := by
  unfold layoutWrite
  try dsimp only
  repeat' (first
    | (intro _) | (with_reducible exact Keeps.refl _) | (with_reducible assumption) | (with_reducible apply Keeps.ite)
    | (with_reducible apply modGroup_keeps) | (simp only [keeps_upd]) | (with_reducible apply Keeps.foldl)
    | (with_reducible apply Keeps.foldr) | (split))

theorem layoutWrite_sound {t0 : State} {s : State} {gn : Nat} {v : W32} (hk : Sound t0 s) : Sound t0
    (layoutWrite s gn v) := hk.trans (layoutWrite_keeps (Keeps.refl _)).sound

theorem flushGroup_sound {t0 : State} {s : State} {q : Nat} (hk : Sound t0 s) : Sound t0 (flushGroup s q) := by
  unfold flushGroup
  try dsimp only
  repeat' (first
    | (intro _) | (with_reducible exact Sound.refl _) | (with_reducible assumption) | (with_reducible apply Sound.ite)
    | (with_reducible apply setQueue_sound) | (simp only [sound_upd]) | (with_reducible apply Sound.foldl)
    | (with_reducible apply Sound.foldr) | (with_reducible exact id) | (with_reducible apply writeByte_wf)
    | (with_reducible apply writeBytes_wf) | (with_reducible apply writeCells_wf) | (with_reducible apply writeLe_wf)
    | (with_reducible apply clearRange_wf) | (with_reducible apply loseRange_wf) | (with_reducible apply clearHole_wf)
    | (with_reducible apply coverHole_wf) | (with_reducible apply writeTile_wf) | (with_reducible apply reduceAt_wf)
    | (with_reducible apply putVals_wf) | (with_reducible apply wf_foldl) | (split)
    | (with_reducible apply Sound.updMem))

theorem haltQueue_keeps {t0 : State} {s : State} {q : Nat} (hk : Keeps t0 s) : Keeps t0 (haltQueue s q) := by
  unfold haltQueue
  try dsimp only
  repeat' (first
    | (intro _) | (with_reducible exact Keeps.refl _) | (with_reducible assumption) | (with_reducible apply Keeps.ite)
    | (with_reducible apply raiseEvt_keeps) | (with_reducible apply modQueue_keeps) | (simp only [keeps_upd])
    | (with_reducible apply Keeps.foldl) | (with_reducible apply Keeps.foldr) | (split))

theorem haltQueue_sound {t0 : State} {s : State} {q : Nat} (hk : Sound t0 s) : Sound t0 (haltQueue s q) := hk.trans
    (haltQueue_keeps (Keeps.refl _)).sound

theorem setFlight_keeps {t0 : State} {s : State} {n : Nat} {f : Flight} (hk : Keeps t0 s) : Keeps t0 (setFlight s n f) := by
  unfold setFlight
  try dsimp only
  repeat' (first
    | (intro _) | (with_reducible exact Keeps.refl _) | (with_reducible assumption) | (with_reducible apply Keeps.ite)
    | (with_reducible apply modCore_keeps) | (simp only [keeps_upd]) | (with_reducible apply Keeps.foldl)
    | (with_reducible apply Keeps.foldr) | (split))

theorem setFlight_sound {t0 : State} {s : State} {n : Nat} {f : Flight} (hk : Sound t0 s) : Sound t0
    (setFlight s n f) := hk.trans (setFlight_keeps (Keeps.refl _)).sound

theorem moveRefused_keeps {t0 : State} {s : State} {n : Nat} {code : Nat} {f : Flight} (hk : Keeps t0 s) : Keeps t0
    (moveRefused s n code f) := by
  unfold moveRefused
  try dsimp only
  repeat' (first
    | (intro _) | (with_reducible exact Keeps.refl _) | (with_reducible assumption) | (with_reducible apply Keeps.ite)
    | (with_reducible apply complete_keeps) | (with_reducible apply stopCore_keeps) | (simp only [keeps_upd])
    | (with_reducible apply Keeps.foldl) | (with_reducible apply Keeps.foldr) | (split))

theorem moveRefused_sound {t0 : State} {s : State} {n : Nat} {code : Nat} {f : Flight} (hk : Sound t0 s) : Sound t0
    (moveRefused s n code f) := hk.trans (moveRefused_keeps (Keeps.refl _)).sound

theorem putCmd_keeps {t0 : State} {s : State} {i : Nat} {c : SeCmd} (hk : Keeps t0 s) : Keeps t0 (putCmd s i c) := by
  unfold putCmd
  try dsimp only
  repeat' (first
    | (intro _) | (with_reducible exact Keeps.refl _) | (with_reducible assumption) | (with_reducible apply Keeps.ite)
    | (with_reducible apply modSe_keeps) | (simp only [keeps_upd]) | (with_reducible apply Keeps.foldl)
    | (with_reducible apply Keeps.foldr) | (split))

theorem putCmd_sound {t0 : State} {s : State} {i : Nat} {c : SeCmd} (hk : Sound t0 s) : Sound t0
    (putCmd s i c) := hk.trans (putCmd_keeps (Keeps.refl _)).sound

theorem linkErr_keeps {t0 : State} {s : State} {x : Nat} {code : Nat} {dst : Nat} {xtag : Nat}
    (hk : Keeps t0 s) : Keeps t0 (linkErr s x code dst xtag) := by
  unfold linkErr
  try dsimp only
  repeat' (first
    | (intro _) | (with_reducible exact Keeps.refl _) | (with_reducible assumption) | (with_reducible apply Keeps.ite)
    | (with_reducible apply recordErr_keeps) | (with_reducible apply raiseEvt_keeps)
    | (with_reducible apply modIod_keeps) | (simp only [keeps_upd]) | (with_reducible apply Keeps.foldl)
    | (with_reducible apply Keeps.foldr) | (split))

theorem linkErr_sound {t0 : State} {s : State} {x : Nat} {code : Nat} {dst : Nat} {xtag : Nat}
    (hk : Sound t0 s) : Sound t0 (linkErr s x code dst xtag) := hk.trans (linkErr_keeps (Keeps.refl _)).sound

theorem refuseLocal_keeps {t0 : State} {s : State} {x : Nat} {p : Nat} {code : Nat} {m : Msg}
    (hk : Keeps t0 s) : Keeps t0 (refuseLocal s x p code m) := by
  unfold refuseLocal
  try dsimp only
  repeat' (first
    | (intro _) | (with_reducible exact Keeps.refl _) | (with_reducible assumption) | (with_reducible apply Keeps.ite)
    | (with_reducible apply linkErr_keeps) | (with_reducible apply toInbox_keeps) | (simp only [keeps_upd])
    | (with_reducible apply Keeps.foldl) | (with_reducible apply Keeps.foldr) | (split))

theorem refuseLocal_sound {t0 : State} {s : State} {x : Nat} {p : Nat} {code : Nat} {m : Msg}
    (hk : Sound t0 s) : Sound t0 (refuseLocal s x p code m) := hk.trans (refuseLocal_keeps (Keeps.refl _)).sound

theorem pumpStream_keeps {t0 : State} {a0 : Nat} {a1 : State} {a2 : Nat} {a3 : SrcStream}
    (hk : Keeps t0 a1) : Keeps t0 (pumpStream a0 a1 a2 a3).1 := by
  induction a0 generalizing a1 a2 a3 with
  | zero =>
    rw [pumpStream]
    try dsimp only
    repeat' (first
      | (intro _) | (with_reducible exact Keeps.refl _) | (with_reducible assumption)
      | (with_reducible apply Keeps.ite) | (with_reducible apply emit_keeps (by assumption))
      | (with_reducible apply refuseLocal_keeps) | (simp only [keeps_upd]) | (with_reducible apply Keeps.foldl)
      | (with_reducible apply Keeps.foldr) | (split))
  | succ k ih =>
    rw [pumpStream]
    try dsimp only
    repeat' (first
      | (intro _) | (with_reducible exact Keeps.refl _) | (with_reducible assumption)
      | (with_reducible apply Keeps.ite) | (with_reducible apply emit_keeps (by assumption))
      | (with_reducible apply refuseLocal_keeps) | (with_reducible apply ih) | (simp only [keeps_upd])
      | (with_reducible apply Keeps.foldl) | (with_reducible apply Keeps.foldr) | (split))

theorem pumpStream_keeps' {t0 : State} {a0 : Nat} {a1 : State} {a2 : Nat} {a3 : SrcStream} {t : State}
    {y : SrcStream} (he : pumpStream a0 a1 a2 a3 = (t, y)) (hk : Keeps t0 a1) : Keeps t0 t := by
  have k := pumpStream_keeps (a1 := a1) (a0 := a0) (a2 := a2) (a3 := a3) hk
  rw [he] at k
  exact k

theorem pumpStream_sound {t0 : State} {a0 : Nat} {a1 : State} {a2 : Nat} {a3 : SrcStream}
    (hk : Sound t0 a1) : Sound t0 (pumpStream a0 a1 a2 a3).1 := hk.trans (pumpStream_keeps (Keeps.refl _)).sound

theorem pumpStream_sound' {t0 : State} {a0 : Nat} {a1 : State} {a2 : Nat} {a3 : SrcStream} {t : State}
    {y : SrcStream} (he : pumpStream a0 a1 a2 a3 = (t, y)) (hk : Sound t0 a1) : Sound t0 t := hk.trans
    (pumpStream_keeps' he (Keeps.refl _)).sound

theorem pumpAt_keeps {t0 : State} {s : State} {x : Nat} {k : Nat} (hk : Keeps t0 s) : Keeps t0 (pumpAt s x k) := by
  unfold pumpAt
  try dsimp only
  repeat' (first
    | (intro _) | (with_reducible exact Keeps.refl _) | (with_reducible assumption) | (with_reducible apply Keeps.ite)
    | (with_reducible apply pumpStream_keeps) | (with_reducible apply pumpStream_keeps' (by assumption))
    | (with_reducible apply modIod_keeps) | (simp only [keeps_upd]) | (with_reducible apply Keeps.foldl)
    | (with_reducible apply Keeps.foldr) | (split))

theorem pumpAt_sound {t0 : State} {s : State} {x : Nat} {k : Nat} (hk : Sound t0 s) : Sound t0
    (pumpAt s x k) := hk.trans (pumpAt_keeps (Keeps.refl _)).sound

theorem sendMsgs_keeps {t0 : State} {s : State} {x : Nat} {p : Nat} {ms : List Msg} (hk : Keeps t0 s) : Keeps t0
    (sendMsgs s x p ms) := by
  unfold sendMsgs
  try dsimp only
  repeat' (first
    | (intro _) | (with_reducible exact Keeps.refl _) | (with_reducible assumption) | (with_reducible apply Keeps.ite)
    | (with_reducible apply pumpAt_keeps) | (with_reducible apply setIod_keeps) | (simp only [keeps_upd])
    | (with_reducible apply Keeps.foldl) | (with_reducible apply Keeps.foldr) | (split))

theorem sendMsgs_sound {t0 : State} {s : State} {x : Nat} {p : Nat} {ms : List Msg} (hk : Sound t0 s) : Sound t0
    (sendMsgs s x p ms) := hk.trans (sendMsgs_keeps (Keeps.refl _)).sound

theorem openXfer_keeps {t0 : State} {s : State} {x : Nat} {p : Nat} {req : Requester} {want : Nat} {ms : List Msg} 
    {t : State} {y : Nat} (he : openXfer s x p req want ms = some (t, y)) (hk : Keeps t0 s) : Keeps t0 t := by
  unfold openXfer at he
  try dsimp only at he
  repeat' split at he
  all_goals first | (cases he; done) | cases he
  all_goals repeat' (first
    | (intro _) | (with_reducible exact Keeps.refl _) | (with_reducible assumption) | (with_reducible apply Keeps.ite)
    | (with_reducible apply modIod_keeps) | (with_reducible apply sendMsgs_keeps) | (simp only [keeps_upd])
    | (with_reducible apply Keeps.foldl) | (with_reducible apply Keeps.foldr) | (split))

theorem openXfer_keeps' {t0 : State} {s : State} {x : Nat} {p : Nat} {req : Requester} {want : Nat} {ms : List Msg}
    {y : State × Nat} (he : openXfer s x p req want ms = some y) (hk : Keeps t0 s) : Keeps t0 y.1   := by
  obtain ⟨a, b⟩ := y
  exact openXfer_keeps he hk

theorem openXfer_sound' {t0 : State} {s : State} {x : Nat} {p : Nat} {req : Requester} {want : Nat} {ms : List Msg}
    {y : State × Nat} (he : openXfer s x p req want ms = some y) (hk : Sound t0 s) : Sound t0 y.1 := hk.trans
    (openXfer_keeps' he (Keeps.refl _)).sound

theorem openXfer_sound {t0 : State} {s : State} {x : Nat} {p : Nat} {req : Requester} {want : Nat} {ms : List Msg}
    {t : State} {y : Nat} (he : openXfer s x p req want ms = some (t, y)) (hk : Sound t0 s) : Sound t0 t := hk.trans
    (openXfer_keeps he (Keeps.refl _)).sound

theorem ckptNext_keeps {t0 : State} {s : State} {i : Nat} {p : Nat} {c : SeCmd}  {t : State}
    (he : ckptNext s i p c = some t) (hk : Keeps t0 s) : Keeps t0 t := by
  unfold ckptNext at he
  try dsimp only at he
  split at he
  · cases he
  · simp only [Option.map_eq_some_iff] at he
    obtain ⟨y, e1, e⟩ := he
    subst e
    apply putCmd_keeps
    apply countPath_keeps
    exact Keeps.ite (hbmTouch_keeps (openXfer_keeps' e1 hk)) (openXfer_keeps' e1 hk)

theorem ckptNext_sound {t0 : State} {s : State} {i : Nat} {p : Nat} {c : SeCmd} {t : State}
    (he : ckptNext s i p c = some t) (hk : Sound t0 s) : Sound t0 t := hk.trans (ckptNext_keeps he (Keeps.refl _)).sound

theorem ckptPump_keeps {t0 : State} {a0 : Nat} {a1 : State} {a2 : Nat} (hk : Keeps t0 a1) : Keeps t0
    (ckptPump a0 a1 a2) := by
  induction a0 generalizing a1 a2 with
  | zero =>
    rw [ckptPump]
    try dsimp only
    repeat' (first
      | (intro _) | (with_reducible exact Keeps.refl _) | (with_reducible assumption)
      | (with_reducible apply Keeps.ite) | (with_reducible apply ckptNext_keeps (by assumption))
      | (simp only [keeps_upd]) | (with_reducible apply Keeps.foldl) | (with_reducible apply Keeps.foldr) | (split))
  | succ k ih =>
    rw [ckptPump]
    try dsimp only
    repeat' (first
      | (intro _) | (with_reducible exact Keeps.refl _) | (with_reducible assumption)
      | (with_reducible apply Keeps.ite) | (with_reducible apply ckptNext_keeps (by assumption))
      | (with_reducible apply ih) | (simp only [keeps_upd]) | (with_reducible apply Keeps.foldl)
      | (with_reducible apply Keeps.foldr) | (split))

theorem ckptPump_sound {t0 : State} {a0 : Nat} {a1 : State} {a2 : Nat} (hk : Sound t0 a1) : Sound t0
    (ckptPump a0 a1 a2) := hk.trans (ckptPump_keeps (Keeps.refl _)).sound

theorem ckptEnded_keeps {t0 : State} {s : State} {i : Nat} {code : Nat} (hk : Keeps t0 s) : Keeps t0
    (ckptEnded s i code) := by
  unfold ckptEnded
  try dsimp only
  repeat' (first
    | (intro _) | (with_reducible exact Keeps.refl _) | (with_reducible assumption) | (with_reducible apply Keeps.ite)
    | (with_reducible apply ckptPump_keeps) | (with_reducible apply putCmd_keeps) | (simp only [keeps_upd])
    | (with_reducible apply Keeps.foldl) | (with_reducible apply Keeps.foldr) | (split))

theorem ckptEnded_sound {t0 : State} {s : State} {i : Nat} {code : Nat} (hk : Sound t0 s) : Sound t0
    (ckptEnded s i code) := hk.trans (ckptEnded_keeps (Keeps.refl _)).sound

theorem sendPump_keeps {t0 : State} {a0 : Nat} {a1 : State} {a2 : Nat} (hk : Keeps t0 a1) : Keeps t0
    (sendPump a0 a1 a2) := by
  induction a0 generalizing a1 a2 with
  | zero =>
    rw [sendPump]
    try dsimp only
    repeat' (first
      | (intro _) | (with_reducible exact Keeps.refl _) | (with_reducible assumption)
      | (with_reducible apply Keeps.ite) | (with_reducible apply countPath_keeps)
      | (with_reducible apply hbmTouch_keeps) | (with_reducible apply openXfer_keeps (by assumption))
      | (with_reducible apply openXfer_keeps' (by assumption)) | (with_reducible apply putSlot_keeps)
      | (simp only [keeps_upd]) | (with_reducible apply Keeps.foldl) | (with_reducible apply Keeps.foldr) | (split))
  | succ k ih =>
    rw [sendPump]
    try dsimp only
    repeat' (first
      | (intro _) | (with_reducible exact Keeps.refl _) | (with_reducible assumption)
      | (with_reducible apply Keeps.ite) | (with_reducible apply countPath_keeps)
      | (with_reducible apply hbmTouch_keeps) | (with_reducible apply openXfer_keeps (by assumption))
      | (with_reducible apply openXfer_keeps' (by assumption)) | (with_reducible apply putSlot_keeps)
      | (with_reducible apply ih) | (simp only [keeps_upd]) | (with_reducible apply Keeps.foldl)
      | (with_reducible apply Keeps.foldr) | (split))

theorem sendPump_sound {t0 : State} {a0 : Nat} {a1 : State} {a2 : Nat} (hk : Sound t0 a1) : Sound t0
    (sendPump a0 a1 a2) := hk.trans (sendPump_keeps (Keeps.refl _)).sound

theorem sendEnded_sound {t0 : State} {s : State} {i : Nat} {g : Nat} {b : Nat} {rank : Nat} {code : Nat} {peer : Nat}
    (hk : Sound t0 s) : Sound t0 (sendEnded s i g b rank code peer) := by
  unfold sendEnded
  try dsimp only
  repeat' (first
    | (intro _) | (with_reducible exact Sound.refl _) | (with_reducible assumption) | (with_reducible apply Sound.ite)
    | (with_reducible apply putSlot_sound) | (with_reducible apply epochAbort_sound)
    | (with_reducible apply tryClose_sound) | (with_reducible apply sendPump_sound) | (simp only [sound_upd])
    | (with_reducible apply Sound.foldl) | (with_reducible apply Sound.foldr) | (split))

theorem linkOpen_keeps {t0 : State} {s : State} {x : Nat} {m : LinkMove}  {t : State} (he : linkOpen s x m = some t)
    (hk : Keeps t0 s) : Keeps t0 t := by
  unfold linkOpen at he
  try dsimp only at he
  repeat' split at he
  all_goals first | (cases he; done) | cases he
  all_goals repeat' (first
    | (intro _) | (with_reducible exact Keeps.refl _) | (with_reducible assumption) | (with_reducible apply Keeps.ite)
    | (with_reducible apply openXfer_keeps (by assumption)) | (with_reducible apply openXfer_keeps' (by assumption))
    | (with_reducible apply modIod_keeps) | (with_reducible apply iodTouch_keeps) | (simp only [keeps_upd])
    | (with_reducible apply Keeps.foldl) | (with_reducible apply Keeps.foldr) | (split))

theorem linkOpen_sound {t0 : State} {s : State} {x : Nat} {m : LinkMove} {t : State} (he : linkOpen s x m = some t)
    (hk : Sound t0 s) : Sound t0 t := hk.trans (linkOpen_keeps he (Keeps.refl _)).sound

theorem linkPump_keeps {t0 : State} {a0 : Nat} {a1 : State} {a2 : Nat} (hk : Keeps t0 a1) : Keeps t0
    (linkPump a0 a1 a2) := by
  induction a0 generalizing a1 a2 with
  | zero =>
    rw [linkPump]
    try dsimp only
    repeat' (first
      | (intro _) | (with_reducible exact Keeps.refl _) | (with_reducible assumption)
      | (with_reducible apply Keeps.ite) | (with_reducible apply linkOpen_keeps (by assumption))
      | (simp only [keeps_upd]) | (with_reducible apply Keeps.foldl) | (with_reducible apply Keeps.foldr) | (split))
  | succ k ih =>
    rw [linkPump]
    try dsimp only
    repeat' (first
      | (intro _) | (with_reducible exact Keeps.refl _) | (with_reducible assumption)
      | (with_reducible apply Keeps.ite) | (with_reducible apply linkOpen_keeps (by assumption))
      | (with_reducible apply ih) | (simp only [keeps_upd]) | (with_reducible apply Keeps.foldl)
      | (with_reducible apply Keeps.foldr) | (split))

theorem linkPump_sound {t0 : State} {a0 : Nat} {a1 : State} {a2 : Nat} (hk : Sound t0 a1) : Sound t0
    (linkPump a0 a1 a2) := hk.trans (linkPump_keeps (Keeps.refl _)).sound

theorem linkStart_keeps {t0 : State} {a0 : Nat} {a1 : State} {a2 : Nat} (hk : Keeps t0 a1) : Keeps t0
    (linkStart a0 a1 a2) := by
  induction a0 generalizing a1 a2 with
  | zero =>
    rw [linkStart]
    try dsimp only
    repeat' (first
      | (intro _) | (with_reducible exact Keeps.refl _) | (with_reducible assumption)
      | (with_reducible apply Keeps.ite) | (with_reducible apply linkErr_keeps)
      | (with_reducible apply linkPump_keeps) | (with_reducible apply modIod_keeps)
      | (with_reducible apply seReport_keeps) | (simp only [keeps_upd]) | (with_reducible apply Keeps.foldl)
      | (with_reducible apply Keeps.foldr) | (split))
  | succ k ih =>
    rw [linkStart]
    try dsimp only
    repeat' (first
      | (intro _) | (with_reducible exact Keeps.refl _) | (with_reducible assumption)
      | (with_reducible apply Keeps.ite) | (with_reducible apply linkErr_keeps)
      | (with_reducible apply linkPump_keeps) | (with_reducible apply modIod_keeps)
      | (with_reducible apply seReport_keeps) | (with_reducible apply ih) | (simp only [keeps_upd])
      | (with_reducible apply Keeps.foldl) | (with_reducible apply Keeps.foldr) | (split))

theorem linkStart_sound {t0 : State} {a0 : Nat} {a1 : State} {a2 : Nat} (hk : Sound t0 a1) : Sound t0
    (linkStart a0 a1 a2) := hk.trans (linkStart_keeps (Keeps.refl _)).sound

theorem linkEnded_keeps {t0 : State} {s : State} {x : Nat} {q : Nat} {i : Nat} {code : Nat}
    (hk : Keeps t0 s) : Keeps t0 (linkEnded s x q i code) := by
  unfold linkEnded
  try dsimp only
  repeat' (first
    | (intro _) | (with_reducible exact Keeps.refl _) | (with_reducible assumption) | (with_reducible apply Keeps.ite)
    | (with_reducible apply modIod_keeps) | (with_reducible apply linkStart_keeps)
    | (with_reducible apply seReport_keeps) | (with_reducible apply selAdd_keeps)
    | (with_reducible apply linkPump_keeps) | (simp only [keeps_upd]) | (with_reducible apply Keeps.foldl)
    | (with_reducible apply Keeps.foldr) | (split))

theorem linkEnded_sound {t0 : State} {s : State} {x : Nat} {q : Nat} {i : Nat} {code : Nat}
    (hk : Sound t0 s) : Sound t0 (linkEnded s x q i code) := hk.trans (linkEnded_keeps (Keeps.refl _)).sound

theorem endXfer_sound {t0 : State} {s : State} {x : Nat} {tag : Nat} {code : Nat} (hk : Sound t0 s) : Sound t0
    (endXfer s x tag code) := by
  unfold endXfer
  try dsimp only
  repeat' (first
    | (intro _) | (with_reducible exact Sound.refl _) | (with_reducible assumption) | (with_reducible apply Sound.ite)
    | (with_reducible apply modIod_sound) | (with_reducible apply raiseEvt_sound)
    | (with_reducible apply setFlight_sound) | (with_reducible apply moveRefused_sound)
    | (with_reducible apply recordErr_sound) | (with_reducible apply ckptEnded_sound)
    | (with_reducible apply sendEnded_sound) | (with_reducible apply linkEnded_sound) | (simp only [sound_upd])
    | (with_reducible apply Sound.foldl) | (with_reducible apply Sound.foldr) | (split))

theorem endSent_sound {t0 : State} {s : State} {x : Nat} {code : Nat} {ms : List Msg} (hk : Sound t0 s) : Sound t0
    (endSent s x code ms) := by
  unfold endSent
  try dsimp only
  repeat' (first
    | (intro _) | (with_reducible exact Sound.refl _) | (with_reducible assumption) | (with_reducible apply Sound.ite)
    | (with_reducible apply endXfer_sound) | (with_reducible apply linkErr_sound) | (simp only [sound_upd])
    | (with_reducible apply Sound.foldl) | (with_reducible apply Sound.foldr) | (split))

theorem contextFreed_keeps {t0 : State} {s : State} {x : Nat} (hk : Keeps t0 s) : Keeps t0 (contextFreed s x) := by
  unfold contextFreed
  try dsimp only
  repeat' (first
    | (intro _) | (with_reducible exact Keeps.refl _) | (with_reducible assumption) | (with_reducible apply Keeps.ite)
    | (with_reducible apply pumpAt_keeps) | (simp only [keeps_upd]) | (with_reducible apply Keeps.foldl)
    | (with_reducible apply Keeps.foldr) | (split))

theorem contextFreed_sound {t0 : State} {s : State} {x : Nat} (hk : Sound t0 s) : Sound t0
    (contextFreed s x) := hk.trans (contextFreed_keeps (Keeps.refl _)).sound

theorem closeStream_sound {t0 : State} {s : State} {x : Nat} {p : Nat} {dst : Nat} {vc : Nat} {code : Nat}
    (hk : Sound t0 s) : Sound t0 (closeStream s x p dst vc code) := by
  unfold closeStream
  try dsimp only
  repeat' (first
    | (intro _) | (with_reducible exact Sound.refl _) | (with_reducible assumption) | (with_reducible apply Sound.ite)
    | (with_reducible apply modIod_sound) | (with_reducible apply endSent_sound)
    | (with_reducible apply linkErr_sound) | (with_reducible apply contextFreed_sound)
    | (with_reducible apply sendMsgs_sound) | (simp only [sound_upd]) | (with_reducible apply Sound.foldl)
    | (with_reducible apply Sound.foldr) | (split))

theorem refused_sound {t0 : State} {s : State} {x : Nat} {q : Nat} {m : Msg} (hk : Sound t0 s) : Sound t0
    (refused s x q m) := by
  unfold refused
  try dsimp only
  repeat' (first
    | (intro _) | (with_reducible exact Sound.refl _) | (with_reducible assumption) | (with_reducible apply Sound.ite)
    | (with_reducible apply endXfer_sound) | (with_reducible apply closeStream_sound) | (simp only [sound_upd])
    | (with_reducible apply Sound.foldl) | (with_reducible apply Sound.foldr) | (split))

theorem retireHead_keeps {t0 : State} {s : State} {q : Nat} {b : List Byte} (hk : Keeps t0 s) : Keeps t0
    (retireHead s q b) := by
  unfold retireHead
  try dsimp only
  repeat' (first
    | (intro _) | (with_reducible exact Keeps.refl _) | (with_reducible assumption) | (with_reducible apply Keeps.ite)
    | (with_reducible apply modQueue_keeps) | (with_reducible apply setComp_keeps) | (simp only [keeps_upd])
    | (with_reducible apply Keeps.foldl) | (with_reducible apply Keeps.foldr) | (split))

theorem retireHead_sound {t0 : State} {s : State} {q : Nat} {b : List Byte} (hk : Sound t0 s) : Sound t0
    (retireHead s q b) := hk.trans (retireHead_keeps (Keeps.refl _)).sound

theorem settleQueue_sound {t0 : State} {a0 : Nat} {a1 : State} {a2 : Nat} (hk : Sound t0 a1) : Sound t0
    (settleQueue a0 a1 a2) := by
  induction a0 generalizing a1 a2 with
  | zero =>
    rw [settleQueue]
    try dsimp only
    repeat' (first
      | (intro _) | (with_reducible exact Sound.refl _) | (with_reducible assumption)
      | (with_reducible apply Sound.ite) | (with_reducible apply haltQueue_sound)
      | (with_reducible apply refused_sound) | (with_reducible apply retireHead_sound) | (simp only [sound_upd])
      | (with_reducible apply Sound.foldl) | (with_reducible apply Sound.foldr) | (split))
  | succ k ih =>
    rw [settleQueue]
    try dsimp only
    repeat' (first
      | (intro _) | (with_reducible exact Sound.refl _) | (with_reducible assumption)
      | (with_reducible apply Sound.ite) | (with_reducible apply haltQueue_sound)
      | (with_reducible apply refused_sound) | (with_reducible apply retireHead_sound) | (with_reducible apply ih)
      | (simp only [sound_upd]) | (with_reducible apply Sound.foldl) | (with_reducible apply Sound.foldr) | (split))

theorem settleQ_sound {t0 : State} {s : State} {q : Nat} (hk : Sound t0 s) : Sound t0 (settleQ s q) := by
  unfold settleQ
  try dsimp only
  repeat' (first
    | (intro _) | (with_reducible exact Sound.refl _) | (with_reducible assumption) | (with_reducible apply Sound.ite)
    | (with_reducible apply settleQueue_sound) | (simp only [sound_upd]) | (with_reducible apply Sound.foldl)
    | (with_reducible apply Sound.foldr) | (split))

theorem skipHead_sound {t0 : State} {s : State} {q : Nat} (hk : Sound t0 s) : Sound t0 (skipHead s q) := by
  unfold skipHead
  try dsimp only
  repeat' (first
    | (intro _) | (with_reducible exact Sound.refl _) | (with_reducible assumption) | (with_reducible apply Sound.ite)
    | (with_reducible apply settleQ_sound) | (with_reducible apply retireHead_sound)
    | (with_reducible apply setQueue_sound) | (simp only [sound_upd]) | (with_reducible apply Sound.foldl)
    | (with_reducible apply Sound.foldr) | (split))

theorem sendNotice_sound {t0 : State} {s : State} {x : Nat} {p : Nat} {reason : Nat} {t : List Byte}
    (hk : Sound t0 s) : Sound t0 (sendNotice s x p reason t) := by
  unfold sendNotice
  try dsimp only
  repeat' (first
    | (intro _) | (with_reducible exact Sound.refl _) | (with_reducible assumption) | (with_reducible apply Sound.ite)
    | (with_reducible apply applyDrop_sound) | (with_reducible apply sendMsgs_sound) | (simp only [sound_upd])
    | (with_reducible apply Sound.foldl) | (with_reducible apply Sound.foldr) | (split))

theorem rerunHead_keeps {t0 : State} {s : State} {q : Nat} (hk : Keeps t0 s) : Keeps t0 (rerunHead s q) := by
  unfold rerunHead
  try dsimp only
  repeat' (first
    | (intro _) | (with_reducible exact Keeps.refl _) | (with_reducible assumption) | (with_reducible apply Keeps.ite)
    | (with_reducible apply modQueue_keeps) | (simp only [keeps_upd]) | (with_reducible apply Keeps.foldl)
    | (with_reducible apply Keeps.foldr) | (split))

theorem rerunHead_sound {t0 : State} {s : State} {q : Nat} (hk : Sound t0 s) : Sound t0 (rerunHead s q) := hk.trans
    (rerunHead_keeps (Keeps.refl _)).sound

theorem trainStart_keeps {t0 : State} {s : State} {i : Nat} {signal : Bool} (hk : Keeps t0 s) : Keeps t0
    (trainStart s i signal) := by
  unfold trainStart
  try dsimp only
  repeat' (first
    | (intro _) | (with_reducible exact Keeps.refl _) | (with_reducible assumption) | (with_reducible apply Keeps.ite)
    | (with_reducible apply modPort_keeps) | (simp only [keeps_upd]) | (with_reducible apply Keeps.foldl)
    | (with_reducible apply Keeps.foldr) | (split))

theorem trainStart_sound {t0 : State} {s : State} {i : Nat} {signal : Bool} (hk : Sound t0 s) : Sound t0
    (trainStart s i signal) := hk.trans (trainStart_keeps (Keeps.refl _)).sound

theorem ringHeader_sound {t0 : State} {s : State} {i : Nat} {p : Nat} (hk : Sound t0 s) : Sound t0 (ringHeader s i p) := by
  unfold ringHeader
  try dsimp only
  repeat' (first
    | (intro _) | (with_reducible exact Sound.refl _) | (with_reducible assumption) | (with_reducible apply Sound.ite)
    | (simp only [sound_upd]) | (with_reducible apply Sound.foldl) | (with_reducible apply Sound.foldr)
    | (with_reducible exact id) | (with_reducible apply writeByte_wf) | (with_reducible apply writeBytes_wf)
    | (with_reducible apply writeCells_wf) | (with_reducible apply writeLe_wf) | (with_reducible apply clearRange_wf)
    | (with_reducible apply loseRange_wf) | (with_reducible apply clearHole_wf) | (with_reducible apply coverHole_wf)
    | (with_reducible apply writeTile_wf) | (with_reducible apply reduceAt_wf) | (with_reducible apply putVals_wf)
    | (with_reducible apply wf_foldl) | (split) | (with_reducible apply Sound.updMem))

theorem doorbell_keeps {t0 : State} {s : State} {q : Nat} {v : W64} {cls : Nat} (hk : Keeps t0 s) : Keeps t0
    (doorbell s q v cls) := by
  unfold doorbell
  try dsimp only
  repeat' (first
    | (intro _) | (with_reducible exact Keeps.refl _) | (with_reducible assumption) | (with_reducible apply Keeps.ite)
    | (with_reducible apply queueErr_keeps) | (with_reducible apply modQueue_keeps) | (simp only [keeps_upd])
    | (with_reducible apply Keeps.foldl) | (with_reducible apply Keeps.foldr) | (split))

theorem doorbell_sound {t0 : State} {s : State} {q : Nat} {v : W64} {cls : Nat} (hk : Sound t0 s) : Sound t0
    (doorbell s q v cls) := hk.trans (doorbell_keeps (Keeps.refl _)).sound

theorem progress_keeps {t0 : State} {s : State} {x : Nat} {p : Nat} {dst : Nat} {vc : Nat}
    (hk : Keeps t0 s) : Keeps t0 (progress s x p dst vc) := by
  unfold progress
  try dsimp only
  repeat' (first
    | (intro _) | (with_reducible exact Keeps.refl _) | (with_reducible assumption) | (with_reducible apply Keeps.ite)
    | (with_reducible apply modIod_keeps) | (simp only [keeps_upd]) | (with_reducible apply Keeps.foldl)
    | (with_reducible apply Keeps.foldr) | (split))

theorem progress_sound {t0 : State} {s : State} {x : Nat} {p : Nat} {dst : Nat} {vc : Nat}
    (hk : Sound t0 s) : Sound t0 (progress s x p dst vc) := hk.trans (progress_keeps (Keeps.refl _)).sound

theorem busied_keeps {t0 : State} {s : State} {x : Nat} {q : Nat} {m : Msg} (hk : Keeps t0 s) : Keeps t0
    (busied s x q m) := by
  unfold busied
  try dsimp only
  repeat' (first
    | (intro _) | (with_reducible exact Keeps.refl _) | (with_reducible assumption) | (with_reducible apply Keeps.ite)
    | (with_reducible apply progress_keeps) | (with_reducible apply modIod_keeps) | (simp only [keeps_upd])
    | (with_reducible apply Keeps.foldl) | (with_reducible apply Keeps.foldr) | (split))

theorem busied_sound {t0 : State} {s : State} {x : Nat} {q : Nat} {m : Msg} (hk : Sound t0 s) : Sound t0
    (busied s x q m) := hk.trans (busied_keeps (Keeps.refl _)).sound

theorem ckptData_sound {t0 : State} {s : State} {i : Nat} {piece : Nat} {addr : Nat} {data : List Byte}
    (hk : Sound t0 s) : Sound t0 (ckptData s i piece addr data) := by
  unfold ckptData
  try dsimp only
  repeat' (first
    | (intro _) | (with_reducible exact Sound.refl _) | (with_reducible assumption) | (with_reducible apply Sound.ite)
    | (with_reducible apply putCmd_sound) | (with_reducible apply hbmTouch_sound) | (simp only [sound_upd])
    | (with_reducible apply Sound.foldl) | (with_reducible apply Sound.foldr) | (with_reducible exact id)
    | (with_reducible apply writeByte_wf) | (with_reducible apply writeBytes_wf)
    | (with_reducible apply writeCells_wf) | (with_reducible apply writeLe_wf) | (with_reducible apply clearRange_wf)
    | (with_reducible apply loseRange_wf) | (with_reducible apply clearHole_wf) | (with_reducible apply coverHole_wf)
    | (with_reducible apply writeTile_wf) | (with_reducible apply reduceAt_wf) | (with_reducible apply putVals_wf)
    | (with_reducible apply wf_foldl) | (split) | (with_reducible apply Sound.updMem))

theorem exPut_sound {t0 : State} {s : State} {q : Nat} {off : Nat} {n : Nat} {v : Nat} (hk : Sound t0 s) : Sound t0
    (exPut s q off n v) := by
  unfold exPut
  try dsimp only
  repeat' (first
    | (intro _) | (with_reducible exact Sound.refl _) | (with_reducible assumption) | (with_reducible apply Sound.ite)
    | (simp only [sound_upd]) | (with_reducible apply Sound.foldl) | (with_reducible apply Sound.foldr)
    | (with_reducible exact id) | (with_reducible apply writeByte_wf) | (with_reducible apply writeBytes_wf)
    | (with_reducible apply writeCells_wf) | (with_reducible apply writeLe_wf) | (with_reducible apply clearRange_wf)
    | (with_reducible apply loseRange_wf) | (with_reducible apply clearHole_wf) | (with_reducible apply coverHole_wf)
    | (with_reducible apply writeTile_wf) | (with_reducible apply reduceAt_wf) | (with_reducible apply putVals_wf)
    | (with_reducible apply wf_foldl) | (split) | (with_reducible apply Sound.updMem))

theorem closeRound_sound {t0 : State} {s : State} {q : Nat} (hk : Sound t0 s) : Sound t0 (closeRound s q) := by
  unfold closeRound
  try dsimp only
  repeat' (first
    | (intro _) | (with_reducible exact Sound.refl _) | (with_reducible assumption) | (with_reducible apply Sound.ite)
    | (with_reducible apply flushGroup_sound) | (with_reducible apply exPut_sound) | (simp only [sound_upd])
    | (with_reducible apply Sound.foldl) | (with_reducible apply Sound.foldr) | (split))

theorem contribBusy_keeps {t0 : State} {s : State} {x : Nat} {q : Nat} {m : Msg} (hk : Keeps t0 s) : Keeps t0
    (contribBusy s x q m) := by
  unfold contribBusy
  try dsimp only
  repeat' (first
    | (intro _) | (with_reducible exact Keeps.refl _) | (with_reducible assumption) | (with_reducible apply Keeps.ite)
    | (with_reducible apply modGrpPage_keeps) | (with_reducible apply answer_keeps) | (simp only [keeps_upd])
    | (with_reducible apply Keeps.foldl) | (with_reducible apply Keeps.foldr) | (split))

theorem contribBusy_sound {t0 : State} {s : State} {x : Nat} {q : Nat} {m : Msg} (hk : Sound t0 s) : Sound t0
    (contribBusy s x q m) := hk.trans (contribBusy_keeps (Keeps.refl _)).sound

theorem contribRefuse_keeps {t0 : State} {s : State} {x : Nat} {q : Nat} {code : Nat} {g : Nat} {b : Nat}
    {rank : Nat} {m : Msg} (hk : Keeps t0 s) : Keeps t0 (contribRefuse s x q code g b rank m) := by
  unfold contribRefuse
  try dsimp only
  repeat' (first
    | (intro _) | (with_reducible exact Keeps.refl _) | (with_reducible assumption) | (with_reducible apply Keeps.ite)
    | (with_reducible apply answer_keeps) | (with_reducible apply grpErr_keeps) | (simp only [keeps_upd])
    | (with_reducible apply Keeps.foldl) | (with_reducible apply Keeps.foldr) | (split))

theorem contribRefuse_sound {t0 : State} {s : State} {x : Nat} {q : Nat} {code : Nat} {g : Nat} {b : Nat}
    {rank : Nat} {m : Msg} (hk : Sound t0 s) : Sound t0 (contribRefuse s x q code g b rank m) := hk.trans
    (contribRefuse_keeps (Keeps.refl _)).sound

theorem contribFirst_keeps {t0 : State} {s : State} {x : Nat} {q : Nat} {m : Msg} (hk : Keeps t0 s) : Keeps t0
    (contribFirst s x q m) := by
  unfold contribFirst
  try dsimp only
  repeat' (first
    | (intro _) | (with_reducible exact Keeps.refl _) | (with_reducible assumption) | (with_reducible apply Keeps.ite)
    | (with_reducible apply noteXfer_keeps) | (with_reducible apply contribRefuse_keeps)
    | (with_reducible apply contribBusy_keeps) | (with_reducible apply modGrpPage_keeps)
    | (with_reducible apply missed_keeps) | (with_reducible apply modSe_keeps) | (with_reducible apply putSlot_keeps)
    | (simp only [keeps_upd]) | (with_reducible apply Keeps.foldl) | (with_reducible apply Keeps.foldr) | (split))

theorem contribFirst_sound {t0 : State} {s : State} {x : Nat} {q : Nat} {m : Msg} (hk : Sound t0 s) : Sound t0
    (contribFirst s x q m) := hk.trans (contribFirst_keeps (Keeps.refl _)).sound

theorem contribLanded_keeps {t0 : State} {s : State} {i : Nat} {g : Nat} {b : Nat} {rank : Nat}
    (hk : Keeps t0 s) : Keeps t0 (contribLanded s i g b rank) := by
  unfold contribLanded
  try dsimp only
  repeat' (first
    | (intro _) | (with_reducible exact Keeps.refl _) | (with_reducible assumption) | (with_reducible apply Keeps.ite)
    | (with_reducible apply recordErr_keeps) | (with_reducible apply putSlot_keeps)
    | (with_reducible apply contribRefuse_keeps) | (with_reducible apply raiseEvt_keeps)
    | (with_reducible apply modSe_keeps) | (with_reducible apply contribBusy_keeps)
    | (with_reducible apply modGrpPage_keeps) | (with_reducible apply answer_keeps) | (simp only [keeps_upd])
    | (with_reducible apply Keeps.foldl) | (with_reducible apply Keeps.foldr) | (split))

theorem contribLanded_sound {t0 : State} {s : State} {i : Nat} {g : Nat} {b : Nat} {rank : Nat}
    (hk : Sound t0 s) : Sound t0 (contribLanded s i g b rank) := hk.trans (contribLanded_keeps (Keeps.refl _)).sound

theorem feedSlot_sound {t0 : State} {s : State} {i : Nat} {x : Nat} {m : Msg} {r : RSlot} {c : Contrib}
    (hk : Sound t0 s) : Sound t0 (feedSlot s i x m r c) := by
  unfold feedSlot
  try dsimp only
  repeat' (first
    | (intro _) | (with_reducible exact Sound.refl _) | (with_reducible assumption) | (with_reducible apply Sound.ite)
    | (with_reducible apply putSlot_sound) | (with_reducible apply hbmTouch_sound) | (simp only [sound_upd])
    | (with_reducible apply Sound.foldl) | (with_reducible apply Sound.foldr) | (with_reducible exact id)
    | (with_reducible apply writeByte_wf) | (with_reducible apply writeBytes_wf)
    | (with_reducible apply writeCells_wf) | (with_reducible apply writeLe_wf) | (with_reducible apply clearRange_wf)
    | (with_reducible apply loseRange_wf) | (with_reducible apply clearHole_wf) | (with_reducible apply coverHole_wf)
    | (with_reducible apply writeTile_wf) | (with_reducible apply reduceAt_wf) | (with_reducible apply putVals_wf)
    | (with_reducible apply wf_foldl) | (split) | (with_reducible apply Sound.updMem))

theorem endXferAt_keeps {t0 : State} {s : State} {x : Nat} {q : Nat} {m : Msg} (hk : Keeps t0 s) : Keeps t0
    (endXferAt s x q m) := by
  unfold endXferAt
  try dsimp only
  repeat' (first
    | (intro _) | (with_reducible exact Keeps.refl _) | (with_reducible assumption) | (with_reducible apply Keeps.ite)
    | (with_reducible apply putLand_keeps) | (simp only [keeps_upd]) | (with_reducible apply Keeps.foldl)
    | (with_reducible apply Keeps.foldr) | (split))

theorem endXferAt_sound {t0 : State} {s : State} {x : Nat} {q : Nat} {m : Msg} (hk : Sound t0 s) : Sound t0
    (endXferAt s x q m) := hk.trans (endXferAt_keeps (Keeps.refl _)).sound

theorem contribMessage_sound {t0 : State} {s : State} {x : Nat} {q : Nat} {m : Msg} (hk : Sound t0 s) : Sound t0
    (contribMessage s x q m) := by
  unfold contribMessage
  try dsimp only
  repeat' (first
    | (intro _) | (with_reducible exact Sound.refl _) | (with_reducible assumption) | (with_reducible apply Sound.ite)
    | (with_reducible apply contribFirst_sound) | (with_reducible apply feedSlot_sound)
    | (with_reducible apply answer_sound) | (with_reducible apply endXferAt_sound) | (simp only [sound_upd])
    | (with_reducible apply Sound.foldl) | (with_reducible apply Sound.foldr) | (split))

theorem setRecSt_keeps {t0 : State} {s : State} {q : Nat} {i : Nat} {st : RecSt} (hk : Keeps t0 s) : Keeps t0
    (setRecSt s q i st) := by
  unfold setRecSt
  try dsimp only
  repeat' (first
    | (intro _) | (with_reducible exact Keeps.refl _) | (with_reducible assumption) | (with_reducible apply Keeps.ite)
    | (with_reducible apply modQueue_keeps) | (simp only [keeps_upd]) | (with_reducible apply Keeps.foldl)
    | (with_reducible apply Keeps.foldr) | (split))

theorem setRecSt_sound {t0 : State} {s : State} {q : Nat} {i : Nat} {st : RecSt} (hk : Sound t0 s) : Sound t0
    (setRecSt s q i st) := hk.trans (setRecSt_keeps (Keeps.refl _)).sound

theorem recDone_sound {t0 : State} {s : State} {q : Nat} {i : Nat} (hk : Sound t0 s) : Sound t0 (recDone s q i) := by
  unfold recDone
  try dsimp only
  repeat' (first
    | (intro _) | (with_reducible exact Sound.refl _) | (with_reducible assumption) | (with_reducible apply Sound.ite)
    | (with_reducible apply settleQ_sound) | (with_reducible apply setRecSt_sound) | (simp only [sound_upd])
    | (with_reducible apply Sound.foldl) | (with_reducible apply Sound.foldr) | (split))

theorem countLate_keeps {t0 : State} {s : State} {q : Nat} {b : List Byte} (hk : Keeps t0 s) : Keeps t0
    (countLate s q b) := by
  unfold countLate
  try dsimp only
  repeat' (first
    | (intro _) | (with_reducible exact Keeps.refl _) | (with_reducible assumption) | (with_reducible apply Keeps.ite)
    | (with_reducible apply modCluster_keeps) | (simp only [keeps_upd]) | (with_reducible apply Keeps.foldl)
    | (with_reducible apply Keeps.foldr) | (split))

theorem countLate_sound {t0 : State} {s : State} {q : Nat} {b : List Byte} (hk : Sound t0 s) : Sound t0
    (countLate s q b) := hk.trans (countLate_keeps (Keeps.refl _)).sound

theorem control_sound {t0 : State} {s : State} {q : Nat} {i : Nat} {b : List Byte} (hk : Sound t0 s) : Sound t0
    (control s q i b) := by
  unfold control
  try dsimp only
  repeat' (first
    | (intro _) | (with_reducible exact Sound.refl _) | (with_reducible assumption) | (with_reducible apply Sound.ite)
    | (with_reducible apply recDone_sound) | (with_reducible apply putRec_sound)
    | (with_reducible apply countLate_sound) | (simp only [sound_upd]) | (with_reducible apply Sound.foldl)
    | (with_reducible apply Sound.foldr) | (split))

theorem recRow_sound {t0 : State} {s : State} {q : Nat} {kind : List Byte → Bool}
    {start : State → Nat → List Byte → State} (hg : ∀ {t0 t : State} {i : Nat} {b : List Byte}, Sound t0 t → Sound t0
    (start t i b)) (hk : Sound t0 s) : Sound t0 (recRow s q kind start) := by
  unfold recRow
  try dsimp only
  repeat' (first
    | (intro _) | (with_reducible exact Sound.refl _) | (with_reducible assumption) | (with_reducible apply Sound.ite)
    | (with_reducible apply settleQ_sound) | (with_reducible apply putRec_sound)
    | (with_reducible apply queueErr_sound) | (with_reducible apply hg) | (simp only [sound_upd])
    | (with_reducible apply Sound.foldl) | (with_reducible apply Sound.foldr) | (split))

theorem coreRecRow_sound {t0 : State} {s : State} {q : Nat} {cls : Nat} (hk : Sound t0 s) : Sound t0
    (coreRecRow s q cls) := by
  unfold coreRecRow
  try dsimp only
  repeat' (first
    | (intro _) | (with_reducible exact Sound.refl _) | (with_reducible assumption) | (with_reducible apply Sound.ite)
    | (with_reducible apply recRow_sound) | (with_reducible apply assign_sound) | (simp only [sound_upd])
    | (with_reducible apply Sound.foldl) | (with_reducible apply Sound.foldr) | (split))

theorem dropInbox_keeps {t0 : State} {s : State} {x : Nat} {i : Nat} (hk : Keeps t0 s) : Keeps t0 (dropInbox s x i) := by
  unfold dropInbox
  try dsimp only
  repeat' (first
    | (intro _) | (with_reducible exact Keeps.refl _) | (with_reducible assumption) | (with_reducible apply Keeps.ite)
    | (with_reducible apply modIod_keeps) | (simp only [keeps_upd]) | (with_reducible apply Keeps.foldl)
    | (with_reducible apply Keeps.foldr) | (split))

theorem dropInbox_sound {t0 : State} {s : State} {x : Nat} {i : Nat} (hk : Sound t0 s) : Sound t0
    (dropInbox s x i) := hk.trans (dropInbox_keeps (Keeps.refl _)).sound

theorem refuseAway_keeps {t0 : State} {s : State} {x : Nat} {q : Nat} {r : Nat} {m : Msg}
    (hk : Keeps t0 s) : Keeps t0 (refuseAway s x q r m) := by
  unfold refuseAway
  try dsimp only
  repeat' (first
    | (intro _) | (with_reducible exact Keeps.refl _) | (with_reducible assumption) | (with_reducible apply Keeps.ite)
    | (with_reducible apply sendCtlAs_keeps) | (with_reducible apply linkErr_keeps) | (simp only [keeps_upd])
    | (with_reducible apply Keeps.foldl) | (with_reducible apply Keeps.foldr) | (split))

theorem refuseAway_sound {t0 : State} {s : State} {x : Nat} {q : Nat} {r : Nat} {m : Msg}
    (hk : Sound t0 s) : Sound t0 (refuseAway s x q r m) := hk.trans (refuseAway_keeps (Keeps.refl _)).sound

theorem refuseMsg_keeps {t0 : State} {s : State} {x : Nat} {p : Nat} {code : Nat} {m : Msg}
    (hk : Keeps t0 s) : Keeps t0 (refuseMsg s x p code m) := by
  unfold refuseMsg
  try dsimp only
  repeat' (first
    | (intro _) | (with_reducible exact Keeps.refl _) | (with_reducible assumption) | (with_reducible apply Keeps.ite)
    | (with_reducible apply answer_keeps) | (with_reducible apply linkErr_keeps) | (simp only [keeps_upd])
    | (with_reducible apply Keeps.foldl) | (with_reducible apply Keeps.foldr) | (split))

theorem refuseMsg_sound {t0 : State} {s : State} {x : Nat} {p : Nat} {code : Nat} {m : Msg}
    (hk : Sound t0 s) : Sound t0 (refuseMsg s x p code m) := hk.trans (refuseMsg_keeps (Keeps.refl _)).sound

theorem arrive_gone {t0 : State} {s : State} {x i : Nat} {im : InMsg} {t : State} (e : arrive s x i im = .gone t)
    (hk : Keeps t0 s) : Keeps t0 t := by
  unfold arrive at e
  try dsimp only at e
  repeat' split at e
  all_goals first | (cases e; done) | cases e
  all_goals repeat' (first
    | (with_reducible exact hk) | (with_reducible apply Keeps.ite) | (with_reducible apply dropInbox_keeps)
    | (with_reducible apply lostCtl_keeps) | (with_reducible apply refuseAway_keeps)
    | (with_reducible apply modIod_keeps) | (with_reducible apply refuseMsg_keeps)
    | (with_reducible apply toInbox_keeps) | (with_reducible apply outPort_keeps (by assumption))
    | (simp only [keeps_upd])
    | split)

theorem arrive_gone_sound {t0 s t : State} {x i : Nat} {im : InMsg} (e : arrive s x i im = .gone t)
    (hk : Sound t0 s) : Sound t0 t :=
  hk.trans (arrive_gone e (Keeps.refl _)).sound

theorem ctlRow_keeps {t0 : State} {s : State} {x : Nat} {k : Nat} {which : Nat} {take : State → Nat → Msg → State}
    (hg : ∀ {t0 t : State} {p : Nat} {m : Msg}, Keeps t0 t → Keeps t0 (take t p m)) (hk : Keeps t0 s) : Keeps t0
    (ctlRow s x k which take) := by
  unfold ctlRow
  try dsimp only
  repeat' (first
    | (intro _) | (with_reducible exact Keeps.refl _) | (with_reducible assumption) | (with_reducible apply Keeps.ite)
    | (with_reducible apply dropInbox_keeps) | (with_reducible apply lostCtl_keeps)
    | (with_reducible apply refuseAway_keeps) | (with_reducible apply modIod_keeps)
    | (with_reducible apply refuseMsg_keeps) | (with_reducible apply toInbox_keeps)
    | (with_reducible apply outPort_keeps (by assumption)) | (with_reducible apply hg) | (simp only [keeps_upd])
    | (with_reducible apply Keeps.foldl) | (with_reducible apply Keeps.foldr)
    | (with_reducible apply arrive_gone (by assumption)) | (with_reducible apply arrive_gone_sound (by assumption))
    | (split))

theorem ctlRow_sound {t0 : State} {s : State} {x : Nat} {k : Nat} {which : Nat} {take : State → Nat → Msg → State}
    (hg : ∀ {t0 t : State} {p : Nat} {m : Msg}, Sound t0 t → Sound t0 (take t p m)) (hk : Sound t0 s) : Sound t0
    (ctlRow s x k which take) := by
  unfold ctlRow
  try dsimp only
  repeat' (first
    | (intro _) | (with_reducible exact Sound.refl _) | (with_reducible assumption) | (with_reducible apply Sound.ite)
    | (with_reducible apply dropInbox_sound) | (with_reducible apply lostCtl_sound)
    | (with_reducible apply refuseAway_sound) | (with_reducible apply modIod_sound)
    | (with_reducible apply refuseMsg_sound) | (with_reducible apply toInbox_sound)
    | (with_reducible apply outPort_sound (by assumption)) | (with_reducible apply hg) | (simp only [sound_upd])
    | (with_reducible apply Sound.foldl) | (with_reducible apply Sound.foldr)
    | (with_reducible apply arrive_gone (by assumption)) | (with_reducible apply arrive_gone_sound (by assumption))
    | (split))

theorem streamCtl_keeps {t0 : State} {s : State} {x : Nat} {q : Nat} {kind : Nat} {sseq : Nat} {m : Msg}
    (hk : Keeps t0 s) : Keeps t0 (streamCtl s x q kind sseq m) := by
  unfold streamCtl
  try dsimp only
  repeat' (first
    | (intro _) | (with_reducible exact Keeps.refl _) | (with_reducible assumption) | (with_reducible apply Keeps.ite)
    | (with_reducible apply sendCtl_keeps) | (simp only [keeps_upd]) | (with_reducible apply Keeps.foldl)
    | (with_reducible apply Keeps.foldr) | (split))

theorem streamCtl_sound {t0 : State} {s : State} {x : Nat} {q : Nat} {kind : Nat} {sseq : Nat} {m : Msg}
    (hk : Sound t0 s) : Sound t0 (streamCtl s x q kind sseq m) := hk.trans (streamCtl_keeps (Keeps.refl _)).sound

theorem delivered_keeps {t0 : State} {s : State} {x : Nat} {q : Nat} {m : Msg} (hk : Keeps t0 s) : Keeps t0
    (delivered s x q m) := by
  unfold delivered
  try dsimp only
  repeat' (first
    | (intro _) | (with_reducible exact Keeps.refl _) | (with_reducible assumption) | (with_reducible apply Keeps.ite)
    | (with_reducible apply putLand_keeps) | (with_reducible apply toInbox_keeps)
    | (with_reducible apply streamCtl_keeps) | (simp only [keeps_upd]) | (with_reducible apply Keeps.foldl)
    | (with_reducible apply Keeps.foldr) | (split))

theorem delivered_sound {t0 : State} {s : State} {x : Nat} {q : Nat} {m : Msg} (hk : Sound t0 s) : Sound t0
    (delivered s x q m) := hk.trans (delivered_keeps (Keeps.refl _)).sound

theorem setCont_keeps {t0 : State} {s : State} {x : Nat} {q : Nat} {m : Msg} {c : Option (Nat × List Byte)}
    (hk : Keeps t0 s) : Keeps t0 (setCont s x q m c) := by
  unfold setCont
  try dsimp only
  repeat' (first
    | (intro _) | (with_reducible exact Keeps.refl _) | (with_reducible assumption) | (with_reducible apply Keeps.ite)
    | (with_reducible apply putLand_keeps) | (simp only [keeps_upd]) | (with_reducible apply Keeps.foldl)
    | (with_reducible apply Keeps.foldr) | (split))

theorem setCont_sound {t0 : State} {s : State} {x : Nat} {q : Nat} {m : Msg} {c : Option (Nat × List Byte)}
    (hk : Sound t0 s) : Sound t0 (setCont s x q m c) := hk.trans (setCont_keeps (Keeps.refl _)).sound

theorem exInc_sound {t0 : State} {s : State} {q : Nat} {off : Nat} {n : Nat} (hk : Sound t0 s) : Sound t0
    (exInc s q off n) := by
  unfold exInc
  try dsimp only
  repeat' (first
    | (intro _) | (with_reducible exact Sound.refl _) | (with_reducible assumption) | (with_reducible apply Sound.ite)
    | (with_reducible apply exPut_sound) | (simp only [sound_upd]) | (with_reducible apply Sound.foldl)
    | (with_reducible apply Sound.foldr) | (split))

theorem openRound_sound {t0 : State} {s : State} {q : Nat} {g : Nat} (hk : Sound t0 s) : Sound t0 (openRound s q g) := by
  unfold openRound
  try dsimp only
  repeat' (first
    | (intro _) | (with_reducible exact Sound.refl _) | (with_reducible assumption) | (with_reducible apply Sound.ite)
    | (with_reducible apply exPut_sound) | (with_reducible apply modQueue_sound) | (simp only [sound_upd])
    | (with_reducible apply Sound.foldl) | (with_reducible apply Sound.foldr) | (with_reducible exact id)
    | (with_reducible apply writeByte_wf) | (with_reducible apply writeBytes_wf)
    | (with_reducible apply writeCells_wf) | (with_reducible apply writeLe_wf) | (with_reducible apply clearRange_wf)
    | (with_reducible apply loseRange_wf) | (with_reducible apply clearHole_wf) | (with_reducible apply coverHole_wf)
    | (with_reducible apply writeTile_wf) | (with_reducible apply reduceAt_wf) | (with_reducible apply putVals_wf)
    | (with_reducible apply wf_foldl) | (split) | (with_reducible apply Sound.updMem))

theorem enterRound_held {t0 : State} {s : State} {q g : Nat} {t : State} (e : enterRound s q g = .held t)
    (hk : Sound t0 s) : Sound t0 t := by
  unfold enterRound at e
  try dsimp only at e
  repeat' split at e
  all_goals first | (cases e; done) | cases e
  all_goals repeat' (first
    | (with_reducible exact hk) | (with_reducible apply Sound.ite) | (with_reducible apply openRound_sound)
    | (with_reducible apply closeRound_sound) | (with_reducible apply modQueue_sound) | (simp only [sound_upd])
    | split)

theorem enterRound_current {t0 : State} {s : State} {q g : Nat} {t : State} (e : enterRound s q g = .current t)
    (hk : Sound t0 s) : Sound t0 t := by
  unfold enterRound at e
  try dsimp only at e
  repeat' split at e
  all_goals first | (cases e; done) | cases e
  all_goals repeat' (first
    | (with_reducible exact hk) | (with_reducible apply Sound.ite) | (with_reducible apply openRound_sound)
    | (with_reducible apply closeRound_sound) | (with_reducible apply modQueue_sound) | (simp only [sound_upd])
    | split)

theorem endMark_sound {t0 : State} {s : State} {q : Nat} {g : Nat} {r : Nat} (hk : Sound t0 s) : Sound t0
    (endMark s q g r).1 := by
  unfold endMark
  try dsimp only
  repeat' (first
    | (intro _) | (with_reducible exact Sound.refl _) | (with_reducible assumption) | (with_reducible apply Sound.ite)
    | (with_reducible apply flushGroup_sound) | (with_reducible apply exInc_sound)
    | (with_reducible apply exPut_sound) | (with_reducible apply closeRound_sound)
    | (with_reducible apply openRound_sound) | (with_reducible apply modQueue_sound) | (simp only [sound_upd])
    | (with_reducible apply Sound.foldl) | (with_reducible apply Sound.foldr)
    | (with_reducible apply enterRound_held (by assumption))
    | (with_reducible apply enterRound_current (by assumption)) | (split))

theorem endMark_sound' {t0 : State} {s : State} {q : Nat} {g : Nat} {r : Nat} {t : State} {y : Bool}
    (he : endMark s q g r = (t, y)) (hk : Sound t0 s) : Sound t0 t := by
  have k := endMark_sound (s := s) (q := q) (g := g) (r := r) hk
  rw [he] at k
  exact k

theorem admitRow_held {t0 : State} {s : State} {q g r : Nat} {t : State} (e : admitRow s q g r = .held t)
    (hk : Sound t0 s) : Sound t0 t := by
  unfold admitRow at e
  try dsimp only at e
  repeat' split at e
  all_goals first | (cases e; done) | cases e
  all_goals repeat' (first
    | (with_reducible exact hk) | (with_reducible apply Sound.ite)
    | (with_reducible apply enterRound_held (by assumption))
    | (with_reducible apply enterRound_current (by assumption)) | (with_reducible apply flushGroup_sound)
    | (with_reducible apply exInc_sound) | (with_reducible apply exPut_sound) | (with_reducible apply modQueue_sound)
    | (simp only [sound_upd])
    | split)

theorem admitRow_drop {t0 : State} {s : State} {q g r : Nat} {t : State} {k : Nat} (e : admitRow s q g r = .drop t k)
    (hk : Sound t0 s) : Sound t0 t := by
  unfold admitRow at e
  try dsimp only at e
  repeat' split at e
  all_goals first | (cases e; done) | cases e
  all_goals repeat' (first
    | (with_reducible exact hk) | (with_reducible apply Sound.ite)
    | (with_reducible apply enterRound_held (by assumption))
    | (with_reducible apply enterRound_current (by assumption)) | (with_reducible apply flushGroup_sound)
    | (with_reducible apply exInc_sound) | (with_reducible apply exPut_sound) | (with_reducible apply modQueue_sound)
    | (simp only [sound_upd])
    | split)

theorem admitRow_slot {t0 : State} {s : State} {q g r : Nat} {t : State} {k : Nat} (e : admitRow s q g r = .slot t k)
    (hk : Sound t0 s) : Sound t0 t := by
  unfold admitRow at e
  try dsimp only at e
  repeat' split at e
  all_goals first | (cases e; done) | cases e
  all_goals repeat' (first
    | (with_reducible exact hk) | (with_reducible apply Sound.ite)
    | (with_reducible apply enterRound_held (by assumption))
    | (with_reducible apply enterRound_current (by assumption)) | (with_reducible apply flushGroup_sound)
    | (with_reducible apply exInc_sound) | (with_reducible apply exPut_sound) | (with_reducible apply modQueue_sound)
    | (simp only [sound_upd])
    | split)

theorem dispatchMessage_sound {t0 : State} {s : State} {x : Nat} {p : Nat} {m : Msg} (hk : Sound t0 s) : Sound t0
    (dispatchMessage s x p m).1 := by
  unfold dispatchMessage
  try dsimp only
  repeat' (first
    | (intro _) | (with_reducible exact Sound.refl _) | (with_reducible assumption) | (with_reducible apply Sound.ite)
    | (with_reducible apply setCont_sound) | (with_reducible apply sendNotice_sound)
    | (with_reducible apply iodTouch_sound) | (with_reducible apply endMark_sound)
    | (with_reducible apply endMark_sound' (by assumption)) | (with_reducible apply flushGroup_sound)
    | (with_reducible apply exInc_sound) | (with_reducible apply exPut_sound) | (with_reducible apply modQueue_sound)
    | (simp only [sound_upd]) | (with_reducible apply Sound.foldl) | (with_reducible apply Sound.foldr)
    | (with_reducible exact id) | (with_reducible apply writeByte_wf) | (with_reducible apply writeBytes_wf)
    | (with_reducible apply writeCells_wf) | (with_reducible apply writeLe_wf) | (with_reducible apply clearRange_wf)
    | (with_reducible apply loseRange_wf) | (with_reducible apply clearHole_wf) | (with_reducible apply coverHole_wf)
    | (with_reducible apply writeTile_wf) | (with_reducible apply reduceAt_wf) | (with_reducible apply putVals_wf)
    | (with_reducible apply wf_foldl) | (with_reducible apply admitRow_held (by assumption))
    | (with_reducible apply admitRow_drop (by assumption)) | (with_reducible apply admitRow_slot (by assumption))
    | (split) | (with_reducible apply Sound.updMem))

theorem dispatchMessage_sound' {t0 : State} {s : State} {x : Nat} {p : Nat} {m : Msg} {t : State} {y : Bool}
    (he : dispatchMessage s x p m = (t, y)) (hk : Sound t0 s) : Sound t0 t := by
  have k := dispatchMessage_sound (s := s) (x := x) (p := p) (m := m) hk
  rw [he] at k
  exact k

theorem moveOpen_sound {t0 : State} {s : State} {n : Nat} {f : Flight} (hk : Sound t0 s) : Sound t0 (moveOpen s n f) := by
  unfold moveOpen
  try dsimp only
  repeat' (first
    | (intro _) | (with_reducible exact Sound.refl _) | (with_reducible assumption) | (with_reducible apply Sound.ite)
    | (with_reducible apply moveRefused_sound) | (with_reducible apply linkErr_sound)
    | (with_reducible apply setFlight_sound) | (with_reducible apply openXfer_sound (by assumption))
    | (with_reducible apply openXfer_sound' (by assumption)) | (with_reducible apply moveReads_sound)
    | (with_reducible apply bumpMove_sound) | (with_reducible apply countPath_sound) | (simp only [sound_upd])
    | (with_reducible apply Sound.foldl) | (with_reducible apply Sound.foldr) | (split))

theorem movesOpen_sound {t0 : State} {s : State} {n : Nat} (hk : Sound t0 s) : Sound t0 (movesOpen s n) := by
  unfold movesOpen
  try dsimp only
  repeat' (first
    | (intro _) | (with_reducible exact Sound.refl _) | (with_reducible assumption) | (with_reducible apply Sound.ite)
    | (with_reducible apply moveOpen_sound) | (simp only [sound_upd]) | (with_reducible apply Sound.foldl)
    | (with_reducible apply Sound.foldr) | (split))

theorem moveR_sound {t0 : State} {s : State} {n : Nat} {m : Met} (hk : Sound t0 s) : Sound t0 (moveR s n m) := by
  unfold moveR
  try dsimp only
  repeat' (first
    | (intro _) | (with_reducible exact Sound.refl _) | (with_reducible assumption) | (with_reducible apply Sound.ite)
    | (with_reducible apply coreRowMet_sound) | (with_reducible apply movesOpen_sound) | (simp only [sound_upd])
    | (with_reducible apply Sound.foldl) | (with_reducible apply Sound.foldr) | (split))

theorem execMoveR_sound {core : Nat} {met : Met} {s : State} {t0 : State}
    (he : execMoveR core met s = .next t0) : Sound s t0 := by
  unfold execMoveR at he
  first | (replace he := Host.Outcome.next.inj he; subst he) | cases he
  repeat' (first
    | (intro _) | (with_reducible exact Sound.refl _) | (with_reducible assumption) | (with_reducible apply Sound.ite)
    | (with_reducible apply moveR_sound) | (simp only [sound_upd]) | (with_reducible apply Sound.foldl)
    | (with_reducible apply Sound.foldr) | (split))

theorem remoteComplete_keeps {t0 : State} {s : State} {n : Nat} {f : Flight} (hk : Keeps t0 s) : Keeps t0
    (remoteComplete s n f) := by
  unfold remoteComplete
  try dsimp only
  repeat' (first
    | (intro _) | (with_reducible exact Keeps.refl _) | (with_reducible assumption) | (with_reducible apply Keeps.ite)
    | (with_reducible apply complete_keeps) | (with_reducible apply releaseFence_keeps)
    | (with_reducible apply applyInc_keeps) | (with_reducible apply modIod_keeps) | (simp only [keeps_upd])
    | (with_reducible apply Keeps.foldl) | (with_reducible apply Keeps.foldr) | (split))

theorem remoteComplete_sound {t0 : State} {s : State} {n : Nat} {f : Flight} (hk : Sound t0 s) : Sound t0
    (remoteComplete s n f) := hk.trans (remoteComplete_keeps (Keeps.refl _)).sound

theorem rmtPump_keeps {t0 : State} {a0 : Nat} {a1 : State} {a2 : Nat} (hk : Keeps t0 a1) : Keeps t0 (rmtPump a0 a1 a2) := by
  induction a0 generalizing a1 a2 with
  | zero =>
    rw [rmtPump]
    try dsimp only
    repeat' (first
      | (intro _) | (with_reducible exact Keeps.refl _) | (with_reducible assumption)
      | (with_reducible apply Keeps.ite) | (with_reducible apply countPath_keeps)
      | (with_reducible apply modIod_keeps) | (with_reducible apply openXfer_keeps (by assumption))
      | (with_reducible apply openXfer_keeps' (by assumption)) | (simp only [keeps_upd])
      | (with_reducible apply Keeps.foldl) | (with_reducible apply Keeps.foldr) | (split))
  | succ k ih =>
    rw [rmtPump]
    try dsimp only
    repeat' (first
      | (intro _) | (with_reducible exact Keeps.refl _) | (with_reducible assumption)
      | (with_reducible apply Keeps.ite) | (with_reducible apply countPath_keeps)
      | (with_reducible apply modIod_keeps) | (with_reducible apply openXfer_keeps (by assumption))
      | (with_reducible apply openXfer_keeps' (by assumption)) | (with_reducible apply ih) | (simp only [keeps_upd])
      | (with_reducible apply Keeps.foldl) | (with_reducible apply Keeps.foldr) | (split))

theorem rmtPump_sound {t0 : State} {a0 : Nat} {a1 : State} {a2 : Nat} (hk : Sound t0 a1) : Sound t0
    (rmtPump a0 a1 a2) := hk.trans (rmtPump_keeps (Keeps.refl _)).sound

theorem moveEnd_sound {t0 : State} {s : State} {n : Nat} {which : Nat} {es : List (Nat × Ecc)} {o : FlitOut}
    (hk : Sound t0 s) : Sound t0 (moveEnd s n which es o) := by
  unfold moveEnd
  try dsimp only
  repeat' (first
    | (intro _) | (with_reducible exact Sound.refl _) | (with_reducible assumption) | (with_reducible apply Sound.ite)
    | (with_reducible apply hbmMeets_sound) | (with_reducible apply flitMeets_sound)
    | (with_reducible apply remoteComplete_sound) | (with_reducible apply moveComplete_sound)
    | (with_reducible apply rmtPump_sound) | (simp only [sound_upd]) | (with_reducible apply Sound.foldl)
    | (with_reducible apply Sound.foldr) | (split))

theorem execMoveComplete_sound {core : Nat} {which : Nat} {ecc : List (Nat × Ecc)} {flit : FlitOut} {s : State}
    {t0 : State} (he : execMoveComplete core which ecc flit s = .next t0) : Sound s t0 := by
  unfold execMoveComplete at he
  first | (replace he := Host.Outcome.next.inj he; subst he) | cases he
  repeat' (first
    | (intro _) | (with_reducible exact Sound.refl _) | (with_reducible assumption) | (with_reducible apply Sound.ite)
    | (with_reducible apply moveEnd_sound) | (simp only [sound_upd]) | (with_reducible apply Sound.foldl)
    | (with_reducible apply Sound.foldr) | (split))

theorem waitMetIssue_sound {t0 : State} {s : State} {n : Nat} (hk : Sound t0 s) : Sound t0 (waitMetIssue s n) := by
  unfold waitMetIssue
  try dsimp only
  repeat' (first
    | (intro _) | (with_reducible exact Sound.refl _) | (with_reducible assumption) | (with_reducible apply Sound.ite)
    | (with_reducible apply counterWaitMet_sound) | (with_reducible apply movesOpen_sound) | (simp only [sound_upd])
    | (with_reducible apply Sound.foldl) | (with_reducible apply Sound.foldr) | (split))

theorem execCounterWaitMet_sound {core : Nat} {s : State} {t0 : State}
    (he : execCounterWaitMet core s = .next t0) : Sound s t0 := by
  unfold execCounterWaitMet at he
  first | (replace he := Host.Outcome.next.inj he; subst he) | cases he
  repeat' (first
    | (intro _) | (with_reducible exact Sound.refl _) | (with_reducible assumption) | (with_reducible apply Sound.ite)
    | (with_reducible apply waitMetIssue_sound) | (simp only [sound_upd]) | (with_reducible apply Sound.foldl)
    | (with_reducible apply Sound.foldr) | (split))

theorem tileRun_sound {t0 : State} {s : State} {q : Nat} (hk : Sound t0 s) : Sound t0 (tileRun s q) := by
  unfold tileRun
  try dsimp only
  repeat' (first
    | (intro _) | (with_reducible exact Sound.refl _) | (with_reducible assumption) | (with_reducible apply Sound.ite)
    | (with_reducible apply coreRecRow_sound) | (simp only [sound_upd]) | (with_reducible apply Sound.foldl)
    | (with_reducible apply Sound.foldr) | (split))

theorem fenceRecord_sound {t0 : State} {s : State} {q : Nat} (hk : Sound t0 s) : Sound t0 (fenceRecord s q) := by
  unfold fenceRecord
  try dsimp only
  repeat' (first
    | (intro _) | (with_reducible exact Sound.refl _) | (with_reducible assumption) | (with_reducible apply Sound.ite)
    | (with_reducible apply recRow_sound) | (with_reducible apply control_sound) | (simp only [sound_upd])
    | (with_reducible apply Sound.foldl) | (with_reducible apply Sound.foldr) | (split))

theorem waitCount_sound {t0 : State} {s : State} {q : Nat} (hk : Sound t0 s) : Sound t0 (waitCount s q) := by
  unfold waitCount
  try dsimp only
  repeat' (first
    | (intro _) | (with_reducible exact Sound.refl _) | (with_reducible assumption) | (with_reducible apply Sound.ite)
    | (with_reducible apply recRow_sound) | (with_reducible apply control_sound) | (simp only [sound_upd])
    | (with_reducible apply Sound.foldl) | (with_reducible apply Sound.foldr) | (split))

theorem wakeMask_keeps {t0 : State} {s : State} {g : Nat} {m : Nat} (hk : Keeps t0 s) : Keeps t0 (wakeMask s g m) := by
  unfold wakeMask
  try dsimp only
  repeat' (first
    | (intro _) | (with_reducible exact Keeps.refl _) | (with_reducible assumption) | (with_reducible apply Keeps.ite)
    | (with_reducible apply requestWake_keeps) | (simp only [keeps_upd]) | (with_reducible apply Keeps.foldl)
    | (with_reducible apply Keeps.foldr) | (split))

theorem wakeMask_sound {t0 : State} {s : State} {g : Nat} {m : Nat} (hk : Sound t0 s) : Sound t0
    (wakeMask s g m) := hk.trans (wakeMask_keeps (Keeps.refl _)).sound

theorem launchRecord_sound {t0 : State} {s : State} {q : Nat} (hk : Sound t0 s) : Sound t0 (launchRecord s q) := by
  unfold launchRecord
  try dsimp only
  repeat' (first
    | (intro _) | (with_reducible exact Sound.refl _) | (with_reducible assumption) | (with_reducible apply Sound.ite)
    | (with_reducible apply recRow_sound) | (with_reducible apply control_sound)
    | (with_reducible apply wakeMask_sound) | (simp only [sound_upd]) | (with_reducible apply Sound.foldl)
    | (with_reducible apply Sound.foldr) | (split))

theorem recFailed_sound {t0 : State} {s : State} {q : Nat} {i : Nat} {code : Nat} (hk : Sound t0 s) : Sound t0
    (recFailed s q i code) := by
  unfold recFailed
  try dsimp only
  repeat' (first
    | (intro _) | (with_reducible exact Sound.refl _) | (with_reducible assumption) | (with_reducible apply Sound.ite)
    | (with_reducible apply queueErr_sound) | (with_reducible apply settleQ_sound)
    | (with_reducible apply setRecSt_sound) | (simp only [sound_upd]) | (with_reducible apply Sound.foldl)
    | (with_reducible apply Sound.foldr) | (split))

theorem signalAdd_sound {t0 : State} {s : State} {q : Nat} (hk : Sound t0 s) : Sound t0 (signalAdd s q) := by
  unfold signalAdd
  try dsimp only
  repeat' (first
    | (intro _) | (with_reducible exact Sound.refl _) | (with_reducible assumption) | (with_reducible apply Sound.ite)
    | (with_reducible apply recRow_sound) | (with_reducible apply putRec_sound)
    | (with_reducible apply countLate_sound) | (with_reducible apply recFailed_sound)
    | (with_reducible apply queueErr_sound) | (with_reducible apply recDone_sound)
    | (with_reducible apply modQueue_sound) | (with_reducible apply selAdd_sound) | (simp only [sound_upd])
    | (with_reducible apply Sound.foldl) | (with_reducible apply Sound.foldr) | (split))

theorem seqWrite_sound {t0 : State} {s : State} {q : Nat} (hk : Sound t0 s) : Sound t0 (seqWrite s q) := by
  unfold seqWrite
  try dsimp only
  repeat' (first
    | (intro _) | (with_reducible exact Sound.refl _) | (with_reducible assumption) | (with_reducible apply Sound.ite)
    | (with_reducible apply recRow_sound) | (with_reducible apply control_sound) | (simp only [sound_upd])
    | (with_reducible apply Sound.foldl) | (with_reducible apply Sound.foldr) | (split))

theorem seStart_keeps {t0 : State} {s : State} {i : Nat} {kind : List Byte → Bool} {start : State → SeCmd → State}
    (hg : ∀ {t0 t : State} {c : SeCmd}, Keeps t0 t → Keeps t0 (start t c)) (hk : Keeps t0 s) : Keeps t0
    (seStart s i kind start) := by
  unfold seStart
  try dsimp only
  repeat' (first
    | (intro _) | (with_reducible exact Keeps.refl _) | (with_reducible assumption) | (with_reducible apply Keeps.ite)
    | (with_reducible apply startExit_keeps) | (with_reducible apply hg) | (simp only [keeps_upd])
    | (with_reducible apply Keeps.foldl) | (with_reducible apply Keeps.foldr) | (split))

theorem seStart_sound {t0 : State} {s : State} {i : Nat} {kind : List Byte → Bool} {start : State → SeCmd → State}
    (hg : ∀ {t0 t : State} {c : SeCmd}, Sound t0 t → Sound t0 (start t c)) (hk : Sound t0 s) : Sound t0
    (seStart s i kind start) := by
  unfold seStart
  try dsimp only
  repeat' (first
    | (intro _) | (with_reducible exact Sound.refl _) | (with_reducible assumption) | (with_reducible apply Sound.ite)
    | (with_reducible apply startExit_sound) | (with_reducible apply hg) | (simp only [sound_upd])
    | (with_reducible apply Sound.foldl) | (with_reducible apply Sound.foldr) | (split))

theorem seForward_sound {t0 : State} {s : State} {q : Nat} {kind : List Byte → Bool} (hk : Sound t0 s) : Sound t0
    (seForward s q kind) := by
  unfold seForward
  try dsimp only
  repeat' (first
    | (intro _) | (with_reducible exact Sound.refl _) | (with_reducible assumption) | (with_reducible apply Sound.ite)
    | (with_reducible apply recRow_sound) | (with_reducible apply modSe_sound) | (with_reducible apply putRec_sound)
    | (simp only [sound_upd]) | (with_reducible apply Sound.foldl) | (with_reducible apply Sound.foldr) | (split))

theorem seRow_sound {t0 : State} {s : State} {q : Nat} {kind : List Byte → Bool}
    {start : State → Nat → SeCmd → State} (hg : ∀ {t0 t : State} {i : Nat} {c : SeCmd}, Sound t0 t → Sound t0
    (start t i c)) (hk : Sound t0 s) : Sound t0 (seRow s q kind start) := by
  unfold seRow
  try dsimp only
  repeat' (first
    | (intro _) | (with_reducible exact Sound.refl _) | (with_reducible assumption) | (with_reducible apply Sound.ite)
    | (with_reducible apply recRow_sound) | (with_reducible apply seStart_sound)
    | (with_reducible apply seForward_sound) | (with_reducible apply hg) | (simp only [sound_upd])
    | (with_reducible apply Sound.foldl) | (with_reducible apply Sound.foldr) | (split))

theorem seArith_sound {t0 : State} {s : State} {i : Nat} {c : SeCmd} (hk : Sound t0 s) : Sound t0 (seArith s i c) := by
  unfold seArith
  try dsimp only
  repeat' (first
    | (intro _) | (with_reducible exact Sound.refl _) | (with_reducible assumption) | (with_reducible apply Sound.ite)
    | (with_reducible apply seFail_sound) | (with_reducible apply resetByFault_sound) | (simp only [sound_upd])
    | (with_reducible apply Sound.foldl) | (with_reducible apply Sound.foldr) | (split))

theorem startLocal_sound {t0 : State} {chk : Chk} {s : State} {i : Nat} {c : SeCmd} (hk : Sound t0 s) : Sound t0
    (startLocal chk s i c) := by
  unfold startLocal
  try dsimp only
  repeat' (first
    | (intro _) | (with_reducible exact Sound.refl _) | (with_reducible assumption) | (with_reducible apply Sound.ite)
    | (with_reducible apply seFail_sound) | (with_reducible apply hbmTouch_sound)
    | (with_reducible apply seArith_sound) | (with_reducible apply putCmd_sound) | (simp only [sound_upd])
    | (with_reducible apply Sound.foldl) | (with_reducible apply Sound.foldr) | (split))

theorem execSeTranspose_sound {queue : Nat} {s : State} {t0 : State}
    (he : execSeTranspose queue s = .next t0) : Sound s t0 := by
  unfold execSeTranspose at he
  first | (replace he := Host.Outcome.next.inj he; subst he) | cases he
  repeat' (first
    | (intro _) | (with_reducible exact Sound.refl _) | (with_reducible assumption) | (with_reducible apply Sound.ite)
    | (with_reducible apply seRow_sound) | (with_reducible apply startLocal_sound) | (simp only [sound_upd])
    | (with_reducible apply Sound.foldl) | (with_reducible apply Sound.foldr) | (split))

theorem execSignPack_sound {queue : Nat} {chk : Chk} {s : State} {t0 : State}
    (he : execSignPack queue chk s = .next t0) : Sound s t0 := by
  unfold execSignPack at he
  first | (replace he := Host.Outcome.next.inj he; subst he) | cases he
  repeat' (first
    | (intro _) | (with_reducible exact Sound.refl _) | (with_reducible assumption) | (with_reducible apply Sound.ite)
    | (with_reducible apply seRow_sound) | (with_reducible apply startLocal_sound) | (simp only [sound_upd])
    | (with_reducible apply Sound.foldl) | (with_reducible apply Sound.foldr) | (split))

theorem execTopkPack_sound {queue : Nat} {chk : Chk} {s : State} {t0 : State}
    (he : execTopkPack queue chk s = .next t0) : Sound s t0 := by
  unfold execTopkPack at he
  first | (replace he := Host.Outcome.next.inj he; subst he) | cases he
  repeat' (first
    | (intro _) | (with_reducible exact Sound.refl _) | (with_reducible assumption) | (with_reducible apply Sound.ite)
    | (with_reducible apply seRow_sound) | (with_reducible apply startLocal_sound) | (simp only [sound_upd])
    | (with_reducible apply Sound.foldl) | (with_reducible apply Sound.foldr) | (split))

theorem startReduce_keeps {t0 : State} {s : State} {i : Nat} {c : SeCmd} (hk : Keeps t0 s) : Keeps t0
    (startReduce s i c) := by
  unfold startReduce
  try dsimp only
  repeat' (first
    | (intro _) | (with_reducible exact Keeps.refl _) | (with_reducible assumption) | (with_reducible apply Keeps.ite)
    | (with_reducible apply seFail_keeps) | (with_reducible apply grpErr_keeps)
    | (with_reducible apply hbmTouch_keeps) | (with_reducible apply dropSlot_keeps)
    | (with_reducible apply sendPump_keeps) | (with_reducible apply modSe_keeps)
    | (with_reducible apply dropCmd_keeps) | (simp only [keeps_upd]) | (with_reducible apply Keeps.foldl)
    | (with_reducible apply Keeps.foldr) | (split))

theorem startReduce_sound {t0 : State} {s : State} {i : Nat} {c : SeCmd} (hk : Sound t0 s) : Sound t0
    (startReduce s i c) := hk.trans (startReduce_keeps (Keeps.refl _)).sound

theorem execReduce_sound {queue : Nat} {s : State} {t0 : State} (he : execReduce queue s = .next t0) : Sound s t0 := by
  unfold execReduce at he
  first | (replace he := Host.Outcome.next.inj he; subst he) | cases he
  repeat' (first
    | (intro _) | (with_reducible exact Sound.refl _) | (with_reducible assumption) | (with_reducible apply Sound.ite)
    | (with_reducible apply seRow_sound) | (with_reducible apply startReduce_sound) | (simp only [sound_upd])
    | (with_reducible apply Sound.foldl) | (with_reducible apply Sound.foldr) | (split))

theorem startCkpt_keeps {t0 : State} {s : State} {i : Nat} {c : SeCmd} (hk : Keeps t0 s) : Keeps t0 (startCkpt s i c) := by
  unfold startCkpt
  try dsimp only
  repeat' (first
    | (intro _) | (with_reducible exact Keeps.refl _) | (with_reducible assumption) | (with_reducible apply Keeps.ite)
    | (with_reducible apply seFail_keeps) | (with_reducible apply linkErr_keeps)
    | (with_reducible apply ckptPump_keeps) | (with_reducible apply putCmd_keeps) | (simp only [keeps_upd])
    | (with_reducible apply Keeps.foldl) | (with_reducible apply Keeps.foldr) | (split))

theorem startCkpt_sound {t0 : State} {s : State} {i : Nat} {c : SeCmd} (hk : Sound t0 s) : Sound t0
    (startCkpt s i c) := hk.trans (startCkpt_keeps (Keeps.refl _)).sound

theorem execCkptPush_sound {queue : Nat} {s : State} {t0 : State} (he : execCkptPush queue s = .next t0) : Sound s t0 := by
  unfold execCkptPush at he
  first | (replace he := Host.Outcome.next.inj he; subst he) | cases he
  repeat' (first
    | (intro _) | (with_reducible exact Sound.refl _) | (with_reducible assumption) | (with_reducible apply Sound.ite)
    | (with_reducible apply seRow_sound) | (with_reducible apply startCkpt_sound) | (simp only [sound_upd])
    | (with_reducible apply Sound.foldl) | (with_reducible apply Sound.foldr) | (split))

theorem execCkptPull_sound {queue : Nat} {s : State} {t0 : State} (he : execCkptPull queue s = .next t0) : Sound s t0 := by
  unfold execCkptPull at he
  first | (replace he := Host.Outcome.next.inj he; subst he) | cases he
  repeat' (first
    | (intro _) | (with_reducible exact Sound.refl _) | (with_reducible assumption) | (with_reducible apply Sound.ite)
    | (with_reducible apply seRow_sound) | (with_reducible apply startCkpt_sound) | (simp only [sound_upd])
    | (with_reducible apply Sound.foldl) | (with_reducible apply Sound.foldr) | (split))

theorem seFinish_keeps {t0 : State} {s : State} {i : Nat} {c : SeCmd} (hk : Keeps t0 s) : Keeps t0 (seFinish s i c) := by
  unfold seFinish
  try dsimp only
  repeat' (first
    | (intro _) | (with_reducible exact Keeps.refl _) | (with_reducible assumption) | (with_reducible apply Keeps.ite)
    | (with_reducible apply seSignals_keeps) | (with_reducible apply dropCmd_keeps) | (simp only [keeps_upd])
    | (with_reducible apply Keeps.foldl) | (with_reducible apply Keeps.foldr) | (split))

theorem seFinish_sound {t0 : State} {s : State} {i : Nat} {c : SeCmd} (hk : Sound t0 s) : Sound t0
    (seFinish s i c) := hk.trans (seFinish_keeps (Keeps.refl _)).sound

theorem startCtrSet_keeps {t0 : State} {s : State} {i : Nat} {c : SeCmd} (hk : Keeps t0 s) : Keeps t0
    (startCtrSet s i c) := by
  unfold startCtrSet
  try dsimp only
  repeat' (first
    | (intro _) | (with_reducible exact Keeps.refl _) | (with_reducible assumption) | (with_reducible apply Keeps.ite)
    | (with_reducible apply seFail_keeps) | (with_reducible apply seFinish_keeps) | (with_reducible apply modSe_keeps)
    | (simp only [keeps_upd]) | (with_reducible apply Keeps.foldl) | (with_reducible apply Keeps.foldr) | (split))

theorem startCtrSet_sound {t0 : State} {s : State} {i : Nat} {c : SeCmd} (hk : Sound t0 s) : Sound t0
    (startCtrSet s i c) := hk.trans (startCtrSet_keeps (Keeps.refl _)).sound

theorem execCtrSet_sound {queue : Nat} {s : State} {t0 : State} (he : execCtrSet queue s = .next t0) : Sound s t0 := by
  unfold execCtrSet at he
  first | (replace he := Host.Outcome.next.inj he; subst he) | cases he
  repeat' (first
    | (intro _) | (with_reducible exact Sound.refl _) | (with_reducible assumption) | (with_reducible apply Sound.ite)
    | (with_reducible apply seRow_sound) | (with_reducible apply startCtrSet_sound) | (simp only [sound_upd])
    | (with_reducible apply Sound.foldl) | (with_reducible apply Sound.foldr) | (split))

theorem linkEngineMove_sound {t0 : State} {s : State} {q : Nat} (hk : Sound t0 s) : Sound t0 (linkEngineMove s q) := by
  unfold linkEngineMove
  try dsimp only
  repeat' (first
    | (intro _) | (with_reducible exact Sound.refl _) | (with_reducible assumption) | (with_reducible apply Sound.ite)
    | (with_reducible apply recRow_sound) | (with_reducible apply linkStart_sound)
    | (with_reducible apply modIod_sound) | (with_reducible apply putRec_sound) | (simp only [sound_upd])
    | (with_reducible apply Sound.foldl) | (with_reducible apply Sound.foldr) | (split))

theorem execLinkEngineMove_sound {queue : Nat} {s : State} {t0 : State}
    (he : execLinkEngineMove queue s = .next t0) : Sound s t0 := by
  unfold execLinkEngineMove at he
  first | (replace he := Host.Outcome.next.inj he; subst he) | cases he
  repeat' (first
    | (intro _) | (with_reducible exact Sound.refl _) | (with_reducible assumption) | (with_reducible apply Sound.ite)
    | (with_reducible apply linkEngineMove_sound) | (simp only [sound_upd]) | (with_reducible apply Sound.foldl)
    | (with_reducible apply Sound.foldr) | (split))

theorem transposeEffect_sound {t0 : State} {s : State} {c : SeCmd} (hk : Sound t0 s) : Sound t0 (transposeEffect s c) := by
  unfold transposeEffect
  try dsimp only
  repeat' (first
    | (intro _) | (with_reducible exact Sound.refl _) | (with_reducible assumption) | (with_reducible apply Sound.ite)
    | (with_reducible apply hbmTouch_sound) | (simp only [sound_upd]) | (with_reducible apply Sound.foldl)
    | (with_reducible apply Sound.foldr) | (with_reducible exact id) | (with_reducible apply writeByte_wf)
    | (with_reducible apply writeBytes_wf) | (with_reducible apply writeCells_wf) | (with_reducible apply writeLe_wf)
    | (with_reducible apply clearRange_wf) | (with_reducible apply loseRange_wf) | (with_reducible apply clearHole_wf)
    | (with_reducible apply coverHole_wf) | (with_reducible apply writeTile_wf) | (with_reducible apply reduceAt_wf)
    | (with_reducible apply putVals_wf) | (with_reducible apply wf_foldl) | (split)
    | (with_reducible apply Sound.updMem))

theorem packEffect_sound {t0 : State} {s : State} {i : Nat} {c : SeCmd} (hk : Sound t0 s) : Sound t0 (packEffect s i c) := by
  unfold packEffect
  try dsimp only
  repeat' (first
    | (intro _) | (with_reducible exact Sound.refl _) | (with_reducible assumption) | (with_reducible apply Sound.ite)
    | (with_reducible apply hbmTouch_sound) | (with_reducible apply raiseEvt_sound)
    | (with_reducible apply modSe_sound) | (simp only [sound_upd]) | (with_reducible apply Sound.foldl)
    | (with_reducible apply Sound.foldr) | (with_reducible exact id) | (with_reducible apply writeByte_wf)
    | (with_reducible apply writeBytes_wf) | (with_reducible apply writeCells_wf) | (with_reducible apply writeLe_wf)
    | (with_reducible apply clearRange_wf) | (with_reducible apply loseRange_wf) | (with_reducible apply clearHole_wf)
    | (with_reducible apply coverHole_wf) | (with_reducible apply writeTile_wf) | (with_reducible apply reduceAt_wf)
    | (with_reducible apply putVals_wf) | (with_reducible apply wf_foldl) | (split)
    | (with_reducible apply Sound.updMem))

theorem seEnd_sound {t0 : State} {s : State} {i : Nat} {c : SeCmd} (hk : Sound t0 s) : Sound t0 (seEnd s i c) := by
  unfold seEnd
  try dsimp only
  repeat' (first
    | (intro _) | (with_reducible exact Sound.refl _) | (with_reducible assumption) | (with_reducible apply Sound.ite)
    | (with_reducible apply seFinish_sound) | (with_reducible apply transposeEffect_sound)
    | (with_reducible apply packEffect_sound) | (with_reducible apply seFail_sound) | (simp only [sound_upd])
    | (with_reducible apply Sound.foldl) | (with_reducible apply Sound.foldr) | (split))

theorem seCommandComplete_sound {t0 : State} {s : State} {i : Nat} {u : Nat} {es : List (Nat × Ecc)}
    (hk : Sound t0 s) : Sound t0 (seCommandComplete s i u es) := by
  unfold seCommandComplete
  try dsimp only
  repeat' (first
    | (intro _) | (with_reducible exact Sound.refl _) | (with_reducible assumption) | (with_reducible apply Sound.ite)
    | (with_reducible apply hbmMeets_sound) | (with_reducible apply hbmTouch_sound)
    | (with_reducible apply seEnd_sound) | (simp only [sound_upd]) | (with_reducible apply Sound.foldl)
    | (with_reducible apply Sound.foldr) | (split))

theorem seStoreRead_sound {t0 : State} {s : State} {i : Nat} {u : Nat} {e : Ecc} {es : List (Nat × Ecc)}
    (hk : Sound t0 s) : Sound t0 (seStoreRead s i u e es) := by
  unfold seStoreRead
  try dsimp only
  repeat' (first
    | (intro _) | (with_reducible exact Sound.refl _) | (with_reducible assumption) | (with_reducible apply Sound.ite)
    | (with_reducible apply seCommandComplete_sound) | (with_reducible apply correctedBlotter_sound)
    | (with_reducible apply countCorrected_sound) | (with_reducible apply seArith_sound) | (simp only [sound_upd])
    | (with_reducible apply Sound.foldl) | (with_reducible apply Sound.foldr) | (split))

theorem execSeCommandComplete_sound {site : Nat} {unit : Nat} {ecc : Ecc} {hbm : List (Nat × Ecc)} {s : State}
    {t0 : State} (he : execSeCommandComplete site unit ecc hbm s = .next t0) : Sound s t0 := by
  unfold execSeCommandComplete at he
  first | (replace he := Host.Outcome.next.inj he; subst he) | cases he
  repeat' (first
    | (intro _) | (with_reducible exact Sound.refl _) | (with_reducible assumption) | (with_reducible apply Sound.ite)
    | (with_reducible apply seStoreRead_sound) | (simp only [sound_upd]) | (with_reducible apply Sound.foldl)
    | (with_reducible apply Sound.foldr) | (split))

theorem sendReturn_sound {t0 : State} {s : State} {x : Nat} {p : Nat} {t : List Byte} {row : List Byte}
    (hk : Sound t0 s) : Sound t0 (sendReturn s x p t row) := by
  unfold sendReturn
  try dsimp only
  repeat' (first
    | (intro _) | (with_reducible exact Sound.refl _) | (with_reducible assumption) | (with_reducible apply Sound.ite)
    | (with_reducible apply staleIn_sound) | (with_reducible apply applyReturn_sound)
    | (with_reducible apply iodTouch_sound) | (with_reducible apply sendMsgs_sound) | (simp only [sound_upd])
    | (with_reducible apply Sound.foldl) | (with_reducible apply Sound.foldr) | (with_reducible exact id)
    | (with_reducible apply writeByte_wf) | (with_reducible apply writeBytes_wf)
    | (with_reducible apply writeCells_wf) | (with_reducible apply writeLe_wf) | (with_reducible apply clearRange_wf)
    | (with_reducible apply loseRange_wf) | (with_reducible apply clearHole_wf) | (with_reducible apply coverHole_wf)
    | (with_reducible apply writeTile_wf) | (with_reducible apply reduceAt_wf) | (with_reducible apply putVals_wf)
    | (with_reducible apply wf_foldl) | (split) | (with_reducible apply Sound.updMem))

theorem schedAging_keeps {t0 : State} {s : State} {q : Nat} (hk : Keeps t0 s) : Keeps t0 (schedAging s q) := by
  unfold schedAging
  try dsimp only
  repeat' (first
    | (intro _) | (with_reducible exact Keeps.refl _) | (with_reducible assumption) | (with_reducible apply Keeps.ite)
    | (with_reducible apply modCluster_keeps) | (with_reducible apply setQueue_keeps) | (simp only [keeps_upd])
    | (with_reducible apply Keeps.foldl) | (with_reducible apply Keeps.foldr) | (split))

theorem schedAging_sound {t0 : State} {s : State} {q : Nat} (hk : Sound t0 s) : Sound t0 (schedAging s q) := hk.trans
    (schedAging_keeps (Keeps.refl _)).sound

theorem execReduceSlotAvailable_keeps {site : Nat} {s : State} {t0 : State}
    (he : execReduceSlotAvailable site s = .next t0) : Keeps s t0 := by
  unfold execReduceSlotAvailable at he
  first | (replace he := Host.Outcome.next.inj he; subst he) | cases he
  repeat' (first
    | (intro _) | (with_reducible exact Keeps.refl _) | (with_reducible assumption) | (with_reducible apply Keeps.ite)
    | (with_reducible apply seStart_keeps) | (with_reducible apply startReduce_keeps) | (simp only [keeps_upd])
    | (with_reducible apply Keeps.foldl) | (with_reducible apply Keeps.foldr) | (split))

theorem execContribLanded_keeps {site : Nat} {group : Nat} {bucket : Nat} {rank : Nat} {s : State} {t0 : State}
    (he : execContribLanded site group bucket rank s = .next t0) : Keeps s t0 := by
  unfold execContribLanded at he
  first | (replace he := Host.Outcome.next.inj he; subst he) | cases he
  repeat' (first
    | (intro _) | (with_reducible exact Keeps.refl _) | (with_reducible assumption) | (with_reducible apply Keeps.ite)
    | (with_reducible apply contribLanded_keeps) | (simp only [keeps_upd]) | (with_reducible apply Keeps.foldl)
    | (with_reducible apply Keeps.foldr) | (split))

theorem logItems_sound {t0 : State} {s : State} {i : Nat} {p : Nat} {r : RSlot} {k : Nat} {l : List (Nat × Bool)}
    (hk : Sound t0 s) :
    Sound t0 (logItems s i p r k l).1 := by
  induction l generalizing s k with
  | nil => exact hk
  | cons it rest ih =>
    rw [logItems]
    dsimp only
    split
    · exact ih (ringWrite_sound hk)
    · exact hk

theorem logItems_sound' {t0 : State} {s : State} {i : Nat} {p : Nat} {r : RSlot} {k : Nat} {l : List (Nat × Bool)}
    {t : State}
    {y : List (Nat × Bool)} (e : logItems s i p r k l = (t, y)) (hk : Sound t0 s) : Sound t0 t := by
  have k := logItems_sound (i := i) (p := p) (r := r) (k := k) (l := l) hk
  rw [e] at k
  exact k

theorem passBegin_sound {t0 : State} {s : State} {rd : List Nat} {es : List (Nat × Ecc)} {next : State → State}
    (hg : ∀ {t0 t : State}, Sound t0 t → Sound t0 (next t)) (hk : Sound t0 s) : Sound t0 (passBegin s rd es next) := by
  unfold passBegin
  try dsimp only
  repeat' (first
    | (intro _) | (with_reducible exact Sound.refl _) | (with_reducible assumption) | (with_reducible apply Sound.ite)
    | (with_reducible apply hbmMeets_sound) | (with_reducible apply hbmTouch_sound) | (with_reducible apply hg)
    | (simp only [sound_upd]) | (with_reducible apply Sound.foldl) | (with_reducible apply Sound.foldr) | (split))

theorem startPass_sound {t0 : State} {s : State} {i : Nat} {g : Nat} {b : Nat} {chk : Chk} {es : List (Nat × Ecc)}
    (hk : Sound t0 s) : Sound t0 (startPass s i g b chk es) := by
  unfold startPass
  try dsimp only
  repeat' (first
    | (intro _) | (with_reducible exact Sound.refl _) | (with_reducible assumption) | (with_reducible apply Sound.ite)
    | (with_reducible apply putSlot_sound) | (with_reducible apply logSettle_sound)
    | (with_reducible apply logSettle_sound' (by assumption)) | (with_reducible apply tryClose_sound)
    | (with_reducible apply redFail_sound) | (with_reducible apply dropSends_sound)
    | (with_reducible apply dropSlot_sound) | (with_reducible apply resetByFault_sound)
    | (with_reducible apply logItems_sound) | (with_reducible apply logItems_sound' (by assumption))
    | (with_reducible apply raiseEvt_sound) | (with_reducible apply passBegin_sound) | (simp only [sound_upd])
    | (with_reducible apply Sound.foldl) | (with_reducible apply Sound.foldr) | (split))

theorem execReducePass_sound {site : Nat} {group : Nat} {bucket : Nat} {chk : Chk} {hbm : List (Nat × Ecc)}
    {s : State} {t0 : State} (he : execReducePass site group bucket chk hbm s = .next t0) : Sound s t0 := by
  unfold execReducePass at he
  first | (replace he := Host.Outcome.next.inj he; subst he) | cases he
  repeat' (first
    | (intro _) | (with_reducible exact Sound.refl _) | (with_reducible assumption) | (with_reducible apply Sound.ite)
    | (with_reducible apply startPass_sound) | (simp only [sound_upd]) | (with_reducible apply Sound.foldl)
    | (with_reducible apply Sound.foldr) | (split))

theorem execSillageResume_sound {site : Nat} {group : Nat} {bucket : Nat} {s : State} {t0 : State}
    (he : execSillageResume site group bucket s = .next t0) : Sound s t0 := by
  unfold execSillageResume at he
  first | (replace he := Host.Outcome.next.inj he; subst he) | cases he
  repeat' (first
    | (intro _) | (with_reducible exact Sound.refl _) | (with_reducible assumption) | (with_reducible apply Sound.ite)
    | (with_reducible apply startPass_sound) | (simp only [sound_upd]) | (with_reducible apply Sound.foldl)
    | (with_reducible apply Sound.foldr) | (split))

theorem passDone_sound {t0 : State} {s : State} {i : Nat} {g : Nat} {b : Nat} (hk : Sound t0 s) : Sound t0
    (passDone s i g b) := by
  unfold passDone
  repeat' (first
    | (intro _) | (with_reducible exact Sound.refl _) | (with_reducible assumption) | (with_reducible apply Sound.ite)
    | (with_reducible apply redFail_sound) | (with_reducible apply dropSlot_sound)
    | (with_reducible apply raiseEvt_sound) | (with_reducible apply addAll_sound)
    | (with_reducible apply tryClose_sound) | (with_reducible apply modGrpPage_sound) | (simp only [sound_upd])
    | (with_reducible apply Sound.foldl) | (with_reducible apply Sound.foldr) | (split) | (dsimp only))

theorem execReducePassDone_sound {site : Nat} {group : Nat} {bucket : Nat} {s : State} {t0 : State}
    (he : execReducePassDone site group bucket s = .next t0) : Sound s t0 := by
  unfold execReducePassDone at he
  first | (replace he := Host.Outcome.next.inj he; subst he) | cases he
  repeat' (first
    | (intro _) | (with_reducible exact Sound.refl _) | (with_reducible assumption) | (with_reducible apply Sound.ite)
    | (with_reducible apply passDone_sound) | (simp only [sound_upd]) | (with_reducible apply Sound.foldl)
    | (with_reducible apply Sound.foldr) | (split))

theorem scrubCodeword_sound {t0 : State} {s : State} {i : Nat} {e : Ecc} (hk : Sound t0 s) : Sound t0
    (scrubCodeword s i e) := by
  unfold scrubCodeword
  try dsimp only
  repeat' (first
    | (intro _) | (with_reducible exact Sound.refl _) | (with_reducible assumption) | (with_reducible apply Sound.ite)
    | (with_reducible apply setSe_sound) | (with_reducible apply raiseEvt_sound)
    | (with_reducible apply eccResult_sound) | (simp only [sound_upd]) | (with_reducible apply Sound.foldl)
    | (with_reducible apply Sound.foldr) | (split))

theorem execScrubCodeword_sound {site : Nat} {ecc : Ecc} {s : State} {t0 : State}
    (he : execScrubCodeword site ecc s = .next t0) : Sound s t0 := by
  unfold execScrubCodeword at he
  first | (replace he := Host.Outcome.next.inj he; subst he) | cases he
  repeat' (first
    | (intro _) | (with_reducible exact Sound.refl _) | (with_reducible assumption) | (with_reducible apply Sound.ite)
    | (with_reducible apply scrubCodeword_sound) | (simp only [sound_upd]) | (with_reducible apply Sound.foldl)
    | (with_reducible apply Sound.foldr) | (split))

theorem landStream_keeps {t0 : State} {s : State} {x : Nat} {i : Nat} {q : Nat} {m : Msg}
    {deliver : State → State × Bool} (hg : ∀ {t0 t : State}, Keeps t0 t → Keeps t0 (deliver t).1)
    (hk : Keeps t0 s) : Keeps t0 (landStream s x i q m deliver) := by
  unfold landStream
  try dsimp only
  repeat' (first
    | (intro _) | (with_reducible exact Keeps.refl _) | (with_reducible assumption) | (with_reducible apply Keeps.ite)
    | (with_reducible apply dropInbox_keeps) | (with_reducible apply answerBusy_keeps)
    | (with_reducible apply answer_keeps) | (with_reducible apply refuseMsg_keeps)
    | (with_reducible apply putLand_keeps) | (with_reducible apply delivered_keeps)
    | (with_reducible apply streamCtl_keeps) | (with_reducible apply modIod_keeps) | (with_reducible apply hg)
    | (simp only [keeps_upd]) | (with_reducible apply Keeps.foldl) | (with_reducible apply Keeps.foldr) | (split))

theorem landStream_sound {t0 : State} {s : State} {x : Nat} {i : Nat} {q : Nat} {m : Msg}
    {deliver : State → State × Bool} (hg : ∀ {t0 t : State}, Sound t0 t → Sound t0 (deliver t).1)
    (hk : Sound t0 s) : Sound t0 (landStream s x i q m deliver) := by
  unfold landStream
  try dsimp only
  repeat' (first
    | (intro _) | (with_reducible exact Sound.refl _) | (with_reducible assumption) | (with_reducible apply Sound.ite)
    | (with_reducible apply dropInbox_sound) | (with_reducible apply answerBusy_sound)
    | (with_reducible apply answer_sound) | (with_reducible apply refuseMsg_sound)
    | (with_reducible apply putLand_sound) | (with_reducible apply delivered_sound)
    | (with_reducible apply streamCtl_sound) | (with_reducible apply modIod_sound) | (with_reducible apply hg)
    | (simp only [sound_upd]) | (with_reducible apply Sound.foldl) | (with_reducible apply Sound.foldr) | (split))

theorem streamRow_keeps {t0 : State} {s : State} {x : Nat} {k : Nat} {which : Nat}
    {deliver : State → Nat → Msg → State × Bool} (hg : ∀ {t0 t : State} {p : Nat} {m : Msg}, Keeps t0 t → Keeps t0
    (deliver t p m).1) (hk : Keeps t0 s) : Keeps t0 (streamRow s x k which deliver) := by
  unfold streamRow
  try dsimp only
  repeat' (first
    | (intro _) | (with_reducible exact Keeps.refl _) | (with_reducible assumption) | (with_reducible apply Keeps.ite)
    | (with_reducible apply landStream_keeps) | (with_reducible apply ctlRow_keeps) | (with_reducible apply hg)
    | (simp only [keeps_upd]) | (with_reducible apply Keeps.foldl) | (with_reducible apply Keeps.foldr)
    | (with_reducible apply arrive_gone (by assumption)) | (with_reducible apply arrive_gone_sound (by assumption))
    | (split))

theorem streamRow_sound {t0 : State} {s : State} {x : Nat} {k : Nat} {which : Nat}
    {deliver : State → Nat → Msg → State × Bool} (hg : ∀ {t0 t : State} {p : Nat} {m : Msg}, Sound t0 t → Sound t0
    (deliver t p m).1) (hk : Sound t0 s) : Sound t0 (streamRow s x k which deliver) := by
  unfold streamRow
  try dsimp only
  repeat' (first
    | (intro _) | (with_reducible exact Sound.refl _) | (with_reducible assumption) | (with_reducible apply Sound.ite)
    | (with_reducible apply landStream_sound) | (with_reducible apply ctlRow_sound) | (with_reducible apply hg)
    | (simp only [sound_upd]) | (with_reducible apply Sound.foldl) | (with_reducible apply Sound.foldr)
    | (with_reducible apply arrive_gone (by assumption)) | (with_reducible apply arrive_gone_sound (by assumption))
    | (split))

theorem execDispatchMessage_sound {die : Nat} {which : Nat} {s : State} {t0 : State}
    (he : execDispatchMessage die which s = .next t0) : Sound s t0 := by
  unfold execDispatchMessage at he
  first | (replace he := Host.Outcome.next.inj he; subst he) | cases he
  repeat' (first
    | (intro _) | (with_reducible exact Sound.refl _) | (with_reducible assumption) | (with_reducible apply Sound.ite)
    | (with_reducible apply streamRow_sound) | (with_reducible apply dispatchMessage_sound)
    | (with_reducible apply dispatchMessage_sound' (by assumption)) | (simp only [sound_upd])
    | (with_reducible apply Sound.foldl) | (with_reducible apply Sound.foldr) | (split))

theorem execEndMarkMessage_sound {die : Nat} {which : Nat} {s : State} {t0 : State}
    (he : execEndMarkMessage die which s = .next t0) : Sound s t0 := by
  unfold execEndMarkMessage at he
  first | (replace he := Host.Outcome.next.inj he; subst he) | cases he
  repeat' (first
    | (intro _) | (with_reducible exact Sound.refl _) | (with_reducible assumption) | (with_reducible apply Sound.ite)
    | (with_reducible apply streamRow_sound) | (with_reducible apply endMark_sound)
    | (with_reducible apply endMark_sound' (by assumption)) | (simp only [sound_upd])
    | (with_reducible apply Sound.foldl) | (with_reducible apply Sound.foldr) | (split))

theorem roundAfterDrain_sound {t0 : State} {s : State} {q : Nat} (hk : Sound t0 s) : Sound t0 (roundAfterDrain s q) := by
  unfold roundAfterDrain
  try dsimp only
  repeat' (first
    | (intro _) | (with_reducible exact Sound.refl _) | (with_reducible assumption) | (with_reducible apply Sound.ite)
    | (with_reducible apply flushGroup_sound) | (with_reducible apply openRound_sound) | (simp only [sound_upd])
    | (with_reducible apply Sound.foldl) | (with_reducible apply Sound.foldr) | (split))

theorem execRoundOpenAfterDrain_sound {queue : Nat} {s : State} {t0 : State}
    (he : execRoundOpenAfterDrain queue s = .next t0) : Sound s t0 := by
  unfold execRoundOpenAfterDrain at he
  first | (replace he := Host.Outcome.next.inj he; subst he) | cases he
  repeat' (first
    | (intro _) | (with_reducible exact Sound.refl _) | (with_reducible assumption) | (with_reducible apply Sound.ite)
    | (with_reducible apply roundAfterDrain_sound) | (simp only [sound_upd]) | (with_reducible apply Sound.foldl)
    | (with_reducible apply Sound.foldr) | (split))

theorem returnMessage_sound {t0 : State} {s : State} {x : Nat} {q : Nat} {m : Msg} (hk : Sound t0 s) : Sound t0
    (returnMessage s x q m) := by
  unfold returnMessage
  try dsimp only
  repeat' (first
    | (intro _) | (with_reducible exact Sound.refl _) | (with_reducible assumption) | (with_reducible apply Sound.ite)
    | (with_reducible apply setCont_sound) | (with_reducible apply staleIn_sound)
    | (with_reducible apply iodTouch_sound) | (with_reducible apply applyReturn_sound) | (simp only [sound_upd])
    | (with_reducible apply Sound.foldl) | (with_reducible apply Sound.foldr) | (with_reducible exact id)
    | (with_reducible apply writeByte_wf) | (with_reducible apply writeBytes_wf)
    | (with_reducible apply writeCells_wf) | (with_reducible apply writeLe_wf) | (with_reducible apply clearRange_wf)
    | (with_reducible apply loseRange_wf) | (with_reducible apply clearHole_wf) | (with_reducible apply coverHole_wf)
    | (with_reducible apply writeTile_wf) | (with_reducible apply reduceAt_wf) | (with_reducible apply putVals_wf)
    | (with_reducible apply wf_foldl) | (split) | (with_reducible apply Sound.updMem))

theorem execReturnMessage_sound {die : Nat} {which : Nat} {s : State} {t0 : State}
    (he : execReturnMessage die which s = .next t0) : Sound s t0 := by
  unfold execReturnMessage at he
  first | (replace he := Host.Outcome.next.inj he; subst he) | cases he
  repeat' (first
    | (intro _) | (with_reducible exact Sound.refl _) | (with_reducible assumption) | (with_reducible apply Sound.ite)
    | (with_reducible apply streamRow_sound) | (with_reducible apply returnMessage_sound) | (simp only [sound_upd])
    | (with_reducible apply Sound.foldl) | (with_reducible apply Sound.foldr) | (split))

theorem execDropMessage_sound {die : Nat} {which : Nat} {s : State} {t0 : State}
    (he : execDropMessage die which s = .next t0) : Sound s t0 := by
  unfold execDropMessage at he
  first | (replace he := Host.Outcome.next.inj he; subst he) | cases he
  repeat' (first
    | (intro _) | (with_reducible exact Sound.refl _) | (with_reducible assumption) | (with_reducible apply Sound.ite)
    | (with_reducible apply streamRow_sound) | (with_reducible apply applyDrop_sound) | (simp only [sound_upd])
    | (with_reducible apply Sound.foldl) | (with_reducible apply Sound.foldr) | (split))

theorem execPortTrainStart_keeps {port : Nat} {signal : Bool} {s : State} {t0 : State}
    (he : execPortTrainStart port signal s = .next t0) : Keeps s t0 := by
  unfold execPortTrainStart at he
  first | (replace he := Host.Outcome.next.inj he; subst he) | cases he
  repeat' (first
    | (intro _) | (with_reducible exact Keeps.refl _) | (with_reducible assumption) | (with_reducible apply Keeps.ite)
    | (with_reducible apply trainStart_keeps) | (simp only [keeps_upd]) | (with_reducible apply Keeps.foldl)
    | (with_reducible apply Keeps.foldr) | (split))

theorem portDown_keeps {t0 : State} {s : State} {i : Nat} (hk : Keeps t0 s) : Keeps t0 (portDown s i) := by
  unfold portDown
  try dsimp only
  repeat' (first
    | (intro _) | (with_reducible exact Keeps.refl _) | (with_reducible assumption) | (with_reducible apply Keeps.ite)
    | (with_reducible apply raiseEvt_keeps) | (with_reducible apply modPort_keeps) | (simp only [keeps_upd])
    | (with_reducible apply Keeps.foldl) | (with_reducible apply Keeps.foldr) | (split))

theorem portDown_sound {t0 : State} {s : State} {i : Nat} (hk : Sound t0 s) : Sound t0 (portDown s i) := hk.trans
    (portDown_keeps (Keeps.refl _)).sound

theorem trainDone_keeps {t0 : State} {s : State} {i : Nat} {lanes : Nat} {peerId : Nat} {peerPort : Nat}
    (hk : Keeps t0 s) : Keeps t0 (trainDone s i lanes peerId peerPort) := by
  unfold trainDone
  try dsimp only
  repeat' (first
    | (intro _) | (with_reducible exact Keeps.refl _) | (with_reducible assumption) | (with_reducible apply Keeps.ite)
    | (with_reducible apply portDown_keeps) | (with_reducible apply recordErr_keeps)
    | (with_reducible apply setPort_keeps) | (with_reducible apply raiseEvt_keeps) | (simp only [keeps_upd])
    | (with_reducible apply Keeps.foldl) | (with_reducible apply Keeps.foldr) | (split))

theorem trainDone_sound {t0 : State} {s : State} {i : Nat} {lanes : Nat} {peerId : Nat} {peerPort : Nat}
    (hk : Sound t0 s) : Sound t0 (trainDone s i lanes peerId peerPort) := hk.trans (trainDone_keeps (Keeps.refl _)).sound

theorem execPortTrainDone_keeps {port : Nat} {lanes : Nat} {peerId : Nat} {peerPort : Nat} {s : State} {t0 : State}
    (he : execPortTrainDone port lanes peerId peerPort s = .next t0) : Keeps s t0 := by
  unfold execPortTrainDone at he
  first | (replace he := Host.Outcome.next.inj he; subst he) | cases he
  repeat' (first
    | (intro _) | (with_reducible exact Keeps.refl _) | (with_reducible assumption) | (with_reducible apply Keeps.ite)
    | (with_reducible apply trainDone_keeps) | (simp only [keeps_upd]) | (with_reducible apply Keeps.foldl)
    | (with_reducible apply Keeps.foldr) | (split))

theorem execLaneLockLoss_keeps {port : Nat} {s : State} {t0 : State}
    (he : execLaneLockLoss port s = .next t0) : Keeps s t0 := by
  unfold execLaneLockLoss at he
  first | (replace he := Host.Outcome.next.inj he; subst he) | cases he
  repeat' (first
    | (intro _) | (with_reducible exact Keeps.refl _) | (with_reducible assumption) | (with_reducible apply Keeps.ite)
    | (with_reducible apply retrain_keeps) | (simp only [keeps_upd]) | (with_reducible apply Keeps.foldl)
    | (with_reducible apply Keeps.foldr) | (split))

theorem execLaneErrorWindow_keeps {port : Nat} {overLimit : Bool} {s : State} {t0 : State}
    (he : execLaneErrorWindow port overLimit s = .next t0) : Keeps s t0 := by
  unfold execLaneErrorWindow at he
  first | (replace he := Host.Outcome.next.inj he; subst he) | cases he
  repeat' (first
    | (intro _) | (with_reducible exact Keeps.refl _) | (with_reducible assumption) | (with_reducible apply Keeps.ite)
    | (with_reducible apply retrain_keeps) | (simp only [keeps_upd]) | (with_reducible apply Keeps.foldl)
    | (with_reducible apply Keeps.foldr) | (split))

theorem putFlit_keeps {t0 : State} {s : State} {i : Nat} {p : Port} {b : List Byte} {given : List Nat}
    (hk : Keeps t0 s) : Keeps t0 (putFlit s i p b given) := by
  unfold putFlit
  try dsimp only
  repeat' (first
    | (intro _) | (with_reducible exact Keeps.refl _) | (with_reducible assumption) | (with_reducible apply Keeps.ite)
    | (with_reducible apply setPort_keeps) | (simp only [keeps_upd]) | (with_reducible apply Keeps.foldl)
    | (with_reducible apply Keeps.foldr) | (split))

theorem putFlit_sound {t0 : State} {s : State} {i : Nat} {p : Port} {b : List Byte} {given : List Nat}
    (hk : Sound t0 s) : Sound t0 (putFlit s i p b given) := hk.trans (putFlit_keeps (Keeps.refl _)).sound

theorem flitSend_keeps {t0 : State} {s : State} {i : Nat} {ca : Nat} {cb : Nat} (hk : Keeps t0 s) : Keeps t0
    (flitSend s i ca cb) := by
  unfold flitSend
  try dsimp only
  repeat' (first
    | (intro _) | (with_reducible exact Keeps.refl _) | (with_reducible assumption) | (with_reducible apply Keeps.ite)
    | (with_reducible apply putFlit_keeps) | (with_reducible apply bumpFree_keeps) | (simp only [keeps_upd])
    | (with_reducible apply Keeps.foldl) | (with_reducible apply Keeps.foldr) | (split))

theorem flitSend_sound {t0 : State} {s : State} {i : Nat} {ca : Nat} {cb : Nat} (hk : Sound t0 s) : Sound t0
    (flitSend s i ca cb) := hk.trans (flitSend_keeps (Keeps.refl _)).sound

theorem execFlitSend_keeps {port : Nat} {ca : Nat} {cb : Nat} {s : State} {t0 : State}
    (he : execFlitSend port ca cb s = .next t0) : Keeps s t0 := by
  unfold execFlitSend at he
  first | (replace he := Host.Outcome.next.inj he; subst he) | cases he
  repeat' (first
    | (intro _) | (with_reducible exact Keeps.refl _) | (with_reducible assumption) | (with_reducible apply Keeps.ite)
    | (with_reducible apply flitSend_keeps) | (simp only [keeps_upd]) | (with_reducible apply Keeps.foldl)
    | (with_reducible apply Keeps.foldr) | (split))

theorem startReplay_keeps {t0 : State} {s : State} {i : Nat} (hk : Keeps t0 s) : Keeps t0 (startReplay s i) := by
  unfold startReplay
  try dsimp only
  repeat' (first
    | (intro _) | (with_reducible exact Keeps.refl _) | (with_reducible assumption) | (with_reducible apply Keeps.ite)
    | (with_reducible apply portBlotter_keeps) | (with_reducible apply setPort_keeps)
    | (with_reducible apply retrain_keeps) | (simp only [keeps_upd]) | (with_reducible apply Keeps.foldl)
    | (with_reducible apply Keeps.foldr) | (split))

theorem startReplay_sound {t0 : State} {s : State} {i : Nat} (hk : Sound t0 s) : Sound t0
    (startReplay s i) := hk.trans (startReplay_keeps (Keeps.refl _)).sound

theorem flitIn_keeps {t0 : State} {s : State} {i : Nat} {b : List Byte} {corr : Nat} {uncorr : Nat} {failed : Bool}
    (hk : Keeps t0 s) : Keeps t0 (flitIn s i b corr uncorr failed) := by
  unfold flitIn
  try dsimp only
  repeat' (first
    | (intro _) | (with_reducible exact Keeps.refl _) | (with_reducible assumption) | (with_reducible apply Keeps.ite)
    | (with_reducible apply setPort_keeps) | (with_reducible apply portBlotter_keeps)
    | (with_reducible apply modPort_keeps) | (with_reducible apply startReplay_keeps)
    | (with_reducible apply protocolErr_keeps) | (with_reducible apply acceptFlit_keeps) | (simp only [keeps_upd])
    | (with_reducible apply Keeps.foldl) | (with_reducible apply Keeps.foldr) | (split))

theorem flitIn_sound {t0 : State} {s : State} {i : Nat} {b : List Byte} {corr : Nat} {uncorr : Nat} {failed : Bool}
    (hk : Sound t0 s) : Sound t0 (flitIn s i b corr uncorr failed) := hk.trans (flitIn_keeps (Keeps.refl _)).sound

theorem execDataFlitReceive_keeps {port : Nat} {bytes : List Byte} {corr : Nat} {uncorr : Nat} {failed : Bool}
    {s : State} {t0 : State} (he : execDataFlitReceive port bytes corr uncorr failed s = .next t0) : Keeps s t0 := by
  unfold execDataFlitReceive at he
  first | (replace he := Host.Outcome.next.inj he; subst he) | cases he
  repeat' (first
    | (intro _) | (with_reducible exact Keeps.refl _) | (with_reducible assumption) | (with_reducible apply Keeps.ite)
    | (with_reducible apply flitIn_keeps) | (simp only [keeps_upd]) | (with_reducible apply Keeps.foldl)
    | (with_reducible apply Keeps.foldr) | (split))

theorem execControlFlitReceive_keeps {port : Nat} {bytes : List Byte} {corr : Nat} {uncorr : Nat} {failed : Bool}
    {s : State} {t0 : State} (he : execControlFlitReceive port bytes corr uncorr failed s = .next t0) : Keeps s t0 := by
  unfold execControlFlitReceive at he
  first | (replace he := Host.Outcome.next.inj he; subst he) | cases he
  repeat' (first
    | (intro _) | (with_reducible exact Keeps.refl _) | (with_reducible assumption) | (with_reducible apply Keeps.ite)
    | (with_reducible apply flitIn_keeps) | (simp only [keeps_upd]) | (with_reducible apply Keeps.foldl)
    | (with_reducible apply Keeps.foldr) | (split))

theorem execNakReceive_keeps {port : Nat} {bytes : List Byte} {corr : Nat} {uncorr : Nat} {failed : Bool} {s : State}
    {t0 : State} (he : execNakReceive port bytes corr uncorr failed s = .next t0) : Keeps s t0 := by
  unfold execNakReceive at he
  first | (replace he := Host.Outcome.next.inj he; subst he) | cases he
  repeat' (first
    | (intro _) | (with_reducible exact Keeps.refl _) | (with_reducible assumption) | (with_reducible apply Keeps.ite)
    | (with_reducible apply flitIn_keeps) | (simp only [keeps_upd]) | (with_reducible apply Keeps.foldl)
    | (with_reducible apply Keeps.foldr) | (split))

theorem execReplayTimeout_keeps {port : Nat} {s : State} {t0 : State}
    (he : execReplayTimeout port s = .next t0) : Keeps s t0 := by
  unfold execReplayTimeout at he
  first | (replace he := Host.Outcome.next.inj he; subst he) | cases he
  repeat' (first
    | (intro _) | (with_reducible exact Keeps.refl _) | (with_reducible assumption) | (with_reducible apply Keeps.ite)
    | (with_reducible apply startReplay_keeps) | (simp only [keeps_upd]) | (with_reducible apply Keeps.foldl)
    | (with_reducible apply Keeps.foldr) | (split))

theorem loseXfer_sound {t0 : State} {s : State} {x : Nat} {q : Nat} {m : Msg} (hk : Sound t0 s) : Sound t0
    (loseXfer s x q m) := by
  unfold loseXfer
  try dsimp only
  repeat' (first
    | (intro _) | (with_reducible exact Sound.refl _) | (with_reducible assumption) | (with_reducible apply Sound.ite)
    | (with_reducible apply loseRanges_sound) | (simp only [sound_upd]) | (with_reducible apply Sound.foldl)
    | (with_reducible apply Sound.foldr) | (split))

theorem writeRefused_sound {t0 : State} {s : State} {x : Nat} {q : Nat} {code : Nat} {m : Msg}
    (hk : Sound t0 s) : Sound t0 (writeRefused s x q code m) := by
  unfold writeRefused
  try dsimp only
  repeat' (first
    | (intro _) | (with_reducible exact Sound.refl _) | (with_reducible assumption) | (with_reducible apply Sound.ite)
    | (with_reducible apply noteXfer_sound) | (with_reducible apply answer_sound)
    | (with_reducible apply loseXfer_sound) | (with_reducible apply endXferAt_sound) | (simp only [sound_upd])
    | (with_reducible apply Sound.foldl) | (with_reducible apply Sound.foldr) | (split))

theorem noteWrote_keeps {t0 : State} {s : State} {x : Nat} {q : Nat} {m : Msg} {a : Nat} {k : Nat}
    (hk : Keeps t0 s) : Keeps t0 (noteWrote s x q m a k) := by
  unfold noteWrote
  try dsimp only
  repeat' (first
    | (intro _) | (with_reducible exact Keeps.refl _) | (with_reducible assumption) | (with_reducible apply Keeps.ite)
    | (with_reducible apply putLand_keeps) | (simp only [keeps_upd]) | (with_reducible apply Keeps.foldl)
    | (with_reducible apply Keeps.foldr) | (split))

theorem noteWrote_sound {t0 : State} {s : State} {x : Nat} {q : Nat} {m : Msg} {a : Nat} {k : Nat}
    (hk : Sound t0 s) : Sound t0 (noteWrote s x q m a k) := hk.trans (noteWrote_keeps (Keeps.refl _)).sound

theorem inboundWrite_sound {t0 : State} {s : State} {x : Nat} {a : Nat} {bs : List Byte} (hk : Sound t0 s) : Sound t0
    (inboundWrite s x a bs) := by
  unfold inboundWrite
  try dsimp only
  repeat' (first
    | (intro _) | (with_reducible exact Sound.refl _) | (with_reducible assumption) | (with_reducible apply Sound.ite)
    | (with_reducible apply iodTouch_sound) | (with_reducible apply portWrite_sound) | (simp only [sound_upd])
    | (with_reducible apply Sound.foldl) | (with_reducible apply Sound.foldr) | (with_reducible exact id)
    | (with_reducible apply writeByte_wf) | (with_reducible apply writeBytes_wf)
    | (with_reducible apply writeCells_wf) | (with_reducible apply writeLe_wf) | (with_reducible apply clearRange_wf)
    | (with_reducible apply loseRange_wf) | (with_reducible apply clearHole_wf) | (with_reducible apply coverHole_wf)
    | (with_reducible apply writeTile_wf) | (with_reducible apply reduceAt_wf) | (with_reducible apply putVals_wf)
    | (with_reducible apply wf_foldl) | (split) | (with_reducible apply Sound.updMem))

theorem writeLast_sound {t0 : State} {s : State} {x : Nat} {q : Nat} {m : Msg} (hk : Sound t0 s) : Sound t0
    (writeLast s x q m) := by
  unfold writeLast
  try dsimp only
  repeat' (first
    | (intro _) | (with_reducible exact Sound.refl _) | (with_reducible assumption) | (with_reducible apply Sound.ite)
    | (with_reducible apply endXferAt_sound) | (with_reducible apply answer_sound)
    | (with_reducible apply loseXfer_sound) | (with_reducible apply selAdd_sound) | (simp only [sound_upd])
    | (with_reducible apply Sound.foldl) | (with_reducible apply Sound.foldr) | (split))

theorem writeMessage_sound {t0 : State} {s : State} {x : Nat} {q : Nat} {m : Msg} {o : FlitOut}
    (hk : Sound t0 s) : Sound t0 (writeMessage s x q m o) := by
  unfold writeMessage
  try dsimp only
  repeat' (first
    | (intro _) | (with_reducible exact Sound.refl _) | (with_reducible assumption) | (with_reducible apply Sound.ite)
    | (with_reducible apply endXferAt_sound) | (with_reducible apply writeRefused_sound)
    | (with_reducible apply flitMeets_sound) | (with_reducible apply noteXfer_sound)
    | (with_reducible apply noteWrote_sound) | (with_reducible apply inboundWrite_sound)
    | (with_reducible apply writeLast_sound) | (simp only [sound_upd]) | (with_reducible apply Sound.foldl)
    | (with_reducible apply Sound.foldr) | (split))

theorem execWriteMessage_sound {die : Nat} {which : Nat} {flit : FlitOut} {s : State} {t0 : State}
    (he : execWriteMessage die which flit s = .next t0) : Sound s t0 := by
  unfold execWriteMessage at he
  first | (replace he := Host.Outcome.next.inj he; subst he) | cases he
  repeat' (first
    | (intro _) | (with_reducible exact Sound.refl _) | (with_reducible assumption) | (with_reducible apply Sound.ite)
    | (with_reducible apply streamRow_sound) | (with_reducible apply writeMessage_sound) | (simp only [sound_upd])
    | (with_reducible apply Sound.foldl) | (with_reducible apply Sound.foldr) | (split))

theorem readReqMessage_keeps {t0 : State} {s : State} {x : Nat} {q : Nat} {m : Msg} (hk : Keeps t0 s) : Keeps t0
    (readReqMessage s x q m) := by
  unfold readReqMessage
  try dsimp only
  repeat' (first
    | (intro _) | (with_reducible exact Keeps.refl _) | (with_reducible assumption) | (with_reducible apply Keeps.ite)
    | (with_reducible apply answer_keeps) | (with_reducible apply sendMsgs_keeps)
    | (with_reducible apply iodTouch_keeps) | (simp only [keeps_upd]) | (with_reducible apply Keeps.foldl)
    | (with_reducible apply Keeps.foldr) | (split))

theorem readReqMessage_sound {t0 : State} {s : State} {x : Nat} {q : Nat} {m : Msg} (hk : Sound t0 s) : Sound t0
    (readReqMessage s x q m) := hk.trans (readReqMessage_keeps (Keeps.refl _)).sound

theorem execReadReqMessage_keeps {die : Nat} {which : Nat} {s : State} {t0 : State}
    (he : execReadReqMessage die which s = .next t0) : Keeps s t0 := by
  unfold execReadReqMessage at he
  first | (replace he := Host.Outcome.next.inj he; subst he) | cases he
  repeat' (first
    | (intro _) | (with_reducible exact Keeps.refl _) | (with_reducible assumption) | (with_reducible apply Keeps.ite)
    | (with_reducible apply streamRow_keeps) | (with_reducible apply readReqMessage_keeps) | (simp only [keeps_upd])
    | (with_reducible apply Keeps.foldl) | (with_reducible apply Keeps.foldr) | (split))

theorem readDataMessage_sound {t0 : State} {s : State} {q : Nat} {m : Msg} (hk : Sound t0 s) : Sound t0
    (readDataMessage s q m) := by
  unfold readDataMessage
  try dsimp only
  repeat' (first
    | (intro _) | (with_reducible exact Sound.refl _) | (with_reducible assumption) | (with_reducible apply Sound.ite)
    | (with_reducible apply ckptData_sound) | (with_reducible apply modIod_sound)
    | (with_reducible apply endXfer_sound) | (simp only [sound_upd]) | (with_reducible apply Sound.foldl)
    | (with_reducible apply Sound.foldr) | (split))

theorem execReadDataMessage_sound {die : Nat} {which : Nat} {s : State} {t0 : State}
    (he : execReadDataMessage die which s = .next t0) : Sound s t0 := by
  unfold execReadDataMessage at he
  first | (replace he := Host.Outcome.next.inj he; subst he) | cases he
  repeat' (first
    | (intro _) | (with_reducible exact Sound.refl _) | (with_reducible assumption) | (with_reducible apply Sound.ite)
    | (with_reducible apply streamRow_sound) | (with_reducible apply readDataMessage_sound) | (simp only [sound_upd])
    | (with_reducible apply Sound.foldl) | (with_reducible apply Sound.foldr) | (split))

theorem execContribMessage_sound {die : Nat} {which : Nat} {s : State} {t0 : State}
    (he : execContribMessage die which s = .next t0) : Sound s t0 := by
  unfold execContribMessage at he
  first | (replace he := Host.Outcome.next.inj he; subst he) | cases he
  repeat' (first
    | (intro _) | (with_reducible exact Sound.refl _) | (with_reducible assumption) | (with_reducible apply Sound.ite)
    | (with_reducible apply streamRow_sound) | (with_reducible apply contribMessage_sound) | (simp only [sound_upd])
    | (with_reducible apply Sound.foldl) | (with_reducible apply Sound.foldr) | (split))

theorem execDiagMessage_keeps {die : Nat} {which : Nat} {s : State} {t0 : State}
    (he : execDiagMessage die which s = .next t0) : Keeps s t0 := by
  unfold execDiagMessage at he
  first | (replace he := Host.Outcome.next.inj he; subst he) | cases he
  repeat' (first
    | (intro _) | (with_reducible exact Keeps.refl _) | (with_reducible assumption) | (with_reducible apply Keeps.ite)
    | (with_reducible apply streamRow_keeps) | (with_reducible apply sendMsgs_keeps) | (simp only [keeps_upd])
    | (with_reducible apply Keeps.foldl) | (with_reducible apply Keeps.foldr) | (split))

theorem trackerRead_sound {t0 : State} {s : State} {x : Nat} {e : Ecc} {take : State → State} (hg : ∀
    {t0 t : State}, Sound t0 t → Sound t0 (take t)) (hk : Sound t0 s) : Sound t0 (trackerRead s x e take) := by
  unfold trackerRead
  try dsimp only
  repeat' (first
    | (intro _) | (with_reducible exact Sound.refl _) | (with_reducible assumption) | (with_reducible apply Sound.ite)
    | (with_reducible apply correctedBlotter_sound) | (with_reducible apply countCorrected_sound)
    | (with_reducible apply resetsByFault_sound) | (with_reducible apply recordErr_sound) | (with_reducible apply hg)
    | (simp only [sound_upd]) | (with_reducible apply Sound.foldl) | (with_reducible apply Sound.foldr) | (split))

theorem execAckMessage_sound {die : Nat} {which : Nat} {ecc : Ecc} {s : State} {t0 : State}
    (he : execAckMessage die which ecc s = .next t0) : Sound s t0 := by
  unfold execAckMessage at he
  first | (replace he := Host.Outcome.next.inj he; subst he) | cases he
  repeat' (first
    | (intro _) | (with_reducible exact Sound.refl _) | (with_reducible assumption) | (with_reducible apply Sound.ite)
    | (with_reducible apply ctlRow_sound) | (with_reducible apply trackerRead_sound)
    | (with_reducible apply endXfer_sound) | (simp only [sound_upd]) | (with_reducible apply Sound.foldl)
    | (with_reducible apply Sound.foldr) | (split))

theorem execRefuseMessage_sound {die : Nat} {which : Nat} {s : State} {t0 : State}
    (he : execRefuseMessage die which s = .next t0) : Sound s t0 := by
  unfold execRefuseMessage at he
  first | (replace he := Host.Outcome.next.inj he; subst he) | cases he
  repeat' (first
    | (intro _) | (with_reducible exact Sound.refl _) | (with_reducible assumption) | (with_reducible apply Sound.ite)
    | (with_reducible apply ctlRow_sound) | (with_reducible apply refused_sound) | (simp only [sound_upd])
    | (with_reducible apply Sound.foldl) | (with_reducible apply Sound.foldr) | (split))

theorem execBusyMessage_keeps {die : Nat} {which : Nat} {s : State} {t0 : State}
    (he : execBusyMessage die which s = .next t0) : Keeps s t0 := by
  unfold execBusyMessage at he
  first | (replace he := Host.Outcome.next.inj he; subst he) | cases he
  repeat' (first
    | (intro _) | (with_reducible exact Keeps.refl _) | (with_reducible assumption) | (with_reducible apply Keeps.ite)
    | (with_reducible apply ctlRow_keeps) | (with_reducible apply busied_keeps) | (simp only [keeps_upd])
    | (with_reducible apply Keeps.foldl) | (with_reducible apply Keeps.foldr) | (split))

theorem streamAck_keeps {t0 : State} {s : State} {x : Nat} {q : Nat} {m : Msg} (hk : Keeps t0 s) : Keeps t0
    (streamAck s x q m) := by
  unfold streamAck
  try dsimp only
  repeat' (first
    | (intro _) | (with_reducible exact Keeps.refl _) | (with_reducible assumption) | (with_reducible apply Keeps.ite)
    | (with_reducible apply pumpAt_keeps) | (with_reducible apply modIod_keeps) | (simp only [keeps_upd])
    | (with_reducible apply Keeps.foldl) | (with_reducible apply Keeps.foldr) | (split))

theorem streamAck_sound {t0 : State} {s : State} {x : Nat} {q : Nat} {m : Msg} (hk : Sound t0 s) : Sound t0
    (streamAck s x q m) := hk.trans (streamAck_keeps (Keeps.refl _)).sound

theorem execStreamAckMessage_keeps {die : Nat} {which : Nat} {s : State} {t0 : State}
    (he : execStreamAckMessage die which s = .next t0) : Keeps s t0 := by
  unfold execStreamAckMessage at he
  first | (replace he := Host.Outcome.next.inj he; subst he) | cases he
  repeat' (first
    | (intro _) | (with_reducible exact Keeps.refl _) | (with_reducible assumption) | (with_reducible apply Keeps.ite)
    | (with_reducible apply ctlRow_keeps) | (with_reducible apply streamAck_keeps) | (simp only [keeps_upd])
    | (with_reducible apply Keeps.foldl) | (with_reducible apply Keeps.foldr) | (split))

theorem resendFrom_keeps {t0 : State} {s : State} {x : Nat} {t : SrcStream} {k : Nat} (hk : Keeps t0 s) : Keeps t0
    (resendFrom s x t k) := by
  unfold resendFrom
  try dsimp only
  repeat' (first
    | (intro _) | (with_reducible exact Keeps.refl _) | (with_reducible assumption) | (with_reducible apply Keeps.ite)
    | (with_reducible apply emit_keeps (by assumption)) | (with_reducible apply refuseLocal_keeps)
    | (with_reducible apply modIod_keeps) | (simp only [keeps_upd]) | (with_reducible apply Keeps.foldl)
    | (with_reducible apply Keeps.foldr) | (split))

theorem resendFrom_sound {t0 : State} {s : State} {x : Nat} {t : SrcStream} {k : Nat} (hk : Sound t0 s) : Sound t0
    (resendFrom s x t k) := hk.trans (resendFrom_keeps (Keeps.refl _)).sound

theorem streamNak_keeps {t0 : State} {s : State} {x : Nat} {q : Nat} {m : Msg} (hk : Keeps t0 s) : Keeps t0
    (streamNak s x q m) := by
  unfold streamNak
  try dsimp only
  repeat' (first
    | (intro _) | (with_reducible exact Keeps.refl _) | (with_reducible assumption) | (with_reducible apply Keeps.ite)
    | (with_reducible apply resendFrom_keeps) | (simp only [keeps_upd]) | (with_reducible apply Keeps.foldl)
    | (with_reducible apply Keeps.foldr) | (split))

theorem streamNak_sound {t0 : State} {s : State} {x : Nat} {q : Nat} {m : Msg} (hk : Sound t0 s) : Sound t0
    (streamNak s x q m) := hk.trans (streamNak_keeps (Keeps.refl _)).sound

theorem execStreamNakMessage_keeps {die : Nat} {which : Nat} {s : State} {t0 : State}
    (he : execStreamNakMessage die which s = .next t0) : Keeps s t0 := by
  unfold execStreamNakMessage at he
  first | (replace he := Host.Outcome.next.inj he; subst he) | cases he
  repeat' (first
    | (intro _) | (with_reducible exact Keeps.refl _) | (with_reducible assumption) | (with_reducible apply Keeps.ite)
    | (with_reducible apply ctlRow_keeps) | (with_reducible apply streamNak_keeps) | (simp only [keeps_upd])
    | (with_reducible apply Keeps.foldl) | (with_reducible apply Keeps.foldr) | (split))

theorem streamAckTimer_keeps {t0 : State} {s : State} {x : Nat} {k : Nat} (hk : Keeps t0 s) : Keeps t0
    (streamAckTimer s x k) := by
  unfold streamAckTimer
  try dsimp only
  repeat' (first
    | (intro _) | (with_reducible exact Keeps.refl _) | (with_reducible assumption) | (with_reducible apply Keeps.ite)
    | (with_reducible apply modIod_keeps) | (with_reducible apply streamCtl_keeps) | (simp only [keeps_upd])
    | (with_reducible apply Keeps.foldl) | (with_reducible apply Keeps.foldr) | (split))

theorem streamAckTimer_sound {t0 : State} {s : State} {x : Nat} {k : Nat} (hk : Sound t0 s) : Sound t0
    (streamAckTimer s x k) := hk.trans (streamAckTimer_keeps (Keeps.refl _)).sound

theorem execStreamAckTimer_keeps {die : Nat} {context : Nat} {s : State} {t0 : State}
    (he : execStreamAckTimer die context s = .next t0) : Keeps s t0 := by
  unfold execStreamAckTimer at he
  first | (replace he := Host.Outcome.next.inj he; subst he) | cases he
  repeat' (first
    | (intro _) | (with_reducible exact Keeps.refl _) | (with_reducible assumption) | (with_reducible apply Keeps.ite)
    | (with_reducible apply streamAckTimer_keeps) | (simp only [keeps_upd]) | (with_reducible apply Keeps.foldl)
    | (with_reducible apply Keeps.foldr) | (split))

theorem streamResend_sound {t0 : State} {s : State} {x : Nat} {k : Nat} (hk : Sound t0 s) : Sound t0
    (streamResend s x k) := by
  unfold streamResend
  try dsimp only
  repeat' (first
    | (intro _) | (with_reducible exact Sound.refl _) | (with_reducible assumption) | (with_reducible apply Sound.ite)
    | (with_reducible apply resendFrom_sound) | (with_reducible apply modIod_sound)
    | (with_reducible apply closeStream_sound) | (simp only [sound_upd]) | (with_reducible apply Sound.foldl)
    | (with_reducible apply Sound.foldr) | (split))

theorem execStreamResendTimeout_sound {die : Nat} {stream : Nat} {s : State} {t0 : State}
    (he : execStreamResendTimeout die stream s = .next t0) : Sound s t0 := by
  unfold execStreamResendTimeout at he
  first | (replace he := Host.Outcome.next.inj he; subst he) | cases he
  repeat' (first
    | (intro _) | (with_reducible exact Sound.refl _) | (with_reducible assumption) | (with_reducible apply Sound.ite)
    | (with_reducible apply streamResend_sound) | (simp only [sound_upd]) | (with_reducible apply Sound.foldl)
    | (with_reducible apply Sound.foldr) | (split))

theorem transferResend_keeps {t0 : State} {s : State} {x : Nat} {tag : Nat} (hk : Keeps t0 s) : Keeps t0
    (transferResend s x tag) := by
  unfold transferResend
  try dsimp only
  repeat' (first
    | (intro _) | (with_reducible exact Keeps.refl _) | (with_reducible assumption) | (with_reducible apply Keeps.ite)
    | (with_reducible apply modIod_keeps) | (with_reducible apply sendMsgs_keeps) | (simp only [keeps_upd])
    | (with_reducible apply Keeps.foldl) | (with_reducible apply Keeps.foldr) | (split))

theorem transferResend_sound {t0 : State} {s : State} {x : Nat} {tag : Nat} (hk : Sound t0 s) : Sound t0
    (transferResend s x tag) := hk.trans (transferResend_keeps (Keeps.refl _)).sound

theorem execTransferResend_keeps {die : Nat} {tag : Nat} {s : State} {t0 : State}
    (he : execTransferResend die tag s = .next t0) : Keeps s t0 := by
  unfold execTransferResend at he
  first | (replace he := Host.Outcome.next.inj he; subst he) | cases he
  repeat' (first
    | (intro _) | (with_reducible exact Keeps.refl _) | (with_reducible assumption) | (with_reducible apply Keeps.ite)
    | (with_reducible apply transferResend_keeps) | (simp only [keeps_upd]) | (with_reducible apply Keeps.foldl)
    | (with_reducible apply Keeps.foldr) | (split))

theorem execSourceStreamClose_keeps {die : Nat} {stream : Nat} {s : State} {t0 : State}
    (he : execSourceStreamClose die stream s = .next t0) : Keeps s t0 := by
  unfold execSourceStreamClose at he
  first | (replace he := Host.Outcome.next.inj he; subst he) | cases he
  repeat' (first
    | (intro _) | (with_reducible exact Keeps.refl _) | (with_reducible assumption) | (with_reducible apply Keeps.ite)
    | (with_reducible apply contextFreed_keeps) | (with_reducible apply modIod_keeps) | (simp only [keeps_upd])
    | (with_reducible apply Keeps.foldl) | (with_reducible apply Keeps.foldr) | (split))

theorem execLandingContextFree_keeps {die : Nat} {context : Nat} {s : State} {t0 : State}
    (he : execLandingContextFree die context s = .next t0) : Keeps s t0 := by
  unfold execLandingContextFree at he
  first | (replace he := Host.Outcome.next.inj he; subst he) | cases he
  repeat' (first
    | (intro _) | (with_reducible exact Keeps.refl _) | (with_reducible assumption) | (with_reducible apply Keeps.ite)
    | (with_reducible apply modIod_keeps) | (simp only [keeps_upd]) | (with_reducible apply Keeps.foldl)
    | (with_reducible apply Keeps.foldr) | (split))

theorem trackerFree_sound {t0 : State} {s : State} {x : Nat} (hk : Sound t0 s) : Sound t0 (trackerFree s x) := by
  unfold trackerFree
  try dsimp only
  repeat' (first
    | (intro _) | (with_reducible exact Sound.refl _) | (with_reducible assumption) | (with_reducible apply Sound.ite)
    | (with_reducible apply linkPump_sound) | (with_reducible apply sendPump_sound)
    | (with_reducible apply ckptPump_sound) | (with_reducible apply movesOpen_sound)
    | (with_reducible apply contextFreed_sound) | (with_reducible apply rmtPump_sound) | (simp only [sound_upd])
    | (with_reducible apply Sound.foldl) | (with_reducible apply Sound.foldr) | (split))

theorem execTrackerEntryAvailable_sound {die : Nat} {s : State} {t0 : State}
    (he : execTrackerEntryAvailable die s = .next t0) : Sound s t0 := by
  unfold execTrackerEntryAvailable at he
  first | (replace he := Host.Outcome.next.inj he; subst he) | cases he
  repeat' (first
    | (intro _) | (with_reducible exact Sound.refl _) | (with_reducible assumption) | (with_reducible apply Sound.ite)
    | (with_reducible apply trackerFree_sound) | (simp only [sound_upd]) | (with_reducible apply Sound.foldl)
    | (with_reducible apply Sound.foldr) | (split))

theorem reshardDone_keeps {t0 : State} {s : State} {gn : Nat} (hk : Keeps t0 s) : Keeps t0 (reshardDone s gn) := by
  unfold reshardDone
  try dsimp only
  repeat' (first
    | (intro _) | (with_reducible exact Keeps.refl _) | (with_reducible assumption) | (with_reducible apply Keeps.ite)
    | (with_reducible apply modGroup_keeps) | (with_reducible apply discardCarry_keeps)
    | (with_reducible apply raiseEvt_keeps) | (simp only [keeps_upd]) | (with_reducible apply Keeps.foldl)
    | (with_reducible apply Keeps.foldr) | (split))

theorem reshardDone_sound {t0 : State} {s : State} {gn : Nat} (hk : Sound t0 s) : Sound t0
    (reshardDone s gn) := hk.trans (reshardDone_keeps (Keeps.refl _)).sound

theorem execReshardDrainDone_keeps {group : Nat} {s : State} {t0 : State}
    (he : execReshardDrainDone group s = .next t0) : Keeps s t0 := by
  unfold execReshardDrainDone at he
  first | (replace he := Host.Outcome.next.inj he; subst he) | cases he
  repeat' (first
    | (intro _) | (with_reducible exact Keeps.refl _) | (with_reducible assumption) | (with_reducible apply Keeps.ite)
    | (with_reducible apply reshardDone_keeps) | (simp only [keeps_upd]) | (with_reducible apply Keeps.foldl)
    | (with_reducible apply Keeps.foldr) | (split))

theorem lateRank_keeps {t0 : State} {s : State} {i : Nat} {g : Nat} {b : Nat} (hk : Keeps t0 s) : Keeps t0
    (lateRank s i g b) := by
  unfold lateRank
  try dsimp only
  repeat' (first
    | (intro _) | (with_reducible exact Keeps.refl _) | (with_reducible assumption) | (with_reducible apply Keeps.ite)
    | (with_reducible apply modGrpPage_keeps) | (with_reducible apply putSlot_keeps)
    | (with_reducible apply raiseEvt_keeps) | (simp only [keeps_upd]) | (with_reducible apply Keeps.foldl)
    | (with_reducible apply Keeps.foldr) | (split))

theorem lateRank_sound {t0 : State} {s : State} {i : Nat} {g : Nat} {b : Nat} (hk : Sound t0 s) : Sound t0
    (lateRank s i g b) := hk.trans (lateRank_keeps (Keeps.refl _)).sound

theorem execLateRankDeadline_keeps {site : Nat} {group : Nat} {bucket : Nat} {s : State} {t0 : State}
    (he : execLateRankDeadline site group bucket s = .next t0) : Keeps s t0 := by
  unfold execLateRankDeadline at he
  first | (replace he := Host.Outcome.next.inj he; subst he) | cases he
  repeat' (first
    | (intro _) | (with_reducible exact Keeps.refl _) | (with_reducible assumption) | (with_reducible apply Keeps.ite)
    | (with_reducible apply lateRank_keeps) | (simp only [keeps_upd]) | (with_reducible apply Keeps.foldl)
    | (with_reducible apply Keeps.foldr) | (split))

theorem reservedClass_sound {t0 : State} {s : State} {q : Nat} (hk : Sound t0 s) : Sound t0 (reservedClass s q) := by
  unfold reservedClass
  try dsimp only
  repeat' (first
    | (intro _) | (with_reducible exact Sound.refl _) | (with_reducible assumption) | (with_reducible apply Sound.ite)
    | (with_reducible apply recRow_sound) | (simp only [sound_upd]) | (with_reducible apply Sound.foldl)
    | (with_reducible apply Sound.foldr) | (split))

end Sys2Proof.Machine
end

