-- ==== Sys2Proof/Laws/KeepsModule.lean ====
section
/-! SUPPORT. What every operation leaves alone (records, partitions, power, boot, the Nose, management and the host): `f_keeps` says that memory, the variant and the queue
stay, `f_sound` that the variant and the queue stay and memory keeps its canonical form. -/

namespace Sys2Proof.Machine

set_option linter.all false

theorem accWrite_keeps {t0 : State} {s : State} {o : Nat} {v : W32} (hk : Keeps t0 s) : Keeps t0 (accWrite s o v) := by
  unfold accWrite
  try dsimp only
  repeat' (first
    | (intro _) | (with_reducible exact Keeps.refl _) | (with_reducible assumption) | (with_reducible apply Keeps.ite)
    | (simp only [keeps_upd]) | (with_reducible apply Keeps.foldl) | (with_reducible apply Keeps.foldr) | (split))

theorem accWrite_sound {t0 : State} {s : State} {o : Nat} {v : W32} (hk : Sound t0 s) : Sound t0
    (accWrite s o v) := hk.trans (accWrite_keeps (Keeps.refl _)).sound

theorem activate_sound {t0 : State} {s : State} {p : Nat} (hk : Sound t0 s) : Sound t0 (activate s p) := by
  unfold activate
  try dsimp only
  repeat' (first
    | (intro _) | (with_reducible exact Sound.refl _) | (with_reducible assumption) | (with_reducible apply Sound.ite)
    | (with_reducible apply modPart_sound) | (with_reducible apply loseRanges_sound)
    | (with_reducible apply imbStart_sound) | (with_reducible apply modMc_sound)
    | (with_reducible apply settleFull_sound) | (with_reducible apply assignChecker_sound)
    | (with_reducible apply modCluster_sound) | (simp only [sound_upd]) | (with_reducible apply Sound.foldl)
    | (with_reducible apply Sound.foldr) | (split))

theorem afresh_sound {t0 : State} {s : State} (hk : Sound t0 s) : Sound t0 (afresh s) := by
  unfold afresh
  try dsimp only
  repeat' (first
    | (intro _) | (with_reducible exact Sound.refl _) | (with_reducible assumption) | (with_reducible apply Sound.ite)
    | (simp only [sound_upd]) | (with_reducible apply Sound.foldl) | (with_reducible apply Sound.foldr) | (split))

theorem setVial_keeps {t0 : State} {s : State} {v : Vial} (hk : Keeps t0 s) : Keeps t0 (setVial s v) := by
  unfold setVial
  try dsimp only
  repeat' (first
    | (intro _) | (with_reducible exact Keeps.refl _) | (with_reducible assumption) | (with_reducible apply Keeps.ite)
    | (simp only [keeps_upd]) | (with_reducible apply Keeps.foldl) | (with_reducible apply Keeps.foldr) | (split))

theorem setVial_sound {t0 : State} {s : State} {v : Vial} (hk : Sound t0 s) : Sound t0 (setVial s v) := hk.trans
    (setVial_keeps (Keeps.refl _)).sound

theorem settleSpares_keeps {t0 : State} {s : State} (hk : Keeps t0 s) : Keeps t0 (settleSpares s) := by
  unfold settleSpares
  try dsimp only
  repeat' (first
    | (intro _) | (with_reducible exact Keeps.refl _) | (with_reducible assumption) | (with_reducible apply Keeps.ite)
    | (with_reducible apply setVial_keeps) | (with_reducible apply raiseEvt_keeps) | (simp only [keeps_upd])
    | (with_reducible apply Keeps.foldl) | (with_reducible apply Keeps.foldr) | (split))

theorem settleSpares_sound {t0 : State} {s : State} (hk : Sound t0 s) : Sound t0 (settleSpares s) := hk.trans
    (settleSpares_keeps (Keeps.refl _)).sound

theorem anchorWrite_keeps {t0 : State} {s : State} (hk : Keeps t0 s) : Keeps t0 (anchorWrite s) := by
  unfold anchorWrite
  try dsimp only
  repeat' (first
    | (intro _) | (with_reducible exact Keeps.refl _) | (with_reducible assumption) | (with_reducible apply Keeps.ite)
    | (with_reducible apply settleSpares_keeps) | (with_reducible apply setVial_keeps) | (simp only [keeps_upd])
    | (with_reducible apply Keeps.foldl) | (with_reducible apply Keeps.foldr) | (split))

theorem anchorWrite_sound {t0 : State} {s : State} (hk : Sound t0 s) : Sound t0 (anchorWrite s) := hk.trans
    (anchorWrite_keeps (Keeps.refl _)).sound

theorem apertureWrite_keeps {t0 : State} {s : State} {n : Nat} {v : W64} (hk : Keeps t0 s) : Keeps t0
    (apertureWrite s n v) := by
  unfold apertureWrite
  try dsimp only
  repeat' (first
    | (intro _) | (with_reducible exact Keeps.refl _) | (with_reducible assumption) | (with_reducible apply Keeps.ite)
    | (simp only [keeps_upd]) | (with_reducible apply Keeps.foldl) | (with_reducible apply Keeps.foldr) | (split))

theorem apertureWrite_sound {t0 : State} {s : State} {n : Nat} {v : W64} (hk : Sound t0 s) : Sound t0
    (apertureWrite s n v) := hk.trans (apertureWrite_keeps (Keeps.refl _)).sound

theorem endDisp_keeps {t0 : State} {s : State} {x : Nat} {d : Disp} {code : Nat} (hk : Keeps t0 s) : Keeps t0
    (endDisp s x d code) := by
  unfold endDisp
  try dsimp only
  repeat' (first
    | (intro _) | (with_reducible exact Keeps.refl _) | (with_reducible assumption) | (with_reducible apply Keeps.ite)
    | (with_reducible apply report_keeps) | (with_reducible apply modAtom_keeps) | (simp only [keeps_upd])
    | (with_reducible apply Keeps.foldl) | (with_reducible apply Keeps.foldr) | (split))

theorem endDisp_sound {t0 : State} {s : State} {x : Nat} {d : Disp} {code : Nat} (hk : Sound t0 s) : Sound t0
    (endDisp s x d code) := hk.trans (endDisp_keeps (Keeps.refl _)).sound

theorem atomCancel_keeps {t0 : State} {s : State} {x : Nat} {k : Nat} (hk : Keeps t0 s) : Keeps t0 (atomCancel s x k) := by
  unfold atomCancel
  try dsimp only
  repeat' (first
    | (intro _) | (with_reducible exact Keeps.refl _) | (with_reducible assumption) | (with_reducible apply Keeps.ite)
    | (with_reducible apply setAtom_keeps) | (with_reducible apply endDisp_keeps) | (simp only [keeps_upd])
    | (with_reducible apply Keeps.foldl) | (with_reducible apply Keeps.foldr) | (split))

theorem atomCancel_sound {t0 : State} {s : State} {x : Nat} {k : Nat} (hk : Sound t0 s) : Sound t0
    (atomCancel s x k) := hk.trans (atomCancel_keeps (Keeps.refl _)).sound

theorem atomWrite_keeps {t0 : State} {s : State} {x : Nat} {o : Nat} {v : W32} (hk : Keeps t0 s) : Keeps t0
    (atomWrite s x o v) := by
  unfold atomWrite
  try dsimp only
  repeat' (first
    | (intro _) | (with_reducible exact Keeps.refl _) | (with_reducible assumption) | (with_reducible apply Keeps.ite)
    | (with_reducible apply atomCancel_keeps) | (with_reducible apply modAtom_keeps) | (simp only [keeps_upd])
    | (with_reducible apply Keeps.foldl) | (with_reducible apply Keeps.foldr) | (split))

theorem atomWrite_sound {t0 : State} {s : State} {x : Nat} {o : Nat} {v : W32} (hk : Sound t0 s) : Sound t0
    (atomWrite s x o v) := hk.trans (atomWrite_keeps (Keeps.refl _)).sound

theorem setPwr_keeps {t0 : State} {s : State} {p : Pwr} (hk : Keeps t0 s) : Keeps t0 (setPwr s p) := by
  unfold setPwr
  try dsimp only
  repeat' (first
    | (intro _) | (with_reducible exact Keeps.refl _) | (with_reducible assumption) | (with_reducible apply Keeps.ite)
    | (simp only [keeps_upd]) | (with_reducible apply Keeps.foldl) | (with_reducible apply Keeps.foldr) | (split))

theorem setPwr_sound {t0 : State} {s : State} {p : Pwr} (hk : Sound t0 s) : Sound t0 (setPwr s p) := hk.trans
    (setPwr_keeps (Keeps.refl _)).sound

theorem bankCharged_keeps {t0 : State} {s : State} {mv : Nat} {cap : Nat} (hk : Keeps t0 s) : Keeps t0
    (bankCharged s mv cap) := by
  unfold bankCharged
  try dsimp only
  repeat' (first
    | (intro _) | (with_reducible exact Keeps.refl _) | (with_reducible assumption) | (with_reducible apply Keeps.ite)
    | (with_reducible apply setPwr_keeps) | (simp only [keeps_upd]) | (with_reducible apply Keeps.foldl)
    | (with_reducible apply Keeps.foldr) | (split))

theorem bankCharged_sound {t0 : State} {s : State} {mv : Nat} {cap : Nat} (hk : Sound t0 s) : Sound t0
    (bankCharged s mv cap) := hk.trans (bankCharged_keeps (Keeps.refl _)).sound

theorem bankCutoff_sound {t0 : State} {s : State} (hk : Sound t0 s) : Sound t0 (bankCutoff s) := by
  unfold bankCutoff
  try dsimp only
  repeat' (first
    | (intro _) | (with_reducible exact Sound.refl _) | (with_reducible assumption) | (with_reducible apply Sound.ite)
    | (with_reducible apply afresh_sound) | (with_reducible apply setVial_sound) | (simp only [sound_upd])
    | (with_reducible apply Sound.foldl) | (with_reducible apply Sound.foldr) | (split))

theorem pwrErr_keeps {t0 : State} {s : State} {code : Nat} {lo : Nat} (hk : Keeps t0 s) : Keeps t0 (pwrErr s code lo) := by
  unfold pwrErr
  try dsimp only
  repeat' (first
    | (intro _) | (with_reducible exact Keeps.refl _) | (with_reducible assumption) | (with_reducible apply Keeps.ite)
    | (with_reducible apply recordErr_keeps) | (simp only [keeps_upd]) | (with_reducible apply Keeps.foldl)
    | (with_reducible apply Keeps.foldr) | (split))

theorem pwrErr_sound {t0 : State} {s : State} {code : Nat} {lo : Nat} (hk : Sound t0 s) : Sound t0
    (pwrErr s code lo) := hk.trans (pwrErr_keeps (Keeps.refl _)).sound

theorem bankLow_keeps {t0 : State} {s : State} {mv : Nat} (hk : Keeps t0 s) : Keeps t0 (bankLow s mv) := by
  unfold bankLow
  try dsimp only
  repeat' (first
    | (intro _) | (with_reducible exact Keeps.refl _) | (with_reducible assumption) | (with_reducible apply Keeps.ite)
    | (with_reducible apply setPwr_keeps) | (with_reducible apply raiseEvt_keeps)
    | (with_reducible apply pwrErr_keeps) | (simp only [keeps_upd]) | (with_reducible apply Keeps.foldl)
    | (with_reducible apply Keeps.foldr) | (split))

theorem bankLow_sound {t0 : State} {s : State} {mv : Nat} (hk : Sound t0 s) : Sound t0 (bankLow s mv) := hk.trans
    (bankLow_keeps (Keeps.refl _)).sound

theorem pcieErr_keeps {t0 : State} {s : State} {code : Nat} {bar : Nat} {size : Nat} {off : Nat}
    (hk : Keeps t0 s) : Keeps t0 (pcieErr s code bar size off) := by
  unfold pcieErr
  try dsimp only
  repeat' (first
    | (intro _) | (with_reducible exact Keeps.refl _) | (with_reducible assumption) | (with_reducible apply Keeps.ite)
    | (with_reducible apply recordErr_keeps) | (with_reducible apply bumpFree_keeps) | (simp only [keeps_upd])
    | (with_reducible apply Keeps.foldl) | (with_reducible apply Keeps.foldr) | (split))

theorem pcieErr_sound {t0 : State} {s : State} {code : Nat} {bar : Nat} {size : Nat} {off : Nat}
    (hk : Sound t0 s) : Sound t0 (pcieErr s code bar size off) := hk.trans (pcieErr_keeps (Keeps.refl _)).sound

theorem setNose_keeps {t0 : State} {s : State} {n : Nose} (hk : Keeps t0 s) : Keeps t0 (setNose s n) := by
  unfold setNose
  try dsimp only
  repeat' (first
    | (intro _) | (with_reducible exact Keeps.refl _) | (with_reducible assumption) | (with_reducible apply Keeps.ite)
    | (simp only [keeps_upd]) | (with_reducible apply Keeps.foldl) | (with_reducible apply Keeps.foldr) | (split))

theorem setNose_sound {t0 : State} {s : State} {n : Nose} (hk : Sound t0 s) : Sound t0 (setNose s n) := hk.trans
    (setNose_keeps (Keeps.refl _)).sound

theorem mbReject_keeps {t0 : State} {s : State} (hk : Keeps t0 s) : Keeps t0 (mbReject s) := by
  unfold mbReject
  try dsimp only
  repeat' (first
    | (intro _) | (with_reducible exact Keeps.refl _) | (with_reducible assumption) | (with_reducible apply Keeps.ite)
    | (with_reducible apply setNose_keeps) | (simp only [keeps_upd]) | (with_reducible apply Keeps.foldl)
    | (with_reducible apply Keeps.foldr) | (split))

theorem mbReject_sound {t0 : State} {s : State} (hk : Sound t0 s) : Sound t0 (mbReject s) := hk.trans (mbReject_keeps
    (Keeps.refl _)).sound

theorem globErr_keeps {t0 : State} {s : State} {code : Nat} (hk : Keeps t0 s) : Keeps t0 (globErr s code) := by
  unfold globErr
  try dsimp only
  repeat' (first
    | (intro _) | (with_reducible exact Keeps.refl _) | (with_reducible assumption) | (with_reducible apply Keeps.ite)
    | (with_reducible apply recordErr_keeps) | (simp only [keeps_upd]) | (with_reducible apply Keeps.foldl)
    | (with_reducible apply Keeps.foldr) | (split))

theorem globErr_sound {t0 : State} {s : State} {code : Nat} (hk : Sound t0 s) : Sound t0 (globErr s code) := hk.trans
    (globErr_keeps (Keeps.refl _)).sound

theorem expTableWrite_keeps {t0 : State} {s : State} {p : Nat} {v : W64} (hk : Keeps t0 s) : Keeps t0
    (expTableWrite s p v) := by
  unfold expTableWrite
  try dsimp only
  repeat' (first
    | (intro _) | (with_reducible exact Keeps.refl _) | (with_reducible assumption) | (with_reducible apply Keeps.ite)
    | (with_reducible apply globErr_keeps) | (with_reducible apply modPart_keeps) | (simp only [keeps_upd])
    | (with_reducible apply Keeps.foldl) | (with_reducible apply Keeps.foldr) | (split))

theorem expTableWrite_sound {t0 : State} {s : State} {p : Nat} {v : W64} (hk : Sound t0 s) : Sound t0
    (expTableWrite s p v) := hk.trans (expTableWrite_keeps (Keeps.refl _)).sound

theorem sillageOfsWrite_keeps {t0 : State} {s : State} {p : Nat} {v : W64} (hk : Keeps t0 s) : Keeps t0
    (sillageOfsWrite s p v) := by
  unfold sillageOfsWrite
  try dsimp only
  repeat' (first
    | (intro _) | (with_reducible exact Keeps.refl _) | (with_reducible assumption) | (with_reducible apply Keeps.ite)
    | (with_reducible apply globErr_keeps) | (with_reducible apply modPart_keeps) | (simp only [keeps_upd])
    | (with_reducible apply Keeps.foldl) | (with_reducible apply Keeps.foldr) | (split))

theorem sillageOfsWrite_sound {t0 : State} {s : State} {p : Nat} {v : W64} (hk : Sound t0 s) : Sound t0
    (sillageOfsWrite s p v) := hk.trans (sillageOfsWrite_keeps (Keeps.refl _)).sound

theorem sillageLenWrite_keeps {t0 : State} {s : State} {p : Nat} {v : W64} (hk : Keeps t0 s) : Keeps t0
    (sillageLenWrite s p v) := by
  unfold sillageLenWrite
  try dsimp only
  repeat' (first
    | (intro _) | (with_reducible exact Keeps.refl _) | (with_reducible assumption) | (with_reducible apply Keeps.ite)
    | (with_reducible apply globErr_keeps) | (with_reducible apply modPart_keeps) | (simp only [keeps_upd])
    | (with_reducible apply Keeps.foldl) | (with_reducible apply Keeps.foldr) | (split))

theorem sillageLenWrite_sound {t0 : State} {s : State} {p : Nat} {v : W64} (hk : Sound t0 s) : Sound t0
    (sillageLenWrite s p v) := hk.trans (sillageLenWrite_keeps (Keeps.refl _)).sound

theorem wideWrite_keeps {t0 : State} {s : State} {pg : Nat} {o : Nat} {v : W64} (hk : Keeps t0 s) : Keeps t0
    (wideWrite s pg o v) := by
  unfold wideWrite
  try dsimp only
  repeat' (first
    | (intro _) | (with_reducible exact Keeps.refl _) | (with_reducible assumption) | (with_reducible apply Keeps.ite)
    | (with_reducible apply modGroup_keeps) | (with_reducible apply writeQcfg_keeps)
    | (with_reducible apply mbReject_keeps) | (with_reducible apply setNose_keeps)
    | (with_reducible apply apertureWrite_keeps) | (with_reducible apply expTableWrite_keeps)
    | (with_reducible apply sillageOfsWrite_keeps) | (with_reducible apply sillageLenWrite_keeps)
    | (simp only [keeps_upd]) | (with_reducible apply Keeps.foldl) | (with_reducible apply Keeps.foldr) | (split))

theorem wideWrite_sound {t0 : State} {s : State} {pg : Nat} {o : Nat} {v : W64} (hk : Sound t0 s) : Sound t0
    (wideWrite s pg o v) := hk.trans (wideWrite_keeps (Keeps.refl _)).sound

theorem entryWrite_sound {t0 : State} {s : State} {n : Nat} {o : Nat} {v : W32} (hk : Sound t0 s) : Sound t0
    (entryWrite s n o v) := by
  unfold entryWrite
  try dsimp only
  repeat' (first
    | (intro _) | (with_reducible exact Sound.refl _) | (with_reducible assumption) | (with_reducible apply Sound.ite)
    | (with_reducible apply settleFull_sound) | (with_reducible apply grpCfgWrite_sound)
    | (with_reducible apply grpCmd_sound) | (with_reducible apply modGroup_sound)
    | (with_reducible apply layoutWrite_sound) | (simp only [sound_upd]) | (with_reducible apply Sound.foldl)
    | (with_reducible apply Sound.foldr) | (split))

theorem headerWrite_keeps {t0 : State} {s : State} {pg : Nat} {o : Nat} {v : W32} (hk : Keeps t0 s) : Keeps t0
    (headerWrite s pg o v) := by
  unfold headerWrite
  try dsimp only
  repeat' (first
    | (intro _) | (with_reducible exact Keeps.refl _) | (with_reducible assumption) | (with_reducible apply Keeps.ite)
    | (with_reducible apply setHdr_keeps) | (with_reducible apply clearEvt_keeps)
    | (with_reducible apply putEvt_keeps) | (with_reducible apply raiseMask_keeps)
    | (with_reducible apply clearErr_keeps) | (simp only [keeps_upd]) | (with_reducible apply Keeps.foldl)
    | (with_reducible apply Keeps.foldr) | (split))

theorem headerWrite_sound {t0 : State} {s : State} {pg : Nat} {o : Nat} {v : W32} (hk : Sound t0 s) : Sound t0
    (headerWrite s pg o v) := hk.trans (headerWrite_keeps (Keeps.refl _)).sound

theorem holdShares_keeps {t0 : State} {s : State} (hk : Keeps t0 s) : Keeps t0 (holdShares s) := by
  unfold holdShares
  try dsimp only
  repeat' (first
    | (intro _) | (with_reducible exact Keeps.refl _) | (with_reducible assumption) | (with_reducible apply Keeps.ite)
    | (with_reducible apply modPart_keeps) | (simp only [keeps_upd]) | (with_reducible apply Keeps.foldl)
    | (with_reducible apply Keeps.foldr) | (split))

theorem holdShares_sound {t0 : State} {s : State} (hk : Sound t0 s) : Sound t0 (holdShares s) := hk.trans
    (holdShares_keeps (Keeps.refl _)).sound

theorem partModeWrite_keeps {t0 : State} {s : State} {v : W32} (hk : Keeps t0 s) : Keeps t0 (partModeWrite s v) := by
  unfold partModeWrite
  try dsimp only
  repeat' (first
    | (intro _) | (with_reducible exact Keeps.refl _) | (with_reducible assumption) | (with_reducible apply Keeps.ite)
    | (with_reducible apply globErr_keeps) | (with_reducible apply holdShares_keeps)
    | (with_reducible apply settleFull_keeps) | (simp only [keeps_upd]) | (with_reducible apply Keeps.foldl)
    | (with_reducible apply Keeps.foldr) | (split))

theorem partModeWrite_sound {t0 : State} {s : State} {v : W32} (hk : Sound t0 s) : Sound t0
    (partModeWrite s v) := hk.trans (partModeWrite_keeps (Keeps.refl _)).sound

theorem portOwnerWrite_keeps {t0 : State} {s : State} {x : Nat} {v : W32} (hk : Keeps t0 s) : Keeps t0
    (portOwnerWrite s x v) := by
  unfold portOwnerWrite
  try dsimp only
  repeat' (first
    | (intro _) | (with_reducible exact Keeps.refl _) | (with_reducible assumption) | (with_reducible apply Keeps.ite)
    | (with_reducible apply globErr_keeps) | (simp only [keeps_upd]) | (with_reducible apply Keeps.foldl)
    | (with_reducible apply Keeps.foldr) | (split))

theorem portOwnerWrite_sound {t0 : State} {s : State} {x : Nat} {v : W32} (hk : Sound t0 s) : Sound t0
    (portOwnerWrite s x v) := hk.trans (portOwnerWrite_keeps (Keeps.refl _)).sound

theorem integWrite_keeps {t0 : State} {s : State} {v : W32} (hk : Keeps t0 s) : Keeps t0 (integWrite s v) := by
  unfold integWrite
  try dsimp only
  repeat' (first
    | (intro _) | (with_reducible exact Keeps.refl _) | (with_reducible assumption) | (with_reducible apply Keeps.ite)
    | (with_reducible apply settleFull_keeps) | (simp only [keeps_upd]) | (with_reducible apply Keeps.foldl)
    | (with_reducible apply Keeps.foldr) | (split))

theorem integWrite_sound {t0 : State} {s : State} {v : W32} (hk : Sound t0 s) : Sound t0 (integWrite s v) := hk.trans
    (integWrite_keeps (Keeps.refl _)).sound

theorem globWrite_keeps {t0 : State} {s : State} {o : Nat} {v : W32} (hk : Keeps t0 s) : Keeps t0 (globWrite s o v) := by
  unfold globWrite
  try dsimp only
  repeat' (first
    | (intro _) | (with_reducible exact Keeps.refl _) | (with_reducible assumption) | (with_reducible apply Keeps.ite)
    | (with_reducible apply partModeWrite_keeps) | (with_reducible apply portOwnerWrite_keeps)
    | (with_reducible apply integWrite_keeps) | (simp only [keeps_upd]) | (with_reducible apply Keeps.foldl)
    | (with_reducible apply Keeps.foldr) | (split))

theorem globWrite_sound {t0 : State} {s : State} {o : Nat} {v : W32} (hk : Sound t0 s) : Sound t0
    (globWrite s o v) := hk.trans (globWrite_keeps (Keeps.refl _)).sound

theorem stopCommand_keeps {t0 : State} {s : State} {n : Nat} (hk : Keeps t0 s) : Keeps t0 (stopCommand s n) := by
  unfold stopCommand
  try dsimp only
  repeat' (first
    | (intro _) | (with_reducible exact Keeps.refl _) | (with_reducible assumption) | (with_reducible apply Keeps.ite)
    | (with_reducible apply coreStop_keeps) | (with_reducible apply passRole_keeps) | (simp only [keeps_upd])
    | (with_reducible apply Keeps.foldl) | (with_reducible apply Keeps.foldr) | (split))

theorem stopCommand_sound {t0 : State} {s : State} {n : Nat} (hk : Sound t0 s) : Sound t0
    (stopCommand s n) := hk.trans (stopCommand_keeps (Keeps.refl _)).sound

theorem coreCmdWrite_keeps {t0 : State} {s : State} {n : Nat} {v : W32} (hk : Keeps t0 s) : Keeps t0
    (coreCmdWrite s n v) := by
  unfold coreCmdWrite
  try dsimp only
  repeat' (first
    | (intro _) | (with_reducible exact Keeps.refl _) | (with_reducible assumption) | (with_reducible apply Keeps.ite)
    | (with_reducible apply stopCommand_keeps) | (with_reducible apply coreReset_keeps) | (simp only [keeps_upd])
    | (with_reducible apply Keeps.foldl) | (with_reducible apply Keeps.foldr) | (split))

theorem coreCmdWrite_sound {t0 : State} {s : State} {n : Nat} {v : W32} (hk : Sound t0 s) : Sound t0
    (coreCmdWrite s n v) := hk.trans (coreCmdWrite_keeps (Keeps.refl _)).sound

theorem coreWrite_keeps {t0 : State} {s : State} {n : Nat} {o : Nat} {v : W32} (hk : Keeps t0 s) : Keeps t0
    (coreWrite s n o v) := by
  unfold coreWrite
  try dsimp only
  repeat' (first
    | (intro _) | (with_reducible exact Keeps.refl _) | (with_reducible assumption) | (with_reducible apply Keeps.ite)
    | (with_reducible apply coreCmdWrite_keeps) | (with_reducible apply modCore_keeps) | (simp only [keeps_upd])
    | (with_reducible apply Keeps.foldl) | (with_reducible apply Keeps.foldr) | (split))

theorem coreWrite_sound {t0 : State} {s : State} {n : Nat} {o : Nat} {v : W32} (hk : Sound t0 s) : Sound t0
    (coreWrite s n o v) := hk.trans (coreWrite_keeps (Keeps.refl _)).sound

theorem mergeClear_keeps {t0 : State} {s : State} {g : Nat} (hk : Keeps t0 s) : Keeps t0 (mergeClear s g) := by
  unfold mergeClear
  try dsimp only
  repeat' (first
    | (intro _) | (with_reducible exact Keeps.refl _) | (with_reducible assumption) | (with_reducible apply Keeps.ite)
    | (with_reducible apply modCluster_keeps) | (simp only [keeps_upd]) | (with_reducible apply Keeps.foldl)
    | (with_reducible apply Keeps.foldr) | (split))

theorem mergeClear_sound {t0 : State} {s : State} {g : Nat} (hk : Sound t0 s) : Sound t0 (mergeClear s g) := hk.trans
    (mergeClear_keeps (Keeps.refl _)).sound

theorem clusterWrite_keeps {t0 : State} {s : State} {g : Nat} {o : Nat} {v : W32} (hk : Keeps t0 s) : Keeps t0
    (clusterWrite s g o v) := by
  unfold clusterWrite
  try dsimp only
  repeat' (first
    | (intro _) | (with_reducible exact Keeps.refl _) | (with_reducible assumption) | (with_reducible apply Keeps.ite)
    | (with_reducible apply modCluster_keeps) | (with_reducible apply mergeClear_keeps)
    | (with_reducible apply dupCfgWrite_keeps) | (simp only [keeps_upd]) | (with_reducible apply Keeps.foldl)
    | (with_reducible apply Keeps.foldr) | (split))

theorem clusterWrite_sound {t0 : State} {s : State} {g : Nat} {o : Nat} {v : W32} (hk : Sound t0 s) : Sound t0
    (clusterWrite s g o v) := hk.trans (clusterWrite_keeps (Keeps.refl _)).sound

theorem noticeSlots_sound {t0 : State} {s : State} {q : Nat} {b : List Byte} (hk : Sound t0 s) : Sound t0
    (noticeSlots s q b) := by
  unfold noticeSlots
  try dsimp only
  repeat' (first
    | (intro _) | (with_reducible exact Sound.refl _) | (with_reducible assumption) | (with_reducible apply Sound.ite)
    | (with_reducible apply sendNotice_sound) | (simp only [sound_upd]) | (with_reducible apply Sound.foldl)
    | (with_reducible apply Sound.foldr) | (split))

theorem bindSkip_sound {t0 : State} {s : State} {q : Nat} (hk : Sound t0 s) : Sound t0 (bindSkip s q) := by
  unfold bindSkip
  try dsimp only
  repeat' (first
    | (intro _) | (with_reducible exact Sound.refl _) | (with_reducible assumption) | (with_reducible apply Sound.ite)
    | (with_reducible apply flushGroup_sound) | (with_reducible apply skipHead_sound)
    | (with_reducible apply noticeSlots_sound) | (simp only [sound_upd]) | (with_reducible apply Sound.foldl)
    | (with_reducible apply Sound.foldr) | (split))

theorem bindEnable_sound {t0 : State} {s : State} {q : Nat} {y : W32} (hk : Sound t0 s) : Sound t0 (bindEnable s q y) := by
  unfold bindEnable
  try dsimp only
  repeat' (first
    | (intro _) | (with_reducible exact Sound.refl _) | (with_reducible assumption) | (with_reducible apply Sound.ite)
    | (with_reducible apply setQueue_sound) | (with_reducible apply rerunHead_sound)
    | (with_reducible apply queueErr_sound) | (with_reducible apply modQueue_sound) | (simp only [sound_upd])
    | (with_reducible apply Sound.foldl) | (with_reducible apply Sound.foldr) | (with_reducible exact id)
    | (with_reducible apply writeByte_wf) | (with_reducible apply writeBytes_wf)
    | (with_reducible apply writeCells_wf) | (with_reducible apply writeLe_wf) | (with_reducible apply clearRange_wf)
    | (with_reducible apply loseRange_wf) | (with_reducible apply clearHole_wf) | (with_reducible apply coverHole_wf)
    | (with_reducible apply writeTile_wf) | (with_reducible apply reduceAt_wf) | (with_reducible apply putVals_wf)
    | (with_reducible apply wf_foldl) | (split) | (with_reducible apply Sound.updMem))

theorem writeQbind_sound {t0 : State} {s : State} {q : Nat} {v : W32} (hk : Sound t0 s) : Sound t0 (writeQbind s q v) := by
  unfold writeQbind
  try dsimp only
  repeat' (first
    | (intro _) | (with_reducible exact Sound.refl _) | (with_reducible assumption) | (with_reducible apply Sound.ite)
    | (with_reducible apply queueErr_sound) | (with_reducible apply bindSkip_sound)
    | (with_reducible apply modQueue_sound) | (with_reducible apply bindEnable_sound) | (simp only [sound_upd])
    | (with_reducible apply Sound.foldl) | (with_reducible apply Sound.foldr) | (split))

theorem queueWrite_sound {t0 : State} {s : State} {i : Nat} {o : Nat} {v : W32} (hk : Sound t0 s) : Sound t0
    (queueWrite s i o v) := by
  unfold queueWrite
  try dsimp only
  repeat' (first
    | (intro _) | (with_reducible exact Sound.refl _) | (with_reducible assumption) | (with_reducible apply Sound.ite)
    | (with_reducible apply writeQbind_sound) | (simp only [sound_upd]) | (with_reducible apply Sound.foldl)
    | (with_reducible apply Sound.foldr) | (split))

theorem seWrite_keeps {t0 : State} {s : State} {i : Nat} {o : Nat} {v : W32} (hk : Keeps t0 s) : Keeps t0
    (seWrite s i o v) := by
  unfold seWrite
  try dsimp only
  repeat' (first
    | (intro _) | (with_reducible exact Keeps.refl _) | (with_reducible assumption) | (with_reducible apply Keeps.ite)
    | (with_reducible apply settleFull_keeps) | (with_reducible apply modSe_keeps) | (simp only [keeps_upd])
    | (with_reducible apply Keeps.foldl) | (with_reducible apply Keeps.foldr) | (split))

theorem seWrite_sound {t0 : State} {s : State} {i : Nat} {o : Nat} {v : W32} (hk : Sound t0 s) : Sound t0
    (seWrite s i o v) := hk.trans (seWrite_keeps (Keeps.refl _)).sound

theorem mcWrite_keeps {t0 : State} {s : State} {i : Nat} {o : Nat} {v : W32} (hk : Keeps t0 s) : Keeps t0
    (mcWrite s i o v) := by
  unfold mcWrite
  try dsimp only
  repeat' (first
    | (intro _) | (with_reducible exact Keeps.refl _) | (with_reducible assumption) | (with_reducible apply Keeps.ite)
    | (with_reducible apply modMc_keeps) | (simp only [keeps_upd]) | (with_reducible apply Keeps.foldl)
    | (with_reducible apply Keeps.foldr) | (split))

theorem mcWrite_sound {t0 : State} {s : State} {i : Nat} {o : Nat} {v : W32} (hk : Sound t0 s) : Sound t0
    (mcWrite s i o v) := hk.trans (mcWrite_keeps (Keeps.refl _)).sound

theorem writeRec_keeps {t0 : State} {s : State} {ty : Nat} {inst : Nat} {payload : List Byte}
    (hk : Keeps t0 s) : Keeps t0 (writeRec s ty inst payload) := by
  unfold writeRec
  try dsimp only
  repeat' (first
    | (intro _) | (with_reducible exact Keeps.refl _) | (with_reducible assumption) | (with_reducible apply Keeps.ite)
    | (with_reducible apply setVial_keeps) | (simp only [keeps_upd]) | (with_reducible apply Keeps.foldl)
    | (with_reducible apply Keeps.foldr) | (split))

theorem writeRec_sound {t0 : State} {s : State} {ty : Nat} {inst : Nat} {payload : List Byte}
    (hk : Sound t0 s) : Sound t0 (writeRec s ty inst payload) := hk.trans (writeRec_keeps (Keeps.refl _)).sound

theorem saveEq_keeps {t0 : State} {s : State} {i : Nat} (hk : Keeps t0 s) : Keeps t0 (saveEq s i) := by
  unfold saveEq
  try dsimp only
  repeat' (first
    | (intro _) | (with_reducible exact Keeps.refl _) | (with_reducible assumption) | (with_reducible apply Keeps.ite)
    | (with_reducible apply writeRec_keeps) | (simp only [keeps_upd]) | (with_reducible apply Keeps.foldl)
    | (with_reducible apply Keeps.foldr) | (split))

theorem saveEq_sound {t0 : State} {s : State} {i : Nat} (hk : Sound t0 s) : Sound t0 (saveEq s i) := hk.trans
    (saveEq_keeps (Keeps.refl _)).sound

theorem retrainCommand_keeps {t0 : State} {s : State} {i : Nat} (hk : Keeps t0 s) : Keeps t0 (retrainCommand s i) := by
  unfold retrainCommand
  try dsimp only
  repeat' (first
    | (intro _) | (with_reducible exact Keeps.refl _) | (with_reducible assumption) | (with_reducible apply Keeps.ite)
    | (with_reducible apply trainStart_keeps) | (with_reducible apply retrain_keeps) | (simp only [keeps_upd])
    | (with_reducible apply Keeps.foldl) | (with_reducible apply Keeps.foldr) | (split))

theorem retrainCommand_sound {t0 : State} {s : State} {i : Nat} (hk : Sound t0 s) : Sound t0
    (retrainCommand s i) := hk.trans (retrainCommand_keeps (Keeps.refl _)).sound

theorem portWriteReg_keeps {t0 : State} {s : State} {i : Nat} {o : Nat} {v : W32} (hk : Keeps t0 s) : Keeps t0
    (portWriteReg s i o v) := by
  unfold portWriteReg
  try dsimp only
  repeat' (first
    | (intro _) | (with_reducible exact Keeps.refl _) | (with_reducible assumption) | (with_reducible apply Keeps.ite)
    | (with_reducible apply modPort_keeps) | (with_reducible apply saveEq_keeps)
    | (with_reducible apply retrainCommand_keeps) | (simp only [keeps_upd]) | (with_reducible apply Keeps.foldl)
    | (with_reducible apply Keeps.foldr) | (split))

theorem portWriteReg_sound {t0 : State} {s : State} {i : Nat} {o : Nat} {v : W32} (hk : Sound t0 s) : Sound t0
    (portWriteReg s i o v) := hk.trans (portWriteReg_keeps (Keeps.refl _)).sound

theorem routeWrite_keeps {t0 : State} {s : State} {x : Nat} {v : W32} (hk : Keeps t0 s) : Keeps t0 (routeWrite s x v) := by
  unfold routeWrite
  try dsimp only
  repeat' (first
    | (intro _) | (with_reducible exact Keeps.refl _) | (with_reducible assumption) | (with_reducible apply Keeps.ite)
    | (with_reducible apply modIod_keeps) | (simp only [keeps_upd]) | (with_reducible apply Keeps.foldl)
    | (with_reducible apply Keeps.foldr) | (split))

theorem routeWrite_sound {t0 : State} {s : State} {x : Nat} {v : W32} (hk : Sound t0 s) : Sound t0
    (routeWrite s x v) := hk.trans (routeWrite_keeps (Keeps.refl _)).sound

theorem linkWrite_keeps {t0 : State} {s : State} {x : Nat} {o : Nat} {v : W32} (hk : Keeps t0 s) : Keeps t0
    (linkWrite s x o v) := by
  unfold linkWrite
  try dsimp only
  repeat' (first
    | (intro _) | (with_reducible exact Keeps.refl _) | (with_reducible assumption) | (with_reducible apply Keeps.ite)
    | (with_reducible apply modIod_keeps) | (with_reducible apply routeWrite_keeps) | (simp only [keeps_upd])
    | (with_reducible apply Keeps.foldl) | (with_reducible apply Keeps.foldr) | (split))

theorem linkWrite_sound {t0 : State} {s : State} {x : Nat} {o : Nat} {v : W32} (hk : Sound t0 s) : Sound t0
    (linkWrite s x o v) := hk.trans (linkWrite_keeps (Keeps.refl _)).sound

theorem settleOp_keeps {t0 : State} {s : State} {d : Nat} (hk : Keeps t0 s) : Keeps t0 (settleOp s d) := by
  unfold settleOp
  try dsimp only
  repeat' (first
    | (intro _) | (with_reducible exact Keeps.refl _) | (with_reducible assumption) | (with_reducible apply Keeps.ite)
    | (with_reducible apply setPwr_keeps) | (simp only [keeps_upd]) | (with_reducible apply Keeps.foldl)
    | (with_reducible apply Keeps.foldr) | (split))

theorem settleOp_sound {t0 : State} {s : State} {d : Nat} (hk : Sound t0 s) : Sound t0 (settleOp s d) := hk.trans
    (settleOp_keeps (Keeps.refl _)).sound

theorem settleOps_keeps {t0 : State} {s : State} (hk : Keeps t0 s) : Keeps t0 (settleOps s) := by
  unfold settleOps
  try dsimp only
  repeat' (first
    | (intro _) | (with_reducible exact Keeps.refl _) | (with_reducible assumption) | (with_reducible apply Keeps.ite)
    | (with_reducible apply settleOp_keeps) | (simp only [keeps_upd]) | (with_reducible apply Keeps.foldl)
    | (with_reducible apply Keeps.foldr) | (split))

theorem settleOps_sound {t0 : State} {s : State} (hk : Sound t0 s) : Sound t0 (settleOps s) := hk.trans
    (settleOps_keeps (Keeps.refl _)).sound

theorem opCfgWrite_keeps {t0 : State} {s : State} {v : W32} (hk : Keeps t0 s) : Keeps t0 (opCfgWrite s v) := by
  unfold opCfgWrite
  try dsimp only
  repeat' (first
    | (intro _) | (with_reducible exact Keeps.refl _) | (with_reducible assumption) | (with_reducible apply Keeps.ite)
    | (with_reducible apply settleOps_keeps) | (with_reducible apply setPwr_keeps) | (simp only [keeps_upd])
    | (with_reducible apply Keeps.foldl) | (with_reducible apply Keeps.foldr) | (split))

theorem opCfgWrite_sound {t0 : State} {s : State} {v : W32} (hk : Sound t0 s) : Sound t0 (opCfgWrite s v) := hk.trans
    (opCfgWrite_keeps (Keeps.refl _)).sound

theorem pwrWrite_keeps {t0 : State} {s : State} {o : Nat} {v : W32} (hk : Keeps t0 s) : Keeps t0 (pwrWrite s o v) := by
  unfold pwrWrite
  try dsimp only
  repeat' (first
    | (intro _) | (with_reducible exact Keeps.refl _) | (with_reducible assumption) | (with_reducible apply Keeps.ite)
    | (with_reducible apply opCfgWrite_keeps) | (with_reducible apply setPwr_keeps) | (simp only [keeps_upd])
    | (with_reducible apply Keeps.foldl) | (with_reducible apply Keeps.foldr) | (split))

theorem pwrWrite_sound {t0 : State} {s : State} {o : Nat} {v : W32} (hk : Sound t0 s) : Sound t0
    (pwrWrite s o v) := hk.trans (pwrWrite_keeps (Keeps.refl _)).sound

theorem mbFinish_keeps {t0 : State} {s : State} {op : Nat} {code : Nat} {resp : List Byte}
    (hk : Keeps t0 s) : Keeps t0 (mbFinish s op code resp) := by
  unfold mbFinish
  try dsimp only
  repeat' (first
    | (intro _) | (with_reducible exact Keeps.refl _) | (with_reducible assumption) | (with_reducible apply Keeps.ite)
    | (with_reducible apply addEvent_keeps) | (with_reducible apply sendMsi_keeps)
    | (with_reducible apply recordErr_keeps) | (simp only [keeps_upd]) | (with_reducible apply Keeps.foldl)
    | (with_reducible apply Keeps.foldr) | (split))

theorem mbFinish_sound {t0 : State} {s : State} {op : Nat} {code : Nat} {resp : List Byte}
    (hk : Sound t0 s) : Sound t0 (mbFinish s op code resp) := hk.trans (mbFinish_keeps (Keeps.refl _)).sound

theorem mbStart_keeps {t0 : State} {s : State} (hk : Keeps t0 s) : Keeps t0 (mbStart s) := by
  unfold mbStart
  try dsimp only
  repeat' (first
    | (intro _) | (with_reducible exact Keeps.refl _) | (with_reducible assumption) | (with_reducible apply Keeps.ite)
    | (with_reducible apply setNose_keeps) | (with_reducible apply mbFinish_keeps) | (simp only [keeps_upd])
    | (with_reducible apply Keeps.foldl) | (with_reducible apply Keeps.foldr) | (split))

theorem mbStart_sound {t0 : State} {s : State} (hk : Sound t0 s) : Sound t0 (mbStart s) := hk.trans (mbStart_keeps
    (Keeps.refl _)).sound

theorem noseWrite_keeps {t0 : State} {s : State} {o : Nat} {v : W32} (hk : Keeps t0 s) : Keeps t0 (noseWrite s o v) := by
  unfold noseWrite
  try dsimp only
  repeat' (first
    | (intro _) | (with_reducible exact Keeps.refl _) | (with_reducible assumption) | (with_reducible apply Keeps.ite)
    | (with_reducible apply mbReject_keeps) | (with_reducible apply setNose_keeps)
    | (with_reducible apply mbStart_keeps) | (simp only [keeps_upd]) | (with_reducible apply Keeps.foldl)
    | (with_reducible apply Keeps.foldr) | (split))

theorem noseWrite_sound {t0 : State} {s : State} {o : Nat} {v : W32} (hk : Sound t0 s) : Sound t0
    (noseWrite s o v) := hk.trans (noseWrite_keeps (Keeps.refl _)).sound

theorem settlePower_keeps {t0 : State} {s : State} (hk : Keeps t0 s) : Keeps t0 (settlePower s) := by
  unfold settlePower
  try dsimp only
  repeat' (first
    | (intro _) | (with_reducible exact Keeps.refl _) | (with_reducible assumption) | (with_reducible apply Keeps.ite)
    | (with_reducible apply accStop_keeps) | (simp only [keeps_upd]) | (with_reducible apply Keeps.foldl)
    | (with_reducible apply Keeps.foldr) | (split))

theorem settlePower_sound {t0 : State} {s : State} (hk : Sound t0 s) : Sound t0 (settlePower s) := hk.trans
    (settlePower_keeps (Keeps.refl _)).sound

theorem contextsFreed_keeps {t0 : State} {s : State} (hk : Keeps t0 s) : Keeps t0 (contextsFreed s) := by
  unfold contextsFreed
  try dsimp only
  repeat' (first
    | (intro _) | (with_reducible exact Keeps.refl _) | (with_reducible assumption) | (with_reducible apply Keeps.ite)
    | (with_reducible apply contextFreed_keeps) | (simp only [keeps_upd]) | (with_reducible apply Keeps.foldl)
    | (with_reducible apply Keeps.foldr) | (split))

theorem contextsFreed_sound {t0 : State} {s : State} (hk : Sound t0 s) : Sound t0 (contextsFreed s) := hk.trans
    (contextsFreed_keeps (Keeps.refl _)).sound

theorem downPorts_keeps {t0 : State} {old : State} {s : State} (hk : Keeps t0 s) : Keeps t0 (downPorts old s) := by
  unfold downPorts
  try dsimp only
  repeat' (first
    | (intro _) | (with_reducible exact Keeps.refl _) | (with_reducible assumption) | (with_reducible apply Keeps.ite)
    | (simp only [keeps_upd]) | (with_reducible apply Keeps.foldl) | (with_reducible apply Keeps.foldr) | (split))

theorem downPorts_sound {t0 : State} {old : State} {s : State} (hk : Sound t0 s) : Sound t0
    (downPorts old s) := hk.trans (downPorts_keeps (Keeps.refl _)).sound

theorem takeOff_sound {t0 : State} {s : State} {p : Nat} {cause : W32} (hk : Sound t0 s) : Sound t0 (takeOff s p cause) := by
  unfold takeOff
  try dsimp only
  repeat' (first
    | (intro _) | (with_reducible exact Sound.refl _) | (with_reducible assumption) | (with_reducible apply Sound.ite)
    | (with_reducible apply modPart_sound) | (with_reducible apply abandonPart_sound)
    | (with_reducible apply bumpFree_sound) | (with_reducible apply settlePower_sound)
    | (with_reducible apply contextsFreed_sound) | (with_reducible apply downPorts_sound) | (simp only [sound_upd])
    | (with_reducible apply Sound.foldl) | (with_reducible apply Sound.foldr) | (with_reducible exact id)
    | (with_reducible apply writeByte_wf) | (with_reducible apply writeBytes_wf)
    | (with_reducible apply writeCells_wf) | (with_reducible apply writeLe_wf) | (with_reducible apply clearRange_wf)
    | (with_reducible apply loseRange_wf) | (with_reducible apply clearHole_wf) | (with_reducible apply coverHole_wf)
    | (with_reducible apply writeTile_wf) | (with_reducible apply reduceAt_wf) | (with_reducible apply putVals_wf)
    | (with_reducible apply wf_foldl) | (split) | (with_reducible apply Sound.updMem))

theorem stage2_keeps {t0 : State} {s : State} (hk : Keeps t0 s) : Keeps t0 (stage2 s) := by
  unfold stage2
  try dsimp only
  repeat' (first
    | (intro _) | (with_reducible exact Keeps.refl _) | (with_reducible assumption) | (with_reducible apply Keeps.ite)
    | (with_reducible apply accStart_keeps) | (simp only [keeps_upd]) | (with_reducible apply Keeps.foldl)
    | (with_reducible apply Keeps.foldr) | (split))

theorem stage2_sound {t0 : State} {s : State} (hk : Sound t0 s) : Sound t0 (stage2 s) := hk.trans (stage2_keeps
    (Keeps.refl _)).sound

theorem moduleReset_sound {t0 : State} {s : State} (hk : Sound t0 s) : Sound t0 (moduleReset s) := by
  unfold moduleReset
  try dsimp only
  repeat' (first
    | (intro _) | (with_reducible exact Sound.refl _) | (with_reducible assumption) | (with_reducible apply Sound.ite)
    | (with_reducible apply takeOff_sound) | (with_reducible apply afresh_sound) | (with_reducible apply stage2_sound)
    | (simp only [sound_upd]) | (with_reducible apply Sound.foldl) | (with_reducible apply Sound.foldr) | (split))

theorem hostResetWrite_sound {t0 : State} {s : State} {v : W32} (hk : Sound t0 s) : Sound t0 (hostResetWrite s v) := by
  unfold hostResetWrite
  try dsimp only
  repeat' (first
    | (intro _) | (with_reducible exact Sound.refl _) | (with_reducible assumption) | (with_reducible apply Sound.ite)
    | (with_reducible apply pcieErr_sound) | (with_reducible apply modPart_sound)
    | (with_reducible apply triggerReset_sound) | (with_reducible apply moduleReset_sound) | (simp only [sound_upd])
    | (with_reducible apply Sound.foldl) | (with_reducible apply Sound.foldr) | (split))

theorem pcieWrite_sound {t0 : State} {s : State} {o : Nat} {v : W32} (hk : Sound t0 s) : Sound t0 (pcieWrite s o v) := by
  unfold pcieWrite
  try dsimp only
  repeat' (first
    | (intro _) | (with_reducible exact Sound.refl _) | (with_reducible assumption) | (with_reducible apply Sound.ite)
    | (with_reducible apply hostResetWrite_sound) | (simp only [sound_upd]) | (with_reducible apply Sound.foldl)
    | (with_reducible apply Sound.foldr) | (split))

theorem moduleIdWrite_keeps {t0 : State} {s : State} {p : Nat} {v : W32} (hk : Keeps t0 s) : Keeps t0
    (moduleIdWrite s p v) := by
  unfold moduleIdWrite
  try dsimp only
  repeat' (first
    | (intro _) | (with_reducible exact Keeps.refl _) | (with_reducible assumption) | (with_reducible apply Keeps.ite)
    | (with_reducible apply globErr_keeps) | (with_reducible apply modPart_keeps) | (simp only [keeps_upd])
    | (with_reducible apply Keeps.foldl) | (with_reducible apply Keeps.foldr) | (split))

theorem moduleIdWrite_sound {t0 : State} {s : State} {p : Nat} {v : W32} (hk : Sound t0 s) : Sound t0
    (moduleIdWrite s p v) := hk.trans (moduleIdWrite_keeps (Keeps.refl _)).sound

theorem placementWrite_keeps {t0 : State} {s : State} {p : Nat} {k : Nat} {v : W32} (hk : Keeps t0 s) : Keeps t0
    (placementWrite s p k v) := by
  unfold placementWrite
  try dsimp only
  repeat' (first
    | (intro _) | (with_reducible exact Keeps.refl _) | (with_reducible assumption) | (with_reducible apply Keeps.ite)
    | (with_reducible apply globErr_keeps) | (with_reducible apply modPart_keeps) | (simp only [keeps_upd])
    | (with_reducible apply Keeps.foldl) | (with_reducible apply Keeps.foldr) | (split))

theorem placementWrite_sound {t0 : State} {s : State} {p : Nat} {k : Nat} {v : W32} (hk : Sound t0 s) : Sound t0
    (placementWrite s p k v) := hk.trans (placementWrite_keeps (Keeps.refl _)).sound

theorem sillageCfgWrite_sound {t0 : State} {s : State} {p : Nat} {v : W32} (hk : Sound t0 s) : Sound t0
    (sillageCfgWrite s p v) := by
  unfold sillageCfgWrite
  try dsimp only
  repeat' (first
    | (intro _) | (with_reducible exact Sound.refl _) | (with_reducible assumption) | (with_reducible apply Sound.ite)
    | (with_reducible apply globErr_sound) | (with_reducible apply modPart_sound)
    | (with_reducible apply ringHeader_sound) | (simp only [sound_upd]) | (with_reducible apply Sound.foldl)
    | (with_reducible apply Sound.foldr) | (split))

theorem pendCmd_keeps {t0 : State} {s : State} {p : Nat} {op : Nat} {reason : Nat} (hk : Keeps t0 s) : Keeps t0
    (pendCmd s p op reason) := by
  unfold pendCmd
  try dsimp only
  repeat' (first
    | (intro _) | (with_reducible exact Keeps.refl _) | (with_reducible assumption) | (with_reducible apply Keeps.ite)
    | (with_reducible apply modPart_keeps) | (simp only [keeps_upd]) | (with_reducible apply Keeps.foldl)
    | (with_reducible apply Keeps.foldr) | (split))

theorem pendCmd_sound {t0 : State} {s : State} {p : Nat} {op : Nat} {reason : Nat} (hk : Sound t0 s) : Sound t0
    (pendCmd s p op reason) := hk.trans (pendCmd_keeps (Keeps.refl _)).sound

theorem partCmd_sound {t0 : State} {s : State} {p : Nat} {op : Nat} (hk : Sound t0 s) : Sound t0 (partCmd s p op) := by
  unfold partCmd
  try dsimp only
  repeat' (first
    | (intro _) | (with_reducible exact Sound.refl _) | (with_reducible assumption) | (with_reducible apply Sound.ite)
    | (with_reducible apply globErr_sound) | (with_reducible apply accStart_sound)
    | (with_reducible apply pendCmd_sound) | (with_reducible apply activate_sound)
    | (with_reducible apply takeOff_sound) | (simp only [sound_upd]) | (with_reducible apply Sound.foldl)
    | (with_reducible apply Sound.foldr) | (split))

theorem partWrite_sound {t0 : State} {s : State} {p : Nat} {o : Nat} {v : W32} (hk : Sound t0 s) : Sound t0
    (partWrite s p o v) := by
  unfold partWrite
  try dsimp only
  repeat' (first
    | (intro _) | (with_reducible exact Sound.refl _) | (with_reducible assumption) | (with_reducible apply Sound.ite)
    | (with_reducible apply moduleIdWrite_sound) | (with_reducible apply placementWrite_sound)
    | (with_reducible apply sillageCfgWrite_sound) | (with_reducible apply partCmd_sound) | (simp only [sound_upd])
    | (with_reducible apply Sound.foldl) | (with_reducible apply Sound.foldr) | (split))

theorem blockWrite_sound {t0 : State} {s : State} {pg : Nat} {o : Nat} {v : W32} (hk : Sound t0 s) : Sound t0
    (blockWrite s pg o v) := by
  unfold blockWrite
  try dsimp only
  repeat' (first
    | (intro _) | (with_reducible exact Sound.refl _) | (with_reducible assumption) | (with_reducible apply Sound.ite)
    | (with_reducible apply globWrite_sound) | (with_reducible apply coreWrite_sound)
    | (with_reducible apply clusterWrite_sound) | (with_reducible apply queueWrite_sound)
    | (with_reducible apply seWrite_sound) | (with_reducible apply mcWrite_sound)
    | (with_reducible apply portWriteReg_sound) | (with_reducible apply linkWrite_sound)
    | (with_reducible apply atomWrite_sound) | (with_reducible apply accWrite_sound)
    | (with_reducible apply pwrWrite_sound) | (with_reducible apply noseWrite_sound)
    | (with_reducible apply pcieWrite_sound) | (with_reducible apply partWrite_sound) | (simp only [sound_upd])
    | (with_reducible apply Sound.foldl) | (with_reducible apply Sound.foldr) | (split))

theorem writeReg4_sound {t0 : State} {s : State} {pg : Nat} {o : Nat} {v : W32} (hk : Sound t0 s) : Sound t0
    (writeReg4 s pg o v) := by
  unfold writeReg4
  try dsimp only
  repeat' (first
    | (intro _) | (with_reducible exact Sound.refl _) | (with_reducible assumption) | (with_reducible apply Sound.ite)
    | (with_reducible apply wideWrite_sound) | (with_reducible apply entryWrite_sound)
    | (with_reducible apply headerWrite_sound) | (with_reducible apply blockWrite_sound) | (simp only [sound_upd])
    | (with_reducible apply Sound.foldl) | (with_reducible apply Sound.foldr) | (split))

theorem half_sound {t0 : State} {s : State} {byNose : Bool} {pg : Nat} {o : Nat} {v : W32}
    (hk : Sound t0 s) : Sound t0 (half s byNose pg o v) := by
  unfold half
  try dsimp only
  repeat' (first
    | (intro _) | (with_reducible exact Sound.refl _) | (with_reducible assumption) | (with_reducible apply Sound.ite)
    | (with_reducible apply pcieErr_sound) | (with_reducible apply writeReg4_sound) | (simp only [sound_upd])
    | (with_reducible apply Sound.foldl) | (with_reducible apply Sound.foldr) | (split))

theorem pageWrite_sound {t0 : State} {s : State} {byNose : Bool} {pg : Nat} {o : Nat} {size : Nat} {v : Nat}
    (hk : Sound t0 s) : Sound t0 (pageWrite s byNose pg o size v) := by
  unfold pageWrite
  try dsimp only
  repeat' (first
    | (intro _) | (with_reducible exact Sound.refl _) | (with_reducible assumption) | (with_reducible apply Sound.ite)
    | (with_reducible apply pcieErr_sound) | (with_reducible apply half_sound)
    | (with_reducible apply wideWrite_sound) | (simp only [sound_upd]) | (with_reducible apply Sound.foldl)
    | (with_reducible apply Sound.foldr) | (split))

theorem bar0Write_sound {t0 : State} {s : State} {byNose : Bool} {off : Nat} {size : Nat} {v : Nat}
    (hk : Sound t0 s) : Sound t0 (bar0Write s byNose off size v) := by
  unfold bar0Write
  try dsimp only
  repeat' (first
    | (intro _) | (with_reducible exact Sound.refl _) | (with_reducible assumption) | (with_reducible apply Sound.ite)
    | (with_reducible apply pcieErr_sound) | (with_reducible apply bumpFree_sound)
    | (with_reducible apply pageWrite_sound) | (simp only [sound_upd]) | (with_reducible apply Sound.foldl)
    | (with_reducible apply Sound.foldr) | (split))

theorem flushPba_keeps {t0 : State} {s : State} (hk : Keeps t0 s) : Keeps t0 (flushPba s) := by
  unfold flushPba
  try dsimp only
  repeat' (first
    | (intro _) | (with_reducible exact Keeps.refl _) | (with_reducible assumption) | (with_reducible apply Keeps.ite)
    | (with_reducible apply sendMsi_keeps) | (simp only [keeps_upd]) | (with_reducible apply Keeps.foldl)
    | (with_reducible apply Keeps.foldr) | (split))

theorem flushPba_sound {t0 : State} {s : State} (hk : Sound t0 s) : Sound t0 (flushPba s) := hk.trans (flushPba_keeps
    (Keeps.refl _)).sound

theorem msixWrite_keeps {t0 : State} {s : State} {v : Nat} {o : Nat} {w : W32} (hk : Keeps t0 s) : Keeps t0
    (msixWrite s v o w) := by
  unfold msixWrite
  try dsimp only
  repeat' (first
    | (intro _) | (with_reducible exact Keeps.refl _) | (with_reducible assumption) | (with_reducible apply Keeps.ite)
    | (with_reducible apply flushPba_keeps) | (simp only [keeps_upd]) | (with_reducible apply Keeps.foldl)
    | (with_reducible apply Keeps.foldr) | (split))

theorem msixWrite_sound {t0 : State} {s : State} {v : Nat} {o : Nat} {w : W32} (hk : Sound t0 s) : Sound t0
    (msixWrite s v o w) := hk.trans (msixWrite_keeps (Keeps.refl _)).sound

theorem bar4Write_keeps {t0 : State} {s : State} {off : Nat} {size : Nat} {v : Nat} (hk : Keeps t0 s) : Keeps t0
    (bar4Write s off size v) := by
  unfold bar4Write
  try dsimp only
  repeat' (first
    | (intro _) | (with_reducible exact Keeps.refl _) | (with_reducible assumption) | (with_reducible apply Keeps.ite)
    | (with_reducible apply pcieErr_keeps) | (with_reducible apply mbReject_keeps)
    | (with_reducible apply setNose_keeps) | (with_reducible apply msixWrite_keeps) | (simp only [keeps_upd])
    | (with_reducible apply Keeps.foldl) | (with_reducible apply Keeps.foldr) | (split))

theorem bar4Write_sound {t0 : State} {s : State} {off : Nat} {size : Nat} {v : Nat} (hk : Sound t0 s) : Sound t0
    (bar4Write s off size v) := hk.trans (bar4Write_keeps (Keeps.refl _)).sound

theorem loseV_keeps {t0 : State} {s : State} {n : Nat} (hk : Keeps t0 s) : Keeps t0 (loseV s n) := by
  unfold loseV
  try dsimp only
  repeat' (first
    | (intro _) | (with_reducible exact Keeps.refl _) | (with_reducible assumption) | (with_reducible apply Keeps.ite)
    | (with_reducible apply bumpFree_keeps) | (with_reducible apply modCore_keeps) | (simp only [keeps_upd])
    | (with_reducible apply Keeps.foldl) | (with_reducible apply Keeps.foldr) | (split))

theorem loseV_sound {t0 : State} {s : State} {n : Nat} (hk : Sound t0 s) : Sound t0 (loseV s n) := hk.trans
    (loseV_keeps (Keeps.refl _)).sound

theorem loseJob_sound {t0 : State} {s : State} {n : Nat} (hk : Sound t0 s) : Sound t0 (loseJob s n) := by
  unfold loseJob
  try dsimp only
  repeat' (first
    | (intro _) | (with_reducible exact Sound.refl _) | (with_reducible assumption) | (with_reducible apply Sound.ite)
    | (with_reducible apply loseV_sound) | (simp only [sound_upd]) | (with_reducible apply Sound.foldl)
    | (with_reducible apply Sound.foldr) | (with_reducible exact id) | (with_reducible apply writeByte_wf)
    | (with_reducible apply writeBytes_wf) | (with_reducible apply writeCells_wf) | (with_reducible apply writeLe_wf)
    | (with_reducible apply clearRange_wf) | (with_reducible apply loseRange_wf) | (with_reducible apply clearHole_wf)
    | (with_reducible apply coverHole_wf) | (with_reducible apply writeTile_wf) | (with_reducible apply reduceAt_wf)
    | (with_reducible apply putVals_wf) | (with_reducible apply wf_foldl) | (split)
    | (with_reducible apply Sound.updMem))

theorem beginJob_sound {t0 : State} {s : State} {n : Nat} {d : List Byte} {g : List Byte}
    (hk : Sound t0 s) : Sound t0 (beginJob s n d g) := by
  unfold beginJob
  try dsimp only
  repeat' (first
    | (intro _) | (with_reducible exact Sound.refl _) | (with_reducible assumption) | (with_reducible apply Sound.ite)
    | (with_reducible apply modCore_sound) | (with_reducible apply loseJob_sound) | (simp only [sound_upd])
    | (with_reducible apply Sound.foldl) | (with_reducible apply Sound.foldr) | (split))

theorem eraseBlock_keeps {t0 : State} {s : State} {b : Nat} (hk : Keeps t0 s) : Keeps t0 (eraseBlock s b) := by
  unfold eraseBlock
  try dsimp only
  repeat' (first
    | (intro _) | (with_reducible exact Keeps.refl _) | (with_reducible assumption) | (with_reducible apply Keeps.ite)
    | (with_reducible apply anchorWrite_keeps) | (with_reducible apply setVial_keeps) | (simp only [keeps_upd])
    | (with_reducible apply Keeps.foldl) | (with_reducible apply Keeps.foldr) | (split))

theorem eraseBlock_sound {t0 : State} {s : State} {b : Nat} (hk : Sound t0 s) : Sound t0 (eraseBlock s b) := hk.trans
    (eraseBlock_keeps (Keeps.refl _)).sound

theorem beginUpdate_keeps {t0 : State} {s : State} {path : Nat} {len : Nat}  {t : State}
    (he : beginUpdate s path len = some t) (hk : Keeps t0 s) : Keeps t0 t := by
  unfold beginUpdate at he
  repeat' split at he
  all_goals first | (cases he; done) | cases he
  all_goals repeat' (first
    | (intro _) | (with_reducible exact Keeps.refl _) | (with_reducible assumption) | (with_reducible apply Keeps.ite)
    | (with_reducible apply eraseBlock_keeps) | (with_reducible apply setNose_keeps) | (simp only [keeps_upd])
    | (with_reducible apply Keeps.foldl) | (with_reducible apply Keeps.foldr) | (split) | (dsimp only))

theorem beginUpdate_sound {t0 : State} {s : State} {path : Nat} {len : Nat} {t : State}
    (he : beginUpdate s path len = some t) (hk : Sound t0 s) : Sound t0 t := hk.trans (beginUpdate_keeps he
    (Keeps.refl _)).sound

theorem bellWrite_keeps {t0 : State} {s : State} {off : Nat} {size : Nat} {v : Nat} (hk : Keeps t0 s) : Keeps t0
    (bellWrite s off size v) := by
  unfold bellWrite
  try dsimp only
  repeat' (first
    | (intro _) | (with_reducible exact Keeps.refl _) | (with_reducible assumption) | (with_reducible apply Keeps.ite)
    | (with_reducible apply pcieErr_keeps) | (with_reducible apply doorbell_keeps) | (simp only [keeps_upd])
    | (with_reducible apply Keeps.foldl) | (with_reducible apply Keeps.foldr) | (split))

theorem bellWrite_sound {t0 : State} {s : State} {off : Nat} {size : Nat} {v : Nat} (hk : Sound t0 s) : Sound t0
    (bellWrite s off size v) := hk.trans (bellWrite_keeps (Keeps.refl _)).sound

theorem windowRefused_keeps {t0 : State} {s : State} {code : Nat} {off : Nat} (hk : Keeps t0 s) : Keeps t0
    (windowRefused s code off) := by
  unfold windowRefused
  try dsimp only
  repeat' (first
    | (intro _) | (with_reducible exact Keeps.refl _) | (with_reducible assumption) | (with_reducible apply Keeps.ite)
    | (with_reducible apply recordErr_keeps) | (simp only [keeps_upd]) | (with_reducible apply Keeps.foldl)
    | (with_reducible apply Keeps.foldr) | (split))

theorem windowRefused_sound {t0 : State} {s : State} {code : Nat} {off : Nat} (hk : Sound t0 s) : Sound t0
    (windowRefused s code off) := hk.trans (windowRefused_keeps (Keeps.refl _)).sound

theorem windowWrite_sound {t0 : State} {s : State} {off : Nat} {data : List Byte} (hk : Sound t0 s) : Sound t0
    (windowWrite s off data) := by
  unfold windowWrite
  try dsimp only
  repeat' (first
    | (intro _) | (with_reducible exact Sound.refl _) | (with_reducible assumption) | (with_reducible apply Sound.ite)
    | (with_reducible apply windowRefused_sound) | (with_reducible apply hbmTouch_sound) | (simp only [sound_upd])
    | (with_reducible apply Sound.foldl) | (with_reducible apply Sound.foldr) | (with_reducible exact id)
    | (with_reducible apply writeByte_wf) | (with_reducible apply writeBytes_wf)
    | (with_reducible apply writeCells_wf) | (with_reducible apply writeLe_wf) | (with_reducible apply clearRange_wf)
    | (with_reducible apply loseRange_wf) | (with_reducible apply clearHole_wf) | (with_reducible apply coverHole_wf)
    | (with_reducible apply writeTile_wf) | (with_reducible apply reduceAt_wf) | (with_reducible apply putVals_wf)
    | (with_reducible apply wf_foldl) | (split) | (with_reducible apply Sound.updMem))

theorem hostWrite_sound {t0 : State} {s : State} {bar : Nat} {off : Nat} {size : Nat} {v : Nat}
    (hk : Sound t0 s) : Sound t0 (hostWrite s bar off size v) := by
  unfold hostWrite
  try dsimp only
  repeat' (first
    | (intro _) | (with_reducible exact Sound.refl _) | (with_reducible assumption) | (with_reducible apply Sound.ite)
    | (with_reducible apply bar0Write_sound) | (with_reducible apply bellWrite_sound)
    | (with_reducible apply windowWrite_sound) | (with_reducible apply bar4Write_sound) | (simp only [sound_upd])
    | (with_reducible apply Sound.foldl) | (with_reducible apply Sound.foldr) | (split))

theorem hostReg_sound {t0 : State} {s : State} {pg : Nat} {o : Nat} {v : Nat} (hk : Sound t0 s) : Sound t0
    (hostReg s pg o v) := by
  unfold hostReg
  try dsimp only
  repeat' (first
    | (intro _) | (with_reducible exact Sound.refl _) | (with_reducible assumption) | (with_reducible apply Sound.ite)
    | (with_reducible apply hostWrite_sound) | (simp only [sound_upd]) | (with_reducible apply Sound.foldl)
    | (with_reducible apply Sound.foldr) | (split))

theorem bindWrite_sound {t0 : State} {s : State} {q : Nat} {v : W32} (hk : Sound t0 s) : Sound t0 (bindWrite s q v) := by
  unfold bindWrite
  try dsimp only
  repeat' (first
    | (intro _) | (with_reducible exact Sound.refl _) | (with_reducible assumption) | (with_reducible apply Sound.ite)
    | (with_reducible apply hostReg_sound) | (simp only [sound_upd]) | (with_reducible apply Sound.foldl)
    | (with_reducible apply Sound.foldr) | (split))

theorem bootDone_keeps {t0 : State} {s : State} {ms : Nat} {disabled : List Nat} {narrowed : List (Nat × Nat)}
    {rows : List W32} (hk : Keeps t0 s) : Keeps t0 (bootDone s ms disabled narrowed rows) := by
  unfold bootDone
  try dsimp only
  repeat' (first
    | (intro _) | (with_reducible exact Keeps.refl _) | (with_reducible assumption) | (with_reducible apply Keeps.ite)
    | (with_reducible apply settlePower_keeps) | (with_reducible apply raiseEvt_keeps) | (simp only [keeps_upd])
    | (with_reducible apply Keeps.foldl) | (with_reducible apply Keeps.foldr) | (split))

theorem bootDone_sound {t0 : State} {s : State} {ms : Nat} {disabled : List Nat} {narrowed : List (Nat × Nat)}
    {rows : List W32} (hk : Sound t0 s) : Sound t0 (bootDone s ms disabled narrowed rows) := hk.trans (bootDone_keeps
    (Keeps.refl _)).sound

theorem bootFail_keeps {t0 : State} {s : State} {code : Nat} (hk : Keeps t0 s) : Keeps t0 (bootFail s code) := by
  unfold bootFail
  try dsimp only
  repeat' (first
    | (intro _) | (with_reducible exact Keeps.refl _) | (with_reducible assumption) | (with_reducible apply Keeps.ite)
    | (with_reducible apply globErr_keeps) | (with_reducible apply accStop_keeps)
    | (with_reducible apply setPwr_keeps) | (with_reducible apply issueBlotter_keeps) | (simp only [keeps_upd])
    | (with_reducible apply Keeps.foldl) | (with_reducible apply Keeps.foldr) | (split))

theorem bootFail_sound {t0 : State} {s : State} {code : Nat} (hk : Sound t0 s) : Sound t0
    (bootFail s code) := hk.trans (bootFail_keeps (Keeps.refl _)).sound

theorem startImage_keeps {t0 : State} {s : State} {verdict : Nat} (hk : Keeps t0 s) : Keeps t0 (startImage s verdict) := by
  unfold startImage
  try dsimp only
  repeat' (first
    | (intro _) | (with_reducible exact Keeps.refl _) | (with_reducible assumption) | (with_reducible apply Keeps.ite)
    | (with_reducible apply recordErr_keeps) | (simp only [keeps_upd]) | (with_reducible apply Keeps.foldl)
    | (with_reducible apply Keeps.foldr) | (split))

theorem startImage_sound {t0 : State} {s : State} {verdict : Nat} (hk : Sound t0 s) : Sound t0
    (startImage s verdict) := hk.trans (startImage_keeps (Keeps.refl _)).sound

theorem keysMade_keeps {t0 : State} {s : State} (hk : Keeps t0 s) : Keeps t0 (keysMade s) := by
  unfold keysMade
  try dsimp only
  repeat' (first
    | (intro _) | (with_reducible exact Keeps.refl _) | (with_reducible assumption) | (with_reducible apply Keeps.ite)
    | (simp only [keeps_upd]) | (with_reducible apply Keeps.foldl) | (with_reducible apply Keeps.foldr) | (split))

theorem keysMade_sound {t0 : State} {s : State} (hk : Sound t0 s) : Sound t0 (keysMade s) := hk.trans (keysMade_keeps
    (Keeps.refl _)).sound

theorem bootLoaded_keeps {t0 : State} {s : State} (hk : Keeps t0 s) : Keeps t0 (bootLoaded s) := by
  unfold bootLoaded
  try dsimp only
  repeat' (first
    | (intro _) | (with_reducible exact Keeps.refl _) | (with_reducible assumption) | (with_reducible apply Keeps.ite)
    | (with_reducible apply startImage_keeps) | (with_reducible apply keysMade_keeps) | (simp only [keeps_upd])
    | (with_reducible apply Keeps.foldl) | (with_reducible apply Keeps.foldr) | (split))

theorem bootLoaded_sound {t0 : State} {s : State} (hk : Sound t0 s) : Sound t0 (bootLoaded s) := hk.trans
    (bootLoaded_keeps (Keeps.refl _)).sound

theorem recordMap_keeps {t0 : State} {s : State} {m : List Byte} (hk : Keeps t0 s) : Keeps t0 (recordMap s m) := by
  unfold recordMap
  try dsimp only
  repeat' (first
    | (intro _) | (with_reducible exact Keeps.refl _) | (with_reducible assumption) | (with_reducible apply Keeps.ite)
    | (with_reducible apply writeRec_keeps) | (simp only [keeps_upd]) | (with_reducible apply Keeps.foldl)
    | (with_reducible apply Keeps.foldr) | (split))

theorem recordMap_sound {t0 : State} {s : State} {m : List Byte} (hk : Sound t0 s) : Sound t0
    (recordMap s m) := hk.trans (recordMap_keeps (Keeps.refl _)).sound

theorem coldRecords_keeps {t0 : State} {s : State} (hk : Keeps t0 s) : Keeps t0 (coldRecords s) := by
  unfold coldRecords
  try dsimp only
  repeat' (first
    | (intro _) | (with_reducible exact Keeps.refl _) | (with_reducible assumption) | (with_reducible apply Keeps.ite)
    | (with_reducible apply writeRec_keeps) | (simp only [keeps_upd]) | (with_reducible apply Keeps.foldl)
    | (with_reducible apply Keeps.foldr) | (split))

theorem coldRecords_sound {t0 : State} {s : State} (hk : Sound t0 s) : Sound t0 (coldRecords s) := hk.trans
    (coldRecords_keeps (Keeps.refl _)).sound

theorem bootReady_keeps {t0 : State} {s : State} {ms : Nat} {disabled : List Nat} {narrowed : List (Nat × Nat)}
    {rows : List W32} {badSites : List Nat} (hk : Keeps t0 s) : Keeps t0
    (bootReady s ms disabled narrowed rows badSites) := by
  unfold bootReady
  try dsimp only
  repeat' (first
    | (intro _) | (with_reducible exact Keeps.refl _) | (with_reducible assumption) | (with_reducible apply Keeps.ite)
    | (with_reducible apply recordMap_keeps) | (with_reducible apply coldRecords_keeps)
    | (with_reducible apply bootFail_keeps) | (with_reducible apply bootDone_keeps) | (simp only [keeps_upd])
    | (with_reducible apply Keeps.foldl) | (with_reducible apply Keeps.foldr) | (split))

theorem bootReady_sound {t0 : State} {s : State} {ms : Nat} {disabled : List Nat} {narrowed : List (Nat × Nat)}
    {rows : List W32} {badSites : List Nat} (hk : Sound t0 s) : Sound t0
    (bootReady s ms disabled narrowed rows badSites) := hk.trans (bootReady_keeps (Keeps.refl _)).sound

theorem capDown_keeps {t0 : State} {s : State} (hk : Keeps t0 s) : Keeps t0 (capDown s) := by
  unfold capDown
  try dsimp only
  repeat' (first
    | (intro _) | (with_reducible exact Keeps.refl _) | (with_reducible assumption) | (with_reducible apply Keeps.ite)
    | (with_reducible apply raiseEvt_keeps) | (with_reducible apply setPwr_keeps) | (simp only [keeps_upd])
    | (with_reducible apply Keeps.foldl) | (with_reducible apply Keeps.foldr) | (split))

theorem capDown_sound {t0 : State} {s : State} (hk : Sound t0 s) : Sound t0 (capDown s) := hk.trans (capDown_keeps
    (Keeps.refl _)).sound

theorem capUp_keeps {t0 : State} {s : State} (hk : Keeps t0 s) : Keeps t0 (capUp s) := by
  unfold capUp
  try dsimp only
  repeat' (first
    | (intro _) | (with_reducible exact Keeps.refl _) | (with_reducible assumption) | (with_reducible apply Keeps.ite)
    | (with_reducible apply setPwr_keeps) | (simp only [keeps_upd]) | (with_reducible apply Keeps.foldl)
    | (with_reducible apply Keeps.foldr) | (split))

theorem capUp_sound {t0 : State} {s : State} (hk : Sound t0 s) : Sound t0 (capUp s) := hk.trans (capUp_keeps
    (Keeps.refl _)).sound

theorem combineTokens_sound {t0 : State} {s : State} {n : Nat} {b : List Byte} {i : Nat} {a4 : Nat}
    (hk : Sound t0 s) : Sound t0 (combineTokens s n b i a4) := by
  induction a4 generalizing s n b i with
  | zero =>
    rw [combineTokens]
    try dsimp only
    repeat' (first
      | (intro _) | (with_reducible exact Sound.refl _) | (with_reducible assumption)
      | (with_reducible apply Sound.ite) | (simp only [sound_upd]) | (with_reducible apply Sound.foldl)
      | (with_reducible apply Sound.foldr) | (with_reducible exact id) | (with_reducible apply writeByte_wf)
      | (with_reducible apply writeBytes_wf) | (with_reducible apply writeCells_wf)
      | (with_reducible apply writeLe_wf) | (with_reducible apply clearRange_wf) | (with_reducible apply loseRange_wf)
      | (with_reducible apply clearHole_wf) | (with_reducible apply coverHole_wf)
      | (with_reducible apply writeTile_wf) | (with_reducible apply reduceAt_wf) | (with_reducible apply putVals_wf)
      | (with_reducible apply wf_foldl) | (split) | (with_reducible apply Sound.updMem))
  | succ k ih =>
    rw [combineTokens]
    try dsimp only
    repeat' (first
      | (intro _) | (with_reducible exact Sound.refl _) | (with_reducible assumption)
      | (with_reducible apply Sound.ite) | (with_reducible apply ih) | (simp only [sound_upd])
      | (with_reducible apply Sound.foldl) | (with_reducible apply Sound.foldr) | (with_reducible exact id)
      | (with_reducible apply writeByte_wf) | (with_reducible apply writeBytes_wf)
      | (with_reducible apply writeCells_wf) | (with_reducible apply writeLe_wf)
      | (with_reducible apply clearRange_wf) | (with_reducible apply loseRange_wf)
      | (with_reducible apply clearHole_wf) | (with_reducible apply coverHole_wf)
      | (with_reducible apply writeTile_wf) | (with_reducible apply reduceAt_wf) | (with_reducible apply putVals_wf)
      | (with_reducible apply wf_foldl) | (split) | (with_reducible apply Sound.updMem))

theorem taintOut_sound {t0 : State} {s : State} {n : Nat} {lo : Nat} {len : Nat} (hk : Sound t0 s) : Sound t0
    (taintOut s n lo len) := by
  unfold taintOut
  try dsimp only
  repeat' (first
    | (intro _) | (with_reducible exact Sound.refl _) | (with_reducible assumption) | (with_reducible apply Sound.ite)
    | (with_reducible apply bumpFree_sound) | (simp only [sound_upd]) | (with_reducible apply Sound.foldl)
    | (with_reducible apply Sound.foldr) | (with_reducible exact id) | (with_reducible apply writeByte_wf)
    | (with_reducible apply writeBytes_wf) | (with_reducible apply writeCells_wf) | (with_reducible apply writeLe_wf)
    | (with_reducible apply clearRange_wf) | (with_reducible apply loseRange_wf) | (with_reducible apply clearHole_wf)
    | (with_reducible apply coverHole_wf) | (with_reducible apply writeTile_wf) | (with_reducible apply reduceAt_wf)
    | (with_reducible apply putVals_wf) | (with_reducible apply wf_foldl) | (split)
    | (with_reducible apply Sound.updMem))

theorem jobDone_keeps {t0 : State} {s : State} {n : Nat} {k : Nat} (hk : Keeps t0 s) : Keeps t0 (jobDone s n k) := by
  unfold jobDone
  try dsimp only
  repeat' (first
    | (intro _) | (with_reducible exact Keeps.refl _) | (with_reducible assumption) | (with_reducible apply Keeps.ite)
    | (with_reducible apply modCore_keeps) | (simp only [keeps_upd]) | (with_reducible apply Keeps.foldl)
    | (with_reducible apply Keeps.foldr) | (split))

theorem jobDone_sound {t0 : State} {s : State} {n : Nat} {k : Nat} (hk : Sound t0 s) : Sound t0
    (jobDone s n k) := hk.trans (jobDone_keeps (Keeps.refl _)).sound

theorem endJob_sound {t0 : State} {s : State} {n : Nat} (hk : Sound t0 s) : Sound t0 (endJob s n) := by
  unfold endJob
  try dsimp only
  repeat' (first
    | (intro _) | (with_reducible exact Sound.refl _) | (with_reducible assumption) | (with_reducible apply Sound.ite)
    | (with_reducible apply loseJob_sound) | (with_reducible apply setCore_sound)
    | (with_reducible apply tryRotate_sound) | (with_reducible apply report_sound) | (simp only [sound_upd])
    | (with_reducible apply Sound.foldl) | (with_reducible apply Sound.foldr) | (split))

theorem combineWork_sound {t0 : State} {s : State} {n : Nat} {count : Nat} (hk : Sound t0 s) : Sound t0
    (combineWork s n count) := by
  unfold combineWork
  try dsimp only
  repeat' (first
    | (intro _) | (with_reducible exact Sound.refl _) | (with_reducible assumption) | (with_reducible apply Sound.ite)
    | (with_reducible apply stopCore_sound) | (with_reducible apply beginJob_sound)
    | (with_reducible apply coreHbm_sound) | (with_reducible apply taintOut_sound)
    | (with_reducible apply jobDone_sound) | (with_reducible apply combineTokens_sound)
    | (with_reducible apply endJob_sound) | (simp only [sound_upd]) | (with_reducible apply Sound.foldl)
    | (with_reducible apply Sound.foldr) | (split))

theorem switchImage_keeps {t0 : State} {s : State} {u : Update} (hk : Keeps t0 s) : Keeps t0 (switchImage s u) := by
  unfold switchImage
  try dsimp only
  repeat' (first
    | (intro _) | (with_reducible exact Keeps.refl _) | (with_reducible assumption) | (with_reducible apply Keeps.ite)
    | (with_reducible apply anchorWrite_keeps) | (with_reducible apply setVial_keeps)
    | (with_reducible apply setNose_keeps) | (simp only [keeps_upd]) | (with_reducible apply Keeps.foldl)
    | (with_reducible apply Keeps.foldr) | (split))

theorem switchImage_sound {t0 : State} {s : State} {u : Update} (hk : Sound t0 s) : Sound t0
    (switchImage s u) := hk.trans (switchImage_keeps (Keeps.refl _)).sound

theorem noseErr_keeps {t0 : State} {s : State} {code : Nat} {lo : Nat} (hk : Keeps t0 s) : Keeps t0 (noseErr s code lo) := by
  unfold noseErr
  try dsimp only
  repeat' (first
    | (intro _) | (with_reducible exact Keeps.refl _) | (with_reducible assumption) | (with_reducible apply Keeps.ite)
    | (with_reducible apply recordErr_keeps) | (simp only [keeps_upd]) | (with_reducible apply Keeps.foldl)
    | (with_reducible apply Keeps.foldr) | (split))

theorem noseErr_sound {t0 : State} {s : State} {code : Nat} {lo : Nat} (hk : Sound t0 s) : Sound t0
    (noseErr s code lo) := hk.trans (noseErr_keeps (Keeps.refl _)).sound

theorem dropStaging_keeps {t0 : State} {s : State} (hk : Keeps t0 s) : Keeps t0 (dropStaging s) := by
  unfold dropStaging
  try dsimp only
  repeat' (first
    | (intro _) | (with_reducible exact Keeps.refl _) | (with_reducible assumption) | (with_reducible apply Keeps.ite)
    | (with_reducible apply setNose_keeps) | (simp only [keeps_upd]) | (with_reducible apply Keeps.foldl)
    | (with_reducible apply Keeps.foldr) | (split))

theorem dropStaging_sound {t0 : State} {s : State} (hk : Sound t0 s) : Sound t0 (dropStaging s) := hk.trans
    (dropStaging_keeps (Keeps.refl _)).sound

theorem commitUpdate_keeps {t0 : State} {s : State} {u : Update} {verdict : Nat} (hk : Keeps t0 s) : Keeps t0
    (commitUpdate s u verdict).1 := by
  unfold commitUpdate
  try dsimp only
  repeat' (first
    | (intro _) | (with_reducible exact Keeps.refl _) | (with_reducible assumption) | (with_reducible apply Keeps.ite)
    | (with_reducible apply switchImage_keeps) | (with_reducible apply noseErr_keeps)
    | (with_reducible apply dropStaging_keeps) | (simp only [keeps_upd]) | (with_reducible apply Keeps.foldl)
    | (with_reducible apply Keeps.foldr) | (split))

theorem commitUpdate_keeps' {t0 : State} {s : State} {u : Update} {verdict : Nat} {t : State} {y : Nat}
    (he : commitUpdate s u verdict = (t, y)) (hk : Keeps t0 s) : Keeps t0 t := by
  have k := commitUpdate_keeps (s := s) (u := u) (verdict := verdict) hk
  rw [he] at k
  exact k

theorem commitUpdate_sound {t0 : State} {s : State} {u : Update} {verdict : Nat} (hk : Sound t0 s) : Sound t0
    (commitUpdate s u verdict).1 := hk.trans (commitUpdate_keeps (Keeps.refl _)).sound

theorem commitUpdate_sound' {t0 : State} {s : State} {u : Update} {verdict : Nat} {t : State} {y : Nat}
    (he : commitUpdate s u verdict = (t, y)) (hk : Sound t0 s) : Sound t0 t := hk.trans (commitUpdate_keeps' he
    (Keeps.refl _)).sound

theorem controlAnswer_keeps {t0 : State} {s : State} {b : Nat} {cmd : Nat} {data : List Byte}
    (hk : Keeps t0 s) : Keeps t0 (controlAnswer s b cmd data).1 := by
  unfold controlAnswer
  try dsimp only
  repeat' (first
    | (intro _) | (with_reducible exact Keeps.refl _) | (with_reducible assumption) | (with_reducible apply Keeps.ite)
    | (with_reducible apply setNose_keeps) | (with_reducible apply bumpFree_keeps) | (simp only [keeps_upd])
    | (with_reducible apply Keeps.foldl) | (with_reducible apply Keeps.foldr) | (split))

theorem controlAnswer_keeps' {t0 : State} {s : State} {b : Nat} {cmd : Nat} {data : List Byte} {t : State}
    {y : List Byte} (he : controlAnswer s b cmd data = (t, y)) (hk : Keeps t0 s) : Keeps t0 t := by
  have k := controlAnswer_keeps (s := s) (b := b) (cmd := cmd) (data := data) hk
  rw [he] at k
  exact k

theorem controlAnswer_sound {t0 : State} {s : State} {b : Nat} {cmd : Nat} {data : List Byte}
    (hk : Sound t0 s) : Sound t0 (controlAnswer s b cmd data).1 := hk.trans (controlAnswer_keeps (Keeps.refl _)).sound

theorem controlAnswer_sound' {t0 : State} {s : State} {b : Nat} {cmd : Nat} {data : List Byte} {t : State}
    {y : List Byte} (he : controlAnswer s b cmd data = (t, y)) (hk : Sound t0 s) : Sound t0 t := hk.trans
    (controlAnswer_keeps' he (Keeps.refl _)).sound

theorem crossEvent_keeps {t0 : State} {s : State} {id : Nat} {old : Nat} {new : Nat} {v : Nat}
    (hk : Keeps t0 s) : Keeps t0 (crossEvent s id old new v) := by
  unfold crossEvent
  try dsimp only
  repeat' (first
    | (intro _) | (with_reducible exact Keeps.refl _) | (with_reducible assumption) | (with_reducible apply Keeps.ite)
    | (with_reducible apply platformEvent_keeps) | (simp only [keeps_upd]) | (with_reducible apply Keeps.foldl)
    | (with_reducible apply Keeps.foldr) | (split))

theorem crossEvent_sound {t0 : State} {s : State} {id : Nat} {old : Nat} {new : Nat} {v : Nat}
    (hk : Sound t0 s) : Sound t0 (crossEvent s id old new v) := hk.trans (crossEvent_keeps (Keeps.refl _)).sound

theorem deriveKeys_keeps {t0 : State} {s : State} (hk : Keeps t0 s) : Keeps t0 (deriveKeys s) := by
  unfold deriveKeys
  try dsimp only
  repeat' (first
    | (intro _) | (with_reducible exact Keeps.refl _) | (with_reducible assumption) | (with_reducible apply Keeps.ite)
    | (simp only [keeps_upd]) | (with_reducible apply Keeps.foldl) | (with_reducible apply Keeps.foldr) | (split))

theorem deriveKeys_sound {t0 : State} {s : State} (hk : Sound t0 s) : Sound t0 (deriveKeys s) := hk.trans
    (deriveKeys_keeps (Keeps.refl _)).sound

theorem pwrBlotter_keeps {t0 : State} {s : State} {cls : Nat} {code : Nat} {parts : Nat} {rail : Nat}
    (hk : Keeps t0 s) : Keeps t0 (pwrBlotter s cls code parts rail) := by
  unfold pwrBlotter
  try dsimp only
  repeat' (first
    | (intro _) | (with_reducible exact Keeps.refl _) | (with_reducible assumption) | (with_reducible apply Keeps.ite)
    | (with_reducible apply issueBlotter_keeps) | (simp only [keeps_upd]) | (with_reducible apply Keeps.foldl)
    | (with_reducible apply Keeps.foldr) | (split))

theorem pwrBlotter_sound {t0 : State} {s : State} {cls : Nat} {code : Nat} {parts : Nat} {rail : Nat}
    (hk : Sound t0 s) : Sound t0 (pwrBlotter s cls code parts rail) := hk.trans (pwrBlotter_keeps (Keeps.refl _)).sound

theorem tripUnit_sound {t0 : State} {s : State} {u : Nat} (hk : Sound t0 s) : Sound t0 (tripUnit s u) := by
  unfold tripUnit
  try dsimp only
  repeat' (first
    | (intro _) | (with_reducible exact Sound.refl _) | (with_reducible assumption) | (with_reducible apply Sound.ite)
    | (with_reducible apply pwrErr_sound) | (with_reducible apply setPwr_sound) | (with_reducible apply takeOff_sound)
    | (with_reducible apply downPorts_sound) | (with_reducible apply pwrBlotter_sound) | (simp only [sound_upd])
    | (with_reducible apply Sound.foldl) | (with_reducible apply Sound.foldr) | (split))

theorem thermDown_keeps {t0 : State} {s : State} {d : Nat} (hk : Keeps t0 s) : Keeps t0 (thermDown s d) := by
  unfold thermDown
  try dsimp only
  repeat' (first
    | (intro _) | (with_reducible exact Keeps.refl _) | (with_reducible assumption) | (with_reducible apply Keeps.ite)
    | (with_reducible apply raiseEvt_keeps) | (with_reducible apply setPwr_keeps) | (simp only [keeps_upd])
    | (with_reducible apply Keeps.foldl) | (with_reducible apply Keeps.foldr) | (split))

theorem thermDown_sound {t0 : State} {s : State} {d : Nat} (hk : Sound t0 s) : Sound t0 (thermDown s d) := hk.trans
    (thermDown_keeps (Keeps.refl _)).sound

theorem thermCool_keeps {t0 : State} {s : State} {d : Nat} (hk : Keeps t0 s) : Keeps t0 (thermCool s d) := by
  unfold thermCool
  try dsimp only
  repeat' (first
    | (intro _) | (with_reducible exact Keeps.refl _) | (with_reducible assumption) | (with_reducible apply Keeps.ite)
    | (with_reducible apply setPwr_keeps) | (simp only [keeps_upd]) | (with_reducible apply Keeps.foldl)
    | (with_reducible apply Keeps.foldr) | (split))

theorem thermCool_sound {t0 : State} {s : State} {d : Nat} (hk : Sound t0 s) : Sound t0 (thermCool s d) := hk.trans
    (thermCool_keeps (Keeps.refl _)).sound

theorem dieThermal_sound {t0 : State} {s : State} {d : Nat} {t : Nat} (hk : Sound t0 s) : Sound t0 (dieThermal s d t) := by
  unfold dieThermal
  try dsimp only
  repeat' (first
    | (intro _) | (with_reducible exact Sound.refl _) | (with_reducible assumption) | (with_reducible apply Sound.ite)
    | (with_reducible apply setPwr_sound) | (with_reducible apply tripUnit_sound)
    | (with_reducible apply settleOp_sound) | (with_reducible apply thermDown_sound)
    | (with_reducible apply thermCool_sound) | (simp only [sound_upd]) | (with_reducible apply Sound.foldl)
    | (with_reducible apply Sound.foldr) | (split))

theorem discoveryAnswer_keeps {t0 : State} {s : State} {cmd : Nat} {data : List Byte} (hk : Keeps t0 s) : Keeps t0
    (discoveryAnswer s cmd data).1 := by
  unfold discoveryAnswer
  try dsimp only
  repeat' (first
    | (intro _) | (with_reducible exact Keeps.refl _) | (with_reducible assumption) | (with_reducible apply Keeps.ite)
    | (with_reducible apply setNose_keeps) | (with_reducible apply bumpFree_keeps) | (simp only [keeps_upd])
    | (with_reducible apply Keeps.foldl) | (with_reducible apply Keeps.foldr) | (split))

theorem discoveryAnswer_keeps' {t0 : State} {s : State} {cmd : Nat} {data : List Byte} {t : State} {y : List Byte}
    (he : discoveryAnswer s cmd data = (t, y)) (hk : Keeps t0 s) : Keeps t0 t := by
  have k := discoveryAnswer_keeps (s := s) (cmd := cmd) (data := data) hk
  rw [he] at k
  exact k

theorem discoveryAnswer_sound {t0 : State} {s : State} {cmd : Nat} {data : List Byte} (hk : Sound t0 s) : Sound t0
    (discoveryAnswer s cmd data).1 := hk.trans (discoveryAnswer_keeps (Keeps.refl _)).sound

theorem discoveryAnswer_sound' {t0 : State} {s : State} {cmd : Nat} {data : List Byte} {t : State} {y : List Byte}
    (he : discoveryAnswer s cmd data = (t, y)) (hk : Sound t0 s) : Sound t0 t := hk.trans (discoveryAnswer_keeps' he
    (Keeps.refl _)).sound

theorem localTag_sound {t0 : State} {s : State} {q : Nat} {k : Nat} {t : List Byte} (hk : Sound t0 s) : Sound t0
    (localTag s q k t) := by
  unfold localTag
  try dsimp only
  repeat' (first
    | (intro _) | (with_reducible exact Sound.refl _) | (with_reducible assumption) | (with_reducible apply Sound.ite)
    | (simp only [sound_upd]) | (with_reducible apply Sound.foldl) | (with_reducible apply Sound.foldr)
    | (with_reducible exact id) | (with_reducible apply writeByte_wf) | (with_reducible apply writeBytes_wf)
    | (with_reducible apply writeCells_wf) | (with_reducible apply writeLe_wf) | (with_reducible apply clearRange_wf)
    | (with_reducible apply loseRange_wf) | (with_reducible apply clearHole_wf) | (with_reducible apply coverHole_wf)
    | (with_reducible apply writeTile_wf) | (with_reducible apply reduceAt_wf) | (with_reducible apply putVals_wf)
    | (with_reducible apply wf_foldl) | (split) | (with_reducible apply Sound.updMem))

theorem dispatchChoice_sound {t0 : State} {s : State} {x : Nat} {p : Nat} {b : List Byte} {k : Nat}
    (hk : Sound t0 s) : Sound t0 (dispatchChoice s x p b k).1 := by
  unfold dispatchChoice
  try dsimp only
  repeat' (first
    | (intro _) | (with_reducible exact Sound.refl _) | (with_reducible assumption) | (with_reducible apply Sound.ite)
    | (with_reducible apply modAtom_sound) | (with_reducible apply applyDrop_sound)
    | (with_reducible apply localTag_sound) | (with_reducible apply sendMsgs_sound)
    | (with_reducible apply iodTouch_sound) | (with_reducible apply bumpFree_sound)
    | (with_reducible apply dispatchMessage_sound) | (with_reducible apply dispatchMessage_sound' (by assumption))
    | (simp only [sound_upd]) | (with_reducible apply Sound.foldl) | (with_reducible apply Sound.foldr)
    | (with_reducible apply admitRow_held (by assumption)) | (with_reducible apply admitRow_drop (by assumption))
    | (with_reducible apply admitRow_slot (by assumption)) | (with_reducible apply enterRound_held (by assumption))
    | (with_reducible apply enterRound_current (by assumption)) | (split))

theorem dispatchChoice_sound' {t0 : State} {s : State} {x : Nat} {p : Nat} {b : List Byte} {k : Nat} {t : State}
    {y : Bool} (he : dispatchChoice s x p b k = (t, y)) (hk : Sound t0 s) : Sound t0 t := by
  have k := dispatchChoice_sound (s := s) (x := x) (p := p) (b := b) (k := k) hk
  rw [he] at k
  exact k

theorem dispatchMark_sound {t0 : State} {s : State} {x : Nat} {p : Nat} {b : List Byte} {e : Nat}
    (hk : Sound t0 s) : Sound t0 (dispatchMark s x p b e).1 := by
  unfold dispatchMark
  try dsimp only
  repeat' (first
    | (intro _) | (with_reducible exact Sound.refl _) | (with_reducible assumption) | (with_reducible apply Sound.ite)
    | (with_reducible apply endMark_sound) | (with_reducible apply endMark_sound' (by assumption))
    | (with_reducible apply sendMsgs_sound) | (with_reducible apply bumpFree_sound) | (simp only [sound_upd])
    | (with_reducible apply Sound.foldl) | (with_reducible apply Sound.foldr) | (split))

theorem dispatchMark_sound' {t0 : State} {s : State} {x : Nat} {p : Nat} {b : List Byte} {e : Nat} {t : State}
    {y : Bool} (he : dispatchMark s x p b e = (t, y)) (hk : Sound t0 s) : Sound t0 t := by
  have k := dispatchMark_sound (s := s) (x := x) (p := p) (b := b) (e := e) hk
  rw [he] at k
  exact k

theorem putDisp_keeps {t0 : State} {s : State} {x : Nat} {d : Disp} (hk : Keeps t0 s) : Keeps t0 (putDisp s x d) := by
  unfold putDisp
  try dsimp only
  repeat' (first
    | (intro _) | (with_reducible exact Keeps.refl _) | (with_reducible assumption) | (with_reducible apply Keeps.ite)
    | (with_reducible apply modAtom_keeps) | (simp only [keeps_upd]) | (with_reducible apply Keeps.foldl)
    | (with_reducible apply Keeps.foldr) | (split))

theorem putDisp_sound {t0 : State} {s : State} {x : Nat} {d : Disp} (hk : Sound t0 s) : Sound t0
    (putDisp s x d) := hk.trans (putDisp_keeps (Keeps.refl _)).sound

theorem stepDisp_sound {t0 : State} {s : State} {x : Nat} {p : Nat} {d : Disp} (hk : Sound t0 s) : Sound t0
    (stepDisp s x p d) := by
  unfold stepDisp
  try dsimp only
  repeat' (first
    | (intro _) | (with_reducible exact Sound.refl _) | (with_reducible assumption) | (with_reducible apply Sound.ite)
    | (with_reducible apply dispatchChoice_sound) | (with_reducible apply dispatchChoice_sound' (by assumption))
    | (with_reducible apply putDisp_sound) | (with_reducible apply dispatchMark_sound)
    | (with_reducible apply dispatchMark_sound' (by assumption)) | (with_reducible apply endDisp_sound)
    | (simp only [sound_upd]) | (with_reducible apply Sound.foldl) | (with_reducible apply Sound.foldr) | (split))

theorem startDisp_keeps {t0 : State} {s : State} {x : Nat} {p : Nat} {d : Disp} (hk : Keeps t0 s) : Keeps t0
    (startDisp s x p d) := by
  unfold startDisp
  try dsimp only
  repeat' (first
    | (intro _) | (with_reducible exact Keeps.refl _) | (with_reducible assumption) | (with_reducible apply Keeps.ite)
    | (with_reducible apply endDisp_keeps) | (with_reducible apply atomNote_keeps)
    | (with_reducible apply modAtom_keeps) | (with_reducible apply putDisp_keeps) | (simp only [keeps_upd])
    | (with_reducible apply Keeps.foldl) | (with_reducible apply Keeps.foldr) | (split))

theorem startDisp_sound {t0 : State} {s : State} {x : Nat} {p : Nat} {d : Disp} (hk : Sound t0 s) : Sound t0
    (startDisp s x p d) := hk.trans (startDisp_keeps (Keeps.refl _)).sound

theorem dispatchRow_sound {t0 : State} {s : State} {q : Nat} (hk : Sound t0 s) : Sound t0 (dispatchRow s q) := by
  unfold dispatchRow
  try dsimp only
  repeat' (first
    | (intro _) | (with_reducible exact Sound.refl _) | (with_reducible assumption) | (with_reducible apply Sound.ite)
    | (with_reducible apply recRow_sound) | (with_reducible apply stepDisp_sound)
    | (with_reducible apply startDisp_sound) | (with_reducible apply modAtom_sound)
    | (with_reducible apply putRec_sound) | (simp only [sound_upd]) | (with_reducible apply Sound.foldl)
    | (with_reducible apply Sound.foldr) | (split))

theorem dropHdrs_keeps {t0 : State} {s : State} {f : Nat → Bool} (hk : Keeps t0 s) : Keeps t0 (dropHdrs s f) := by
  unfold dropHdrs
  try dsimp only
  repeat' (first
    | (intro _) | (with_reducible exact Keeps.refl _) | (with_reducible assumption) | (with_reducible apply Keeps.ite)
    | (simp only [keeps_upd]) | (with_reducible apply Keeps.foldl) | (with_reducible apply Keeps.foldr) | (split))

theorem dropHdrs_sound {t0 : State} {s : State} {f : Nat → Bool} (hk : Sound t0 s) : Sound t0
    (dropHdrs s f) := hk.trans (dropHdrs_keeps (Keeps.refl _)).sound

theorem dropOldest_keeps {t0 : State} {s : State} (hk : Keeps t0 s) : Keeps t0 (dropOldest s) := by
  unfold dropOldest
  try dsimp only
  repeat' (first
    | (intro _) | (with_reducible exact Keeps.refl _) | (with_reducible assumption) | (with_reducible apply Keeps.ite)
    | (with_reducible apply eraseBlock_keeps) | (with_reducible apply setVial_keeps) | (simp only [keeps_upd])
    | (with_reducible apply Keeps.foldl) | (with_reducible apply Keeps.foldr) | (split))

theorem dropOldest_sound {t0 : State} {s : State} (hk : Sound t0 s) : Sound t0 (dropOldest s) := hk.trans
    (dropOldest_keeps (Keeps.refl _)).sound

theorem vialErr_keeps {t0 : State} {s : State} {code : Nat} {region : Nat} {lun : Nat} (hk : Keeps t0 s) : Keeps t0
    (vialErr s code region lun) := by
  unfold vialErr
  try dsimp only
  repeat' (first
    | (intro _) | (with_reducible exact Keeps.refl _) | (with_reducible assumption) | (with_reducible apply Keeps.ite)
    | (with_reducible apply recordErr_keeps) | (simp only [keeps_upd]) | (with_reducible apply Keeps.foldl)
    | (with_reducible apply Keeps.foldr) | (split))

theorem vialErr_sound {t0 : State} {s : State} {code : Nat} {region : Nat} {lun : Nat} (hk : Sound t0 s) : Sound t0
    (vialErr s code region lun) := hk.trans (vialErr_keeps (Keeps.refl _)).sound

theorem forgot_keeps {t0 : State} {s : State} {region : Nat} {lun : Nat} (hk : Keeps t0 s) : Keeps t0
    (forgot s region lun) := by
  unfold forgot
  try dsimp only
  repeat' (first
    | (intro _) | (with_reducible exact Keeps.refl _) | (with_reducible assumption) | (with_reducible apply Keeps.ite)
    | (with_reducible apply raiseEvt_keeps) | (with_reducible apply vialErr_keeps)
    | (with_reducible apply setVial_keeps) | (simp only [keeps_upd]) | (with_reducible apply Keeps.foldl)
    | (with_reducible apply Keeps.foldr) | (split))

theorem forgot_sound {t0 : State} {s : State} {region : Nat} {lun : Nat} (hk : Sound t0 s) : Sound t0
    (forgot s region lun) := hk.trans (forgot_keeps (Keeps.refl _)).sound

theorem dropRecords_keeps {t0 : State} {s : State} {keys : List Nat} (hk : Keeps t0 s) : Keeps t0 (dropRecords s keys) := by
  unfold dropRecords
  try dsimp only
  repeat' (first
    | (intro _) | (with_reducible exact Keeps.refl _) | (with_reducible assumption) | (with_reducible apply Keeps.ite)
    | (with_reducible apply forgot_keeps) | (with_reducible apply setVial_keeps) | (simp only [keeps_upd])
    | (with_reducible apply Keeps.foldl) | (with_reducible apply Keeps.foldr) | (split))

theorem dropRecords_sound {t0 : State} {s : State} {keys : List Nat} (hk : Sound t0 s) : Sound t0
    (dropRecords s keys) := hk.trans (dropRecords_keeps (Keeps.refl _)).sound

theorem pcieReset_keeps {t0 : State} {s : State} (hk : Keeps t0 s) : Keeps t0 (pcieReset s) := by
  unfold pcieReset
  try dsimp only
  repeat' (first
    | (intro _) | (with_reducible exact Keeps.refl _) | (with_reducible assumption) | (with_reducible apply Keeps.ite)
    | (simp only [keeps_upd]) | (with_reducible apply Keeps.foldl) | (with_reducible apply Keeps.foldr) | (split))

theorem pcieReset_sound {t0 : State} {s : State} (hk : Sound t0 s) : Sound t0 (pcieReset s) := hk.trans
    (pcieReset_keeps (Keeps.refl _)).sound

theorem linkDown_keeps {t0 : State} {s : State} (hk : Keeps t0 s) : Keeps t0 (linkDown s) := by
  unfold linkDown
  try dsimp only
  repeat' (first
    | (intro _) | (with_reducible exact Keeps.refl _) | (with_reducible assumption) | (with_reducible apply Keeps.ite)
    | (with_reducible apply pcieReset_keeps) | (simp only [keeps_upd]) | (with_reducible apply Keeps.foldl)
    | (with_reducible apply Keeps.foldr) | (split))

theorem linkDown_sound {t0 : State} {s : State} (hk : Sound t0 s) : Sound t0 (linkDown s) := hk.trans (linkDown_keeps
    (Keeps.refl _)).sound

theorem shedParts_sound {t0 : State} {s : State} (hk : Sound t0 s) : Sound t0 (shedParts s) := by
  unfold shedParts
  try dsimp only
  repeat' (first
    | (intro _) | (with_reducible exact Sound.refl _) | (with_reducible assumption) | (with_reducible apply Sound.ite)
    | (with_reducible apply modPart_sound) | (with_reducible apply abandonPart_sound)
    | (with_reducible apply bumpFree_sound) | (simp only [sound_upd]) | (with_reducible apply Sound.foldl)
    | (with_reducible apply Sound.foldr) | (with_reducible exact id) | (with_reducible apply writeByte_wf)
    | (with_reducible apply writeBytes_wf) | (with_reducible apply writeCells_wf) | (with_reducible apply writeLe_wf)
    | (with_reducible apply clearRange_wf) | (with_reducible apply loseRange_wf) | (with_reducible apply clearHole_wf)
    | (with_reducible apply coverHole_wf) | (with_reducible apply writeTile_wf) | (with_reducible apply reduceAt_wf)
    | (with_reducible apply putVals_wf) | (with_reducible apply wf_foldl) | (split)
    | (with_reducible apply Sound.updMem))

theorem drydown_sound {t0 : State} {s : State} {cause : Nat} {inputMin : Nat} {bankMv : Nat}
    (hk : Sound t0 s) : Sound t0 (drydown s cause inputMin bankMv) := by
  unfold drydown
  try dsimp only
  repeat' (first
    | (intro _) | (with_reducible exact Sound.refl _) | (with_reducible assumption) | (with_reducible apply Sound.ite)
    | (with_reducible apply vialErr_sound) | (with_reducible apply pwrErr_sound)
    | (with_reducible apply bumpFree_sound) | (with_reducible apply setPwr_sound)
    | (with_reducible apply accStop_sound) | (with_reducible apply linkDown_sound)
    | (with_reducible apply shedParts_sound) | (with_reducible apply downPorts_sound) | (simp only [sound_upd])
    | (with_reducible apply Sound.foldl) | (with_reducible apply Sound.foldr) | (split))

theorem drydownCommit_keeps {t0 : State} {s : State} {failed : List Nat} (hk : Keeps t0 s) : Keeps t0
    (drydownCommit s failed) := by
  unfold drydownCommit
  try dsimp only
  repeat' (first
    | (intro _) | (with_reducible exact Keeps.refl _) | (with_reducible assumption) | (with_reducible apply Keeps.ite)
    | (with_reducible apply setPwr_keeps) | (with_reducible apply setVial_keeps) | (simp only [keeps_upd])
    | (with_reducible apply Keeps.foldl) | (with_reducible apply Keeps.foldr) | (split))

theorem drydownCommit_sound {t0 : State} {s : State} {failed : List Nat} (hk : Sound t0 s) : Sound t0
    (drydownCommit s failed) := hk.trans (drydownCommit_keeps (Keeps.refl _)).sound

theorem releasePart_sound {t0 : State} {s : State} {p : Nat} (hk : Sound t0 s) : Sound t0 (releasePart s p) := by
  unfold releasePart
  try dsimp only
  repeat' (first
    | (intro _) | (with_reducible exact Sound.refl _) | (with_reducible assumption) | (with_reducible apply Sound.ite)
    | (with_reducible apply triggerReset_sound) | (with_reducible apply takeOff_sound) | (simp only [sound_upd])
    | (with_reducible apply Sound.foldl) | (with_reducible apply Sound.foldr) | (split))

theorem endModuleOp_sound {t0 : State} {s : State} (hk : Sound t0 s) : Sound t0 (endModuleOp s) := by
  unfold endModuleOp
  try dsimp only
  repeat' (first
    | (intro _) | (with_reducible exact Sound.refl _) | (with_reducible assumption) | (with_reducible apply Sound.ite)
    | (with_reducible apply releasePart_sound) | (simp only [sound_upd]) | (with_reducible apply Sound.foldl)
    | (with_reducible apply Sound.foldr) | (split))

theorem endpointUp_keeps {t0 : State} {s : State} {width : Nat} {speed : Nat} {flit : Bool}
    (hk : Keeps t0 s) : Keeps t0 (endpointUp s width speed flit) := by
  unfold endpointUp
  try dsimp only
  repeat' (first
    | (intro _) | (with_reducible exact Keeps.refl _) | (with_reducible assumption) | (with_reducible apply Keeps.ite)
    | (simp only [keeps_upd]) | (with_reducible apply Keeps.foldl) | (with_reducible apply Keeps.foldr) | (split))

theorem endpointUp_sound {t0 : State} {s : State} {width : Nat} {speed : Nat} {flit : Bool}
    (hk : Sound t0 s) : Sound t0 (endpointUp s width speed flit) := hk.trans (endpointUp_keeps (Keeps.refl _)).sound

theorem entryHost_sound {t0 : State} {s : State} {n : Nat} {o : Nat} {v : Nat} (hk : Sound t0 s) : Sound t0
    (entryHost s n o v) := by
  unfold entryHost
  try dsimp only
  repeat' (first
    | (intro _) | (with_reducible exact Sound.refl _) | (with_reducible assumption) | (with_reducible apply Sound.ite)
    | (with_reducible apply hostWrite_sound) | (simp only [sound_upd]) | (with_reducible apply Sound.foldl)
    | (with_reducible apply Sound.foldr) | (split))

theorem eraseHalf_keeps {t0 : State} {s : State} {half : Bool} (hk : Keeps t0 s) : Keeps t0 (eraseHalf s half) := by
  unfold eraseHalf
  try dsimp only
  repeat' (first
    | (intro _) | (with_reducible exact Keeps.refl _) | (with_reducible assumption) | (with_reducible apply Keeps.ite)
    | (with_reducible apply eraseBlock_keeps) | (with_reducible apply setVial_keeps) | (simp only [keeps_upd])
    | (with_reducible apply Keeps.foldl) | (with_reducible apply Keeps.foldr) | (split))

theorem eraseHalf_sound {t0 : State} {s : State} {half : Bool} (hk : Sound t0 s) : Sound t0
    (eraseHalf s half) := hk.trans (eraseHalf_keeps (Keeps.refl _)).sound

theorem execProgramLoadDone_sound {core : Nat} {ecc : List (Nat × Ecc)} {s : State} {t0 : State}
    (he : execProgramLoadDone core ecc s = .next t0) : Sound s t0 := by
  unfold execProgramLoadDone at he
  first | (replace he := Host.Outcome.next.inj he; subst he) | cases he
  repeat' (first
    | (intro _) | (with_reducible exact Sound.refl _) | (with_reducible assumption) | (with_reducible apply Sound.ite)
    | (with_reducible apply programLoadDone_sound) | (simp only [sound_upd]) | (with_reducible apply Sound.foldl)
    | (with_reducible apply Sound.foldr) | (split))

theorem execCoreCmdStop_sound {core : Nat} {s : State} {t0 : State}
    (he : execCoreCmdStop core s = .next t0) : Sound s t0 := by
  unfold execCoreCmdStop at he
  first | (replace he := Host.Outcome.next.inj he; subst he) | cases he
  repeat' (first
    | (intro _) | (with_reducible exact Sound.refl _) | (with_reducible assumption) | (with_reducible apply Sound.ite)
    | (with_reducible apply hostReg_sound) | (simp only [sound_upd]) | (with_reducible apply Sound.foldl)
    | (with_reducible apply Sound.foldr) | (split))

theorem execCoreCmdReset_sound {core : Nat} {s : State} {t0 : State}
    (he : execCoreCmdReset core s = .next t0) : Sound s t0 := by
  unfold execCoreCmdReset at he
  first | (replace he := Host.Outcome.next.inj he; subst he) | cases he
  repeat' (first
    | (intro _) | (with_reducible exact Sound.refl _) | (with_reducible assumption) | (with_reducible apply Sound.ite)
    | (with_reducible apply hostReg_sound) | (simp only [sound_upd]) | (with_reducible apply Sound.foldl)
    | (with_reducible apply Sound.foldr) | (split))

theorem readEffect_keeps {t0 : State} {s : State} {pg : Nat} {o : Nat} {size : Nat} (hk : Keeps t0 s) : Keeps t0
    (readEffect s pg o size) := by
  unfold readEffect
  try dsimp only
  repeat' (first
    | (intro _) | (with_reducible exact Keeps.refl _) | (with_reducible assumption) | (with_reducible apply Keeps.ite)
    | (with_reducible apply modGroup_keeps) | (with_reducible apply modIod_keeps) | (simp only [keeps_upd])
    | (with_reducible apply Keeps.foldl) | (with_reducible apply Keeps.foldr) | (split))

theorem readEffect_sound {t0 : State} {s : State} {pg : Nat} {o : Nat} {size : Nat} (hk : Sound t0 s) : Sound t0
    (readEffect s pg o size) := hk.trans (readEffect_keeps (Keeps.refl _)).sound

theorem hostRead_keeps {t0 : State} {s : State} {bar : Nat} {off : Nat} {size : Nat} (hk : Keeps t0 s) : Keeps t0
    (hostRead s bar off size) := by
  unfold hostRead
  try dsimp only
  repeat' (first
    | (intro _) | (with_reducible exact Keeps.refl _) | (with_reducible assumption) | (with_reducible apply Keeps.ite)
    | (with_reducible apply pcieErr_keeps) | (with_reducible apply bumpFree_keeps)
    | (with_reducible apply readEffect_keeps) | (simp only [keeps_upd]) | (with_reducible apply Keeps.foldl)
    | (with_reducible apply Keeps.foldr) | (split))

theorem hostRead_sound {t0 : State} {s : State} {bar : Nat} {off : Nat} {size : Nat} (hk : Sound t0 s) : Sound t0
    (hostRead s bar off size) := hk.trans (hostRead_keeps (Keeps.refl _)).sound

theorem execAccLoRead_keeps {size : Nat} {off : Nat} {s : State} {t0 : State}
    (he : execAccLoRead size off s = .next t0) : Keeps s t0 := by
  unfold execAccLoRead at he
  first | (replace he := Host.Outcome.next.inj he; subst he) | cases he
  repeat' (first
    | (intro _) | (with_reducible exact Keeps.refl _) | (with_reducible assumption) | (with_reducible apply Keeps.ite)
    | (with_reducible apply hostRead_keeps) | (simp only [keeps_upd]) | (with_reducible apply Keeps.foldl)
    | (with_reducible apply Keeps.foldr) | (split))

theorem execDoorbellWrite_sound {queue : Nat} {size : Nat} {value : W64} {s : State} {t0 : State}
    (he : execDoorbellWrite queue size value s = .next t0) : Sound s t0 := by
  unfold execDoorbellWrite at he
  first | (replace he := Host.Outcome.next.inj he; subst he) | cases he
  repeat' (first
    | (intro _) | (with_reducible exact Sound.refl _) | (with_reducible assumption) | (with_reducible apply Sound.ite)
    | (with_reducible apply hostWrite_sound) | (simp only [sound_upd]) | (with_reducible apply Sound.foldl)
    | (with_reducible apply Sound.foldr) | (split))

theorem prefetchRead_sound {t0 : State} {s : State} {q : Nat} {e : Ecc} {take : State → State} (hg : ∀
    {t0 t : State}, Sound t0 t → Sound t0 (take t)) (hk : Sound t0 s) : Sound t0 (prefetchRead s q e take) := by
  unfold prefetchRead
  try dsimp only
  repeat' (first
    | (intro _) | (with_reducible exact Sound.refl _) | (with_reducible assumption) | (with_reducible apply Sound.ite)
    | (with_reducible apply correctedBlotter_sound) | (with_reducible apply countCorrected_sound)
    | (with_reducible apply resetByFault_sound) | (with_reducible apply queueErr_sound) | (with_reducible apply hg)
    | (simp only [sound_upd]) | (with_reducible apply Sound.foldl) | (with_reducible apply Sound.foldr) | (split))

theorem execTileRun_sound {queue : Nat} {ecc : Ecc} {s : State} {t0 : State}
    (he : execTileRun queue ecc s = .next t0) : Sound s t0 := by
  unfold execTileRun at he
  first | (replace he := Host.Outcome.next.inj he; subst he) | cases he
  repeat' (first
    | (intro _) | (with_reducible exact Sound.refl _) | (with_reducible assumption) | (with_reducible apply Sound.ite)
    | (with_reducible apply prefetchRead_sound) | (with_reducible apply tileRun_sound) | (simp only [sound_upd])
    | (with_reducible apply Sound.foldl) | (with_reducible apply Sound.foldr) | (split))

theorem updFrozen_sound {t0 : State} {s : State} {n : Nat} {b : List Byte} {d : List Byte}
    (hk : Sound t0 s) : Sound t0 (updFrozen s n b d) := by
  induction n generalizing s b d with
  | zero =>
    rw [updFrozen]
    try dsimp only
    repeat' (first
      | (intro _) | (with_reducible exact Sound.refl _) | (with_reducible assumption)
      | (with_reducible apply Sound.ite) | (with_reducible apply modCluster_sound)
      | (with_reducible apply endJob_sound) | (simp only [sound_upd]) | (with_reducible apply Sound.foldl)
      | (with_reducible apply Sound.foldr) | (with_reducible exact id) | (with_reducible apply writeByte_wf)
      | (with_reducible apply writeBytes_wf) | (with_reducible apply writeCells_wf)
      | (with_reducible apply writeLe_wf) | (with_reducible apply clearRange_wf) | (with_reducible apply loseRange_wf)
      | (with_reducible apply clearHole_wf) | (with_reducible apply coverHole_wf)
      | (with_reducible apply writeTile_wf) | (with_reducible apply reduceAt_wf) | (with_reducible apply putVals_wf)
      | (with_reducible apply wf_foldl) | (split) | (with_reducible apply Sound.updMem))
  | succ k ih =>
    rw [updFrozen]
    try dsimp only
    repeat' (first
      | (intro _) | (with_reducible exact Sound.refl _) | (with_reducible assumption)
      | (with_reducible apply Sound.ite) | (with_reducible apply modCluster_sound)
      | (with_reducible apply endJob_sound) | (with_reducible apply ih) | (simp only [sound_upd])
      | (with_reducible apply Sound.foldl) | (with_reducible apply Sound.foldr) | (with_reducible exact id)
      | (with_reducible apply writeByte_wf) | (with_reducible apply writeBytes_wf)
      | (with_reducible apply writeCells_wf) | (with_reducible apply writeLe_wf)
      | (with_reducible apply clearRange_wf) | (with_reducible apply loseRange_wf)
      | (with_reducible apply clearHole_wf) | (with_reducible apply coverHole_wf)
      | (with_reducible apply writeTile_wf) | (with_reducible apply reduceAt_wf) | (with_reducible apply putVals_wf)
      | (with_reducible apply wf_foldl) | (split) | (with_reducible apply Sound.updMem))

theorem updTaint_sound {t0 : State} {s : State} {n : Nat} {d : List Byte} {k : Nat} {cnt : Nat}
    (hk : Sound t0 s) : Sound t0 (updTaint s n d k cnt) := by
  unfold updTaint
  try dsimp only
  repeat' (first
    | (intro _) | (with_reducible exact Sound.refl _) | (with_reducible assumption) | (with_reducible apply Sound.ite)
    | (with_reducible apply taintOut_sound) | (simp only [sound_upd]) | (with_reducible apply Sound.foldl)
    | (with_reducible apply Sound.foldr) | (split))

theorem updBlocks_sound {t0 : State} {s : State} {n : Nat} {d : List Byte} {gr : List Byte} {k : Nat} {a5 : Nat}
    (hk : Sound t0 s) : Sound t0 (updBlocks s n d gr k a5) := by
  induction a5 generalizing s n d gr k with
  | zero =>
    rw [updBlocks]
    try dsimp only
    repeat' (first
      | (intro _) | (with_reducible exact Sound.refl _) | (with_reducible assumption)
      | (with_reducible apply Sound.ite) | (with_reducible apply coreHbm_sound)
      | (with_reducible apply modCluster_sound) | (with_reducible apply raiseEvt_sound) | (simp only [sound_upd])
      | (with_reducible apply Sound.foldl) | (with_reducible apply Sound.foldr) | (with_reducible exact id)
      | (with_reducible apply writeByte_wf) | (with_reducible apply writeBytes_wf)
      | (with_reducible apply writeCells_wf) | (with_reducible apply writeLe_wf)
      | (with_reducible apply clearRange_wf) | (with_reducible apply loseRange_wf)
      | (with_reducible apply clearHole_wf) | (with_reducible apply coverHole_wf)
      | (with_reducible apply writeTile_wf) | (with_reducible apply reduceAt_wf) | (with_reducible apply putVals_wf)
      | (with_reducible apply wf_foldl) | (split) | (with_reducible apply Sound.updMem))
  | succ k ih =>
    rw [updBlocks]
    try dsimp only
    repeat' (first
      | (intro _) | (with_reducible exact Sound.refl _) | (with_reducible assumption)
      | (with_reducible apply Sound.ite) | (with_reducible apply coreHbm_sound)
      | (with_reducible apply modCluster_sound) | (with_reducible apply raiseEvt_sound) | (with_reducible apply ih)
      | (simp only [sound_upd]) | (with_reducible apply Sound.foldl) | (with_reducible apply Sound.foldr)
      | (with_reducible exact id) | (with_reducible apply writeByte_wf) | (with_reducible apply writeBytes_wf)
      | (with_reducible apply writeCells_wf) | (with_reducible apply writeLe_wf)
      | (with_reducible apply clearRange_wf) | (with_reducible apply loseRange_wf)
      | (with_reducible apply clearHole_wf) | (with_reducible apply coverHole_wf)
      | (with_reducible apply writeTile_wf) | (with_reducible apply reduceAt_wf) | (with_reducible apply putVals_wf)
      | (with_reducible apply wf_foldl) | (split) | (with_reducible apply Sound.updMem))

theorem updateWork_sound {t0 : State} {s : State} {n : Nat} {count : Nat} (hk : Sound t0 s) : Sound t0
    (updateWork s n count) := by
  unfold updateWork
  try dsimp only
  repeat' (first
    | (intro _) | (with_reducible exact Sound.refl _) | (with_reducible assumption) | (with_reducible apply Sound.ite)
    | (with_reducible apply stopCore_sound) | (with_reducible apply updFrozen_sound)
    | (with_reducible apply coreHbm_sound) | (with_reducible apply beginJob_sound)
    | (with_reducible apply updTaint_sound) | (with_reducible apply jobDone_sound)
    | (with_reducible apply updBlocks_sound) | (with_reducible apply endJob_sound) | (simp only [sound_upd])
    | (with_reducible apply Sound.foldl) | (with_reducible apply Sound.foldr) | (with_reducible exact id)
    | (with_reducible apply writeByte_wf) | (with_reducible apply writeBytes_wf)
    | (with_reducible apply writeCells_wf) | (with_reducible apply writeLe_wf) | (with_reducible apply clearRange_wf)
    | (with_reducible apply loseRange_wf) | (with_reducible apply clearHole_wf) | (with_reducible apply coverHole_wf)
    | (with_reducible apply writeTile_wf) | (with_reducible apply reduceAt_wf) | (with_reducible apply putVals_wf)
    | (with_reducible apply wf_foldl) | (split) | (with_reducible apply Sound.updMem))

theorem execUpdate_sound {queue : Nat} {core : Nat} {count : Nat} {s : State} {t0 : State}
    (he : execUpdate queue core count s = .next t0) : Sound s t0 := by
  unfold execUpdate at he
  first | (replace he := Host.Outcome.next.inj he; subst he) | cases he
  repeat' (first
    | (intro _) | (with_reducible exact Sound.refl _) | (with_reducible assumption) | (with_reducible apply Sound.ite)
    | (with_reducible apply updateWork_sound) | (with_reducible apply coreRecRow_sound) | (simp only [sound_upd])
    | (with_reducible apply Sound.foldl) | (with_reducible apply Sound.foldr) | (split))

theorem execCombine_sound {queue : Nat} {core : Nat} {count : Nat} {s : State} {t0 : State}
    (he : execCombine queue core count s = .next t0) : Sound s t0 := by
  unfold execCombine at he
  first | (replace he := Host.Outcome.next.inj he; subst he) | cases he
  repeat' (first
    | (intro _) | (with_reducible exact Sound.refl _) | (with_reducible assumption) | (with_reducible apply Sound.ite)
    | (with_reducible apply combineWork_sound) | (with_reducible apply coreRecRow_sound) | (simp only [sound_upd])
    | (with_reducible apply Sound.foldl) | (with_reducible apply Sound.foldr) | (split))

theorem execTest_sound {queue : Nat} {s : State} {t0 : State} (he : execTest queue s = .next t0) : Sound s t0 := by
  unfold execTest at he
  first | (replace he := Host.Outcome.next.inj he; subst he) | cases he
  repeat' (first
    | (intro _) | (with_reducible exact Sound.refl _) | (with_reducible assumption) | (with_reducible apply Sound.ite)
    | (with_reducible apply coreRecRow_sound) | (simp only [sound_upd]) | (with_reducible apply Sound.foldl)
    | (with_reducible apply Sound.foldr) | (split))

theorem testComplete_sound {t0 : State} {s : State} {n : Nat} {failing : Option Nat} (hk : Sound t0 s) : Sound t0
    (testComplete s n failing) := by
  unfold testComplete
  try dsimp only
  repeat' (first
    | (intro _) | (with_reducible exact Sound.refl _) | (with_reducible assumption) | (with_reducible apply Sound.ite)
    | (with_reducible apply setCore_sound) | (with_reducible apply coreHbm_sound)
    | (with_reducible apply selAdd_sound) | (with_reducible apply report_sound)
    | (with_reducible apply modCluster_sound) | (with_reducible apply recordErr_sound)
    | (with_reducible apply issueBlotter_sound) | (simp only [sound_upd]) | (with_reducible apply Sound.foldl)
    | (with_reducible apply Sound.foldr) | (with_reducible exact id) | (with_reducible apply writeByte_wf)
    | (with_reducible apply writeBytes_wf) | (with_reducible apply writeCells_wf) | (with_reducible apply writeLe_wf)
    | (with_reducible apply clearRange_wf) | (with_reducible apply loseRange_wf) | (with_reducible apply clearHole_wf)
    | (with_reducible apply coverHole_wf) | (with_reducible apply writeTile_wf) | (with_reducible apply reduceAt_wf)
    | (with_reducible apply putVals_wf) | (with_reducible apply wf_foldl) | (split)
    | (with_reducible apply Sound.updMem))

theorem execTestComplete_sound {core : Nat} {failing : Option Nat} {s : State} {t0 : State}
    (he : execTestComplete core failing s = .next t0) : Sound s t0 := by
  unfold execTestComplete at he
  first | (replace he := Host.Outcome.next.inj he; subst he) | cases he
  repeat' (first
    | (intro _) | (with_reducible exact Sound.refl _) | (with_reducible assumption) | (with_reducible apply Sound.ite)
    | (with_reducible apply testComplete_sound) | (simp only [sound_upd]) | (with_reducible apply Sound.foldl)
    | (with_reducible apply Sound.foldr) | (split))

theorem execDispatch_sound {queue : Nat} {s : State} {t0 : State} (he : execDispatch queue s = .next t0) : Sound s t0 := by
  unfold execDispatch at he
  first | (replace he := Host.Outcome.next.inj he; subst he) | cases he
  repeat' (first
    | (intro _) | (with_reducible exact Sound.refl _) | (with_reducible assumption) | (with_reducible apply Sound.ite)
    | (with_reducible apply dispatchRow_sound) | (simp only [sound_upd]) | (with_reducible apply Sound.foldl)
    | (with_reducible apply Sound.foldr) | (split))

theorem execFenceRecord_sound {queue : Nat} {s : State} {t0 : State}
    (he : execFenceRecord queue s = .next t0) : Sound s t0 := by
  unfold execFenceRecord at he
  first | (replace he := Host.Outcome.next.inj he; subst he) | cases he
  repeat' (first
    | (intro _) | (with_reducible exact Sound.refl _) | (with_reducible assumption) | (with_reducible apply Sound.ite)
    | (with_reducible apply fenceRecord_sound) | (simp only [sound_upd]) | (with_reducible apply Sound.foldl)
    | (with_reducible apply Sound.foldr) | (split))

theorem execWaitCount_sound {queue : Nat} {s : State} {t0 : State} (he : execWaitCount queue s = .next t0) : Sound s t0 := by
  unfold execWaitCount at he
  first | (replace he := Host.Outcome.next.inj he; subst he) | cases he
  repeat' (first
    | (intro _) | (with_reducible exact Sound.refl _) | (with_reducible assumption) | (with_reducible apply Sound.ite)
    | (with_reducible apply waitCount_sound) | (simp only [sound_upd]) | (with_reducible apply Sound.foldl)
    | (with_reducible apply Sound.foldr) | (split))

theorem execLaunchAtRecord_sound {queue : Nat} {s : State} {t0 : State}
    (he : execLaunchAtRecord queue s = .next t0) : Sound s t0 := by
  unfold execLaunchAtRecord at he
  first | (replace he := Host.Outcome.next.inj he; subst he) | cases he
  repeat' (first
    | (intro _) | (with_reducible exact Sound.refl _) | (with_reducible assumption) | (with_reducible apply Sound.ite)
    | (with_reducible apply launchRecord_sound) | (simp only [sound_upd]) | (with_reducible apply Sound.foldl)
    | (with_reducible apply Sound.foldr) | (split))

theorem execSignalAdd_sound {queue : Nat} {s : State} {t0 : State} (he : execSignalAdd queue s = .next t0) : Sound s t0 := by
  unfold execSignalAdd at he
  first | (replace he := Host.Outcome.next.inj he; subst he) | cases he
  repeat' (first
    | (intro _) | (with_reducible exact Sound.refl _) | (with_reducible assumption) | (with_reducible apply Sound.ite)
    | (with_reducible apply signalAdd_sound) | (simp only [sound_upd]) | (with_reducible apply Sound.foldl)
    | (with_reducible apply Sound.foldr) | (split))

theorem execSeqWrite_sound {queue : Nat} {s : State} {t0 : State} (he : execSeqWrite queue s = .next t0) : Sound s t0 := by
  unfold execSeqWrite at he
  first | (replace he := Host.Outcome.next.inj he; subst he) | cases he
  repeat' (first
    | (intro _) | (with_reducible exact Sound.refl _) | (with_reducible assumption) | (with_reducible apply Sound.ite)
    | (with_reducible apply seqWrite_sound) | (simp only [sound_upd]) | (with_reducible apply Sound.foldl)
    | (with_reducible apply Sound.foldr) | (split))

theorem takeReport_keeps {t0 : State} {s : State} {q : Nat} {fail : Bool}  {t : State} {y : Report}
    (he : takeReport s q fail = some (y, t)) (hk : Keeps t0 s) : Keeps t0 t := by
  unfold takeReport at he
  split at he
  · cases he
  · simp only [Option.map_eq_some_iff, Prod.mk.injEq] at he
    obtain ⟨y, e1, e2, e⟩ := he
    subst e
    simp only [keeps_upd]
    exact hk

theorem takeReport_keeps' {t0 : State} {s : State} {q : Nat} {fail : Bool} {y : Report × State}
    (he : takeReport s q fail = some y) (hk : Keeps t0 s) : Keeps t0 y.2   := by
  obtain ⟨a, b⟩ := y
  exact takeReport_keeps he hk

theorem takeReport_sound' {t0 : State} {s : State} {q : Nat} {fail : Bool} {y : Report × State}
    (he : takeReport s q fail = some y) (hk : Sound t0 s) : Sound t0 y.2 := hk.trans (takeReport_keeps' he
    (Keeps.refl _)).sound

theorem takeReport_sound {t0 : State} {s : State} {q : Nat} {fail : Bool} {t : State} {y : Report}
    (he : takeReport s q fail = some (y, t)) (hk : Sound t0 s) : Sound t0 t := hk.trans (takeReport_keeps he
    (Keeps.refl _)).sound

theorem failRecord_sound {t0 : State} {s : State} {q : Nat} {i : Nat} {code : Nat} (hk : Sound t0 s) : Sound t0
    (failRecord s q i code) := by
  unfold failRecord
  try dsimp only
  repeat' (first
    | (intro _) | (with_reducible exact Sound.refl _) | (with_reducible assumption) | (with_reducible apply Sound.ite)
    | (with_reducible apply noticeSlots_sound) | (with_reducible apply flushGroup_sound)
    | (with_reducible apply recFailed_sound) | (simp only [sound_upd]) | (with_reducible apply Sound.foldl)
    | (with_reducible apply Sound.foldr) | (split))

theorem returnSlots_sound {t0 : State} {s : State} {q : Nat} {b : List Byte} (hk : Sound t0 s) : Sound t0
    (returnSlots s q b) := by
  unfold returnSlots
  try dsimp only
  repeat' (first
    | (intro _) | (with_reducible exact Sound.refl _) | (with_reducible assumption) | (with_reducible apply Sound.ite)
    | (with_reducible apply sendReturn_sound) | (simp only [sound_upd]) | (with_reducible apply Sound.foldl)
    | (with_reducible apply Sound.foldr) | (split))

theorem recordComplete_sound {t0 : State} {s : State} {q : Nat} (hk : Sound t0 s) : Sound t0 (recordComplete s q) := by
  unfold recordComplete
  try dsimp only
  repeat' (first
    | (intro _) | (with_reducible exact Sound.refl _) | (with_reducible assumption) | (with_reducible apply Sound.ite)
    | (with_reducible apply takeReport_sound (by assumption))
    | (with_reducible apply takeReport_sound' (by assumption)) | (with_reducible apply failRecord_sound)
    | (with_reducible apply doorbell_sound) | (with_reducible apply returnSlots_sound)
    | (with_reducible apply flushGroup_sound) | (with_reducible apply recDone_sound) | (simp only [sound_upd])
    | (with_reducible apply Sound.foldl) | (with_reducible apply Sound.foldr) | (split))

theorem execRecordComplete_sound {queue : Nat} {s : State} {t0 : State}
    (he : execRecordComplete queue s = .next t0) : Sound s t0 := by
  unfold execRecordComplete at he
  first | (replace he := Host.Outcome.next.inj he; subst he) | cases he
  repeat' (first
    | (intro _) | (with_reducible exact Sound.refl _) | (with_reducible assumption) | (with_reducible apply Sound.ite)
    | (with_reducible apply recordComplete_sound) | (simp only [sound_upd]) | (with_reducible apply Sound.foldl)
    | (with_reducible apply Sound.foldr) | (split))

theorem recordFailed_sound {t0 : State} {s : State} {q : Nat} (hk : Sound t0 s) : Sound t0 (recordFailed s q) := by
  unfold recordFailed
  try dsimp only
  repeat' (first
    | (intro _) | (with_reducible exact Sound.refl _) | (with_reducible assumption) | (with_reducible apply Sound.ite)
    | (with_reducible apply takeReport_sound (by assumption))
    | (with_reducible apply takeReport_sound' (by assumption)) | (with_reducible apply failRecord_sound)
    | (simp only [sound_upd]) | (with_reducible apply Sound.foldl) | (with_reducible apply Sound.foldr) | (split))

theorem execRecordFailed_sound {queue : Nat} {s : State} {t0 : State}
    (he : execRecordFailed queue s = .next t0) : Sound s t0 := by
  unfold execRecordFailed at he
  first | (replace he := Host.Outcome.next.inj he; subst he) | cases he
  repeat' (first
    | (intro _) | (with_reducible exact Sound.refl _) | (with_reducible assumption) | (with_reducible apply Sound.ite)
    | (with_reducible apply recordFailed_sound) | (simp only [sound_upd]) | (with_reducible apply Sound.foldl)
    | (with_reducible apply Sound.foldr) | (split))

theorem execSchedAging_keeps {queue : Nat} {s : State} {t0 : State}
    (he : execSchedAging queue s = .next t0) : Keeps s t0 := by
  unfold execSchedAging at he
  first | (replace he := Host.Outcome.next.inj he; subst he) | cases he
  repeat' (first
    | (intro _) | (with_reducible exact Keeps.refl _) | (with_reducible assumption) | (with_reducible apply Keeps.ite)
    | (with_reducible apply schedAging_keeps) | (simp only [keeps_upd]) | (with_reducible apply Keeps.foldl)
    | (with_reducible apply Keeps.foldr) | (split))

theorem execQBindEnable_sound {queue : Nat} {value : W32} {s : State} {t0 : State}
    (he : execQBindEnable queue value s = .next t0) : Sound s t0 := by
  unfold execQBindEnable at he
  first | (replace he := Host.Outcome.next.inj he; subst he) | cases he
  repeat' (first
    | (intro _) | (with_reducible exact Sound.refl _) | (with_reducible assumption) | (with_reducible apply Sound.ite)
    | (with_reducible apply bindWrite_sound) | (simp only [sound_upd]) | (with_reducible apply Sound.foldl)
    | (with_reducible apply Sound.foldr) | (split))

theorem execQBindDisable_sound {queue : Nat} {value : W32} {s : State} {t0 : State}
    (he : execQBindDisable queue value s = .next t0) : Sound s t0 := by
  unfold execQBindDisable at he
  first | (replace he := Host.Outcome.next.inj he; subst he) | cases he
  repeat' (first
    | (intro _) | (with_reducible exact Sound.refl _) | (with_reducible assumption) | (with_reducible apply Sound.ite)
    | (with_reducible apply bindWrite_sound) | (simp only [sound_upd]) | (with_reducible apply Sound.foldl)
    | (with_reducible apply Sound.foldr) | (split))

theorem execQBindSkip_sound {queue : Nat} {value : W32} {s : State} {t0 : State}
    (he : execQBindSkip queue value s = .next t0) : Sound s t0 := by
  unfold execQBindSkip at he
  first | (replace he := Host.Outcome.next.inj he; subst he) | cases he
  repeat' (first
    | (intro _) | (with_reducible exact Sound.refl _) | (with_reducible assumption) | (with_reducible apply Sound.ite)
    | (with_reducible apply bindWrite_sound) | (simp only [sound_upd]) | (with_reducible apply Sound.foldl)
    | (with_reducible apply Sound.foldr) | (split))

theorem execQueueConfigWrite_sound {queue : Nat} {bind : Bool} {value : W64} {s : State} {t0 : State}
    (he : execQueueConfigWrite queue bind value s = .next t0) : Sound s t0 := by
  unfold execQueueConfigWrite at he
  first | (replace he := Host.Outcome.next.inj he; subst he) | cases he
  repeat' (first
    | (intro _) | (with_reducible exact Sound.refl _) | (with_reducible assumption) | (with_reducible apply Sound.ite)
    | (with_reducible apply bindWrite_sound) | (with_reducible apply hostWrite_sound) | (simp only [sound_upd])
    | (with_reducible apply Sound.foldl) | (with_reducible apply Sound.foldr) | (split))

theorem execCtrDataWrite_sound {site : Nat} {value : W32} {s : State} {t0 : State}
    (he : execCtrDataWrite site value s = .next t0) : Sound s t0 := by
  unfold execCtrDataWrite at he
  first | (replace he := Host.Outcome.next.inj he; subst he) | cases he
  repeat' (first
    | (intro _) | (with_reducible exact Sound.refl _) | (with_reducible assumption) | (with_reducible apply Sound.ite)
    | (with_reducible apply hostReg_sound) | (simp only [sound_upd]) | (with_reducible apply Sound.foldl)
    | (with_reducible apply Sound.foldr) | (split))

theorem execAtomCancel_sound {die : Nat} {ctx : Nat} {s : State} {t0 : State}
    (he : execAtomCancel die ctx s = .next t0) : Sound s t0 := by
  unfold execAtomCancel at he
  first | (replace he := Host.Outcome.next.inj he; subst he) | cases he
  repeat' (first
    | (intro _) | (with_reducible exact Sound.refl _) | (with_reducible assumption) | (with_reducible apply Sound.ite)
    | (with_reducible apply hostReg_sound) | (simp only [sound_upd]) | (with_reducible apply Sound.foldl)
    | (with_reducible apply Sound.foldr) | (split))

theorem execPortCmdRetrain_sound {port : Nat} {s : State} {t0 : State}
    (he : execPortCmdRetrain port s = .next t0) : Sound s t0 := by
  unfold execPortCmdRetrain at he
  first | (replace he := Host.Outcome.next.inj he; subst he) | cases he
  repeat' (first
    | (intro _) | (with_reducible exact Sound.refl _) | (with_reducible assumption) | (with_reducible apply Sound.ite)
    | (with_reducible apply hostReg_sound) | (simp only [sound_upd]) | (with_reducible apply Sound.foldl)
    | (with_reducible apply Sound.foldr) | (split))

theorem execPortCmdSaveEq_sound {port : Nat} {s : State} {t0 : State}
    (he : execPortCmdSaveEq port s = .next t0) : Sound s t0 := by
  unfold execPortCmdSaveEq at he
  first | (replace he := Host.Outcome.next.inj he; subst he) | cases he
  repeat' (first
    | (intro _) | (with_reducible exact Sound.refl _) | (with_reducible assumption) | (with_reducible apply Sound.ite)
    | (with_reducible apply hostReg_sound) | (simp only [sound_upd]) | (with_reducible apply Sound.foldl)
    | (with_reducible apply Sound.foldr) | (split))

theorem execRtDataAccess_sound {die : Nat} {value : Option W32} {s : State} {t0 : State}
    (he : execRtDataAccess die value s = .next t0) : Sound s t0 := by
  unfold execRtDataAccess at he
  first | (replace he := Host.Outcome.next.inj he; subst he) | cases he
  repeat' (first
    | (intro _) | (with_reducible exact Sound.refl _) | (with_reducible assumption) | (with_reducible apply Sound.ite)
    | (with_reducible apply hostReg_sound) | (with_reducible apply hostRead_sound) | (simp only [sound_upd])
    | (with_reducible apply Sound.foldl) | (with_reducible apply Sound.foldr) | (split))

theorem execGrpSettle_sound {group : Nat} {s : State} {t0 : State} (he : execGrpSettle group s = .next t0) : Sound s t0 := by
  unfold execGrpSettle at he
  first | (replace he := Host.Outcome.next.inj he; subst he) | cases he
  repeat' (first
    | (intro _) | (with_reducible exact Sound.refl _) | (with_reducible assumption) | (with_reducible apply Sound.ite)
    | (with_reducible apply entryHost_sound) | (simp only [sound_upd]) | (with_reducible apply Sound.foldl)
    | (with_reducible apply Sound.foldr) | (split))

theorem execGrpReshard_sound {group : Nat} {s : State} {t0 : State}
    (he : execGrpReshard group s = .next t0) : Sound s t0 := by
  unfold execGrpReshard at he
  first | (replace he := Host.Outcome.next.inj he; subst he) | cases he
  repeat' (first
    | (intro _) | (with_reducible exact Sound.refl _) | (with_reducible assumption) | (with_reducible apply Sound.ite)
    | (with_reducible apply entryHost_sound) | (simp only [sound_upd]) | (with_reducible apply Sound.foldl)
    | (with_reducible apply Sound.foldr) | (split))

theorem execGrpAbort_sound {group : Nat} {s : State} {t0 : State} (he : execGrpAbort group s = .next t0) : Sound s t0 := by
  unfold execGrpAbort at he
  first | (replace he := Host.Outcome.next.inj he; subst he) | cases he
  repeat' (first
    | (intro _) | (with_reducible exact Sound.refl _) | (with_reducible assumption) | (with_reducible apply Sound.ite)
    | (with_reducible apply entryHost_sound) | (simp only [sound_upd]) | (with_reducible apply Sound.foldl)
    | (with_reducible apply Sound.foldr) | (split))

theorem execGrpCfgWrite_sound {group : Nat} {value : W32} {s : State} {t0 : State}
    (he : execGrpCfgWrite group value s = .next t0) : Sound s t0 := by
  unfold execGrpCfgWrite at he
  first | (replace he := Host.Outcome.next.inj he; subst he) | cases he
  repeat' (first
    | (intro _) | (with_reducible exact Sound.refl _) | (with_reducible assumption) | (with_reducible apply Sound.ite)
    | (with_reducible apply entryHost_sound) | (simp only [sound_upd]) | (with_reducible apply Sound.foldl)
    | (with_reducible apply Sound.foldr) | (split))

theorem execLayoutDataWrite_sound {group : Nat} {value : Option W32} {s : State} {t0 : State}
    (he : execLayoutDataWrite group value s = .next t0) : Sound s t0 := by
  unfold execLayoutDataWrite at he
  first | (replace he := Host.Outcome.next.inj he; subst he) | cases he
  repeat' (first
    | (intro _) | (with_reducible exact Sound.refl _) | (with_reducible assumption) | (with_reducible apply Sound.ite)
    | (with_reducible apply entryHost_sound) | (with_reducible apply hostRead_sound) | (simp only [sound_upd])
    | (with_reducible apply Sound.foldl) | (with_reducible apply Sound.foldr) | (split))

theorem execDupCfgWrite_sound {cluster : Nat} {value : W32} {s : State} {t0 : State}
    (he : execDupCfgWrite cluster value s = .next t0) : Sound s t0 := by
  unfold execDupCfgWrite at he
  first | (replace he := Host.Outcome.next.inj he; subst he) | cases he
  repeat' (first
    | (intro _) | (with_reducible exact Sound.refl _) | (with_reducible assumption) | (with_reducible apply Sound.ite)
    | (with_reducible apply hostReg_sound) | (simp only [sound_upd]) | (with_reducible apply Sound.foldl)
    | (with_reducible apply Sound.foldr) | (split))

theorem resetComplete_sound {t0 : State} {s : State} {p : Nat} (hk : Sound t0 s) : Sound t0 (resetComplete s p) := by
  unfold resetComplete
  try dsimp only
  repeat' (first
    | (intro _) | (with_reducible exact Sound.refl _) | (with_reducible assumption) | (with_reducible apply Sound.ite)
    | (with_reducible apply clearPart_sound) | (with_reducible apply portDown_sound)
    | (with_reducible apply contextsFreed_sound) | (with_reducible apply raiseEvt_sound)
    | (with_reducible apply modPart_sound) | (simp only [sound_upd]) | (with_reducible apply Sound.foldl)
    | (with_reducible apply Sound.foldr) | (split))

theorem execPartResetComplete_sound {part_ : Nat} {s : State} {t0 : State}
    (he : execPartResetComplete part_ s = .next t0) : Sound s t0 := by
  unfold execPartResetComplete at he
  first | (replace he := Host.Outcome.next.inj he; subst he) | cases he
  repeat' (first
    | (intro _) | (with_reducible exact Sound.refl _) | (with_reducible assumption) | (with_reducible apply Sound.ite)
    | (with_reducible apply resetComplete_sound) | (simp only [sound_upd]) | (with_reducible apply Sound.foldl)
    | (with_reducible apply Sound.foldr) | (split))

theorem railFault_sound {t0 : State} {s : State} {r : Nat} (hk : Sound t0 s) : Sound t0 (railFault s r) := by
  unfold railFault
  try dsimp only
  repeat' (first
    | (intro _) | (with_reducible exact Sound.refl _) | (with_reducible assumption) | (with_reducible apply Sound.ite)
    | (with_reducible apply raiseEvt_sound) | (with_reducible apply pwrErr_sound)
    | (with_reducible apply setPwr_sound) | (with_reducible apply takeOff_sound)
    | (with_reducible apply downPorts_sound) | (with_reducible apply pwrBlotter_sound) | (simp only [sound_upd])
    | (with_reducible apply Sound.foldl) | (with_reducible apply Sound.foldr) | (split))

theorem railSample_sound {t0 : State} {s : State} {bad : List Nat} (hk : Sound t0 s) : Sound t0 (railSample s bad) := by
  unfold railSample
  try dsimp only
  repeat' (first
    | (intro _) | (with_reducible exact Sound.refl _) | (with_reducible assumption) | (with_reducible apply Sound.ite)
    | (with_reducible apply setPwr_sound) | (with_reducible apply railFault_sound) | (simp only [sound_upd])
    | (with_reducible apply Sound.foldl) | (with_reducible apply Sound.foldr) | (split))

theorem execRailMonitorSample_sound {bad : List Nat} {s : State} {t0 : State}
    (he : execRailMonitorSample bad s = .next t0) : Sound s t0 := by
  unfold execRailMonitorSample at he
  first | (replace he := Host.Outcome.next.inj he; subst he) | cases he
  repeat' (first
    | (intro _) | (with_reducible exact Sound.refl _) | (with_reducible assumption) | (with_reducible apply Sound.ite)
    | (with_reducible apply railSample_sound) | (simp only [sound_upd]) | (with_reducible apply Sound.foldl)
    | (with_reducible apply Sound.foldr) | (split))

theorem noseRestart_keeps {t0 : State} {s : State} {cause : Nat} {asked : Bool} (hk : Keeps t0 s) : Keeps t0
    (noseRestart s cause asked) := by
  unfold noseRestart
  try dsimp only
  repeat' (first
    | (intro _) | (with_reducible exact Keeps.refl _) | (with_reducible assumption) | (with_reducible apply Keeps.ite)
    | (simp only [keeps_upd]) | (with_reducible apply Keeps.foldl) | (with_reducible apply Keeps.foldr) | (split))

theorem noseRestart_sound {t0 : State} {s : State} {cause : Nat} {asked : Bool} (hk : Sound t0 s) : Sound t0
    (noseRestart s cause asked) := hk.trans (noseRestart_keeps (Keeps.refl _)).sound

theorem execNoseLockstepMismatch_keeps {s : State} {t0 : State}
    (he : execNoseLockstepMismatch s = .next t0) : Keeps s t0 := by
  unfold execNoseLockstepMismatch at he
  first | (replace he := Host.Outcome.next.inj he; subst he) | cases he
  repeat' (first
    | (intro _) | (with_reducible exact Keeps.refl _) | (with_reducible assumption) | (with_reducible apply Keeps.ite)
    | (with_reducible apply noseRestart_keeps) | (simp only [keeps_upd]) | (with_reducible apply Keeps.foldl)
    | (with_reducible apply Keeps.foldr) | (split))

theorem execNoseWatchdogExpire_keeps {s : State} {t0 : State} (he : execNoseWatchdogExpire s = .next t0) : Keeps s t0 := by
  unfold execNoseWatchdogExpire at he
  first | (replace he := Host.Outcome.next.inj he; subst he) | cases he
  repeat' (first
    | (intro _) | (with_reducible exact Keeps.refl _) | (with_reducible assumption) | (with_reducible apply Keeps.ite)
    | (with_reducible apply noseRestart_keeps) | (simp only [keeps_upd]) | (with_reducible apply Keeps.foldl)
    | (with_reducible apply Keeps.foldr) | (split))

theorem forgotMany_keeps {t0 : State} {s : State} {region : Nat} {lun : Nat} {n : Nat} (hk : Keeps t0 s) : Keeps t0
    (forgotMany s region lun n) := by
  unfold forgotMany
  try dsimp only
  repeat' (first
    | (intro _) | (with_reducible exact Keeps.refl _) | (with_reducible assumption) | (with_reducible apply Keeps.ite)
    | (with_reducible apply forgot_keeps) | (simp only [keeps_upd]) | (with_reducible apply Keeps.foldl)
    | (with_reducible apply Keeps.foldr) | (split))

theorem forgotMany_sound {t0 : State} {s : State} {region : Nat} {lun : Nat} {n : Nat} (hk : Sound t0 s) : Sound t0
    (forgotMany s region lun n) := hk.trans (forgotMany_keeps (Keeps.refl _)).sound

theorem vialRead_keeps {t0 : State} {s : State} {r : VRead} {region : Nat} {lun : Nat} (hk : Keeps t0 s) : Keeps t0
    (vialRead s r region lun) := by
  unfold vialRead
  try dsimp only
  repeat' (first
    | (intro _) | (with_reducible exact Keeps.refl _) | (with_reducible assumption) | (with_reducible apply Keeps.ite)
    | (with_reducible apply forgotMany_keeps) | (with_reducible apply setVial_keeps) | (simp only [keeps_upd])
    | (with_reducible apply Keeps.foldl) | (with_reducible apply Keeps.foldr) | (split))

theorem vialRead_sound {t0 : State} {s : State} {r : VRead} {region : Nat} {lun : Nat} (hk : Sound t0 s) : Sound t0
    (vialRead s r region lun) := hk.trans (vialRead_keeps (Keeps.refl _)).sound

theorem noseBlotter_keeps {t0 : State} {s : State} {code : Nat} {at_ : Nat} (hk : Keeps t0 s) : Keeps t0
    (noseBlotter s code at_) := by
  unfold noseBlotter
  try dsimp only
  repeat' (first
    | (intro _) | (with_reducible exact Keeps.refl _) | (with_reducible assumption) | (with_reducible apply Keeps.ite)
    | (with_reducible apply writeBlotter_keeps) | (simp only [keeps_upd]) | (with_reducible apply Keeps.foldl)
    | (with_reducible apply Keeps.foldr) | (split))

theorem noseBlotter_sound {t0 : State} {s : State} {code : Nat} {at_ : Nat} (hk : Sound t0 s) : Sound t0
    (noseBlotter s code at_) := hk.trans (noseBlotter_keeps (Keeps.refl _)).sound

theorem restartMailbox_sound {t0 : State} {s : State} {asked : Bool} (hk : Sound t0 s) : Sound t0
    (restartMailbox s asked) := by
  unfold restartMailbox
  try dsimp only
  repeat' (first
    | (intro _) | (with_reducible exact Sound.refl _) | (with_reducible assumption) | (with_reducible apply Sound.ite)
    | (with_reducible apply endModuleOp_sound) | (with_reducible apply mbFinish_sound) | (simp only [sound_upd])
    | (with_reducible apply Sound.foldl) | (with_reducible apply Sound.foldr) | (split))

theorem restartDone_sound {t0 : State} {s : State} {verdict : Nat} {r : VRead} (hk : Sound t0 s) : Sound t0
    (restartDone s verdict r) := by
  unfold restartDone
  try dsimp only
  repeat' (first
    | (intro _) | (with_reducible exact Sound.refl _) | (with_reducible assumption) | (with_reducible apply Sound.ite)
    | (with_reducible apply vialRead_sound) | (with_reducible apply setNose_sound)
    | (with_reducible apply startImage_sound) | (with_reducible apply addEvent_sound)
    | (with_reducible apply releaseBlotters_sound) | (with_reducible apply noseBlotter_sound)
    | (with_reducible apply noseErr_sound) | (with_reducible apply raiseEvt_sound)
    | (with_reducible apply restartMailbox_sound) | (simp only [sound_upd]) | (with_reducible apply Sound.foldl)
    | (with_reducible apply Sound.foldr) | (split))

theorem execNoseRestartDone_sound {verdict : Nat} {r : VRead} {s : State} {t0 : State}
    (he : execNoseRestartDone verdict r s = .next t0) : Sound s t0 := by
  unfold execNoseRestartDone at he
  first | (replace he := Host.Outcome.next.inj he; subst he) | cases he
  repeat' (first
    | (intro _) | (with_reducible exact Sound.refl _) | (with_reducible assumption) | (with_reducible apply Sound.ite)
    | (with_reducible apply restartDone_sound) | (simp only [sound_upd]) | (with_reducible apply Sound.foldl)
    | (with_reducible apply Sound.foldr) | (split))

theorem readSensor_keeps {t0 : State} {s : State} {id : Nat} {v : Nat} (hk : Keeps t0 s) : Keeps t0 (readSensor s id v) := by
  unfold readSensor
  try dsimp only
  repeat' (first
    | (intro _) | (with_reducible exact Keeps.refl _) | (with_reducible assumption) | (with_reducible apply Keeps.ite)
    | (with_reducible apply setNose_keeps) | (with_reducible apply crossEvent_keeps) | (simp only [keeps_upd])
    | (with_reducible apply Keeps.foldl) | (with_reducible apply Keeps.foldr) | (split))

theorem readSensor_sound {t0 : State} {s : State} {id : Nat} {v : Nat} (hk : Sound t0 s) : Sound t0
    (readSensor s id v) := hk.trans (readSensor_keeps (Keeps.refl _)).sound

theorem sensorPoll_keeps {t0 : State} {s : State} {readings : List (Nat × Nat)} {sram : Ecc}
    (hk : Keeps t0 s) : Keeps t0 (sensorPoll s readings sram) := by
  unfold sensorPoll
  try dsimp only
  repeat' (first
    | (intro _) | (with_reducible exact Keeps.refl _) | (with_reducible assumption) | (with_reducible apply Keeps.ite)
    | (with_reducible apply readSensor_keeps) | (with_reducible apply setNose_keeps)
    | (with_reducible apply noseRestart_keeps) | (simp only [keeps_upd]) | (with_reducible apply Keeps.foldl)
    | (with_reducible apply Keeps.foldr) | (split))

theorem sensorPoll_sound {t0 : State} {s : State} {readings : List (Nat × Nat)} {sram : Ecc}
    (hk : Sound t0 s) : Sound t0 (sensorPoll s readings sram) := hk.trans (sensorPoll_keeps (Keeps.refl _)).sound

theorem execNoseSensorPoll_keeps {readings : List (Nat × Nat)} {sram : Ecc} {s : State} {t0 : State}
    (he : execNoseSensorPoll readings sram s = .next t0) : Keeps s t0 := by
  unfold execNoseSensorPoll at he
  first | (replace he := Host.Outcome.next.inj he; subst he) | cases he
  repeat' (first
    | (intro _) | (with_reducible exact Keeps.refl _) | (with_reducible assumption) | (with_reducible apply Keeps.ite)
    | (with_reducible apply sensorPoll_keeps) | (simp only [keeps_upd]) | (with_reducible apply Keeps.foldl)
    | (with_reducible apply Keeps.foldr) | (split))

theorem mountAnchor_keeps {t0 : State} {s : State} {anchors : List Nat} (hk : Keeps t0 s) : Keeps t0
    (mountAnchor s anchors).1 := by
  unfold mountAnchor
  try dsimp only
  repeat' (first
    | (intro _) | (with_reducible exact Keeps.refl _) | (with_reducible assumption) | (with_reducible apply Keeps.ite)
    | (with_reducible apply setVial_keeps) | (with_reducible apply forgotMany_keeps) | (simp only [keeps_upd])
    | (with_reducible apply Keeps.foldl) | (with_reducible apply Keeps.foldr) | (split))

theorem mountAnchor_keeps' {t0 : State} {s : State} {anchors : List Nat} {t : State} {y : Option Anchor}
    (he : mountAnchor s anchors = (t, y)) (hk : Keeps t0 s) : Keeps t0 t := by
  have k := mountAnchor_keeps (s := s) (anchors := anchors) hk
  rw [he] at k
  exact k

theorem mountAnchor_sound {t0 : State} {s : State} {anchors : List Nat} (hk : Sound t0 s) : Sound t0
    (mountAnchor s anchors).1 := hk.trans (mountAnchor_keeps (Keeps.refl _)).sound

theorem mountAnchor_sound' {t0 : State} {s : State} {anchors : List Nat} {t : State} {y : Option Anchor}
    (he : mountAnchor s anchors = (t, y)) (hk : Sound t0 s) : Sound t0 t := hk.trans (mountAnchor_keeps' he
    (Keeps.refl _)).sound

theorem wornRegion_keeps {t0 : State} {s : State} {r : Nat} {lun : Nat} (hk : Keeps t0 s) : Keeps t0
    (wornRegion s r lun) := by
  unfold wornRegion
  try dsimp only
  repeat' (first
    | (intro _) | (with_reducible exact Keeps.refl _) | (with_reducible assumption) | (with_reducible apply Keeps.ite)
    | (with_reducible apply raiseEvt_keeps) | (with_reducible apply vialErr_keeps)
    | (with_reducible apply setVial_keeps) | (simp only [keeps_upd]) | (with_reducible apply Keeps.foldl)
    | (with_reducible apply Keeps.foldr) | (split))

theorem wornRegion_sound {t0 : State} {s : State} {r : Nat} {lun : Nat} (hk : Sound t0 s) : Sound t0
    (wornRegion s r lun) := hk.trans (wornRegion_keeps (Keeps.refl _)).sound

theorem moveBlock_keeps {t0 : State} {s : State} {b : Nat} {retire : Bool} (hk : Keeps t0 s) : Keeps t0
    (moveBlock s b retire) := by
  unfold moveBlock
  try dsimp only
  repeat' (first
    | (intro _) | (with_reducible exact Keeps.refl _) | (with_reducible assumption) | (with_reducible apply Keeps.ite)
    | (with_reducible apply anchorWrite_keeps) | (with_reducible apply setVial_keeps)
    | (with_reducible apply wornRegion_keeps) | (simp only [keeps_upd]) | (with_reducible apply Keeps.foldl)
    | (with_reducible apply Keeps.foldr) | (split))

theorem moveBlock_sound {t0 : State} {s : State} {b : Nat} {retire : Bool} (hk : Sound t0 s) : Sound t0
    (moveBlock s b retire) := hk.trans (moveBlock_keeps (Keeps.refl _)).sound

theorem retireFailed_keeps {t0 : State} {s : State} (hk : Keeps t0 s) : Keeps t0 (retireFailed s) := by
  unfold retireFailed
  try dsimp only
  repeat' (first
    | (intro _) | (with_reducible exact Keeps.refl _) | (with_reducible assumption) | (with_reducible apply Keeps.ite)
    | (with_reducible apply moveBlock_keeps) | (with_reducible apply setVial_keeps) | (simp only [keeps_upd])
    | (with_reducible apply Keeps.foldl) | (with_reducible apply Keeps.foldr) | (split))

theorem retireFailed_sound {t0 : State} {s : State} (hk : Sound t0 s) : Sound t0 (retireFailed s) := hk.trans
    (retireFailed_keeps (Keeps.refl _)).sound

theorem halfForgot_keeps {t0 : State} {s : State} {c : Option CritSet} {reads : Bool} (hk : Keeps t0 s) : Keeps t0
    (halfForgot s c reads) := by
  unfold halfForgot
  try dsimp only
  repeat' (first
    | (intro _) | (with_reducible exact Keeps.refl _) | (with_reducible assumption) | (with_reducible apply Keeps.ite)
    | (with_reducible apply forgot_keeps) | (simp only [keeps_upd]) | (with_reducible apply Keeps.foldl)
    | (with_reducible apply Keeps.foldr) | (split))

theorem halfForgot_sound {t0 : State} {s : State} {c : Option CritSet} {reads : Bool} (hk : Sound t0 s) : Sound t0
    (halfForgot s c reads) := hk.trans (halfForgot_keeps (Keeps.refl _)).sound

theorem openLog_keeps {t0 : State} {s : State} (hk : Keeps t0 s) : Keeps t0 (openLog s) := by
  unfold openLog
  try dsimp only
  repeat' (first
    | (intro _) | (with_reducible exact Keeps.refl _) | (with_reducible assumption) | (with_reducible apply Keeps.ite)
    | (with_reducible apply dropOldest_keeps) | (with_reducible apply wornRegion_keeps)
    | (with_reducible apply setVial_keeps) | (simp only [keeps_upd]) | (with_reducible apply Keeps.foldl)
    | (with_reducible apply Keeps.foldr) | (split))

theorem openLog_sound {t0 : State} {s : State} (hk : Sound t0 s) : Sound t0 (openLog s) := hk.trans (openLog_keeps
    (Keeps.refl _)).sound

theorem logPage_keeps {t0 : State} {s : State} {page : List Blotter} {failed : Bool} (hk : Keeps t0 s) : Keeps t0
    (logPage s page failed) := by
  unfold logPage
  try dsimp only
  repeat' (first
    | (intro _) | (with_reducible exact Keeps.refl _) | (with_reducible assumption) | (with_reducible apply Keeps.ite)
    | (with_reducible apply openLog_keeps) | (with_reducible apply moveBlock_keeps)
    | (with_reducible apply anchorWrite_keeps) | (with_reducible apply setVial_keeps) | (simp only [keeps_upd])
    | (with_reducible apply Keeps.foldl) | (with_reducible apply Keeps.foldr) | (split))

theorem logPage_sound {t0 : State} {s : State} {page : List Blotter} {failed : Bool} (hk : Sound t0 s) : Sound t0
    (logPage s page failed) := hk.trans (logPage_keeps (Keeps.refl _)).sound

theorem logBlotters_keeps {t0 : State} {s : State} {bs : List Blotter} (hk : Keeps t0 s) : Keeps t0 (logBlotters s bs) := by
  unfold logBlotters
  try dsimp only
  repeat' (first
    | (intro _) | (with_reducible exact Keeps.refl _) | (with_reducible assumption) | (with_reducible apply Keeps.ite)
    | (with_reducible apply logPage_keeps) | (simp only [keeps_upd]) | (with_reducible apply Keeps.foldl)
    | (with_reducible apply Keeps.foldr) | (split))

theorem logBlotters_sound {t0 : State} {s : State} {bs : List Blotter} (hk : Sound t0 s) : Sound t0
    (logBlotters s bs) := hk.trans (logBlotters_keeps (Keeps.refl _)).sound

theorem mountDry_keeps {t0 : State} {s0 : State} {aReads : Bool} {bReads : Bool} (hk : Keeps t0 s0) : Keeps t0
    (mountDry s0 aReads bReads) := by
  unfold mountDry
  try dsimp only
  repeat' (first
    | (intro _) | (with_reducible exact Keeps.refl _) | (with_reducible assumption) | (with_reducible apply Keeps.ite)
    | (with_reducible apply halfForgot_keeps) | (with_reducible apply raiseEvt_keeps)
    | (with_reducible apply vialErr_keeps) | (with_reducible apply eraseHalf_keeps)
    | (with_reducible apply setVial_keeps) | (with_reducible apply logBlotters_keeps) | (simp only [keeps_upd])
    | (with_reducible apply Keeps.foldl) | (with_reducible apply Keeps.foldr) | (split))

theorem mountDry_sound {t0 : State} {s0 : State} {aReads : Bool} {bReads : Bool} (hk : Sound t0 s0) : Sound t0
    (mountDry s0 aReads bReads) := hk.trans (mountDry_keeps (Keeps.refl _)).sound

theorem mendRecords_keeps {t0 : State} {s : State} {keys : List Nat} (hk : Keeps t0 s) : Keeps t0 (mendRecords s keys) := by
  unfold mendRecords
  try dsimp only
  repeat' (first
    | (intro _) | (with_reducible exact Keeps.refl _) | (with_reducible assumption) | (with_reducible apply Keeps.ite)
    | (with_reducible apply writeRec_keeps) | (with_reducible apply forgot_keeps) | (simp only [keeps_upd])
    | (with_reducible apply Keeps.foldl) | (with_reducible apply Keeps.foldr) | (split))

theorem mendRecords_sound {t0 : State} {s : State} {keys : List Nat} (hk : Sound t0 s) : Sound t0
    (mendRecords s keys) := hk.trans (mendRecords_keeps (Keeps.refl _)).sound

theorem mbEnded_keeps {t0 : State} {s : State} (hk : Keeps t0 s) : Keeps t0 (mbEnded s) := by
  unfold mbEnded
  try dsimp only
  repeat' (first
    | (intro _) | (with_reducible exact Keeps.refl _) | (with_reducible assumption) | (with_reducible apply Keeps.ite)
    | (with_reducible apply mbFinish_keeps) | (simp only [keeps_upd]) | (with_reducible apply Keeps.foldl)
    | (with_reducible apply Keeps.foldr) | (split))

theorem mbEnded_sound {t0 : State} {s : State} (hk : Sound t0 s) : Sound t0 (mbEnded s) := hk.trans (mbEnded_keeps
    (Keeps.refl _)).sound

theorem vialMount_keeps {t0 : State} {s : State} {anchors : List Nat} {aReads : Bool} {bReads : Bool}
    {bad : List Nat} {worn : List Nat} {verdict : Nat} (hk : Keeps t0 s) : Keeps t0
    (vialMount s anchors aReads bReads bad worn verdict) := by
  unfold vialMount
  try dsimp only
  repeat' (first
    | (intro _) | (with_reducible exact Keeps.refl _) | (with_reducible assumption) | (with_reducible apply Keeps.ite)
    | (with_reducible apply setVial_keeps) | (with_reducible apply mountAnchor_keeps)
    | (with_reducible apply mountAnchor_keeps' (by assumption)) | (with_reducible apply deriveKeys_keeps)
    | (with_reducible apply retireFailed_keeps) | (with_reducible apply mountDry_keeps)
    | (with_reducible apply mendRecords_keeps) | (with_reducible apply dropRecords_keeps)
    | (with_reducible apply startImage_keeps) | (with_reducible apply mbEnded_keeps)
    | (with_reducible apply releaseBlotters_keeps) | (with_reducible apply keysMade_keeps) | (simp only [keeps_upd])
    | (with_reducible apply Keeps.foldl) | (with_reducible apply Keeps.foldr) | (split))

theorem vialMount_sound {t0 : State} {s : State} {anchors : List Nat} {aReads : Bool} {bReads : Bool}
    {bad : List Nat} {worn : List Nat} {verdict : Nat} (hk : Sound t0 s) : Sound t0
    (vialMount s anchors aReads bReads bad worn verdict) := hk.trans (vialMount_keeps (Keeps.refl _)).sound

theorem execVialMount_keeps {anchors : List Nat} {aReads : Bool} {bReads : Bool} {bad : List Nat} {worn : List Nat}
    {verdict : Nat} {s : State} {t0 : State} (he : execVialMount anchors aReads bReads bad worn verdict s =
    .next t0) : Keeps s t0 := by
  unfold execVialMount at he
  first | (replace he := Host.Outcome.next.inj he; subst he) | cases he
  repeat' (first
    | (intro _) | (with_reducible exact Keeps.refl _) | (with_reducible assumption) | (with_reducible apply Keeps.ite)
    | (with_reducible apply vialMount_keeps) | (simp only [keeps_upd]) | (with_reducible apply Keeps.foldl)
    | (with_reducible apply Keeps.foldr) | (split))

theorem loseAt_keeps {t0 : State} {s : State} {b : Nat} {lost : Nat} {at_ : Nat} (hk : Keeps t0 s) : Keeps t0
    (loseAt s b lost at_) := by
  unfold loseAt
  try dsimp only
  repeat' (first
    | (intro _) | (with_reducible exact Keeps.refl _) | (with_reducible assumption) | (with_reducible apply Keeps.ite)
    | (with_reducible apply setVial_keeps) | (with_reducible apply moveBlock_keeps)
    | (with_reducible apply writeRec_keeps) | (with_reducible apply bumpFree_keeps) | (simp only [keeps_upd])
    | (with_reducible apply Keeps.foldl) | (with_reducible apply Keeps.foldr) | (split))

theorem loseAt_sound {t0 : State} {s : State} {b : Nat} {lost : Nat} {at_ : Nat} (hk : Sound t0 s) : Sound t0
    (loseAt s b lost at_) := hk.trans (loseAt_keeps (Keeps.refl _)).sound

theorem vialPatrol_keeps {t0 : State} {s : State} {b : Nat} {corr : Nat} {worst : Nat} {retry : Nat} {lost : Nat}
    {at_ : Nat} {lastPage : Bool} (hk : Keeps t0 s) : Keeps t0 (vialPatrol s b corr worst retry lost at_ lastPage) := by
  unfold vialPatrol
  try dsimp only
  repeat' (first
    | (intro _) | (with_reducible exact Keeps.refl _) | (with_reducible assumption) | (with_reducible apply Keeps.ite)
    | (with_reducible apply setVial_keeps) | (with_reducible apply loseAt_keeps)
    | (with_reducible apply forgotMany_keeps) | (with_reducible apply moveBlock_keeps)
    | (with_reducible apply anchorWrite_keeps) | (simp only [keeps_upd]) | (with_reducible apply Keeps.foldl)
    | (with_reducible apply Keeps.foldr) | (split))

theorem vialPatrol_sound {t0 : State} {s : State} {b : Nat} {corr : Nat} {worst : Nat} {retry : Nat} {lost : Nat}
    {at_ : Nat} {lastPage : Bool} (hk : Sound t0 s) : Sound t0 (vialPatrol s b corr worst retry lost at_ lastPage) :=
    hk.trans (vialPatrol_keeps (Keeps.refl _)).sound

theorem execVialPatrol_keeps {block : Nat} {corr : Nat} {worst : Nat} {retry : Nat} {lost : Nat} {where_ : Nat}
    {lastPage : Bool} {s : State} {t0 : State} (he : execVialPatrol block corr worst retry lost where_ lastPage s =
    .next t0) : Keeps s t0 := by
  unfold execVialPatrol at he
  first | (replace he := Host.Outcome.next.inj he; subst he) | cases he
  repeat' (first
    | (intro _) | (with_reducible exact Keeps.refl _) | (with_reducible assumption) | (with_reducible apply Keeps.ite)
    | (with_reducible apply vialPatrol_keeps) | (simp only [keeps_upd]) | (with_reducible apply Keeps.foldl)
    | (with_reducible apply Keeps.foldr) | (split))

theorem wearLevel_keeps {t0 : State} {s : State} {region : Nat} (hk : Keeps t0 s) : Keeps t0 (wearLevel s region) := by
  unfold wearLevel
  try dsimp only
  repeat' (first
    | (intro _) | (with_reducible exact Keeps.refl _) | (with_reducible assumption) | (with_reducible apply Keeps.ite)
    | (with_reducible apply anchorWrite_keeps) | (with_reducible apply setVial_keeps) | (simp only [keeps_upd])
    | (with_reducible apply Keeps.foldl) | (with_reducible apply Keeps.foldr) | (split))

theorem wearLevel_sound {t0 : State} {s : State} {region : Nat} (hk : Sound t0 s) : Sound t0
    (wearLevel s region) := hk.trans (wearLevel_keeps (Keeps.refl _)).sound

theorem execVialWearLevel_keeps {region : Nat} {s : State} {t0 : State}
    (he : execVialWearLevel region s = .next t0) : Keeps s t0 := by
  unfold execVialWearLevel at he
  first | (replace he := Host.Outcome.next.inj he; subst he) | cases he
  repeat' (first
    | (intro _) | (with_reducible exact Keeps.refl _) | (with_reducible assumption) | (with_reducible apply Keeps.ite)
    | (with_reducible apply wearLevel_keeps) | (simp only [keeps_upd]) | (with_reducible apply Keeps.foldl)
    | (with_reducible apply Keeps.foldr) | (split))

theorem execBlotterLogProgram_keeps {failed : Bool} {s : State} {t0 : State}
    (he : execBlotterLogProgram failed s = .next t0) : Keeps s t0 := by
  unfold execBlotterLogProgram at he
  first | (replace he := Host.Outcome.next.inj he; subst he) | cases he
  repeat' (first
    | (intro _) | (with_reducible exact Keeps.refl _) | (with_reducible assumption) | (with_reducible apply Keeps.ite)
    | (with_reducible apply logPage_keeps) | (simp only [keeps_upd]) | (with_reducible apply Keeps.foldl)
    | (with_reducible apply Keeps.foldr) | (split))

theorem powerUp_sound {t0 : State} {s : State} {width : Nat} {speed : Nat} {flit : Bool} (hk : Sound t0 s) : Sound t0
    (powerUp s width speed flit) := by
  unfold powerUp
  try dsimp only
  repeat' (first
    | (intro _) | (with_reducible exact Sound.refl _) | (with_reducible assumption) | (with_reducible apply Sound.ite)
    | (with_reducible apply endpointUp_sound) | (with_reducible apply stage2_sound)
    | (with_reducible apply afresh_sound) | (simp only [sound_upd]) | (with_reducible apply Sound.foldl)
    | (with_reducible apply Sound.foldr) | (split))

theorem execPowerUp_sound {width : Nat} {speed : Nat} {flit : Bool} {s : State} {t0 : State}
    (he : execPowerUp width speed flit s = .next t0) : Sound s t0 := by
  unfold execPowerUp at he
  first | (replace he := Host.Outcome.next.inj he; subst he) | cases he
  repeat' (first
    | (intro _) | (with_reducible exact Sound.refl _) | (with_reducible assumption) | (with_reducible apply Sound.ite)
    | (with_reducible apply powerUp_sound) | (simp only [sound_upd]) | (with_reducible apply Sound.foldl)
    | (with_reducible apply Sound.foldr) | (split))

theorem execBootReady_keeps {ms : Nat} {disabled : List Nat} {narrowed : List (Nat × Nat)} {rows : List W32}
    {badSites : List Nat} {s : State} {t0 : State} (he : execBootReady ms disabled narrowed rows badSites s =
    .next t0) : Keeps s t0 := by
  unfold execBootReady at he
  first | (replace he := Host.Outcome.next.inj he; subst he) | cases he
  repeat' (first
    | (intro _) | (with_reducible exact Keeps.refl _) | (with_reducible assumption) | (with_reducible apply Keeps.ite)
    | (with_reducible apply bootReady_keeps) | (simp only [keeps_upd]) | (with_reducible apply Keeps.foldl)
    | (with_reducible apply Keeps.foldr) | (split))

theorem execInputSag_sound {inputMin : Nat} {bankMv : Nat} {s : State} {t0 : State}
    (he : execInputSag inputMin bankMv s = .next t0) : Sound s t0 := by
  unfold execInputSag at he
  first | (replace he := Host.Outcome.next.inj he; subst he) | cases he
  repeat' (first
    | (intro _) | (with_reducible exact Sound.refl _) | (with_reducible assumption) | (with_reducible apply Sound.ite)
    | (with_reducible apply drydown_sound) | (simp only [sound_upd]) | (with_reducible apply Sound.foldl)
    | (with_reducible apply Sound.foldr) | (split))

theorem inputFault_sound {t0 : State} {s : State} {cause : Nat} {inputMin : Nat} {bankMv : Nat}
    (hk : Sound t0 s) : Sound t0 (inputFault s cause inputMin bankMv) := by
  unfold inputFault
  try dsimp only
  repeat' (first
    | (intro _) | (with_reducible exact Sound.refl _) | (with_reducible assumption) | (with_reducible apply Sound.ite)
    | (with_reducible apply pwrErr_sound) | (with_reducible apply drydown_sound)
    | (with_reducible apply pwrBlotter_sound) | (with_reducible apply bumpFree_sound) | (simp only [sound_upd])
    | (with_reducible apply Sound.foldl) | (with_reducible apply Sound.foldr) | (split))

theorem execInputOvervoltage_sound {inputMin : Nat} {bankMv : Nat} {s : State} {t0 : State}
    (he : execInputOvervoltage inputMin bankMv s = .next t0) : Sound s t0 := by
  unfold execInputOvervoltage at he
  first | (replace he := Host.Outcome.next.inj he; subst he) | cases he
  repeat' (first
    | (intro _) | (with_reducible exact Sound.refl _) | (with_reducible assumption) | (with_reducible apply Sound.ite)
    | (with_reducible apply inputFault_sound) | (simp only [sound_upd]) | (with_reducible apply Sound.foldl)
    | (with_reducible apply Sound.foldr) | (split))

theorem execInputOvercurrent_sound {inputMin : Nat} {bankMv : Nat} {s : State} {t0 : State}
    (he : execInputOvercurrent inputMin bankMv s = .next t0) : Sound s t0 := by
  unfold execInputOvercurrent at he
  first | (replace he := Host.Outcome.next.inj he; subst he) | cases he
  repeat' (first
    | (intro _) | (with_reducible exact Sound.refl _) | (with_reducible assumption) | (with_reducible apply Sound.ite)
    | (with_reducible apply inputFault_sound) | (simp only [sound_upd]) | (with_reducible apply Sound.foldl)
    | (with_reducible apply Sound.foldr) | (split))

theorem execInputOutOfRange_keeps {mv : Nat} {s : State} {t0 : State}
    (he : execInputOutOfRange mv s = .next t0) : Keeps s t0 := by
  unfold execInputOutOfRange at he
  first | (replace he := Host.Outcome.next.inj he; subst he) | cases he
  repeat' (first
    | (intro _) | (with_reducible exact Keeps.refl _) | (with_reducible assumption) | (with_reducible apply Keeps.ite)
    | (with_reducible apply raiseEvt_keeps) | (simp only [keeps_upd]) | (with_reducible apply Keeps.foldl)
    | (with_reducible apply Keeps.foldr) | (split))

theorem execDrydownCommit_keeps {failed : List Nat} {s : State} {t0 : State}
    (he : execDrydownCommit failed s = .next t0) : Keeps s t0 := by
  unfold execDrydownCommit at he
  first | (replace he := Host.Outcome.next.inj he; subst he) | cases he
  repeat' (first
    | (intro _) | (with_reducible exact Keeps.refl _) | (with_reducible assumption) | (with_reducible apply Keeps.ite)
    | (with_reducible apply drydownCommit_keeps) | (simp only [keeps_upd]) | (with_reducible apply Keeps.foldl)
    | (with_reducible apply Keeps.foldr) | (split))

theorem inputRestore_sound {t0 : State} {s : State} {fell : Bool} {width : Nat} {speed : Nat} {flit : Bool}
    (hk : Sound t0 s) : Sound t0 (inputRestore s fell width speed flit) := by
  unfold inputRestore
  try dsimp only
  repeat' (first
    | (intro _) | (with_reducible exact Sound.refl _) | (with_reducible assumption) | (with_reducible apply Sound.ite)
    | (with_reducible apply afresh_sound) | (with_reducible apply endpointUp_sound)
    | (with_reducible apply stage2_sound) | (simp only [sound_upd]) | (with_reducible apply Sound.foldl)
    | (with_reducible apply Sound.foldr) | (split))

theorem execInputRestore_sound {fell : Bool} {width : Nat} {speed : Nat} {flit : Bool} {s : State} {t0 : State}
    (he : execInputRestore fell width speed flit s = .next t0) : Sound s t0 := by
  unfold execInputRestore at he
  first | (replace he := Host.Outcome.next.inj he; subst he) | cases he
  repeat' (first
    | (intro _) | (with_reducible exact Sound.refl _) | (with_reducible assumption) | (with_reducible apply Sound.ite)
    | (with_reducible apply inputRestore_sound) | (simp only [sound_upd]) | (with_reducible apply Sound.foldl)
    | (with_reducible apply Sound.foldr) | (split))

theorem execBankCutoff_sound {s : State} {t0 : State} (he : execBankCutoff s = .next t0) : Sound s t0 := by
  unfold execBankCutoff at he
  first | (replace he := Host.Outcome.next.inj he; subst he) | cases he
  repeat' (first
    | (intro _) | (with_reducible exact Sound.refl _) | (with_reducible assumption) | (with_reducible apply Sound.ite)
    | (with_reducible apply bankCutoff_sound) | (simp only [sound_upd]) | (with_reducible apply Sound.foldl)
    | (with_reducible apply Sound.foldr) | (split))

theorem execBankCharged_keeps {mv : Nat} {cap : Nat} {s : State} {t0 : State}
    (he : execBankCharged mv cap s = .next t0) : Keeps s t0 := by
  unfold execBankCharged at he
  first | (replace he := Host.Outcome.next.inj he; subst he) | cases he
  repeat' (first
    | (intro _) | (with_reducible exact Keeps.refl _) | (with_reducible assumption) | (with_reducible apply Keeps.ite)
    | (with_reducible apply bankCharged_keeps) | (simp only [keeps_upd]) | (with_reducible apply Keeps.foldl)
    | (with_reducible apply Keeps.foldr) | (split))

theorem execBankLow_keeps {mv : Nat} {s : State} {t0 : State} (he : execBankLow mv s = .next t0) : Keeps s t0 := by
  unfold execBankLow at he
  first | (replace he := Host.Outcome.next.inj he; subst he) | cases he
  repeat' (first
    | (intro _) | (with_reducible exact Keeps.refl _) | (with_reducible assumption) | (with_reducible apply Keeps.ite)
    | (with_reducible apply bankLow_keeps) | (simp only [keeps_upd]) | (with_reducible apply Keeps.foldl)
    | (with_reducible apply Keeps.foldr) | (split))

theorem powerWindow_keeps {t0 : State} {s : State} {mv : Nat} {ma : Nat} {watts : Nat} {bankMv : Nat}
    (hk : Keeps t0 s) : Keeps t0 (powerWindow s mv ma watts bankMv) := by
  unfold powerWindow
  try dsimp only
  repeat' (first
    | (intro _) | (with_reducible exact Keeps.refl _) | (with_reducible assumption) | (with_reducible apply Keeps.ite)
    | (with_reducible apply setPwr_keeps) | (with_reducible apply settleOps_keeps)
    | (with_reducible apply capDown_keeps) | (with_reducible apply capUp_keeps) | (simp only [keeps_upd])
    | (with_reducible apply Keeps.foldl) | (with_reducible apply Keeps.foldr) | (split))

theorem powerWindow_sound {t0 : State} {s : State} {mv : Nat} {ma : Nat} {watts : Nat} {bankMv : Nat}
    (hk : Sound t0 s) : Sound t0 (powerWindow s mv ma watts bankMv) := hk.trans (powerWindow_keeps (Keeps.refl _)).sound

theorem execPowerWindow_keeps {mv : Nat} {ma : Nat} {watts : Nat} {bankMv : Nat} {s : State} {t0 : State}
    (he : execPowerWindow mv ma watts bankMv s = .next t0) : Keeps s t0 := by
  unfold execPowerWindow at he
  first | (replace he := Host.Outcome.next.inj he; subst he) | cases he
  repeat' (first
    | (intro _) | (with_reducible exact Keeps.refl _) | (with_reducible assumption) | (with_reducible apply Keeps.ite)
    | (with_reducible apply powerWindow_keeps) | (simp only [keeps_upd]) | (with_reducible apply Keeps.foldl)
    | (with_reducible apply Keeps.foldr) | (split))

theorem powerIod_keeps {t0 : State} {s : State} {x : Nat} (hk : Keeps t0 s) : Keeps t0 (powerIod s x) := by
  unfold powerIod
  try dsimp only
  repeat' (first
    | (intro _) | (with_reducible exact Keeps.refl _) | (with_reducible assumption) | (with_reducible apply Keeps.ite)
    | (with_reducible apply dropHdrs_keeps) | (simp only [keeps_upd]) | (with_reducible apply Keeps.foldl)
    | (with_reducible apply Keeps.foldr) | (split))

theorem powerIod_sound {t0 : State} {s : State} {x : Nat} (hk : Sound t0 s) : Sound t0 (powerIod s x) := hk.trans
    (powerIod_keeps (Keeps.refl _)).sound

theorem powerSite_keeps {t0 : State} {s : State} {i : Nat} (hk : Keeps t0 s) : Keeps t0 (powerSite s i) := by
  unfold powerSite
  try dsimp only
  repeat' (first
    | (intro _) | (with_reducible exact Keeps.refl _) | (with_reducible assumption) | (with_reducible apply Keeps.ite)
    | (with_reducible apply dropHdrs_keeps) | (simp only [keeps_upd]) | (with_reducible apply Keeps.foldl)
    | (with_reducible apply Keeps.foldr) | (split))

theorem powerSite_sound {t0 : State} {s : State} {i : Nat} (hk : Sound t0 s) : Sound t0 (powerSite s i) := hk.trans
    (powerSite_keeps (Keeps.refl _)).sound

theorem powerDie_keeps {t0 : State} {s : State} {d : Nat} (hk : Keeps t0 s) : Keeps t0 (powerDie s d) := by
  unfold powerDie
  try dsimp only
  repeat' (first
    | (intro _) | (with_reducible exact Keeps.refl _) | (with_reducible assumption) | (with_reducible apply Keeps.ite)
    | (with_reducible apply dropHdrs_keeps) | (simp only [keeps_upd]) | (with_reducible apply Keeps.foldl)
    | (with_reducible apply Keeps.foldr) | (split))

theorem powerDie_sound {t0 : State} {s : State} {d : Nat} (hk : Sound t0 s) : Sound t0 (powerDie s d) := hk.trans
    (powerDie_keeps (Keeps.refl _)).sound

theorem powerNew_keeps {t0 : State} {old : State} {s : State} (hk : Keeps t0 s) : Keeps t0 (powerNew old s) := by
  unfold powerNew
  try dsimp only
  repeat' (first
    | (intro _) | (with_reducible exact Keeps.refl _) | (with_reducible assumption) | (with_reducible apply Keeps.ite)
    | (with_reducible apply loadCopies_keeps) | (with_reducible apply powerIod_keeps)
    | (with_reducible apply powerSite_keeps) | (with_reducible apply powerDie_keeps) | (simp only [keeps_upd])
    | (with_reducible apply Keeps.foldl) | (with_reducible apply Keeps.foldr) | (split))

theorem powerNew_sound {t0 : State} {old : State} {s : State} (hk : Sound t0 s) : Sound t0
    (powerNew old s) := hk.trans (powerNew_keeps (Keeps.refl _)).sound

theorem thermalSample_sound {t0 : State} {s : State} {u : Nat} {t : Nat} (hk : Sound t0 s) : Sound t0
    (thermalSample s u t) := by
  unfold thermalSample
  try dsimp only
  repeat' (first
    | (intro _) | (with_reducible exact Sound.refl _) | (with_reducible assumption) | (with_reducible apply Sound.ite)
    | (with_reducible apply setPwr_sound) | (with_reducible apply powerNew_sound)
    | (with_reducible apply dieThermal_sound) | (with_reducible apply tripUnit_sound) | (simp only [sound_upd])
    | (with_reducible apply Sound.foldl) | (with_reducible apply Sound.foldr) | (split))

theorem execDieThermalSample_sound {unit : Nat} {temp : Nat} {s : State} {t0 : State}
    (he : execDieThermalSample unit temp s = .next t0) : Sound s t0 := by
  unfold execDieThermalSample at he
  first | (replace he := Host.Outcome.next.inj he; subst he) | cases he
  repeat' (first
    | (intro _) | (with_reducible exact Sound.refl _) | (with_reducible assumption) | (with_reducible apply Sound.ite)
    | (with_reducible apply thermalSample_sound) | (simp only [sound_upd]) | (with_reducible apply Sound.foldl)
    | (with_reducible apply Sound.foldr) | (split))

theorem execOpCfgWrite_sound {value : W32} {s : State} {t0 : State}
    (he : execOpCfgWrite value s = .next t0) : Sound s t0 := by
  unfold execOpCfgWrite at he
  first | (replace he := Host.Outcome.next.inj he; subst he) | cases he
  repeat' (first
    | (intro _) | (with_reducible exact Sound.refl _) | (with_reducible assumption) | (with_reducible apply Sound.ite)
    | (with_reducible apply hostReg_sound) | (simp only [sound_upd]) | (with_reducible apply Sound.foldl)
    | (with_reducible apply Sound.foldr) | (split))

theorem opChangeDone_keeps {t0 : State} {s : State} {d : Nat} (hk : Keeps t0 s) : Keeps t0 (opChangeDone s d) := by
  unfold opChangeDone
  try dsimp only
  repeat' (first
    | (intro _) | (with_reducible exact Keeps.refl _) | (with_reducible assumption) | (with_reducible apply Keeps.ite)
    | (with_reducible apply settleOp_keeps) | (with_reducible apply setPwr_keeps) | (simp only [keeps_upd])
    | (with_reducible apply Keeps.foldl) | (with_reducible apply Keeps.foldr) | (split))

theorem opChangeDone_sound {t0 : State} {s : State} {d : Nat} (hk : Sound t0 s) : Sound t0
    (opChangeDone s d) := hk.trans (opChangeDone_keeps (Keeps.refl _)).sound

theorem execOpChangeDone_keeps {die : Nat} {s : State} {t0 : State}
    (he : execOpChangeDone die s = .next t0) : Keeps s t0 := by
  unfold execOpChangeDone at he
  first | (replace he := Host.Outcome.next.inj he; subst he) | cases he
  repeat' (first
    | (intro _) | (with_reducible exact Keeps.refl _) | (with_reducible assumption) | (with_reducible apply Keeps.ite)
    | (with_reducible apply opChangeDone_keeps) | (simp only [keeps_upd]) | (with_reducible apply Keeps.foldl)
    | (with_reducible apply Keeps.foldr) | (split))

theorem execRefClockLoss_keeps {s : State} {t0 : State} (he : execRefClockLoss s = .next t0) : Keeps s t0 := by
  unfold execRefClockLoss at he
  first | (replace he := Host.Outcome.next.inj he; subst he) | cases he
  repeat' (first
    | (intro _) | (with_reducible exact Keeps.refl _) | (with_reducible assumption) | (with_reducible apply Keeps.ite)
    | (simp only [keeps_upd]) | (with_reducible apply Keeps.foldl) | (with_reducible apply Keeps.foldr) | (split))

theorem execRefClockReturn_keeps {s : State} {t0 : State} (he : execRefClockReturn s = .next t0) : Keeps s t0 := by
  unfold execRefClockReturn at he
  first | (replace he := Host.Outcome.next.inj he; subst he) | cases he
  repeat' (first
    | (intro _) | (with_reducible exact Keeps.refl _) | (with_reducible assumption) | (with_reducible apply Keeps.ite)
    | (simp only [keeps_upd]) | (with_reducible apply Keeps.foldl) | (with_reducible apply Keeps.foldr) | (split))

theorem execWxlRefclkLoss_keeps {die : Nat} {s : State} {t0 : State}
    (he : execWxlRefclkLoss die s = .next t0) : Keeps s t0 := by
  unfold execWxlRefclkLoss at he
  first | (replace he := Host.Outcome.next.inj he; subst he) | cases he
  repeat' (first
    | (intro _) | (with_reducible exact Keeps.refl _) | (with_reducible assumption) | (with_reducible apply Keeps.ite)
    | (with_reducible apply retrain_keeps) | (with_reducible apply modIod_keeps) | (simp only [keeps_upd])
    | (with_reducible apply Keeps.foldl) | (with_reducible apply Keeps.foldr) | (split))

theorem execPcieRefclkLoss_keeps {s : State} {t0 : State} (he : execPcieRefclkLoss s = .next t0) : Keeps s t0 := by
  unfold execPcieRefclkLoss at he
  first | (replace he := Host.Outcome.next.inj he; subst he) | cases he
  repeat' (first
    | (intro _) | (with_reducible exact Keeps.refl _) | (with_reducible assumption) | (with_reducible apply Keeps.ite)
    | (with_reducible apply linkDown_keeps) | (simp only [keeps_upd]) | (with_reducible apply Keeps.foldl)
    | (with_reducible apply Keeps.foldr) | (split))

theorem execPerstAssert_keeps {s : State} {t0 : State} (he : execPerstAssert s = .next t0) : Keeps s t0 := by
  unfold execPerstAssert at he
  first | (replace he := Host.Outcome.next.inj he; subst he) | cases he
  repeat' (first
    | (intro _) | (with_reducible exact Keeps.refl _) | (with_reducible assumption) | (with_reducible apply Keeps.ite)
    | (with_reducible apply linkDown_keeps) | (simp only [keeps_upd]) | (with_reducible apply Keeps.foldl)
    | (with_reducible apply Keeps.foldr) | (split))

theorem execPerstRelease_keeps {width : Nat} {speed : Nat} {flit : Bool} {s : State} {t0 : State}
    (he : execPerstRelease width speed flit s = .next t0) : Keeps s t0 := by
  unfold execPerstRelease at he
  first | (replace he := Host.Outcome.next.inj he; subst he) | cases he
  repeat' (first
    | (intro _) | (with_reducible exact Keeps.refl _) | (with_reducible assumption) | (with_reducible apply Keeps.ite)
    | (with_reducible apply endpointUp_keeps) | (simp only [keeps_upd]) | (with_reducible apply Keeps.foldl)
    | (with_reducible apply Keeps.foldr) | (split))

theorem execPcieReset_keeps {s : State} {t0 : State} (he : execPcieReset s = .next t0) : Keeps s t0 := by
  unfold execPcieReset at he
  first | (replace he := Host.Outcome.next.inj he; subst he) | cases he
  repeat' (first
    | (intro _) | (with_reducible exact Keeps.refl _) | (with_reducible assumption) | (with_reducible apply Keeps.ite)
    | (with_reducible apply pcieReset_keeps) | (simp only [keeps_upd]) | (with_reducible apply Keeps.foldl)
    | (with_reducible apply Keeps.foldr) | (split))

theorem msixControl_keeps {t0 : State} {s : State} {enable : Bool} {funcMask : Bool} (hk : Keeps t0 s) : Keeps t0
    (msixControl s enable funcMask) := by
  unfold msixControl
  try dsimp only
  repeat' (first
    | (intro _) | (with_reducible exact Keeps.refl _) | (with_reducible assumption) | (with_reducible apply Keeps.ite)
    | (with_reducible apply sendMsi_keeps) | (with_reducible apply flushPba_keeps) | (simp only [keeps_upd])
    | (with_reducible apply Keeps.foldl) | (with_reducible apply Keeps.foldr) | (split))

theorem msixControl_sound {t0 : State} {s : State} {enable : Bool} {funcMask : Bool} (hk : Sound t0 s) : Sound t0
    (msixControl s enable funcMask) := hk.trans (msixControl_keeps (Keeps.refl _)).sound

theorem execMsixEnable_keeps {enable : Bool} {funcMask : Bool} {s : State} {t0 : State}
    (he : execMsixEnable enable funcMask s = .next t0) : Keeps s t0 := by
  unfold execMsixEnable at he
  first | (replace he := Host.Outcome.next.inj he; subst he) | cases he
  repeat' (first
    | (intro _) | (with_reducible exact Keeps.refl _) | (with_reducible assumption) | (with_reducible apply Keeps.ite)
    | (with_reducible apply msixControl_keeps) | (simp only [keeps_upd]) | (with_reducible apply Keeps.foldl)
    | (with_reducible apply Keeps.foldr) | (split))

theorem execMsixUnmask_sound {vector : Nat} {s : State} {t0 : State}
    (he : execMsixUnmask vector s = .next t0) : Sound s t0 := by
  unfold execMsixUnmask at he
  first | (replace he := Host.Outcome.next.inj he; subst he) | cases he
  repeat' (first
    | (intro _) | (with_reducible exact Sound.refl _) | (with_reducible assumption) | (with_reducible apply Sound.ite)
    | (with_reducible apply hostWrite_sound) | (simp only [sound_upd]) | (with_reducible apply Sound.foldl)
    | (with_reducible apply Sound.foldr) | (split))

theorem partReg_sound {t0 : State} {s : State} {p : Nat} {o : Nat} {v : Nat} (hk : Sound t0 s) : Sound t0
    (partReg s p o v) := by
  unfold partReg
  try dsimp only
  repeat' (first
    | (intro _) | (with_reducible exact Sound.refl _) | (with_reducible assumption) | (with_reducible apply Sound.ite)
    | (with_reducible apply hostReg_sound) | (simp only [sound_upd]) | (with_reducible apply Sound.foldl)
    | (with_reducible apply Sound.foldr) | (split))

theorem execPartInit_sound {part_ : Nat} {s : State} {t0 : State} (he : execPartInit part_ s = .next t0) : Sound s t0 := by
  unfold execPartInit at he
  first | (replace he := Host.Outcome.next.inj he; subst he) | cases he
  repeat' (first
    | (intro _) | (with_reducible exact Sound.refl _) | (with_reducible assumption) | (with_reducible apply Sound.ite)
    | (with_reducible apply partReg_sound) | (simp only [sound_upd]) | (with_reducible apply Sound.foldl)
    | (with_reducible apply Sound.foldr) | (split))

theorem initDone_sound {t0 : State} {s : State} {p : Nat} (hk : Sound t0 s) : Sound t0 (initDone s p) := by
  unfold initDone
  try dsimp only
  repeat' (first
    | (intro _) | (with_reducible exact Sound.refl _) | (with_reducible assumption) | (with_reducible apply Sound.ite)
    | (with_reducible apply modPart_sound) | (with_reducible apply clearPart_sound)
    | (with_reducible apply powerNew_sound) | (simp only [sound_upd]) | (with_reducible apply Sound.foldl)
    | (with_reducible apply Sound.foldr) | (split))

theorem execPartInitDone_sound {part_ : Nat} {s : State} {t0 : State}
    (he : execPartInitDone part_ s = .next t0) : Sound s t0 := by
  unfold execPartInitDone at he
  first | (replace he := Host.Outcome.next.inj he; subst he) | cases he
  repeat' (first
    | (intro _) | (with_reducible exact Sound.refl _) | (with_reducible assumption) | (with_reducible apply Sound.ite)
    | (with_reducible apply initDone_sound) | (simp only [sound_upd]) | (with_reducible apply Sound.foldl)
    | (with_reducible apply Sound.foldr) | (split))

theorem execPartActivate_sound {part_ : Nat} {s : State} {t0 : State}
    (he : execPartActivate part_ s = .next t0) : Sound s t0 := by
  unfold execPartActivate at he
  first | (replace he := Host.Outcome.next.inj he; subst he) | cases he
  repeat' (first
    | (intro _) | (with_reducible exact Sound.refl _) | (with_reducible assumption) | (with_reducible apply Sound.ite)
    | (with_reducible apply partReg_sound) | (simp only [sound_upd]) | (with_reducible apply Sound.foldl)
    | (with_reducible apply Sound.foldr) | (split))

theorem execPartActivateResume_sound {part_ : Nat} {s : State} {t0 : State}
    (he : execPartActivateResume part_ s = .next t0) : Sound s t0 := by
  unfold execPartActivateResume at he
  first | (replace he := Host.Outcome.next.inj he; subst he) | cases he
  repeat' (first
    | (intro _) | (with_reducible exact Sound.refl _) | (with_reducible assumption) | (with_reducible apply Sound.ite)
    | (with_reducible apply activate_sound) | (with_reducible apply pendCmd_sound) | (simp only [sound_upd])
    | (with_reducible apply Sound.foldl) | (with_reducible apply Sound.foldr) | (split))

theorem execPartQuiesce_sound {part_ : Nat} {s : State} {t0 : State}
    (he : execPartQuiesce part_ s = .next t0) : Sound s t0 := by
  unfold execPartQuiesce at he
  first | (replace he := Host.Outcome.next.inj he; subst he) | cases he
  repeat' (first
    | (intro _) | (with_reducible exact Sound.refl _) | (with_reducible assumption) | (with_reducible apply Sound.ite)
    | (with_reducible apply partReg_sound) | (simp only [sound_upd]) | (with_reducible apply Sound.foldl)
    | (with_reducible apply Sound.foldr) | (split))

theorem quiesceDone_keeps {t0 : State} {s : State} {p : Nat} (hk : Keeps t0 s) : Keeps t0 (quiesceDone s p) := by
  unfold quiesceDone
  try dsimp only
  repeat' (first
    | (intro _) | (with_reducible exact Keeps.refl _) | (with_reducible assumption) | (with_reducible apply Keeps.ite)
    | (with_reducible apply modPart_keeps) | (with_reducible apply settleFull_keeps)
    | (with_reducible apply dropRole_keeps) | (simp only [keeps_upd]) | (with_reducible apply Keeps.foldl)
    | (with_reducible apply Keeps.foldr) | (split))

theorem quiesceDone_sound {t0 : State} {s : State} {p : Nat} (hk : Sound t0 s) : Sound t0
    (quiesceDone s p) := hk.trans (quiesceDone_keeps (Keeps.refl _)).sound

theorem execPartQuiesceDone_keeps {part_ : Nat} {s : State} {t0 : State}
    (he : execPartQuiesceDone part_ s = .next t0) : Keeps s t0 := by
  unfold execPartQuiesceDone at he
  first | (replace he := Host.Outcome.next.inj he; subst he) | cases he
  repeat' (first
    | (intro _) | (with_reducible exact Keeps.refl _) | (with_reducible assumption) | (with_reducible apply Keeps.ite)
    | (with_reducible apply quiesceDone_keeps) | (simp only [keeps_upd]) | (with_reducible apply Keeps.foldl)
    | (with_reducible apply Keeps.foldr) | (split))

theorem execPartOff_sound {part_ : Nat} {s : State} {t0 : State} (he : execPartOff part_ s = .next t0) : Sound s t0 := by
  unfold execPartOff at he
  first | (replace he := Host.Outcome.next.inj he; subst he) | cases he
  repeat' (first
    | (intro _) | (with_reducible exact Sound.refl _) | (with_reducible assumption) | (with_reducible apply Sound.ite)
    | (with_reducible apply partReg_sound) | (simp only [sound_upd]) | (with_reducible apply Sound.foldl)
    | (with_reducible apply Sound.foldr) | (split))

theorem execPartModeWrite_sound {value : W32} {s : State} {t0 : State}
    (he : execPartModeWrite value s = .next t0) : Sound s t0 := by
  unfold execPartModeWrite at he
  first | (replace he := Host.Outcome.next.inj he; subst he) | cases he
  repeat' (first
    | (intro _) | (with_reducible exact Sound.refl _) | (with_reducible assumption) | (with_reducible apply Sound.ite)
    | (with_reducible apply hostReg_sound) | (simp only [sound_upd]) | (with_reducible apply Sound.foldl)
    | (with_reducible apply Sound.foldr) | (split))

theorem execPortOwnerWrite_sound {die : Nat} {value : W32} {s : State} {t0 : State}
    (he : execPortOwnerWrite die value s = .next t0) : Sound s t0 := by
  unfold execPortOwnerWrite at he
  first | (replace he := Host.Outcome.next.inj he; subst he) | cases he
  repeat' (first
    | (intro _) | (with_reducible exact Sound.refl _) | (with_reducible assumption) | (with_reducible apply Sound.ite)
    | (with_reducible apply hostReg_sound) | (simp only [sound_upd]) | (with_reducible apply Sound.foldl)
    | (with_reducible apply Sound.foldr) | (split))

theorem execPartModuleIdWrite_sound {part_ : Nat} {value : W32} {s : State} {t0 : State}
    (he : execPartModuleIdWrite part_ value s = .next t0) : Sound s t0 := by
  unfold execPartModuleIdWrite at he
  first | (replace he := Host.Outcome.next.inj he; subst he) | cases he
  repeat' (first
    | (intro _) | (with_reducible exact Sound.refl _) | (with_reducible assumption) | (with_reducible apply Sound.ite)
    | (with_reducible apply partReg_sound) | (simp only [sound_upd]) | (with_reducible apply Sound.foldl)
    | (with_reducible apply Sound.foldr) | (split))

theorem execHbmPlacementWrite_sound {part_ : Nat} {which : Nat} {value : W32} {s : State} {t0 : State}
    (he : execHbmPlacementWrite part_ which value s = .next t0) : Sound s t0 := by
  unfold execHbmPlacementWrite at he
  first | (replace he := Host.Outcome.next.inj he; subst he) | cases he
  repeat' (first
    | (intro _) | (with_reducible exact Sound.refl _) | (with_reducible assumption) | (with_reducible apply Sound.ite)
    | (with_reducible apply partReg_sound) | (simp only [sound_upd]) | (with_reducible apply Sound.foldl)
    | (with_reducible apply Sound.foldr) | (split))

theorem execExpTableWrite_sound {part_ : Nat} {value : W64} {s : State} {t0 : State}
    (he : execExpTableWrite part_ value s = .next t0) : Sound s t0 := by
  unfold execExpTableWrite at he
  first | (replace he := Host.Outcome.next.inj he; subst he) | cases he
  repeat' (first
    | (intro _) | (with_reducible exact Sound.refl _) | (with_reducible assumption) | (with_reducible apply Sound.ite)
    | (with_reducible apply hostWrite_sound) | (simp only [sound_upd]) | (with_reducible apply Sound.foldl)
    | (with_reducible apply Sound.foldr) | (split))

theorem execSillageWrite_sound {part_ : Nat} {which : Nat} {value : W64} {s : State} {t0 : State}
    (he : execSillageWrite part_ which value s = .next t0) : Sound s t0 := by
  unfold execSillageWrite at he
  first | (replace he := Host.Outcome.next.inj he; subst he) | cases he
  repeat' (first
    | (intro _) | (with_reducible exact Sound.refl _) | (with_reducible assumption) | (with_reducible apply Sound.ite)
    | (with_reducible apply partReg_sound) | (with_reducible apply hostWrite_sound) | (simp only [sound_upd])
    | (with_reducible apply Sound.foldl) | (with_reducible apply Sound.foldr) | (split))

theorem noseBell_keeps {t0 : State} {s : State} {off : Nat} {size : Nat} {v : W64} (hk : Keeps t0 s) : Keeps t0
    (noseBell s off size v) := by
  unfold noseBell
  try dsimp only
  repeat' (first
    | (intro _) | (with_reducible exact Keeps.refl _) | (with_reducible assumption) | (with_reducible apply Keeps.ite)
    | (with_reducible apply doorbell_keeps) | (simp only [keeps_upd]) | (with_reducible apply Keeps.foldl)
    | (with_reducible apply Keeps.foldr) | (split))

theorem noseBell_sound {t0 : State} {s : State} {off : Nat} {size : Nat} {v : W64} (hk : Sound t0 s) : Sound t0
    (noseBell s off size v) := hk.trans (noseBell_keeps (Keeps.refl _)).sound

theorem execRegisterWrite_sound {byNose : Bool} {bar : Nat} {off : Nat} {size : Nat} {value : W64} {s : State}
    {t0 : State} (he : execRegisterWrite byNose bar off size value s = .next t0) : Sound s t0 := by
  unfold execRegisterWrite at he
  first | (replace he := Host.Outcome.next.inj he; subst he) | cases he
  repeat' (first
    | (intro _) | (with_reducible exact Sound.refl _) | (with_reducible assumption) | (with_reducible apply Sound.ite)
    | (with_reducible apply noseBell_sound) | (with_reducible apply bar0Write_sound)
    | (with_reducible apply hostWrite_sound) | (simp only [sound_upd]) | (with_reducible apply Sound.foldl)
    | (with_reducible apply Sound.foldr) | (split))

theorem execHostReadBad_keeps {bar : Nat} {off : Nat} {size : Nat} {s : State} {t0 : State}
    (he : execHostReadBad bar off size s = .next t0) : Keeps s t0 := by
  unfold execHostReadBad at he
  first | (replace he := Host.Outcome.next.inj he; subst he) | cases he
  repeat' (first
    | (intro _) | (with_reducible exact Keeps.refl _) | (with_reducible assumption) | (with_reducible apply Keeps.ite)
    | (with_reducible apply hostRead_keeps) | (simp only [keeps_upd]) | (with_reducible apply Keeps.foldl)
    | (with_reducible apply Keeps.foldr) | (split))

theorem headerReg_sound {t0 : State} {s : State} {page : Nat} {o : Nat} {v : W32} (hk : Sound t0 s) : Sound t0
    (headerReg s page o v) := by
  unfold headerReg
  try dsimp only
  repeat' (first
    | (intro _) | (with_reducible exact Sound.refl _) | (with_reducible assumption) | (with_reducible apply Sound.ite)
    | (with_reducible apply hostReg_sound) | (simp only [sound_upd]) | (with_reducible apply Sound.foldl)
    | (with_reducible apply Sound.foldr) | (split))

theorem execEvtPendClear_sound {page : Nat} {value : W32} {s : State} {t0 : State}
    (he : execEvtPendClear page value s = .next t0) : Sound s t0 := by
  unfold execEvtPendClear at he
  first | (replace he := Host.Outcome.next.inj he; subst he) | cases he
  repeat' (first
    | (intro _) | (with_reducible exact Sound.refl _) | (with_reducible assumption) | (with_reducible apply Sound.ite)
    | (with_reducible apply headerReg_sound) | (simp only [sound_upd]) | (with_reducible apply Sound.foldl)
    | (with_reducible apply Sound.foldr) | (split))

theorem execEvtForce_sound {page : Nat} {value : W32} {s : State} {t0 : State}
    (he : execEvtForce page value s = .next t0) : Sound s t0 := by
  unfold execEvtForce at he
  first | (replace he := Host.Outcome.next.inj he; subst he) | cases he
  repeat' (first
    | (intro _) | (with_reducible exact Sound.refl _) | (with_reducible assumption) | (with_reducible apply Sound.ite)
    | (with_reducible apply headerReg_sound) | (simp only [sound_upd]) | (with_reducible apply Sound.foldl)
    | (with_reducible apply Sound.foldr) | (split))

theorem execEvtEnWrite_sound {page : Nat} {value : W32} {s : State} {t0 : State}
    (he : execEvtEnWrite page value s = .next t0) : Sound s t0 := by
  unfold execEvtEnWrite at he
  first | (replace he := Host.Outcome.next.inj he; subst he) | cases he
  repeat' (first
    | (intro _) | (with_reducible exact Sound.refl _) | (with_reducible assumption) | (with_reducible apply Sound.ite)
    | (with_reducible apply headerReg_sound) | (simp only [sound_upd]) | (with_reducible apply Sound.foldl)
    | (with_reducible apply Sound.foldr) | (split))

theorem execErrClear_sound {page : Nat} {s : State} {t0 : State} (he : execErrClear page s = .next t0) : Sound s t0 := by
  unfold execErrClear at he
  first | (replace he := Host.Outcome.next.inj he; subst he) | cases he
  repeat' (first
    | (intro _) | (with_reducible exact Sound.refl _) | (with_reducible assumption) | (with_reducible apply Sound.ite)
    | (with_reducible apply headerReg_sound) | (simp only [sound_upd]) | (with_reducible apply Sound.foldl)
    | (with_reducible apply Sound.foldr) | (split))

theorem execPageLockWrite_sound {page : Nat} {value : W32} {s : State} {t0 : State}
    (he : execPageLockWrite page value s = .next t0) : Sound s t0 := by
  unfold execPageLockWrite at he
  first | (replace he := Host.Outcome.next.inj he; subst he) | cases he
  repeat' (first
    | (intro _) | (with_reducible exact Sound.refl _) | (with_reducible assumption) | (with_reducible apply Sound.ite)
    | (with_reducible apply headerReg_sound) | (simp only [sound_upd]) | (with_reducible apply Sound.foldl)
    | (with_reducible apply Sound.foldr) | (split))

theorem execMergeCtrlClear_sound {cluster : Nat} {s : State} {t0 : State}
    (he : execMergeCtrlClear cluster s = .next t0) : Sound s t0 := by
  unfold execMergeCtrlClear at he
  first | (replace he := Host.Outcome.next.inj he; subst he) | cases he
  repeat' (first
    | (intro _) | (with_reducible exact Sound.refl _) | (with_reducible assumption) | (with_reducible apply Sound.ite)
    | (with_reducible apply hostReg_sound) | (simp only [sound_upd]) | (with_reducible apply Sound.foldl)
    | (with_reducible apply Sound.foldr) | (split))

theorem execCompPendClear_sound {word : Nat} {value : W32} {s : State} {t0 : State}
    (he : execCompPendClear word value s = .next t0) : Sound s t0 := by
  unfold execCompPendClear at he
  first | (replace he := Host.Outcome.next.inj he; subst he) | cases he
  repeat' (first
    | (intro _) | (with_reducible exact Sound.refl _) | (with_reducible assumption) | (with_reducible apply Sound.ite)
    | (with_reducible apply hostReg_sound) | (simp only [sound_upd]) | (with_reducible apply Sound.foldl)
    | (with_reducible apply Sound.foldr) | (split))

theorem execCwApWrite_sound {aperture : Nat} {value : W64} {s : State} {t0 : State}
    (he : execCwApWrite aperture value s = .next t0) : Sound s t0 := by
  unfold execCwApWrite at he
  first | (replace he := Host.Outcome.next.inj he; subst he) | cases he
  repeat' (first
    | (intro _) | (with_reducible exact Sound.refl _) | (with_reducible assumption) | (with_reducible apply Sound.ite)
    | (with_reducible apply hostWrite_sound) | (simp only [sound_upd]) | (with_reducible apply Sound.foldl)
    | (with_reducible apply Sound.foldr) | (split))

theorem execCmdWindowWrite_sound {off : Nat} {data : List Byte} {s : State} {t0 : State}
    (he : execCmdWindowWrite off data s = .next t0) : Sound s t0 := by
  unfold execCmdWindowWrite at he
  first | (replace he := Host.Outcome.next.inj he; subst he) | cases he
  repeat' (first
    | (intro _) | (with_reducible exact Sound.refl _) | (with_reducible assumption) | (with_reducible apply Sound.ite)
    | (with_reducible apply windowWrite_sound) | (simp only [sound_upd]) | (with_reducible apply Sound.foldl)
    | (with_reducible apply Sound.foldr) | (split))

theorem windowRead_keeps {t0 : State} {s : State} {off : Nat} {len : Nat} (hk : Keeps t0 s) : Keeps t0
    (windowRead s off len) := by
  unfold windowRead
  try dsimp only
  repeat' (first
    | (intro _) | (with_reducible exact Keeps.refl _) | (with_reducible assumption) | (with_reducible apply Keeps.ite)
    | (with_reducible apply windowRefused_keeps) | (with_reducible apply hbmTouch_keeps)
    | (with_reducible apply bumpFree_keeps) | (simp only [keeps_upd]) | (with_reducible apply Keeps.foldl)
    | (with_reducible apply Keeps.foldr) | (split))

theorem windowRead_sound {t0 : State} {s : State} {off : Nat} {len : Nat} (hk : Sound t0 s) : Sound t0
    (windowRead s off len) := hk.trans (windowRead_keeps (Keeps.refl _)).sound

theorem execCmdWindowRead_keeps {off : Nat} {len : Nat} {s : State} {t0 : State}
    (he : execCmdWindowRead off len s = .next t0) : Keeps s t0 := by
  unfold execCmdWindowRead at he
  first | (replace he := Host.Outcome.next.inj he; subst he) | cases he
  repeat' (first
    | (intro _) | (with_reducible exact Keeps.refl _) | (with_reducible assumption) | (with_reducible apply Keeps.ite)
    | (with_reducible apply windowRead_keeps) | (simp only [keeps_upd]) | (with_reducible apply Keeps.foldl)
    | (with_reducible apply Keeps.foldr) | (split))

theorem execHostResetPartition_sound {part_ : Nat} {s : State} {t0 : State}
    (he : execHostResetPartition part_ s = .next t0) : Sound s t0 := by
  unfold execHostResetPartition at he
  first | (replace he := Host.Outcome.next.inj he; subst he) | cases he
  repeat' (first
    | (intro _) | (with_reducible exact Sound.refl _) | (with_reducible assumption) | (with_reducible apply Sound.ite)
    | (with_reducible apply hostReg_sound) | (simp only [sound_upd]) | (with_reducible apply Sound.foldl)
    | (with_reducible apply Sound.foldr) | (split))

theorem execHostResetModule_sound {s : State} {t0 : State} (he : execHostResetModule s = .next t0) : Sound s t0 := by
  unfold execHostResetModule at he
  first | (replace he := Host.Outcome.next.inj he; subst he) | cases he
  repeat' (first
    | (intro _) | (with_reducible exact Sound.refl _) | (with_reducible assumption) | (with_reducible apply Sound.ite)
    | (with_reducible apply hostReg_sound) | (simp only [sound_upd]) | (with_reducible apply Sound.foldl)
    | (with_reducible apply Sound.foldr) | (split))

theorem mailboxComplete_sound {t0 : State} {s : State} (hk : Sound t0 s) : Sound t0 (mailboxComplete s) := by
  unfold mailboxComplete
  try dsimp only
  repeat' (first
    | (intro _) | (with_reducible exact Sound.refl _) | (with_reducible assumption) | (with_reducible apply Sound.ite)
    | (with_reducible apply endModuleOp_sound) | (with_reducible apply mbFinish_sound) | (simp only [sound_upd])
    | (with_reducible apply Sound.foldl) | (with_reducible apply Sound.foldr) | (split))

theorem execMailboxComplete_sound {s : State} {t0 : State} (he : execMailboxComplete s = .next t0) : Sound s t0 := by
  unfold execMailboxComplete at he
  first | (replace he := Host.Outcome.next.inj he; subst he) | cases he
  repeat' (first
    | (intro _) | (with_reducible exact Sound.refl _) | (with_reducible assumption) | (with_reducible apply Sound.ite)
    | (with_reducible apply mailboxComplete_sound) | (simp only [sound_upd]) | (with_reducible apply Sound.foldl)
    | (with_reducible apply Sound.foldr) | (split))

theorem mbRun_keeps {t0 : State} {s : State} {op : Nat} {f : State → MbOp → State} (hg : ∀ {t0 t : State}
    {m : MbOp}, Keeps t0 t → Keeps t0 (f t m)) (hk : Keeps t0 s) : Keeps t0 (mbRun s op f) := by
  unfold mbRun
  try dsimp only
  repeat' (first
    | (intro _) | (with_reducible exact Keeps.refl _) | (with_reducible assumption) | (with_reducible apply Keeps.ite)
    | (with_reducible apply hg) | (simp only [keeps_upd]) | (with_reducible apply Keeps.foldl)
    | (with_reducible apply Keeps.foldr) | (split))

theorem mbRun_sound {t0 : State} {s : State} {op : Nat} {f : State → MbOp → State} (hg : ∀ {t0 t : State}
    {m : MbOp}, Sound t0 t → Sound t0 (f t m)) (hk : Sound t0 s) : Sound t0 (mbRun s op f) := by
  unfold mbRun
  try dsimp only
  repeat' (first
    | (intro _) | (with_reducible exact Sound.refl _) | (with_reducible assumption) | (with_reducible apply Sound.ite)
    | (with_reducible apply hg) | (simp only [sound_upd]) | (with_reducible apply Sound.foldl)
    | (with_reducible apply Sound.foldr) | (split))

theorem mbResult_keeps {t0 : State} {s : State} {code : Nat} {resp : List Byte} (hk : Keeps t0 s) : Keeps t0
    (mbResult s code resp) := by
  unfold mbResult
  try dsimp only
  repeat' (first
    | (intro _) | (with_reducible exact Keeps.refl _) | (with_reducible assumption) | (with_reducible apply Keeps.ite)
    | (with_reducible apply setNose_keeps) | (simp only [keeps_upd]) | (with_reducible apply Keeps.foldl)
    | (with_reducible apply Keeps.foldr) | (split))

theorem mbResult_sound {t0 : State} {s : State} {code : Nat} {resp : List Byte} (hk : Sound t0 s) : Sound t0
    (mbResult s code resp) := hk.trans (mbResult_keeps (Keeps.refl _)).sound

theorem execGetInfo_keeps {s : State} {t0 : State} (he : execGetInfo s = .next t0) : Keeps s t0 := by
  unfold execGetInfo at he
  first | (replace he := Host.Outcome.next.inj he; subst he) | cases he
  repeat' (first
    | (intro _) | (with_reducible exact Keeps.refl _) | (with_reducible assumption) | (with_reducible apply Keeps.ite)
    | (with_reducible apply mbRun_keeps) | (with_reducible apply bumpFree_keeps)
    | (with_reducible apply mbResult_keeps) | (simp only [keeps_upd]) | (with_reducible apply Keeps.foldl)
    | (with_reducible apply Keeps.foldr) | (split))

theorem execSetTime_keeps {s : State} {t0 : State} (he : execSetTime s = .next t0) : Keeps s t0 := by
  unfold execSetTime at he
  first | (replace he := Host.Outcome.next.inj he; subst he) | cases he
  repeat' (first
    | (intro _) | (with_reducible exact Keeps.refl _) | (with_reducible assumption) | (with_reducible apply Keeps.ite)
    | (with_reducible apply mbRun_keeps) | (with_reducible apply mbResult_keeps) | (simp only [keeps_upd])
    | (with_reducible apply Keeps.foldl) | (with_reducible apply Keeps.foldr) | (split))

theorem execReadEvents_keeps {s : State} {t0 : State} (he : execReadEvents s = .next t0) : Keeps s t0 := by
  unfold execReadEvents at he
  first | (replace he := Host.Outcome.next.inj he; subst he) | cases he
  repeat' (first
    | (intro _) | (with_reducible exact Keeps.refl _) | (with_reducible assumption) | (with_reducible apply Keeps.ite)
    | (with_reducible apply mbRun_keeps) | (with_reducible apply mbResult_keeps) | (simp only [keeps_upd])
    | (with_reducible apply Keeps.foldl) | (with_reducible apply Keeps.foldr) | (split))

theorem execReadBlotters_keeps {r : VRead} {s : State} {t0 : State} (he : execReadBlotters r s = .next t0) : Keeps s t0 := by
  unfold execReadBlotters at he
  first | (replace he := Host.Outcome.next.inj he; subst he) | cases he
  repeat' (first
    | (intro _) | (with_reducible exact Keeps.refl _) | (with_reducible assumption) | (with_reducible apply Keeps.ite)
    | (with_reducible apply mbRun_keeps) | (with_reducible apply vialRead_keeps)
    | (with_reducible apply setVial_keeps) | (with_reducible apply mbResult_keeps) | (simp only [keeps_upd])
    | (with_reducible apply Keeps.foldl) | (with_reducible apply Keeps.foldr) | (split))

theorem execStageWrite_keeps {s : State} {t0 : State} (he : execStageWrite s = .next t0) : Keeps s t0 := by
  unfold execStageWrite at he
  first | (replace he := Host.Outcome.next.inj he; subst he) | cases he
  repeat' (first
    | (intro _) | (with_reducible exact Keeps.refl _) | (with_reducible assumption) | (with_reducible apply Keeps.ite)
    | (with_reducible apply mbRun_keeps) | (with_reducible apply mbResult_keeps)
    | (with_reducible apply setNose_keeps) | (simp only [keeps_upd]) | (with_reducible apply Keeps.foldl)
    | (with_reducible apply Keeps.foldr) | (split))

theorem execStageRead_keeps {s : State} {t0 : State} (he : execStageRead s = .next t0) : Keeps s t0 := by
  unfold execStageRead at he
  first | (replace he := Host.Outcome.next.inj he; subst he) | cases he
  repeat' (first
    | (intro _) | (with_reducible exact Keeps.refl _) | (with_reducible assumption) | (with_reducible apply Keeps.ite)
    | (with_reducible apply mbRun_keeps) | (with_reducible apply mbResult_keeps) | (simp only [keeps_upd])
    | (with_reducible apply Keeps.foldl) | (with_reducible apply Keeps.foldr) | (split))

theorem loseWord_keeps {t0 : State} {s : State} {w : Nat} (hk : Keeps t0 s) : Keeps t0 (loseWord s w) := by
  unfold loseWord
  try dsimp only
  repeat' (first
    | (intro _) | (with_reducible exact Keeps.refl _) | (with_reducible assumption) | (with_reducible apply Keeps.ite)
    | (with_reducible apply bumpFree_keeps) | (with_reducible apply setVial_keeps) | (simp only [keeps_upd])
    | (with_reducible apply Keeps.foldl) | (with_reducible apply Keeps.foldr) | (split))

theorem loseWord_sound {t0 : State} {s : State} {w : Nat} (hk : Sound t0 s) : Sound t0 (loseWord s w) := hk.trans
    (loseWord_keeps (Keeps.refl _)).sound

theorem execStoreRead_keeps {r : VRead} {s : State} {t0 : State} (he : execStoreRead r s = .next t0) : Keeps s t0 := by
  unfold execStoreRead at he
  first | (replace he := Host.Outcome.next.inj he; subst he) | cases he
  repeat' (first
    | (intro _) | (with_reducible exact Keeps.refl _) | (with_reducible assumption) | (with_reducible apply Keeps.ite)
    | (with_reducible apply mbRun_keeps) | (with_reducible apply loseWord_keeps)
    | (with_reducible apply vialRead_keeps) | (with_reducible apply mbResult_keeps) | (simp only [keeps_upd])
    | (with_reducible apply Keeps.foldl) | (with_reducible apply Keeps.foldr) | (split))

theorem storeUnit_keeps {t0 : State} {s : State} {u : Nat} {bs : List Byte} (hk : Keeps t0 s) : Keeps t0
    (storeUnit s u bs) := by
  unfold storeUnit
  try dsimp only
  repeat' (first
    | (intro _) | (with_reducible exact Keeps.refl _) | (with_reducible assumption) | (with_reducible apply Keeps.ite)
    | (with_reducible apply wornRegion_keeps) | (with_reducible apply setVial_keeps)
    | (with_reducible apply anchorWrite_keeps) | (simp only [keeps_upd]) | (with_reducible apply Keeps.foldl)
    | (with_reducible apply Keeps.foldr) | (split))

theorem storeUnit_sound {t0 : State} {s : State} {u : Nat} {bs : List Byte} (hk : Sound t0 s) : Sound t0
    (storeUnit s u bs) := hk.trans (storeUnit_keeps (Keeps.refl _)).sound

theorem execStoreWrite_keeps {failed : Bool} {s : State} {t0 : State}
    (he : execStoreWrite failed s = .next t0) : Keeps s t0 := by
  unfold execStoreWrite at he
  first | (replace he := Host.Outcome.next.inj he; subst he) | cases he
  repeat' (first
    | (intro _) | (with_reducible exact Keeps.refl _) | (with_reducible assumption) | (with_reducible apply Keeps.ite)
    | (with_reducible apply mbRun_keeps) | (with_reducible apply mbResult_keeps)
    | (with_reducible apply vialErr_keeps) | (with_reducible apply moveBlock_keeps)
    | (with_reducible apply setVial_keeps) | (with_reducible apply storeUnit_keeps) | (simp only [keeps_upd])
    | (with_reducible apply Keeps.foldl) | (with_reducible apply Keeps.foldr) | (split))

theorem opEnd_keeps {t0 : State} {s : State} {m : MbOp} {resp : List Byte} (hk : Keeps t0 s) : Keeps t0
    (opEnd s m resp) := by
  unfold opEnd
  try dsimp only
  repeat' (first
    | (intro _) | (with_reducible exact Keeps.refl _) | (with_reducible assumption) | (with_reducible apply Keeps.ite)
    | (with_reducible apply bumpFree_keeps) | (with_reducible apply mbResult_keeps) | (simp only [keeps_upd])
    | (with_reducible apply Keeps.foldl) | (with_reducible apply Keeps.foldr) | (split))

theorem opEnd_sound {t0 : State} {s : State} {m : MbOp} {resp : List Byte} (hk : Sound t0 s) : Sound t0
    (opEnd s m resp) := hk.trans (opEnd_keeps (Keeps.refl _)).sound

theorem execCalibrate_keeps {s : State} {t0 : State} (he : execCalibrate s = .next t0) : Keeps s t0 := by
  unfold execCalibrate at he
  first | (replace he := Host.Outcome.next.inj he; subst he) | cases he
  repeat' (first
    | (intro _) | (with_reducible exact Keeps.refl _) | (with_reducible assumption) | (with_reducible apply Keeps.ite)
    | (with_reducible apply mbRun_keeps) | (with_reducible apply opEnd_keeps) | (with_reducible apply writeRec_keeps)
    | (simp only [keeps_upd]) | (with_reducible apply Keeps.foldl) | (with_reducible apply Keeps.foldr) | (split))

theorem execRetrainHbm_keeps {s : State} {t0 : State} (he : execRetrainHbm s = .next t0) : Keeps s t0 := by
  unfold execRetrainHbm at he
  first | (replace he := Host.Outcome.next.inj he; subst he) | cases he
  repeat' (first
    | (intro _) | (with_reducible exact Keeps.refl _) | (with_reducible assumption) | (with_reducible apply Keeps.ite)
    | (with_reducible apply mbRun_keeps) | (with_reducible apply opEnd_keeps) | (with_reducible apply writeRec_keeps)
    | (simp only [keeps_upd]) | (with_reducible apply Keeps.foldl) | (with_reducible apply Keeps.foldr) | (split))

theorem execRecalPorts_keeps {s : State} {t0 : State} (he : execRecalPorts s = .next t0) : Keeps s t0 := by
  unfold execRecalPorts at he
  first | (replace he := Host.Outcome.next.inj he; subst he) | cases he
  repeat' (first
    | (intro _) | (with_reducible exact Keeps.refl _) | (with_reducible assumption) | (with_reducible apply Keeps.ite)
    | (with_reducible apply mbRun_keeps) | (with_reducible apply opEnd_keeps) | (with_reducible apply modPort_keeps)
    | (simp only [keeps_upd]) | (with_reducible apply Keeps.foldl) | (with_reducible apply Keeps.foldr) | (split))

theorem execSelftest_sound {pass : Bool} {disabled : List Nat} {narrowed : List (Nat × Nat)} {rowsDiffer : Bool}
    {s : State} {t0 : State} (he : execSelftest pass disabled narrowed rowsDiffer s = .next t0) : Sound s t0 := by
  unfold execSelftest at he
  first | (replace he := Host.Outcome.next.inj he; subst he) | cases he
  repeat' (first
    | (intro _) | (with_reducible exact Sound.refl _) | (with_reducible assumption) | (with_reducible apply Sound.ite)
    | (with_reducible apply mbRun_sound) | (with_reducible apply opEnd_sound) | (simp only [sound_upd])
    | (with_reducible apply Sound.foldl) | (with_reducible apply Sound.foldr) | (with_reducible exact id)
    | (with_reducible apply writeByte_wf) | (with_reducible apply writeBytes_wf)
    | (with_reducible apply writeCells_wf) | (with_reducible apply writeLe_wf) | (with_reducible apply clearRange_wf)
    | (with_reducible apply loseRange_wf) | (with_reducible apply clearHole_wf) | (with_reducible apply coverHole_wf)
    | (with_reducible apply writeTile_wf) | (with_reducible apply reduceAt_wf) | (with_reducible apply putVals_wf)
    | (with_reducible apply wf_foldl) | (split) | (with_reducible apply Sound.updMem))

theorem updateStep_keeps {t0 : State} {s : State} {op : Nat} {code : Nat} (hk : Keeps t0 s) : Keeps t0
    (updateStep s op code) := by
  unfold updateStep
  try dsimp only
  repeat' (first
    | (intro _) | (with_reducible exact Keeps.refl _) | (with_reducible assumption) | (with_reducible apply Keeps.ite)
    | (with_reducible apply raiseEvt_keeps) | (with_reducible apply addEvent_keeps) | (simp only [keeps_upd])
    | (with_reducible apply Keeps.foldl) | (with_reducible apply Keeps.foldr) | (split))

theorem updateStep_sound {t0 : State} {s : State} {op : Nat} {code : Nat} (hk : Sound t0 s) : Sound t0
    (updateStep s op code) := hk.trans (updateStep_keeps (Keeps.refl _)).sound

theorem execFwBegin_keeps {s : State} {t0 : State} (he : execFwBegin s = .next t0) : Keeps s t0 := by
  unfold execFwBegin at he
  first | (replace he := Host.Outcome.next.inj he; subst he) | cases he
  repeat' (first
    | (intro _) | (with_reducible exact Keeps.refl _) | (with_reducible assumption) | (with_reducible apply Keeps.ite)
    | (with_reducible apply mbRun_keeps) | (with_reducible apply mbResult_keeps)
    | (with_reducible apply beginUpdate_keeps (by assumption)) | (with_reducible apply dropStaging_keeps)
    | (with_reducible apply updateStep_keeps) | (simp only [keeps_upd]) | (with_reducible apply Keeps.foldl)
    | (with_reducible apply Keeps.foldr) | (split))

theorem swapStaging_keeps {t0 : State} {s : State} {u : Update} {failed : Bool}  {t : State} {y : Update}
    (he : swapStaging s u failed = some (t, y)) (hk : Keeps t0 s) : Keeps t0 t := by
  unfold swapStaging at he
  try dsimp only at he
  repeat' split at he
  all_goals first | (cases he; done) | cases he
  all_goals repeat' (first
    | (intro _) | (with_reducible exact Keeps.refl _) | (with_reducible assumption) | (with_reducible apply Keeps.ite)
    | (with_reducible apply anchorWrite_keeps) | (with_reducible apply setVial_keeps) | (simp only [keeps_upd])
    | (with_reducible apply Keeps.foldl) | (with_reducible apply Keeps.foldr) | (split))

theorem swapStaging_keeps' {t0 : State} {s : State} {u : Update} {failed : Bool} {y : State × Update}
    (he : swapStaging s u failed = some y) (hk : Keeps t0 s) : Keeps t0 y.1   := by
  obtain ⟨a, b⟩ := y
  exact swapStaging_keeps he hk

theorem swapStaging_sound' {t0 : State} {s : State} {u : Update} {failed : Bool} {y : State × Update}
    (he : swapStaging s u failed = some y) (hk : Sound t0 s) : Sound t0 y.1 := hk.trans (swapStaging_keeps' he
    (Keeps.refl _)).sound

theorem swapStaging_sound {t0 : State} {s : State} {u : Update} {failed : Bool} {t : State} {y : Update}
    (he : swapStaging s u failed = some (t, y)) (hk : Sound t0 s) : Sound t0 t := hk.trans (swapStaging_keeps he
    (Keeps.refl _)).sound

theorem stageBytes_keeps {t0 : State} {s : State} {u : Update} {o : Nat} {bs : List Byte}
    (hk : Keeps t0 s) : Keeps t0 (stageBytes s u o bs) := by
  unfold stageBytes
  try dsimp only
  repeat' (first
    | (intro _) | (with_reducible exact Keeps.refl _) | (with_reducible assumption) | (with_reducible apply Keeps.ite)
    | (with_reducible apply setNose_keeps) | (simp only [keeps_upd]) | (with_reducible apply Keeps.foldl)
    | (with_reducible apply Keeps.foldr) | (split))

theorem stageBytes_sound {t0 : State} {s : State} {u : Update} {o : Nat} {bs : List Byte}
    (hk : Sound t0 s) : Sound t0 (stageBytes s u o bs) := hk.trans (stageBytes_keeps (Keeps.refl _)).sound

theorem execFwData_keeps {failed : Bool} {s : State} {t0 : State} (he : execFwData failed s = .next t0) : Keeps s t0 := by
  unfold execFwData at he
  first | (replace he := Host.Outcome.next.inj he; subst he) | cases he
  repeat' (first
    | (intro _) | (with_reducible exact Keeps.refl _) | (with_reducible assumption) | (with_reducible apply Keeps.ite)
    | (with_reducible apply mbRun_keeps) | (with_reducible apply mbResult_keeps)
    | (with_reducible apply updateStep_keeps) | (with_reducible apply dropStaging_keeps)
    | (with_reducible apply swapStaging_keeps (by assumption))
    | (with_reducible apply swapStaging_keeps' (by assumption)) | (with_reducible apply stageBytes_keeps)
    | (simp only [keeps_upd]) | (with_reducible apply Keeps.foldl) | (with_reducible apply Keeps.foldr) | (split))

theorem execFwCommit_keeps {verdict : Nat} {r : VRead} {s : State} {t0 : State}
    (he : execFwCommit verdict r s = .next t0) : Keeps s t0 := by
  unfold execFwCommit at he
  first | (replace he := Host.Outcome.next.inj he; subst he) | cases he
  repeat' (first
    | (intro _) | (with_reducible exact Keeps.refl _) | (with_reducible assumption) | (with_reducible apply Keeps.ite)
    | (with_reducible apply mbRun_keeps) | (with_reducible apply vialRead_keeps)
    | (with_reducible apply mbResult_keeps) | (with_reducible apply updateStep_keeps)
    | (with_reducible apply commitUpdate_keeps) | (with_reducible apply commitUpdate_keeps' (by assumption))
    | (simp only [keeps_upd]) | (with_reducible apply Keeps.foldl) | (with_reducible apply Keeps.foldr) | (split))

theorem execFwAbort_keeps {s : State} {t0 : State} (he : execFwAbort s = .next t0) : Keeps s t0 := by
  unfold execFwAbort at he
  first | (replace he := Host.Outcome.next.inj he; subst he) | cases he
  repeat' (first
    | (intro _) | (with_reducible exact Keeps.refl _) | (with_reducible assumption) | (with_reducible apply Keeps.ite)
    | (with_reducible apply mbRun_keeps) | (with_reducible apply mbResult_keeps)
    | (with_reducible apply dropStaging_keeps) | (simp only [keeps_upd]) | (with_reducible apply Keeps.foldl)
    | (with_reducible apply Keeps.foldr) | (split))

theorem execFwActivate_keeps {s : State} {t0 : State} (he : execFwActivate s = .next t0) : Keeps s t0 := by
  unfold execFwActivate at he
  first | (replace he := Host.Outcome.next.inj he; subst he) | cases he
  repeat' (first
    | (intro _) | (with_reducible exact Keeps.refl _) | (with_reducible assumption) | (with_reducible apply Keeps.ite)
    | (with_reducible apply mbRun_keeps) | (with_reducible apply noseRestart_keeps) | (simp only [keeps_upd])
    | (with_reducible apply Keeps.foldl) | (with_reducible apply Keeps.foldr) | (split))

theorem execSetMinVersion_keeps {s : State} {t0 : State} (he : execSetMinVersion s = .next t0) : Keeps s t0 := by
  unfold execSetMinVersion at he
  first | (replace he := Host.Outcome.next.inj he; subst he) | cases he
  repeat' (first
    | (intro _) | (with_reducible exact Keeps.refl _) | (with_reducible assumption) | (with_reducible apply Keeps.ite)
    | (with_reducible apply mbRun_keeps) | (with_reducible apply mbResult_keeps)
    | (with_reducible apply vialErr_keeps) | (with_reducible apply writeRec_keeps)
    | (with_reducible apply setNose_keeps) | (simp only [keeps_upd]) | (with_reducible apply Keeps.foldl)
    | (with_reducible apply Keeps.foldr) | (split))

theorem execReadSensors_keeps {s : State} {t0 : State} (he : execReadSensors s = .next t0) : Keeps s t0 := by
  unfold execReadSensors at he
  first | (replace he := Host.Outcome.next.inj he; subst he) | cases he
  repeat' (first
    | (intro _) | (with_reducible exact Keeps.refl _) | (with_reducible assumption) | (with_reducible apply Keeps.ite)
    | (with_reducible apply mbRun_keeps) | (with_reducible apply bumpFree_keeps)
    | (with_reducible apply mbResult_keeps) | (simp only [keeps_upd]) | (with_reducible apply Keeps.foldl)
    | (with_reducible apply Keeps.foldr) | (split))

theorem execRecoveryLoad_keeps {verdict : Nat} {s : State} {t0 : State}
    (he : execRecoveryLoad verdict s = .next t0) : Keeps s t0 := by
  unfold execRecoveryLoad at he
  first | (replace he := Host.Outcome.next.inj he; subst he) | cases he
  repeat' (first
    | (intro _) | (with_reducible exact Keeps.refl _) | (with_reducible assumption) | (with_reducible apply Keeps.ite)
    | (with_reducible apply mbRun_keeps) | (with_reducible apply mbResult_keeps)
    | (with_reducible apply updateStep_keeps) | (with_reducible apply dropStaging_keeps)
    | (with_reducible apply stageBytes_keeps) | (with_reducible apply commitUpdate_keeps)
    | (with_reducible apply commitUpdate_keeps' (by assumption)) | (with_reducible apply bootLoaded_keeps)
    | (simp only [keeps_upd]) | (with_reducible apply Keeps.foldl) | (with_reducible apply Keeps.foldr) | (split))

theorem execMctpControl_keeps {binding : Nat} {eid : Nat} {tag : Nat} {cmd : Nat} {data : List Byte} {s : State}
    {t0 : State} (he : execMctpControl binding eid tag cmd data s = .next t0) : Keeps s t0 := by
  unfold execMctpControl at he
  first | (replace he := Host.Outcome.next.inj he; subst he) | cases he
  repeat' (first
    | (intro _) | (with_reducible exact Keeps.refl _) | (with_reducible assumption) | (with_reducible apply Keeps.ite)
    | (with_reducible apply controlAnswer_keeps) | (with_reducible apply controlAnswer_keeps' (by assumption))
    | (with_reducible apply mctpOut_keeps) | (simp only [keeps_upd]) | (with_reducible apply Keeps.foldl)
    | (with_reducible apply Keeps.foldr) | (split))

theorem pldmOut_keeps {t0 : State} {s : State} {b : Nat} {e : Nat} {tag : Nat} {ty : Nat} {cmd : Nat}
    {bytes : List Byte} (hk : Keeps t0 s) : Keeps t0 (pldmOut s b e tag ty cmd bytes) := by
  unfold pldmOut
  try dsimp only
  repeat' (first
    | (intro _) | (with_reducible exact Keeps.refl _) | (with_reducible assumption) | (with_reducible apply Keeps.ite)
    | (with_reducible apply mctpOut_keeps) | (simp only [keeps_upd]) | (with_reducible apply Keeps.foldl)
    | (with_reducible apply Keeps.foldr) | (split))

theorem pldmOut_sound {t0 : State} {s : State} {b : Nat} {e : Nat} {tag : Nat} {ty : Nat} {cmd : Nat}
    {bytes : List Byte} (hk : Sound t0 s) : Sound t0 (pldmOut s b e tag ty cmd bytes) := hk.trans (pldmOut_keeps
    (Keeps.refl _)).sound

theorem execPldmDiscovery_keeps {binding : Nat} {eid : Nat} {tag : Nat} {ty : Nat} {cmd : Nat} {data : List Byte}
    {s : State} {t0 : State} (he : execPldmDiscovery binding eid tag ty cmd data s = .next t0) : Keeps s t0 := by
  unfold execPldmDiscovery at he
  first | (replace he := Host.Outcome.next.inj he; subst he) | cases he
  repeat' (first
    | (intro _) | (with_reducible exact Keeps.refl _) | (with_reducible assumption) | (with_reducible apply Keeps.ite)
    | (with_reducible apply discoveryAnswer_keeps) | (with_reducible apply discoveryAnswer_keeps' (by assumption))
    | (with_reducible apply pldmOut_keeps) | (with_reducible apply bumpFree_keeps) | (simp only [keeps_upd])
    | (with_reducible apply Keeps.foldl) | (with_reducible apply Keeps.foldr) | (split))

theorem execPldmSensorRead_keeps {binding : Nat} {eid : Nat} {tag : Nat} {sensor : Nat} {s : State} {t0 : State}
    (he : execPldmSensorRead binding eid tag sensor s = .next t0) : Keeps s t0 := by
  unfold execPldmSensorRead at he
  first | (replace he := Host.Outcome.next.inj he; subst he) | cases he
  repeat' (first
    | (intro _) | (with_reducible exact Keeps.refl _) | (with_reducible assumption) | (with_reducible apply Keeps.ite)
    | (with_reducible apply bumpFree_keeps) | (with_reducible apply pldmOut_keeps) | (simp only [keeps_upd])
    | (with_reducible apply Keeps.foldl) | (with_reducible apply Keeps.foldr) | (split))

theorem execPldmSetEventReceiver_keeps {binding : Nat} {eid : Nat} {tag : Nat} {enable : Bool} {receiver : Nat}
    {s : State} {t0 : State} (he : execPldmSetEventReceiver binding eid tag enable receiver s = .next t0) : Keeps s t0 := by
  unfold execPldmSetEventReceiver at he
  first | (replace he := Host.Outcome.next.inj he; subst he) | cases he
  repeat' (first
    | (intro _) | (with_reducible exact Keeps.refl _) | (with_reducible assumption) | (with_reducible apply Keeps.ite)
    | (with_reducible apply pldmOut_keeps) | (with_reducible apply setNose_keeps) | (simp only [keeps_upd])
    | (with_reducible apply Keeps.foldl) | (with_reducible apply Keeps.foldr) | (split))

theorem execPldmRequestUpdate_keeps {binding : Nat} {eid : Nat} {tag : Nat} {len : Nat} {s : State} {t0 : State}
    (he : execPldmRequestUpdate binding eid tag len s = .next t0) : Keeps s t0 := by
  unfold execPldmRequestUpdate at he
  first | (replace he := Host.Outcome.next.inj he; subst he) | cases he
  repeat' (first
    | (intro _) | (with_reducible exact Keeps.refl _) | (with_reducible assumption) | (with_reducible apply Keeps.ite)
    | (with_reducible apply pldmOut_keeps) | (with_reducible apply beginUpdate_keeps (by assumption))
    | (with_reducible apply bumpFree_keeps) | (with_reducible apply updateStep_keeps) | (simp only [keeps_upd])
    | (with_reducible apply Keeps.foldl) | (with_reducible apply Keeps.foldr) | (split))

theorem execDoeDiscovery_keeps {index : Nat} {s : State} {t0 : State}
    (he : execDoeDiscovery index s = .next t0) : Keeps s t0 := by
  unfold execDoeDiscovery at he
  first | (replace he := Host.Outcome.next.inj he; subst he) | cases he
  repeat' (first
    | (intro _) | (with_reducible exact Keeps.refl _) | (with_reducible assumption) | (with_reducible apply Keeps.ite)
    | (simp only [keeps_upd]) | (with_reducible apply Keeps.foldl) | (with_reducible apply Keeps.foldr) | (split))

theorem spdmOut_keeps {t0 : State} {s : State} {t : Nat} {e : Nat} {bytes : List Byte} (hk : Keeps t0 s) : Keeps t0
    (spdmOut s t e bytes) := by
  unfold spdmOut
  try dsimp only
  repeat' (first
    | (intro _) | (with_reducible exact Keeps.refl _) | (with_reducible assumption) | (with_reducible apply Keeps.ite)
    | (with_reducible apply bumpFree_keeps) | (with_reducible apply mctpOut_keeps) | (simp only [keeps_upd])
    | (with_reducible apply Keeps.foldl) | (with_reducible apply Keeps.foldr) | (split))

theorem spdmOut_sound {t0 : State} {s : State} {t : Nat} {e : Nat} {bytes : List Byte} (hk : Sound t0 s) : Sound t0
    (spdmOut s t e bytes) := hk.trans (spdmOut_keeps (Keeps.refl _)).sound

theorem setConn_keeps {t0 : State} {s : State} {t : Nat} {c : Spdm} (hk : Keeps t0 s) : Keeps t0 (setConn s t c) := by
  unfold setConn
  try dsimp only
  repeat' (first
    | (intro _) | (with_reducible exact Keeps.refl _) | (with_reducible assumption) | (with_reducible apply Keeps.ite)
    | (with_reducible apply setNose_keeps) | (simp only [keeps_upd]) | (with_reducible apply Keeps.foldl)
    | (with_reducible apply Keeps.foldr) | (split))

theorem setConn_sound {t0 : State} {s : State} {t : Nat} {c : Spdm} (hk : Sound t0 s) : Sound t0
    (setConn s t c) := hk.trans (setConn_keeps (Keeps.refl _)).sound

theorem execSpdmGetVersion_keeps {transport : Nat} {eid : Nat} {s : State} {t0 : State}
    (he : execSpdmGetVersion transport eid s = .next t0) : Keeps s t0 := by
  unfold execSpdmGetVersion at he
  first | (replace he := Host.Outcome.next.inj he; subst he) | cases he
  repeat' (first
    | (intro _) | (with_reducible exact Keeps.refl _) | (with_reducible assumption) | (with_reducible apply Keeps.ite)
    | (with_reducible apply spdmOut_keeps) | (with_reducible apply setConn_keeps) | (simp only [keeps_upd])
    | (with_reducible apply Keeps.foldl) | (with_reducible apply Keeps.foldr) | (split))

theorem spdmError_keeps {t0 : State} {s : State} {t : Nat} {e : Nat} {code : Nat} (hk : Keeps t0 s) : Keeps t0
    (spdmError s t e code) := by
  unfold spdmError
  try dsimp only
  repeat' (first
    | (intro _) | (with_reducible exact Keeps.refl _) | (with_reducible assumption) | (with_reducible apply Keeps.ite)
    | (with_reducible apply spdmOut_keeps) | (simp only [keeps_upd]) | (with_reducible apply Keeps.foldl)
    | (with_reducible apply Keeps.foldr) | (split))

theorem spdmError_sound {t0 : State} {s : State} {t : Nat} {e : Nat} {code : Nat} (hk : Sound t0 s) : Sound t0
    (spdmError s t e code) := hk.trans (spdmError_keeps (Keeps.refl _)).sound

theorem execSpdmGetCapabilities_keeps {transport : Nat} {eid : Nat} {version : Nat} {s : State} {t0 : State}
    (he : execSpdmGetCapabilities transport eid version s = .next t0) : Keeps s t0 := by
  unfold execSpdmGetCapabilities at he
  first | (replace he := Host.Outcome.next.inj he; subst he) | cases he
  repeat' (first
    | (intro _) | (with_reducible exact Keeps.refl _) | (with_reducible assumption) | (with_reducible apply Keeps.ite)
    | (with_reducible apply spdmError_keeps) | (with_reducible apply spdmOut_keeps)
    | (with_reducible apply setConn_keeps) | (simp only [keeps_upd]) | (with_reducible apply Keeps.foldl)
    | (with_reducible apply Keeps.foldr) | (split))

theorem spdmStep_keeps {t0 : State} {s : State} {t : Nat} {e : Nat} {turn : Spdm → Bool} {f : Spdm → State} (hg : ∀
    {c : Spdm}, Keeps t0 (f c)) (hk : Keeps t0 s) : Keeps t0 (spdmStep s t e turn f) := by
  unfold spdmStep
  try dsimp only
  repeat' (first
    | (intro _) | (with_reducible exact Keeps.refl _) | (with_reducible assumption) | (with_reducible apply Keeps.ite)
    | (with_reducible apply spdmError_keeps) | (with_reducible apply hg) | (simp only [keeps_upd])
    | (with_reducible apply Keeps.foldl) | (with_reducible apply Keeps.foldr) | (split))

theorem spdmStep_sound {t0 : State} {s : State} {t : Nat} {e : Nat} {turn : Spdm → Bool} {f : Spdm → State} (hg : ∀
    {c : Spdm}, Sound t0 (f c)) (hk : Sound t0 s) : Sound t0 (spdmStep s t e turn f) := by
  unfold spdmStep
  try dsimp only
  repeat' (first
    | (intro _) | (with_reducible exact Sound.refl _) | (with_reducible assumption) | (with_reducible apply Sound.ite)
    | (with_reducible apply spdmError_sound) | (with_reducible apply hg) | (simp only [sound_upd])
    | (with_reducible apply Sound.foldl) | (with_reducible apply Sound.foldr) | (split))

theorem execSpdmNegotiateAlgorithms_keeps {transport : Nat} {eid : Nat} {s : State} {t0 : State}
    (he : execSpdmNegotiateAlgorithms transport eid s = .next t0) : Keeps s t0 := by
  unfold execSpdmNegotiateAlgorithms at he
  first | (replace he := Host.Outcome.next.inj he; subst he) | cases he
  repeat' (first
    | (intro _) | (with_reducible exact Keeps.refl _) | (with_reducible assumption) | (with_reducible apply Keeps.ite)
    | (with_reducible apply spdmStep_keeps) | (with_reducible apply spdmOut_keeps)
    | (with_reducible apply setConn_keeps) | (simp only [keeps_upd]) | (with_reducible apply Keeps.foldl)
    | (with_reducible apply Keeps.foldr) | (split))

theorem execSpdmGetDigests_keeps {transport : Nat} {eid : Nat} {s : State} {t0 : State}
    (he : execSpdmGetDigests transport eid s = .next t0) : Keeps s t0 := by
  unfold execSpdmGetDigests at he
  first | (replace he := Host.Outcome.next.inj he; subst he) | cases he
  repeat' (first
    | (intro _) | (with_reducible exact Keeps.refl _) | (with_reducible assumption) | (with_reducible apply Keeps.ite)
    | (with_reducible apply spdmStep_keeps) | (with_reducible apply spdmOut_keeps) | (simp only [keeps_upd])
    | (with_reducible apply Keeps.foldl) | (with_reducible apply Keeps.foldr) | (split))

theorem execSpdmGetCertificate_keeps {transport : Nat} {eid : Nat} {slot : Nat} {len : Nat} {s : State} {t0 : State}
    (he : execSpdmGetCertificate transport eid slot len s = .next t0) : Keeps s t0 := by
  unfold execSpdmGetCertificate at he
  first | (replace he := Host.Outcome.next.inj he; subst he) | cases he
  repeat' (first
    | (intro _) | (with_reducible exact Keeps.refl _) | (with_reducible assumption) | (with_reducible apply Keeps.ite)
    | (with_reducible apply spdmStep_keeps) | (with_reducible apply spdmError_keeps)
    | (with_reducible apply spdmOut_keeps) | (simp only [keeps_upd]) | (with_reducible apply Keeps.foldl)
    | (with_reducible apply Keeps.foldr) | (split))

theorem execSpdmChallenge_keeps {transport : Nat} {eid : Nat} {slot : Nat} {s : State} {t0 : State}
    (he : execSpdmChallenge transport eid slot s = .next t0) : Keeps s t0 := by
  unfold execSpdmChallenge at he
  first | (replace he := Host.Outcome.next.inj he; subst he) | cases he
  repeat' (first
    | (intro _) | (with_reducible exact Keeps.refl _) | (with_reducible assumption) | (with_reducible apply Keeps.ite)
    | (with_reducible apply spdmStep_keeps) | (with_reducible apply spdmError_keeps)
    | (with_reducible apply spdmOut_keeps) | (simp only [keeps_upd]) | (with_reducible apply Keeps.foldl)
    | (with_reducible apply Keeps.foldr) | (split))

theorem execSpdmGetMeasurements_keeps {transport : Nat} {eid : Nat} {index : Nat} {signed : Bool} {s : State}
    {t0 : State} (he : execSpdmGetMeasurements transport eid index signed s = .next t0) : Keeps s t0 := by
  unfold execSpdmGetMeasurements at he
  first | (replace he := Host.Outcome.next.inj he; subst he) | cases he
  repeat' (first
    | (intro _) | (with_reducible exact Keeps.refl _) | (with_reducible assumption) | (with_reducible apply Keeps.ite)
    | (with_reducible apply spdmStep_keeps) | (with_reducible apply spdmError_keeps)
    | (with_reducible apply bumpFree_keeps) | (with_reducible apply spdmOut_keeps) | (simp only [keeps_upd])
    | (with_reducible apply Keeps.foldl) | (with_reducible apply Keeps.foldr) | (split))

theorem execSpdmKeyExchange_keeps {transport : Nat} {eid : Nat} {s : State} {t0 : State}
    (he : execSpdmKeyExchange transport eid s = .next t0) : Keeps s t0 := by
  unfold execSpdmKeyExchange at he
  first | (replace he := Host.Outcome.next.inj he; subst he) | cases he
  repeat' (first
    | (intro _) | (with_reducible exact Keeps.refl _) | (with_reducible assumption) | (with_reducible apply Keeps.ite)
    | (with_reducible apply spdmStep_keeps) | (with_reducible apply spdmOut_keeps)
    | (with_reducible apply setConn_keeps) | (simp only [keeps_upd]) | (with_reducible apply Keeps.foldl)
    | (with_reducible apply Keeps.foldr) | (split))

theorem execSpdmFinish_keeps {transport : Nat} {eid : Nat} {good : Bool} {s : State} {t0 : State}
    (he : execSpdmFinish transport eid good s = .next t0) : Keeps s t0 := by
  unfold execSpdmFinish at he
  first | (replace he := Host.Outcome.next.inj he; subst he) | cases he
  repeat' (first
    | (intro _) | (with_reducible exact Keeps.refl _) | (with_reducible assumption) | (with_reducible apply Keeps.ite)
    | (with_reducible apply spdmStep_keeps) | (with_reducible apply spdmOut_keeps)
    | (with_reducible apply setConn_keeps) | (with_reducible apply spdmError_keeps) | (simp only [keeps_upd])
    | (with_reducible apply Keeps.foldl) | (with_reducible apply Keeps.foldr) | (split))

theorem execSpdmHeartbeat_keeps {transport : Nat} {eid : Nat} {s : State} {t0 : State}
    (he : execSpdmHeartbeat transport eid s = .next t0) : Keeps s t0 := by
  unfold execSpdmHeartbeat at he
  first | (replace he := Host.Outcome.next.inj he; subst he) | cases he
  repeat' (first
    | (intro _) | (with_reducible exact Keeps.refl _) | (with_reducible assumption) | (with_reducible apply Keeps.ite)
    | (with_reducible apply spdmStep_keeps) | (with_reducible apply spdmOut_keeps) | (simp only [keeps_upd])
    | (with_reducible apply Keeps.foldl) | (with_reducible apply Keeps.foldr) | (split))

theorem execSpdmKeyUpdate_keeps {transport : Nat} {eid : Nat} {op : Nat} {tag : Nat} {s : State} {t0 : State}
    (he : execSpdmKeyUpdate transport eid op tag s = .next t0) : Keeps s t0 := by
  unfold execSpdmKeyUpdate at he
  first | (replace he := Host.Outcome.next.inj he; subst he) | cases he
  repeat' (first
    | (intro _) | (with_reducible exact Keeps.refl _) | (with_reducible assumption) | (with_reducible apply Keeps.ite)
    | (with_reducible apply spdmStep_keeps) | (with_reducible apply spdmError_keeps)
    | (with_reducible apply spdmOut_keeps) | (with_reducible apply setConn_keeps) | (simp only [keeps_upd])
    | (with_reducible apply Keeps.foldl) | (with_reducible apply Keeps.foldr) | (split))

theorem execSpdmEndSession_keeps {transport : Nat} {eid : Nat} {s : State} {t0 : State}
    (he : execSpdmEndSession transport eid s = .next t0) : Keeps s t0 := by
  unfold execSpdmEndSession at he
  first | (replace he := Host.Outcome.next.inj he; subst he) | cases he
  repeat' (first
    | (intro _) | (with_reducible exact Keeps.refl _) | (with_reducible assumption) | (with_reducible apply Keeps.ite)
    | (with_reducible apply spdmStep_keeps) | (with_reducible apply setConn_keeps)
    | (with_reducible apply spdmOut_keeps) | (simp only [keeps_upd]) | (with_reducible apply Keeps.foldl)
    | (with_reducible apply Keeps.foldr) | (split))

theorem execWxlRefclkReturn_keeps {die : Nat} {s : State} {t0 : State}
    (he : execWxlRefclkReturn die s = .next t0) : Keeps s t0 := by
  unfold execWxlRefclkReturn at he
  first | (replace he := Host.Outcome.next.inj he; subst he) | cases he
  repeat' (first
    | (intro _) | (with_reducible exact Keeps.refl _) | (with_reducible assumption) | (with_reducible apply Keeps.ite)
    | (with_reducible apply modIod_keeps) | (simp only [keeps_upd]) | (with_reducible apply Keeps.foldl)
    | (with_reducible apply Keeps.foldr) | (split))

theorem execPcieRefclkReturn_keeps {width : Nat} {speed : Nat} {flit : Bool} {s : State} {t0 : State}
    (he : execPcieRefclkReturn width speed flit s = .next t0) : Keeps s t0 := by
  unfold execPcieRefclkReturn at he
  first | (replace he := Host.Outcome.next.inj he; subst he) | cases he
  repeat' (first
    | (intro _) | (with_reducible exact Keeps.refl _) | (with_reducible assumption) | (with_reducible apply Keeps.ite)
    | (with_reducible apply endpointUp_keeps) | (simp only [keeps_upd]) | (with_reducible apply Keeps.foldl)
    | (with_reducible apply Keeps.foldr) | (split))

theorem execGarbageCollection_keeps {block : Nat} {failed : Bool} {s : State} {t0 : State}
    (he : execGarbageCollection block failed s = .next t0) : Keeps s t0 := by
  unfold execGarbageCollection at he
  first | (replace he := Host.Outcome.next.inj he; subst he) | cases he
  repeat' (first
    | (intro _) | (with_reducible exact Keeps.refl _) | (with_reducible assumption) | (with_reducible apply Keeps.ite)
    | (with_reducible apply storeUnit_keeps) | (with_reducible apply anchorWrite_keeps)
    | (with_reducible apply setVial_keeps) | (with_reducible apply eraseBlock_keeps) | (simp only [keeps_upd])
    | (with_reducible apply Keeps.foldl) | (with_reducible apply Keeps.foldr) | (split))

theorem execAliasKeysReady_keeps {s : State} {t0 : State} (he : execAliasKeysReady s = .next t0) : Keeps s t0 := by
  unfold execAliasKeysReady at he
  first | (replace he := Host.Outcome.next.inj he; subst he) | cases he
  repeat' (first
    | (intro _) | (with_reducible exact Keeps.refl _) | (with_reducible assumption) | (with_reducible apply Keeps.ite)
    | (with_reducible apply keysMade_keeps) | (simp only [keeps_upd]) | (with_reducible apply Keeps.foldl)
    | (with_reducible apply Keeps.foldr) | (split))

theorem execI3cDynamicAddress_keeps {addr : Nat} {s : State} {t0 : State}
    (he : execI3cDynamicAddress addr s = .next t0) : Keeps s t0 := by
  unfold execI3cDynamicAddress at he
  first | (replace he := Host.Outcome.next.inj he; subst he) | cases he
  repeat' (first
    | (intro _) | (with_reducible exact Keeps.refl _) | (with_reducible assumption) | (with_reducible apply Keeps.ite)
    | (with_reducible apply setNose_keeps) | (simp only [keeps_upd]) | (with_reducible apply Keeps.foldl)
    | (with_reducible apply Keeps.foldr) | (split))

theorem execUnlistedMailboxOpcode_keeps {s : State} {t0 : State}
    (he : execUnlistedMailboxOpcode s = .next t0) : Keeps s t0 := by
  unfold execUnlistedMailboxOpcode at he
  first | (replace he := Host.Outcome.next.inj he; subst he) | cases he
  repeat' (first
    | (intro _) | (with_reducible exact Keeps.refl _) | (with_reducible assumption) | (with_reducible apply Keeps.ite)
    | (with_reducible apply mbStart_keeps) | (simp only [keeps_upd]) | (with_reducible apply Keeps.foldl)
    | (with_reducible apply Keeps.foldr) | (split))

theorem execReservedOpclassRecord_sound {queue : Nat} {s : State} {t0 : State}
    (he : execReservedOpclassRecord queue s = .next t0) : Sound s t0 := by
  unfold execReservedOpclassRecord at he
  first | (replace he := Host.Outcome.next.inj he; subst he) | cases he
  repeat' (first
    | (intro _) | (with_reducible exact Sound.refl _) | (with_reducible assumption) | (with_reducible apply Sound.ite)
    | (with_reducible apply reservedClass_sound) | (simp only [sound_upd]) | (with_reducible apply Sound.foldl)
    | (with_reducible apply Sound.foldr) | (split))

theorem execDStateChange_keeps {d3 : Bool} {s : State} {t0 : State}
    (he : execDStateChange d3 s = .next t0) : Keeps s t0 := by
  unfold execDStateChange at he
  first | (replace he := Host.Outcome.next.inj he; subst he) | cases he
  repeat' (first
    | (intro _) | (with_reducible exact Keeps.refl _) | (with_reducible assumption) | (with_reducible apply Keeps.ite)
    | (simp only [keeps_upd]) | (with_reducible apply Keeps.foldl) | (with_reducible apply Keeps.foldr) | (split))

theorem execPldmActivateFirmware_keeps {binding : Nat} {eid : Nat} {tag : Nat} {image : List Byte} {verdict : Nat}
    {s : State} {t0 : State} (he : execPldmActivateFirmware binding eid tag image verdict s = .next t0) : Keeps s t0 := by
  unfold execPldmActivateFirmware at he
  first | (replace he := Host.Outcome.next.inj he; subst he) | cases he
  repeat' (first
    | (intro _) | (with_reducible exact Keeps.refl _) | (with_reducible assumption) | (with_reducible apply Keeps.ite)
    | (with_reducible apply pldmOut_keeps) | (with_reducible apply bumpFree_keeps)
    | (with_reducible apply commitUpdate_keeps) | (with_reducible apply commitUpdate_keeps' (by assumption))
    | (with_reducible apply updateStep_keeps) | (with_reducible apply noseRestart_keeps) | (simp only [keeps_upd])
    | (with_reducible apply Keeps.foldl) | (with_reducible apply Keeps.foldr) | (split))

end Sys2Proof.Machine
end

