-- ==== Sys2Proof/Laws/Pages.lean ====
section
/-! SUPPORT. Which block a page number of Table 22-3 names, and what a host write of four bytes to a register does once the endpoint,
the page and its lock let it through. -/

namespace Sys2Proof.Machine

set_option linter.all false

theorem pageType_pgCore {n : Nat} (h : n < 4096) : pageType (pgCore n) = some (2, n) := by
  unfold pageType pgCore
  repeat rw [if_neg (by omega)]
  rw [if_pos (by omega), Nat.add_sub_cancel_left]

theorem pageType_pgCluster {g : Nat} (h : g < 256) : pageType (pgCluster g) = some (3, g) := by
  unfold pageType pgCluster
  repeat rw [if_neg (by omega)]
  rw [if_pos (by omega), Nat.add_sub_cancel_left]

theorem pageType_pgQueue {q : Nat} (h : q < 4096) : pageType (pgQueue q) = some (4, q / 128) := by
  unfold pageType pgQueue
  repeat rw [if_neg (by omega)]
  rw [if_pos (by omega), Nat.add_sub_cancel_left]

theorem pageType_pgSe {i : Nat} (h : i < 16) : pageType (pgSe i) = some (5, i) := by
  unfold pageType pgSe
  repeat rw [if_neg (by omega)]
  rw [if_pos (by omega), Nat.add_sub_cancel_left]

theorem pageType_pgMc {i : Nat} (h : i < 16) : pageType (pgMc i) = some (6, i) := by
  unfold pageType pgMc
  repeat rw [if_neg (by omega)]
  rw [if_pos (by omega), Nat.add_sub_cancel_left]

theorem pageType_pgPart {p : Nat} (h : p < 4) : pageType (pgPart p) = some (0xF, p) := by
  unfold pageType pgPart
  rw [if_neg (by omega), if_pos (by omega), Nat.add_sub_cancel_left]

theorem pageType_pgPort : ∀ i < 32, pageType (pgPort i) = some (7, i) := by decide

theorem pageType_pgLink : ∀ x < 4, pageType (pgLink x) = some (7, 32 + x) := by decide

theorem pageType_pgAtom : ∀ x < 4, pageType (pgAtom x) = some (8, x) := by decide

/-- A host write of four bytes reaches a register when the endpoint takes requests, the page is served and powered, and it is not
locked, and no reset of the page's crossing runs. -/
theorem hostReg_open {s : State} {pg o : Nat} (v : Nat) (h1 : hostReach s = true) (h2 : pageServed s pg = true) (h3 : pageOn s pg = true)
    (hc : crossingReset s pg = false) (h5 : (hdr s pg).locked = false) (h7 : pg < 8192) (ho : o < 4096) (h4 : o % 4 = 0) :
    hostReg s pg o v = writeReg4 s pg o (BitVec.ofNat 32 v) := by
  have hp : (pg * 4096 + o) / 4096 = pg := by omega
  have hm : (pg * 4096 + o) % 4096 = o := by omega
  have ha : writeSizeOk 4 (pg * 4096 + o) = true := by
    have : (pg * 4096 + o) % 4 = 0 := by omega
    simp [writeSizeOk, this]
  have hlim : ¬ 0x2000000 ≤ pg * 4096 + o := by omega
  unfold hostReg hostWrite bar0Write
  simp [h1, h2, h3, h5, ha, hlim, hp, hm, hc, overtaken, pageWrite, half, lockedFor]

/-- A host write of eight bytes to a register of eight bytes reaches it under the same conditions. -/
theorem hostWrite_wide {s : State} {pg o : Nat} (v : Nat) (h1 : hostReach s = true) (h2 : pageServed s pg = true) (h3 : pageOn s pg = true)
    (hc : crossingReset s pg = false) (h5 : (hdr s pg).locked = false) (h7 : pg < 8192) (ho : o < 4096) (h8 : o % 8 = 0) (hw : wide pg o = true) :
    hostWrite s 0 (pg * 4096 + o) 8 v = wideWrite s pg o (BitVec.ofNat 64 v) := by
  have hp : (pg * 4096 + o) / 4096 = pg := by omega
  have hm : (pg * 4096 + o) % 4096 = o := by omega
  have ha : writeSizeOk 8 (pg * 4096 + o) = true := by
    have : (pg * 4096 + o) % 8 = 0 := by omega
    simp [writeSizeOk, this]
  have hlim : ¬ 0x2000000 ≤ pg * 4096 + o := by omega
  unfold hostWrite bar0Write
  simp [h1, h2, h3, h5, ha, hlim, hp, hm, hc, overtaken, pageWrite, lockedFor, hw]

/-- A block's register of four bytes. -/
theorem writeReg4_block {pg o : Nat} (s : State) (v : W32) (he : entryPage pg = false) (ho : 0x40 ≤ o) (hw : wide pg (o - o % 8) = false) :
    writeReg4 s pg o v = blockWrite s pg o v := by
  have : ¬ o < 0x40 := by omega
  simp [writeReg4, hw, he, this]

/-- A host write of four bytes to group n's entry reaches its register while BAR0 serves the page (R381). -/
theorem entryHost_open {s : State} {n o : Nat} (v : Nat) (h1 : hostReach s = true) (h2 : pageServed s (0x80 + n / 64) = true) (hn : n < 1024)
    (ho : o < 64) (h4 : o % 4 = 0) (hw : ((o - o % 8) % 64 == 8 || (o - o % 8) % 64 == 16 || (o - o % 8) % 64 == 32) = false) :
    entryHost s n o v = entryWrite s n o (BitVec.ofNat 32 v) := by
  have hp : (0x80000 + n * 64 + o) / 4096 = 0x80 + n / 64 := by omega
  have hm : (0x80000 + n * 64 + o) % 4096 = n % 64 * 64 + o := by omega
  have ha : writeSizeOk 4 (0x80000 + n * 64 + o) = true := by
    have : (0x80000 + n * 64 + o) % 4 = 0 := by omega
    simp [writeSizeOk, this]
  have hlim : ¬ 0x2000000 ≤ 0x80000 + n * 64 + o := by omega
  have he : entryPage (0x80 + n / 64) = true := by
    simp only [entryPage, Bool.and_eq_true, decide_eq_true_eq]; omega
  have ht : pageType (0x80 + n / 64) = none := by
    have h : ∀ k < 16, pageType (0x80 + k) = none := by decide
    exact h _ (by omega)
  have hon : pageOn s (0x80 + n / 64) = true := by simp [pageOn, ht]
  have hc : crossingReset s (0x80 + n / 64) = false := by simp [crossingReset, pagePart, ht]
  have hq : (n % 64 * 64 + o - (n % 64 * 64 + o) % 8) % 64 = (o - o % 8) % 64 := by omega
  have hg : entryGroup (0x80 + n / 64) (n % 64 * 64 + o) = n := by unfold entryGroup; omega
  have hr : (n % 64 * 64 + o) % 64 = o := by omega
  unfold entryHost hostWrite bar0Write
  simp [h1, h2, ha, hlim, hp, hm, hon, hc, overtaken, pageWrite, half, lockedFor, he, hn, writeReg4, wide, hq, hw, hg, hr]

theorem entryPage_pgCore {n : Nat} : entryPage (pgCore n) = false := by
  exact Bool.and_eq_false_iff.2 (Or.inr (decide_eq_false (by unfold pgCore; omega)))

theorem entryPage_pgCluster {g : Nat} : entryPage (pgCluster g) = false := by
  exact Bool.and_eq_false_iff.2 (Or.inr (decide_eq_false (by unfold pgCluster; omega)))

theorem entryPage_pgQueue {q : Nat} (h : q < 4096) : entryPage (pgQueue q) = false := by
  exact Bool.and_eq_false_iff.2 (Or.inl (decide_eq_false (by unfold pgQueue; omega)))

theorem entryPage_pgSe {i : Nat} (h : i < 16) : entryPage (pgSe i) = false := by
  exact Bool.and_eq_false_iff.2 (Or.inl (decide_eq_false (by unfold pgSe; omega)))

theorem entryPage_pgPart {p : Nat} (h : p < 4) : entryPage (pgPart p) = false := by
  exact Bool.and_eq_false_iff.2 (Or.inl (decide_eq_false (by unfold pgPart; omega)))

theorem entryPage_pgPort : ∀ i < 32, entryPage (pgPort i) = false := by decide

theorem entryPage_pgLink : ∀ x < 4, entryPage (pgLink x) = false := by decide

theorem entryPage_pgAtom : ∀ x < 4, entryPage (pgAtom x) = false := by decide

end Sys2Proof.Machine
end

