-- ==== Sys2Proof/Laws/Premises.lean ====
section
/-! SUPPORT. What the statements' premises give: a host write that is open reaches its register, a ready word issues, a record or message in
turn has its row's effect. -/

namespace Sys2Proof.Machine

set_option linter.all false
set_option maxRecDepth 4000

theorem hostReg_ofOpen {s : State} {pg o v : Nat} (h : regOpen s pg = true) (h7 : pg < 8192) (ho : o < 4096) (h4 : o % 4 = 0) :
    hostReg s pg o v = writeReg4 s pg o (BitVec.ofNat 32 v) := by
  simp only [regOpen, Bool.and_eq_true, Bool.not_eq_true'] at h
  exact hostReg_open v h.1.1.1.1 h.1.1.1.2 h.1.1.2 h.1.2 h.2 h7 ho h4

theorem coreRow_ofReady {s : State} {n o : Nat} (h : ready s n o = true) (hu : unitOf o = none) (h1 : o ≠ 0x2D) (h2 : o ≠ 0x21) (h3 : o ≠ 0x2C) :
    coreRow s n o = issueLocal s n (wordAt (core s n)) ∧ opc (wordAt (core s n)) = o ∧ illegal (wordAt (core s n)) = false := by
  simp only [ready, atWord, Bool.and_eq_true, Bool.or_eq_true, decide_eq_true_eq, beq_iff_eq, Bool.not_eq_true'] at h
  obtain ⟨⟨⟨⟨⟨hc, hp⟩, ho⟩, hw⟩, hi⟩, hz⟩ := h
  refine ⟨?_, ho, hi⟩
  unfold coreRow tryIssue
  simp only [hc, ho, hi, hz, hu, h1, h2, h3]
  have : ¬ ((core s n).progLen ≤ (core s n).pc) := by omega
  rcases hw with hw | hw <;> simp [this, hw, hi, hz, hu, h1, h2, h3, ho]

theorem coreRowMet_clean (s : State) (n o : Nat) : coreRowMet s n o .clean = coreRow s n o := by
  unfold coreRowMet; split <;> rfl

theorem running_ofReady {s : State} {n o : Nat} (h : ready s n o = true) : (core s n).state = .running := by
  simp only [ready, atWord, canIssue, Bool.and_eq_true, decide_eq_true_eq] at h
  tauto

theorem coreRow_scalar {s : State} {n o : Nat} (h : ready s n o = true) (h1 : 1 ≤ o) (h2 : o ≤ 15) (v : W64) (hv : scalarVal s n (wordAt (core s n)) = v): coreRow s n o = setCore s n (wrote (core s n) (wordAt (core s n)) v) := by
  obtain ⟨a, b, c⟩ := coreRow_ofReady h (by unfold unitOf; split_ifs <;> first | rfl | omega) (by omega) (by omega) (by omega)
  rw [a]
  unfold issueLocal
  simp only [b, c]
  rw [if_neg (by simp), if_neg (by omega), if_neg (by omega), if_pos (by omega), hv]
  simp only [issued, modCore_eq, core_setCore, setCore_setCore, setG, wrote, stepped]
  split <;> rfl

theorem slt_value (a b : W64) : (if sgn a < sgn b then (1:W64) else 0) = if a.slt b then 1 else 0 := by
  have h : ∀ x : W64, sgn x = x.toInt := by
    intro x
    have := x.isLt
    simp only [sgn, sval, BitVec.toInt]
    rw [Nat.mod_eq_of_lt this]
    split <;> split <;> simp_all <;> omega
  simp [h, BitVec.slt]

theorem coreRow_ofAtWord {s : State} {n o : Nat} (h : ready s n o = true) (hu : unitOf o = none) :
    coreRow s n o = (if o = 0x2D ∧ ufenceWaits (core s n) (wordAt (core s n)) then s
    else if o = 0x21 ∧ hrelWaits (core s n) (wordAt (core s n)) then s
    else if o = 0x2C ∧ localCopy s (n / 16) < stampOf (core s n) (wordAt (core s n)) then
      setCore s n (startHold s n { core s n with state := .waiting, hold := some { launch := true, since := now s, limited := false } })
    else issueLocal s n (wordAt (core s n))) ∧ opc (wordAt (core s n)) = o ∧ illegal (wordAt (core s n)) = false := by
  simp only [ready, atWord, Bool.and_eq_true, Bool.or_eq_true, decide_eq_true_eq, beq_iff_eq, Bool.not_eq_true'] at h
  obtain ⟨⟨⟨⟨⟨hc, hp⟩, ho⟩, hw⟩, hi⟩, hz⟩ := h
  refine ⟨?_, ho, hi⟩
  unfold coreRow tryIssue
  simp only [hc, ho, hi, hz, hu]
  have : ¬ ((core s n).progLen ≤ (core s n).pc) := by omega
  rcases hw with hw | hw <;> simp [this, hw, hi, hz, hu, ho]

theorem exec_coreRows {n : Nat} {m : Met} {r : Nat × Instr} (h : r ∈ coreRows n m) (s : State) : exec r.2 s = .next (coreRowMet s n r.1 m) := by
  simp only [coreRows, List.mem_cons, List.not_mem_nil, or_false] at h
  repeat (first | (rcases h with rfl | h; · rfl) | (subst h; rfl))

theorem coreRow_held {s : State} {n o : Nat} (h1 : canIssue s n = true) (h2 : (core s n).pc < (core s n).progLen) (h3 : opc (wordAt (core s n)) = o)
    (h4 : waitEn (wordAt (core s n)) = true) (h5 : waitMet (core s n) (waitCtr (wordAt (core s n))) = false) :
    coreRow s n o = setCore s n (startHold s n { core s n with state := .waiting, hold := some { launch := false, since := now s, limited := false } }) := by
  unfold coreRow
  simp [*, Nat.not_le.2 h2]

theorem coreRow_ofUnitReady {s : State} {n o : Nat} {u : CUnit} (h : unitReady s n o u = true) (hu : unitOf o = some u) (hm : u ≠ .mover) :
    coreRow s n o = queued s n u := by
  simp only [unitReady, atWord, Bool.and_eq_true, Bool.or_eq_true, decide_eq_true_eq, beq_iff_eq, Bool.not_eq_true', Option.isNone_iff_eq_none] at h
  obtain ⟨⟨⟨⟨⟨⟨⟨⟨⟨hc, hp⟩, ho⟩, hw⟩, hz⟩, hq⟩, he⟩, hh⟩, hs⟩, hb⟩ := h
  have hi : illegal (wordAt (core s n)) = false := by
    unfold encErr at he
    by_contra hc
    simp at hc
    simp [hc] at he
  have : ¬ ((core s n).progLen ≤ (core s n).pc) := by omega
  have h2 : tryIssue s n (wordAt (core s n)) = queued s n u := by
    unfold tryIssue
    dsimp only
    rw [ho, hu]
    cases u <;> simp only [hi] <;> first | contradiction | skip
    all_goals unfold issueUnit queued
    all_goals simp only [hz, hq, he, hh, hs, hb]
    all_goals simp [issued, stepped]
  unfold coreRow
  rcases hw with hw | hw <;> simp [this, hw, hc, ho, h2]

theorem putFlight_pc (c : Core) (f : Flight) : (putFlight c f).pc = c.pc := rfl

theorem sampleStart_pc (s : State) (n : Nat) (f : Flight) : (core (sampleStart s n f) n).pc = (core s n).pc := by
  unfold sampleStart
  dsimp only
  repeat' split
  all_goals simp [putFlight_pc]

theorem startNext_pc (s : State) (n : Nat) (u : CUnit) : (core (startNext s n u) n).pc = (core s n).pc := by
  unfold startNext
  dsimp only
  repeat' split
  all_goals simp [putFlight_pc, sampleStart_pc]

theorem vectorResult_head {s : State} {n : Nat} {chk : Chk} {f : Flight} (h : (unitFlights (core s n) .vec).head? = some f) (hc : checkPasses s chk = true) :
    exec (.vectorResult n chk) s = .next (complete (vecEffect s n f) n f) := by
  show Host.Outcome.next (vectorResult s n chk) = _
  simp only [checkPasses, Bool.or_eq_true, Bool.not_eq_true', decide_eq_true_eq] at hc
  unfold vectorResult withCheck
  rcases hc with hc | hc <;> simp only [h, hc] <;> simp

theorem withCheck_pass {s : State} {n : Nat} {chk : Chk} {f : Flight} {g : State → State} (hc : checkPasses s chk = true) : withCheck s n f chk g = complete (g s) n f := by
  simp only [checkPasses, Bool.or_eq_true, Bool.not_eq_true', decide_eq_true_eq] at hc
  unfold withCheck
  rcases hc with hc | hc <;> simp [hc]

theorem coreRow_ofMoverReady {s : State} {n o : Nat} (h : moverReady s n o = true) (hu : unitOf o = some .mover) : coreRow s n o = moverIssued s n := by
  simp only [moverReady, atWord, Bool.and_eq_true, Bool.or_eq_true, decide_eq_true_eq, beq_iff_eq, Bool.not_eq_true', Option.isNone_iff_eq_none] at h
  obtain ⟨⟨⟨⟨⟨⟨⟨⟨⟨⟨⟨⟨⟨⟨hc, hp⟩, ho⟩, hw⟩, hi⟩, hz⟩, hq⟩, hz2⟩, h1⟩, h2⟩, h3⟩, h4⟩, h5⟩, h6⟩, h7⟩ := h
  have : ¬ ((core s n).progLen ≤ (core s n).pc) := by omega
  have h2 : tryIssue s n (wordAt (core s n)) = moverIssued s n := by
    unfold tryIssue
    dsimp only
    rw [ho, hu]
    dsimp only
    unfold issueMove
    simp only [moverPlan] at *
    simp only [hz, hq, hi, h1, h2, h3, h4, hz2, h5, h6, h7]
    simp only [moverIssued, moverFlight, moverPlan, issued, stepped, modCore_eq]
    rfl
  unfold coreRow
  rcases hw with hw | hw <;> simp [this, hw, hc, ho, h2]

theorem bumpMove_core (a : State) (n m : Nat) (v : MoveView) : core (bumpMove a n v) m = core a m := by unfold bumpMove; split <;> rfl

theorem moverIssued_pc (s : State) (n : Nat) : (core (moverIssued s n) n).pc = (core s n).pc + 1 := by
  unfold moverIssued enqueue
  dsimp only
  split
  · show (core (bumpMove _ n _) n).pc = _
    rw [bumpMove_core]; simp [startNext_pc, stepped]
  · simp [startNext_pc, stepped]

theorem countPath_core (x : Nat) (p : List (Nat × NetLink)) (k : Nat) (a : State) : core (countPath a p k) x = core a x := by
  unfold countPath
  split
  · rfl
  · have : ∀ (f : State → (Nat × NetLink) → State) (_ : ∀ a y, core (f a y) x = core a x) (l : List (Nat × NetLink)) (a : State), core (l.foldl f a) x = core a x := by
      intro f hf l; induction l with
      | nil => intro a; rfl
      | cons y r ih => intro a; rw [List.foldl_cons, ih, hf]
    exact this _ (by intro a y; rfl) p a

theorem landsAs_ofLandFlit {s : State} {i : Nat} {m : NetMsg} {row : FlitOut → Instr} (hl : ∀ o, exec (row o) s = .next (landFlit s i m o)) : landsAs s i m row := by
  unfold landsAs
  intro t p here
  have hc : (core here m.dst) = core s m.dst := by
    simp only [here]
    split <;> simp only [countPath_core] <;> rfl
  refine ⟨?_, ?_, ?_, ?_, ?_, ?_⟩
  · intro ht; rw [hl]; refine congrArg Host.Outcome.next ?_
    unfold landFlit flitMeets arriveFlit; dsimp only
    rw [show (core (if m.src < 4096 ∧ !m.cells.isEmpty then countPath (countPath (netDrop s i) (unitCorePath s m.src m.dst) 1) (corePath m.dst m.src) 1 else countPath (netDrop s i) (unitCorePath s m.src m.dst) 1) m.dst) = core s m.dst from hc, if_neg ht]
  · intro ht; rw [hl]; refine congrArg Host.Outcome.next ?_
    unfold landFlit flitMeets arriveFlit; dsimp only
    rw [show (core (if m.src < 4096 ∧ !m.cells.isEmpty then countPath (countPath (netDrop s i) (unitCorePath s m.src m.dst) 1) (corePath m.dst m.src) 1 else countPath (netDrop s i) (unitCorePath s m.src m.dst) 1) m.dst) = core s m.dst from hc, if_pos ht]; rfl
  · intro g a; refine (hl _).trans (congrArg Host.Outcome.next ?_); unfold landFlit flitMeets; rfl
  · intro g l a; refine (hl _).trans (congrArg Host.Outcome.next ?_); unfold landFlit flitMeets; rfl
  · intro g l a; refine (hl _).trans (congrArg Host.Outcome.next ?_); unfold landFlit flitMeets; rfl
  · refine (hl _).trans (congrArg Host.Outcome.next ?_); unfold landFlit flitMeets; rfl

theorem wide_ofBlock {pg o t i : Nat} (hp : pageType pg = some (t, i)) (he : entryPage pg = false) (ho : 0x40 ≤ o)
    (hw : wide pg (o - o % 8) = false) (s : State) (v : W32) : writeReg4 s pg o v = blockWrite s pg o v := by
  unfold writeReg4
  have : ¬ o < 0x40 := by omega
  simp [hw, he, this]

theorem hostReg_ofBlock {s : State} {pg o v t i : Nat} (h : regOpen s pg = true) (hp : pageType pg = some (t, i)) (h7 : pg < 8192) (ho : o < 4096) (h4 : o % 4 = 0) (hO : 0x40 ≤ o)
    (he : entryPage pg = false) (hw : wide pg (o - o % 8) = false) : hostReg s pg o v = blockWrite s pg o (BitVec.ofNat 32 v) := by
  rw [hostReg_ofOpen h h7 ho h4, wide_ofBlock hp he hO hw]

theorem logRaise_cores (s : State) (p a n : Nat) : (logRaise s p a n).cores = s.cores := by
  unfold logRaise addEvent; dsimp only; split
  · rfl
  · split <;> rfl

theorem sendMsi_cores (s : State) (v : Nat) : (sendMsi s v).cores = s.cores := by
  unfold sendMsi; split
  · rfl
  · dsimp only; split <;> rfl

theorem sendMsis_cores : ∀ (k : Nat) (s : State) (v : Nat), (sendMsis s v k).cores = s.cores := by
  intro k; induction k with
  | zero => intro s v; rfl
  | succ k ih => intro s v; unfold sendMsis; rw [ih, sendMsi_cores]

theorem putEvt_cores (s : State) (p : Nat) (h : Hdr) (f : W32) : (putEvt s p h f).cores = s.cores := by
  unfold putEvt; dsimp only; split
  · rw [sendMsis_cores]; rfl
  · rfl

theorem raiseCode_cores (s : State) (p : Nat) (m : W32) (a : Nat) : (raiseCode s p m a).cores = s.cores := by
  unfold raiseCode; dsimp only
  have h : ∀ (l : List Nat) (t : State), (l.foldl (fun s n => logRaise s p (if n = 31 then a else 0) n) t).cores = t.cores := by
    intro l; induction l with
    | nil => intro t; rfl
    | cons x l ih => intro t; simp only [List.foldl_cons]; rw [ih, logRaise_cores]
  rw [h, putEvt_cores]

theorem recordErr_cores (s : State) (p a b d : Nat) : (recordErr s p a b d).cores = s.cores := by
  unfold recordErr; dsimp only; rw [raiseCode_cores]; rfl

theorem recRow_ofMayStart {s : State} {q i : Nat} {b : List Byte} (h : mayStart s q i b = true) :
    nextRec s q = some (i, b) ∧ recErr s q b = none ∧ recReady s q b = true := by
  simpa [mayStart, Bool.and_eq_true, and_assoc] using h

theorem candidate_fields {s : State} {q i n : Nat} {b : List Byte} (h : candidate s q = some (i, b, n)) :
    nextRec s q = some (i, b) ∧ recErr s q b = none ∧ recReady s q b = true := by
  unfold candidate readyRec at h
  split at h
  · cases h
  · split at h
    · cases h
    · rename_i h2
      split at h2
      · cases h2
      · rename_i r h3
        split at h2
        · cases h2
          split at h
          · simp at h
            obtain ⟨h4, h5⟩ := h
            simp_all
          · cases h
        · cases h2

theorem coreRecRow_ofCandidate {s : State} {q i n cls : Nat} {b : List Byte} (h : candidate s q = some (i, b, n)) (hp : schedPick s q = true) (hc : recCls b = cls) :
    coreRecRow s q cls = assign s q i b n := by
  obtain ⟨h1, h2, h3⟩ := candidate_fields h
  simp [coreRecRow, recRow, *]

theorem queueOpen_fields {s : State} {q : Nat} (h : queueOpen s q = true) : q < 4096 ∧ regOpen s (pgQueue q) = true ∧ dieOn s (q / 2048) = true := by
  simpa [queueOpen, Bool.and_eq_true, and_assoc] using h

theorem bindWrite_ofOpen {s : State} {q : Nat} {v : W32} (h : queueOpen s q = true) : bindWrite s q v = writeQbind s q v := by
  obtain ⟨h1, h2, h3⟩ := queueOpen_fields h
  have hp := pageType_pgQueue h1
  have e : (0x800 + 16 * (q % 128) + 8 - (0x800 + 16 * (q % 128) + 8) % 8) % 16 = 8 := by omega
  have hk : 128 * (q / 128) + (0x800 + 16 * (q % 128) + 8 - 0x800) / 16 = q := by omega
  have h5 : (0x800 + 16 * (q % 128) + 8) % 16 = 8 := by omega
  unfold bindWrite qcfgOff
  rw [if_pos h1, hostReg_ofOpen h2 (by unfold pgQueue; omega) (by omega) (by omega),
    writeReg4_block _ _ (entryPage_pgQueue h1) (by omega) (by simp [wide, hp, entryPage_pgQueue h1]; intro _; omega)]
  unfold blockWrite; rw [hp]
  dsimp only; unfold queueWrite; rw [if_pos (by simp [h5]; omega)]; rw [hk]; simp

theorem exec_queueConfigWrite_ofOpen {s : State} {q : Nat} {v : W64} (h : queueOpen s q = true) : exec (.queueConfigWrite q false v) s = .next (writeQcfg s q v) := by
  obtain ⟨h1, h2, h3⟩ := queueOpen_fields h
  have hp := pageType_pgQueue h1
  simp only [regOpen, Bool.and_eq_true, Bool.not_eq_true'] at h2
  refine congrArg Host.Outcome.next ?_
  have e : (0x800 + 16 * (q % 128)) % 16 = 0 := by omega
  rw [if_neg (by omega)]
  simp only [Bool.false_eq_true, if_false]
  unfold qcfgOff
  rw [hostWrite_wide v.toNat h2.1.1.1.1 h2.1.1.1.2 h2.1.1.2 h2.1.2 h2.2 (by unfold pgQueue; omega) (by omega) (by omega) (by simp [wide, hp, entryPage_pgQueue h1, e])]
  unfold wideWrite; rw [hp]; simp [entryPage_pgQueue h1]
  congr 1
  omega

theorem bindFields_kept (v : W32) : bindFields v = bindKept v := rfl

theorem seRow_ofReady {s : State} {q : Nat} {kind : List Byte → Bool} {c : SeCmd} (h : seReady s q kind c = true) (start : State → Nat → SeCmd → State) :
    seRow s q kind start = start s (qTarget (queue s q)) c := by
  simp only [seReady, Bool.and_eq_true, decide_eq_true_eq, Option.isNone_iff_eq_none, beq_iff_eq] at h
  obtain ⟨⟨⟨⟨⟨h1, h2⟩, h3⟩, h4⟩, h5⟩, h6⟩ := h
  simp [seRow, h1, seForward, recRow, h2, seStart, h3, h4, h5, h6]

theorem seRow_ofReady_checked {s : State} {q : Nat} {kind : List Byte → Bool} {c : SeCmd} (h : seReady s q kind c = true) (chk : Chk) :
    let i := qTarget (queue s q)
    let b := c.bytes
    let d0 := readBytes s.mem (seSrc b) 128
    let d1 := readBytes s.mem (if seOp b = 1 then seDst b else seAux0 b) 128
    let read := hbmTouch s (seDescReads b) false
    (localErr s i (cmdPart s c) b d0 d1 = none → checkPasses s chk = true → seRow s q kind (startLocal chk) = putCmd read i { c with started := true, d0 := d0, d1 := d1 }) ∧
    (localErr s i (cmdPart s c) b d0 d1 = none → checkPasses s chk = false → seRow s q kind (startLocal chk) = seArith read i c) ∧
    (∀ code, localErr s i (cmdPart s c) b d0 d1 = some code → seRow s q kind (startLocal chk) = seFail s i c code) := by
  intro i b d0 d1 read
  rw [seRow_ofReady h]
  refine ⟨?_, ?_, ?_⟩
  · intro h1 h2
    simp [checkPasses] at h2
    simp only [i, b, d0, d1] at h1
    simp [startLocal, h1, read, i, d0, d1, b]; intro h3 h4; simp [h4] at h2; exact absurd h2 h3
  · intro h1 h2
    simp [checkPasses] at h2
    simp only [i, b, d0, d1] at h1
    simp [startLocal, h1, h2, read, i, d0, d1, b]
  · intro code h1
    simp only [i, b, d0, d1] at h1
    simp [startLocal, h1, i]

theorem seHead_unit {s : State} {i u : Nat} {c : SeCmd} (h : seHead s i u = some c) : c.unit = u := by
  have := List.find?_some h; simpa using this

theorem reducePass_ofSlot {s : State} {i g b p : Nat} {chk : Chk} {es : List (Nat × Ecc)} {r0 : RSlot} (h : slotAt s i g b false = some r0) (h1 : partOfSite s i = some p) :
    let log := silMode s p == 1 || silMode s p == 2
    let x := if log then logSettle s i p r0 else (s, r0)
    let r := x.2
    let s1 := putSlot x.1 i r
    let items := (leading (itemReady r) (seqItems r)).take 8
    let y := logItems s1 i p r r.order items
    let met := fun (t : State) (l : List (Nat × Bool)) => hbmMeets (hbmTouch t (passReads s r l) false) (passReads s r l) es
    let s2 := redFail (dropSends (dropSlot s1 i r) (fun j k c _ => j == i && k == g && c == b)) i r 0x050E 0
    let may := passRuns s i = false ∧ siteOn s i = true
    may → silMode s p ≠ 3 →
      (items = [] ∨ r.silSettle ≠ [] → startPass s i g b chk es = tryClose s1 i g b) ∧
      (items ≠ [] → r.silSettle = [] → checkPasses s chk = false → startPass s i g b chk es = resetByFault s2 p (seFault s2 i)) ∧
      (items ≠ [] → r.silSettle = [] → checkPasses s chk = true → log = false → startPass s i g b chk es =
        if hbmPoison (passReads s r items) es then met s1 items else putSlot (met s1 items) i (markPass r items)) ∧
      (items ≠ [] → r.silSettle = [] → checkPasses s chk = true → log = true → y.2 ≠ [] → startPass s i g b chk es =
        if hbmPoison (passReads s r y.2) es then met y.1 y.2
          else putSlot (met y.1 y.2) i { markPass r y.2 with order := r.order + y.2.length }) ∧
      (items ≠ [] → r.silSettle = [] → checkPasses s chk = true → log = true → y.2 = [] → startPass s i g b chk es =
        if r.silHeld then y.1 else raiseEvt (putSlot y.1 i { r with silHeld := true }) (pgPart p) 0) := by
  intro log x r s1 items y met s2 may
  have hm : may → (passRuns s i || !siteOn s i) = false := by rintro ⟨a, b⟩; simp [a, b]
  have key : may → silMode s p ≠ 3 → startPass s i g b chk es =
      if items.isEmpty || !r.silSettle.isEmpty then tryClose s1 i g b
      else if chk ≠ .pass && bit s.glob.integCfg 0 then resetByFault s2 p (seFault s2 i)
      else if log then
        if y.2.isEmpty then (if r.silHeld then y.1 else raiseEvt (putSlot y.1 i { r with silHeld := true }) (pgPart p) 0)
        else passBegin y.1 (passReads s r y.2) es (fun s => putSlot s i { markPass r y.2 with order := r.order + y.2.length })
      else passBegin s1 (passReads s r items) es (fun s => putSlot s i (markPass r items)) := by
    intro a1 a2
    unfold startPass; rw [h, h1]; dsimp only
    rw [hm a1, if_neg (by simp), if_neg a2]
  have hn : items ≠ [] → r.silSettle = [] → (items.isEmpty || !r.silSettle.isEmpty) = false := by
    intro a1 a2; simp [a1, a2]
  have hk : checkPasses s chk = true → (chk ≠ .pass && bit s.glob.integCfg 0) = false := by
    intro a; simp [checkPasses] at a; cases hb : bit s.glob.integCfg 0 <;> simp_all
  have hk2 : checkPasses s chk = false → (chk ≠ .pass && bit s.glob.integCfg 0) = true := by
    intro a; simp [checkPasses] at a; simp [a]
  intro a1 a2
  refine ⟨?_, ?_, ?_, ?_, ?_⟩
  · intro a3; refine (key a1 a2).trans ?_
    rw [if_pos]; rcases a3 with a3 | a3 <;> simp [a3]
  · intro a3 a4 a5; refine (key a1 a2).trans ?_
    rw [hn a3 a4, if_neg (by simp), if_pos (hk2 a5)]
  · intro a3 a4 a5 a6; refine (key a1 a2).trans ?_
    rw [hn a3 a4, if_neg (by simp), hk a5, if_neg (by simp), a6, if_neg (by simp)]; unfold passBegin; dsimp only
  · intro a3 a4 a5 a6 a7; refine (key a1 a2).trans ?_
    rw [hn a3 a4, if_neg (by simp), hk a5, if_neg (by simp), a6, if_pos rfl, if_neg (by simpa using a7)]; unfold passBegin; dsimp only
  · intro a3 a4 a5 a6 a7; refine (key a1 a2).trans ?_
    rw [hn a3 a4, if_neg (by simp), hk a5, if_neg (by simp), a6, if_pos rfl, if_pos (by simp [a7])]

theorem entryHost_ofGroupOpen {s : State} {n o v : Nat} (h : groupOpen s n = true) (ho : o < 64) (h4 : o % 4 = 0) (hw : ((o - o % 8) % 64 == 8 || (o - o % 8) % 64 == 16 || (o - o % 8) % 64 == 32) = false) :
    entryHost s n o v = entryWrite s n o (BitVec.ofNat 32 v) := by
  simp only [groupOpen, Bool.and_eq_true, decide_eq_true_eq] at h
  exact entryHost_open v h.1.2 h.2 h.1.1 ho h4 hw

theorem hostRead_layout {s : State} {n : Nat} (h : groupOpen s n = true) :
    hostRead s 0 (0x80000 + n * 64 + 0x2C) 4 = { modGroup s n layoutStep with reply := toBytes 4 (layoutRead (group s n)).toNat } := by
  simp only [groupOpen, Bool.and_eq_true, decide_eq_true_eq] at h
  obtain ⟨⟨hn, h1⟩, h2⟩ := h
  have hp : (0x80000 + n * 64 + 0x2C) / 4096 = 0x80 + n / 64 := by omega
  have hm : (0x80000 + n * 64 + 0x2C) % 4096 = n % 64 * 64 + 0x2C := by omega
  have hq : (0x80000 + n * 64 + 0x2C) % 4 = 0 := by omega
  have hk : readSizeOk 4 (0x80000 + n * 64 + 0x2C) = true := by simp [readSizeOk, hq]
  have hlim : 0x80000 + n * 64 + 0x2C < 0x2000000 := by omega
  have hlim2 : 0x80000 + n * 64 + 0x2C + 4 < 0x2000000 := by omega
  have he : entryPage (0x80 + n / 64) = true := by
    simp only [entryPage, Bool.and_eq_true, decide_eq_true_eq]; omega
  have ht : pageType (0x80 + n / 64) = none := by
    have h : ∀ k < 16, pageType (0x80 + k) = none := by decide
    exact h _ (by omega)
  have hon : pageOn s (0x80 + n / 64) = true := by simp [pageOn, ht]
  have hc : crossingReset s (0x80 + n / 64) = false := by simp [crossingReset, pagePart, ht]
  have hg : entryGroup (0x80 + n / 64) (n % 64 * 64 + 0x2C) = n := by unfold entryGroup; omega
  have hr : (n % 64 * 64 + 0x2C) % 64 = 0x2C := by omega
  have hne : ¬ 0x80000 + n * 64 + 0x2C = pgAcc * 4096 + 0x40 := by unfold pgAcc; omega
  have e1 : hostRead s 0 (0x80000 + n * 64 + 0x2C) 4 =
      { readEffect s (0x80 + n / 64) (n % 64 * 64 + 0x2C) 4 with reply := readData s 0 (0x80000 + n * 64 + 0x2C) 4 } := by
    unfold hostRead overtaken
    simp only [h1, hk, hp, hm, h2, hc]
    simp [hlim]
  have e2 : readEffect s (0x80 + n / 64) (n % 64 * 64 + 0x2C) 4 = modGroup s n layoutStep := by
    unfold readEffect
    simp only [h2, hon, he, hg, hr]
    simp
  have e3 : barWord s 0 (0x80000 + n * 64 + 0x2C) = (layoutRead (group s n)).toNat := by
    unfold barWord
    simp only [hlim, hp, hm]
    unfold hostWord
    simp only [hon, h2]
    simp only [regRead, he, hg, hr]
    simp [wordAtOff, entryRegs, List.find?, r4, r8]
    exact (layoutRead (group s n)).isLt
  rw [e1, e2]
  unfold readData
  simp only [hq, hne, Nat.sub_zero, e3]
  have key : ∀ a b : Nat, toBytes 4 (a + b * 4294967296) = toBytes 4 a := by
    intro a b
    simp only [toBytes]
    refine List.cons_eq_cons.2 ⟨?_, List.cons_eq_cons.2 ⟨?_, List.cons_eq_cons.2 ⟨?_, List.cons_eq_cons.2 ⟨?_, rfl⟩⟩⟩⟩ <;>
      apply BitVec.eq_of_toNat_eq <;> simp only [BitVec.toNat_ofNat] <;> omega
  simp [key]

theorem hbmServes_fields {s : State} {a : Nat} {p : HbmPlace} (h : hbmServes s a p = true) : hbmPlace s a = some p ∧ siteOn s p.site = true ∧ mcServes s p.site = true := by
  simpa [hbmServes, Bool.and_eq_true, and_assoc] using h

theorem request_mem {s : State} {p : HbmPlace} {w ko : Bool} {k : Nat} : (request s p w ko k).mem = s.mem := rfl

theorem raiseCode_fields (s : State) (p : Nat) (m : W32) (a : Nat) : ∃ h o n pc, raiseCode s p m a = { s with hdrs := h, out := o, nose := n, pcie := pc } := by
  have h1 : ∀ (s : State) (v : Nat), ∃ o pc, sendMsi s v = { s with out := o, pcie := pc } := by
    intro s v; unfold sendMsi; split
    · exact ⟨_, _, rfl⟩
    · dsimp only; split
      · exact ⟨_, _, rfl⟩
      · exact ⟨_, _, rfl⟩
  have h2 : ∀ (k : Nat) (s : State) (v : Nat), ∃ o pc, sendMsis s v k = { s with out := o, pcie := pc } := by
    intro k; induction k with
    | zero => intro s v; exact ⟨s.out, s.pcie, rfl⟩
    | succ k ih =>
      intro s v
      obtain ⟨o, pc, e⟩ := h1 s v
      obtain ⟨o2, pc2, e2⟩ := ih (sendMsi s v) v
      refine ⟨o2, pc2, ?_⟩
      unfold sendMsis; rw [e2, e]
  have h3 : ∀ (s : State) (x : Hdr) (f : W32), ∃ h o pc, putEvt s p x f = { s with hdrs := h, out := o, pcie := pc } := by
    intro s x f; unfold putEvt; dsimp only; split
    · obtain ⟨o, pc, e⟩ := h2 (popcount 32 (pend x &&& ~~~ (pend (hdr s p) &&& ~~~ f)).toNat) (setHdr s p x) x.vector.toNat
      exact ⟨_, o, pc, e⟩
    · exact ⟨_, s.out, s.pcie, rfl⟩
  have h4 : ∀ (s : State) (b n : Nat), ∃ x, logRaise s p b n = { s with nose := x } := by
    intro s b n; unfold logRaise addEvent; dsimp only; split
    · exact ⟨_, rfl⟩
    · split
      · exact ⟨_, rfl⟩
      · exact ⟨_, rfl⟩
  have h5 : ∀ (l : List Nat) (t : State), ∃ x, l.foldl (fun s n => logRaise s p (if n = 31 then a else 0) n) t = { t with nose := x } := by
    intro l; induction l with
    | nil => intro t; exact ⟨t.nose, rfl⟩
    | cons b l ih =>
      intro t
      obtain ⟨x, e⟩ := h4 t (if b = 31 then a else 0) b
      obtain ⟨y, e2⟩ := ih (logRaise t p (if b = 31 then a else 0) b)
      refine ⟨y, ?_⟩
      simp only [List.foldl_cons]; rw [e2, e]
  unfold raiseCode; dsimp only
  obtain ⟨h, o, pc, e⟩ := h3 s { hdr s p with raw := (hdr s p).raw ||| m } 0
  obtain ⟨x, e2⟩ := h5 ((List.range 32).filter (fun n => bit m n)) (putEvt s p { hdr s p with raw := (hdr s p).raw ||| m } 0)
  exact ⟨h, o, x, pc, by rw [e2, e]⟩

theorem raiseEvt_fields (s : State) (p n : Nat) : ∃ h o x pc, raiseEvt s p n = { s with hdrs := h, out := o, nose := x, pcie := pc } := raiseCode_fields s p _ 0

theorem recordErr_fields (s : State) (p c a b : Nat) : ∃ h o x pc, recordErr s p c a b = { s with hdrs := h, out := o, nose := x, pcie := pc } := by
  unfold recordErr; dsimp only
  obtain ⟨h, o, x, pc, e⟩ := raiseCode_fields (setHdr s p (if (hdr s p).errFirst = 0 then
      { { hdr s p with errCount := satInc (hdr s p).errCount 1 } with errFirst := BitVec.ofNat 16 c, infoLo := BitVec.ofNat 32 a, infoHi := BitVec.ofNat 32 b }
    else { hdr s p with errCount := satInc (hdr s p).errCount 1 })) p 0x80000000 c
  exact ⟨h, o, x, pc, e⟩

theorem recordErr_site (s : State) (p c a b i : Nat) : partOfSite (recordErr s p c a b) i = partOfSite s i := by
  obtain ⟨h, o, x, pc, e⟩ := recordErr_fields s p c a b; rw [e]; rfl

theorem raises_site (l : List Nat) (p n i : Nat) : ∀ s : State, partOfSite (l.foldl (fun s _ => raiseEvt s p n) s) i = partOfSite s i := by
  induction l with
  | nil => intro s; rfl
  | cons b l ih =>
    intro s; simp only [List.foldl_cons]; rw [ih]
    obtain ⟨h, o, x, pc, e⟩ := raiseEvt_fields s p n; rw [e]; rfl

theorem startsAnew_ofContext (s : State) (x q : Nat) (m : Msg) : startsAnew s x q m = (m.opens && (match landCtx s x q m with
    | some c => c.opened != some { m with hops := 0 }
    | none => true)) := by
  unfold startsAnew; cases landCtx s x q m <;> rfl

theorem atDie_inbox {s : State} {x k w i q : Nat} {m : Msg} (h : atDie s x k w i q m = true) :
    ∃ im, inboxPick s x k w = some i ∧ (iod s x).inbox[i]? = some im ∧ im.msg = m ∧ arrive s x i im = .here q := by
  simp only [atDie, Bool.and_eq_true, beq_iff_eq] at h
  obtain ⟨⟨⟨⟨h1, h3⟩, h4⟩, h5⟩, h6⟩ := h
  cases hi : (iod s x).inbox[i]? with
  | none => rw [hi] at h3; simp at h3
  | some im =>
    rw [hi] at h3; simp at h3
    refine ⟨im, h1, rfl, h3, ?_⟩
    unfold arrive
    rw [h3]
    simp only [h4, h5]
    rw [if_neg (by simp), if_pos h6]

theorem streamRow_ofAtDie {s : State} {x k w i q : Nat} {m : Msg} (h : atDie s x k w i q m = true) (deliver : State → Nat → Msg → State × Bool) :
    streamRow s x k w deliver = landStream s x i q m (fun s1 => deliver s1 q m) := by
  obtain ⟨im, h1, h2, h3, h4⟩ := atDie_inbox h
  unfold streamRow; rw [h1]; dsimp only; rw [h2]; dsimp only; rw [h4]; dsimp only; rw [h3]

theorem ctlRow_ofAtDie {s : State} {x k w i q : Nat} {m : Msg} (h : atDie s x k w i q m = true) (f : State → Nat → Msg → State) :
    ctlRow s x k w f = f (dropInbox s x i) q m := by
  obtain ⟨im, h1, h2, h3, h4⟩ := atDie_inbox h
  unfold ctlRow; rw [h1]; dsimp only; rw [h2]; dsimp only; rw [h4]; dsimp only; rw [h3]

theorem landStream_ofMeets {s : State} {x i q : Nat} {m : Msg} {c : LandCtx} (h : meetsCtx s x q m c = true) (deliver : State → State × Bool) :
    landStream s x i q m deliver =
      (let take := if (part s q).state = .quiesced then (fun s => (answerBusy s x q m, true)) else deliver
       let ahead := subMod (2 ^ 32) m.sseq c.expect
       let s1 := putLand s x q m { c with msgAt := s.time }
       if ahead = 0 then (if (take (dropInbox s1 x i)).2 then delivered (take (dropInbox s1 x i)).1 x q m else (take s1).1)
       else if 2 ^ 31 ≤ ahead then dropInbox s1 x i
       else if 1024 < ahead ∨ 4 * 2 ^ 20 < reorderBytes (iod s x) + 32 + m.data.length then
         streamCtl (modIod (dropInbox s1 x i) x (fun d => { d with reorderDrop := d.reorderDrop + 1 })) x q 0x0D c.expect m
       else putLand (dropInbox s1 x i) x q m { c with msgAt := s.time, early := m :: c.early.filter (fun y => y.sseq != m.sseq) }) := by
  unfold meetsCtx at h
  rw [startsAnew_ofContext] at h
  unfold landStream
  dsimp only
  cases hf : (m.opens && (match landCtx s x q m with
    | some c => c.opened != some { m with hops := 0 }
    | none => true)) with
  | true =>
    rw [hf] at h
    simp only [if_true, Bool.and_eq_true, beq_iff_eq, Bool.or_eq_true, decide_eq_true_eq] at h
    obtain ⟨hc, hn⟩ := h
    have e : (true && (landCtx s x q m).isNone && decide (16384 ≤ (iod s x).lands.length)) = false := by
      cases hl : landCtx s x q m with
      | none => rw [hl] at hn; simp at hn; simp; omega
      | some _ => rfl
    rw [if_neg (by rw [e]; simp)]
    simp only [if_true]
    rw [← hc]
  | false =>
    rw [hf] at h
    simp only [Bool.false_eq_true, if_false, beq_iff_eq] at h
    simp only [Bool.false_and, Bool.false_eq_true, if_false, h]

theorem streamRow_ofInTurn {s : State} {x k w i q : Nat} {m : Msg} {c : LandCtx} (h : inTurn s x k w i q m c = true) (deliver : State → Nat → Msg → State × Bool) :
    streamRow s x k w deliver = if (deliver (met s x i q m c) q m).2 = true then delivered (deliver (met s x i q m c) q m).1 x q m
      else (deliver (putLand s x q m { c with msgAt := s.time }) q m).1 := by
  simp only [inTurn, Bool.and_eq_true, beq_iff_eq, decide_eq_true_eq] at h
  obtain ⟨⟨⟨h1, h2⟩, h3⟩, h4⟩ := h
  rw [streamRow_ofAtDie h1, landStream_ofMeets h2]
  have : ¬ (part s q).state = .quiesced := by rw [h4]; decide
  dsimp only
  rw [if_neg this, if_pos h3]; rfl

theorem exec_streamRows {x w k : Nat} {o : FlitOut} {r : Instr} (h : (k, r) ∈ streamRows x w o) :
    ∃ deliver : State → Nat → Msg → State × Bool, ∀ s, exec r s = .next (streamRow s x k w deliver) := by
  simp only [streamRows, List.mem_cons, Prod.mk.injEq, List.mem_nil_iff, or_false] at h
  rcases h with ⟨rfl, rfl⟩ | ⟨rfl, rfl⟩ | ⟨rfl, rfl⟩ | ⟨rfl, rfl⟩ | ⟨rfl, rfl⟩ | ⟨rfl, rfl⟩ | ⟨rfl, rfl⟩ | ⟨rfl, rfl⟩ | ⟨rfl, rfl⟩ <;> exact ⟨_, fun _ => rfl⟩

theorem exec_answerRows {x w k : Nat} {e : Ecc} {r : Instr} (h : (k, r) ∈ answerRows x w e) :
    ∃ take : State → Nat → Msg → State, ∀ s, exec r s = .next (ctlRow s x k w take) := by
  simp only [answerRows, List.mem_cons, Prod.mk.injEq, List.mem_nil_iff, or_false] at h
  rcases h with ⟨rfl, rfl⟩ | ⟨rfl, rfl⟩ | ⟨rfl, rfl⟩ | ⟨rfl, rfl⟩ | ⟨rfl, rfl⟩ <;> exact ⟨_, fun _ => rfl⟩

theorem hostReg_block {s : State} {pg o v t i : Nat} (h : regOpen s pg = true) (h7 : pg < 8192) (ho : o < 4096) (h4 : o % 4 = 0) (ho2 : 0x40 ≤ o)
    (hp : pageType pg = some (t, i)) (he : entryPage pg = false) (hw : wide pg (o - o % 8) = false) :
    hostReg s pg o v = blockWrite s pg o (BitVec.ofNat 32 v) := by
  rw [hostReg_ofOpen h h7 ho h4, writeReg4_block _ _ he ho2 hw]

theorem pgPort_bar0 : ∀ i < 32, pgPort i < 8192 := by decide

theorem pgLink_bar0 : ∀ i < 4, pgLink i < 8192 := by decide

theorem retrain_eq (s : State) (i : Nat) : retrain s i = retrained s i := by
  unfold retrain retrained; split <;> rfl

theorem portUp_ofDown {s : State} {i : Nat} (h : (port s i).st = .down) : portUp s i = false := by simp [portUp, h]

theorem hostReg_portCmd {s : State} {i : Nat} (v : Nat) (hi : i < 32) (h1 : regOpen s (pgPort i) = true) :
    hostReg s (pgPort i) 0x44 v = portWriteReg s i 0x44 (BitVec.ofNat 32 v) := by
  rw [hostReg_block h1 (pgPort_bar0 i hi) (by omega) (by omega) (by omega) (pageType_pgPort i hi) (entryPage_pgPort i hi) (by simp [wide, pageType_pgPort i hi, entryPage_pgPort i hi])]
  unfold blockWrite; rw [pageType_pgPort i hi]; simp [hi]

theorem sound_fields {b : List Byte} {u : Nat} {f : Bool} (h : sound b u f = true) : crc32 (b.take 252) = leAt b 252 4 ∧ u = 0 ∧ f = false := by
  simpa [sound, Bool.and_eq_true, and_assoc] using h

theorem flitIn_ofBad {s : State} {i c u : Nat} {f : Bool} {b : List Byte} (h1 : portUp s i = true) (h2 : b.length = 256) (h : sound b u f = false) :
    flitIn s i b c u f = (if leAt b 0 1 % 4 ≠ 0 then fecCounted s i c u
      else (if crc32 (b.take 252) ≠ leAt b 252 4 then setPort (fecCounted s i c u) i (owesNak { port (fecCounted s i c u) i with crcFail := (port (fecCounted s i c u) i).crcFail + 1 })
        else setPort (fecCounted s i c u) i (owesNak (port (fecCounted s i c u) i)))) := by
  unfold flitIn
  rw [if_neg (by simp [h1, h2])]
  dsimp only
  have e : ((decide (crc32 (List.take 252 b) ≠ leAt b 252 4) || f || decide (0 < u)) = true) := by
    rcases Bool.eq_false_or_eq_true (sound b u f) with h' | _
    · rw [h] at h'; simp at h'
    · by_cases a1 : crc32 (List.take 252 b) = leAt b 252 4
      · by_cases a2 : u = 0
        · simp [sound, a1, a2] at h; simp [h]
        · simp; right; omega
      · simp [a1]
  rw [if_pos e]
  by_cases h3 : leAt b 0 1 % 4 ≠ 0
  · rw [if_pos h3, if_pos h3]; rfl
  · rw [if_neg h3, if_neg h3]
    by_cases h4 : crc32 (List.take 252 b) ≠ leAt b 252 4
    · rw [if_pos h4, if_pos (by simpa using h4)]
      simp only [modPort, port_setPort, setPort_setPort]
      rfl
    · rw [if_neg h4, if_neg (by simpa using h4)]
      rfl

theorem flitIn_ofSound {s : State} {i c u : Nat} {f : Bool} {b : List Byte} (h1 : portUp s i = true) (h2 : b.length = 256) (h : sound b u f = true) :
    flitIn s i b c u f = (let s3 := heard s i b c
      let ft := leAt b 0 1 % 4
      if !portUp s3 i then s3
      else if ft = 1 then s3
      else if ft = 2 then modPort s3 i (fun p => (List.range 7).foldl (fun p v => takeCount p v (leAt b (16 + 2 * v) 2)) p)
      else if ft = 3 then protocolErr s3 i
      else
        let vc := leAt b 5 1 % 8
        let p3 := port s3 i
        if leAt b 1 2 % 4096 ≠ p3.rxSeq then modPort s3 i (fun p => if p.nakSent then p else { p with nakDue := true, nakSent := true })
        else if vc = 7 ∨ vcBuffers vc + sget 0 p3.given vc < sget 0 p3.taken vc + 1 then protocolErr s3 i
        else acceptFlit s3 i vc (leAt b 6 1) ((b.drop 16).take 236)) := by
  obtain ⟨h3, rfl, rfl⟩ := sound_fields h
  unfold flitIn
  rw [if_neg (by simp [h1, h2])]
  dsimp only
  rw [if_neg (show ¬ ((decide (crc32 (List.take 252 b) ≠ leAt b 252 4) || false || decide (0 < 0)) = true) by simp [h3])]
  rfl

theorem exec_flitRows {s : State} {i c u : Nat} {f : Bool} {b : List Byte} {r : Instr}
    (h : r ∈ (if leAt b 0 1 % 4 = 1 ∨ leAt b 0 1 % 4 = 2 then [Instr.controlFlitReceive i b c u f] else [.dataFlitReceive i b c u f])
      ++ (if Nat.testBit (leAt b 0 1) 2 then [.nakReceive i b c u f] else [])) : exec r s = .next (flitIn s i b c u f) := by
  rcases List.mem_append.mp h with h | h
  · split at h
    · next e => simp at h; subst h; exact congrArg Host.Outcome.next (if_pos e)
    · next e => simp at h; subst h; exact congrArg Host.Outcome.next (if_neg e)
  · split at h
    · next e => simp at h; subst h; exact congrArg Host.Outcome.next (if_pos e)
    · simp at h

theorem hostRead_route {s : State} {x : Nat} (hx : x < 4) (h : regOpen s (pgLink x) = true) :
    hostRead s 0 (pgLink x * 4096 + 0x44) 4 = { setIod s x (routeStep (iod s x)) with
        reply := toBytes 4 (sget (0 : W32) (iod s x).routes (fld (iod s x).rtSel 11 0)).toNat } := by
  simp only [regOpen, Bool.and_eq_true, Bool.not_eq_true'] at h
  obtain ⟨⟨⟨⟨h1, h2⟩, hon⟩, hc⟩, h5⟩ := h
  have hl := pgLink_bar0 x hx
  have hp : (pgLink x * 4096 + 0x44) / 4096 = pgLink x := by omega
  have hm : (pgLink x * 4096 + 0x44) % 4096 = 0x44 := by omega
  have hq : (pgLink x * 4096 + 0x44) % 4 = 0 := by omega
  have hk : readSizeOk 4 (pgLink x * 4096 + 0x44) = true := by simp [readSizeOk, hq]
  have hlim : pgLink x * 4096 + 0x44 < 0x2000000 := by omega
  have he := entryPage_pgLink x hx
  have ht := pageType_pgLink x hx
  have hne : ¬ pgLink x * 4096 + 0x44 = pgAcc * 4096 + 0x40 := by unfold pgAcc; omega
  have e1 : hostRead s 0 (pgLink x * 4096 + 0x44) 4 =
      { readEffect s (pgLink x) 0x44 4 with reply := readData s 0 (pgLink x * 4096 + 0x44) 4 } := by
    unfold hostRead overtaken
    simp only [h1, hk, hp, hm, h2, hc]
    simp [hlim]
  have e2 : readEffect s (pgLink x) 0x44 4 = setIod s x (routeStep (iod s x)) := by
    unfold readEffect
    simp only [h2, hon, he, ht]
    simp [modIod]
  have e3 : barWord s 0 (pgLink x * 4096 + 0x44) = (sget (0 : W32) (iod s x).routes (fld (iod s x).rtSel 11 0)).toNat := by
    unfold barWord
    simp only [hlim, hp, hm]
    unfold hostWord
    simp only [hon, h2]
    simp only [regRead, he, ht]
    simp [blockRegs, ht, wordAtOff, linkRegs, List.find?, r4, r8, routeRead]
    exact BitVec.isLt _
  rw [e1, e2]
  unfold readData
  simp only [hq, hne, Nat.sub_zero, e3]
  have key : ∀ a b : Nat, toBytes 4 (a + b * 4294967296) = toBytes 4 a := by
    intro a b
    simp only [toBytes]
    refine List.cons_eq_cons.2 ⟨?_, List.cons_eq_cons.2 ⟨?_, List.cons_eq_cons.2 ⟨?_, List.cons_eq_cons.2 ⟨?_, rfl⟩⟩⟩⟩ <;>
      apply BitVec.eq_of_toNat_eq <;> simp only [BitVec.toNat_ofNat] <;> omega
  simp [key]

theorem hostReg_ofPart {s : State} {p o v : Nat} (hp : p < 4) (h : regOpen s (pgPart p) = true) (ho : o < 4096) (h4 : o % 4 = 0) (ho2 : 0x40 ≤ o)
    (hw : o - o % 8 ≠ 0x60 ∧ o - o % 8 ≠ 0x70 ∧ o - o % 8 ≠ 0x78) :
    partReg s p o v = partWrite s p o (BitVec.ofNat 32 v) := by
  unfold partReg
  have e := pageType_pgPart hp
  rw [if_pos hp, hostReg_ofOpen h (by unfold pgPart; omega) ho h4, writeReg4_block _ _ (entryPage_pgPart hp) ho2 (by simp [wide, e, entryPage_pgPart hp, hw])]
  unfold blockWrite; rw [e]
  simp

theorem hostReg_ofPartWide {s : State} {p o v : Nat} (hp : p < 4) (h : regOpen s (pgPart p) = true) (ho : o = 0x60 ∨ o = 0x70 ∨ o = 0x78) :
    hostWrite s 0 (pgPart p * 4096 + o) 8 v = wideWrite s (pgPart p) o (BitVec.ofNat 64 v) := by
  have e := pageType_pgPart hp
  simp only [regOpen, Bool.and_eq_true, Bool.not_eq_true'] at h
  exact hostWrite_wide v h.1.1.1.1 h.1.1.1.2 h.1.1.2 h.1.2 h.2 (by unfold pgPart; omega) (by omega) (by omega) (by simp [wide, e, entryPage_pgPart hp, or_assoc]; exact ho)

theorem hostReg_ofGlob {s : State} {o v : Nat} (h : regOpen s pgGlob = true) (ho : o < 4096) (h4 : o % 4 = 0) (ho2 : 0x40 ≤ o) :
    hostReg s pgGlob o v = globWrite s o (BitVec.ofNat 32 v) := by
  rw [hostReg_ofOpen h (by decide) ho h4, writeReg4_block _ _ (by decide) ho2 rfl]
  rfl

theorem partOpen_fields {s : State} {p : Nat} (h : partOpen s p = true) : p < 4 ∧ regOpen s (pgPart p) = true := by simpa [partOpen] using h

theorem fld_ofNat_four (k : Nat) (h : k < 16) : fld (BitVec.ofNat 32 k) 3 0 = k := by simp [fld, nfld]; omega

theorem exec_partOps {s : State} {p op : Nat} {r : Instr} (hp : p < 4) (h : regOpen s (pgPart p) = true) (hr : (op, r) ∈ partOps p) :
    exec r s = .next (partCmd s p op) := by
  simp only [partOps, List.mem_cons, Prod.mk.injEq, List.mem_nil_iff, or_false] at hr
  rcases hr with ⟨rfl, rfl⟩ | ⟨rfl, rfl⟩ | ⟨rfl, rfl⟩ | ⟨rfl, rfl⟩ <;> refine congrArg Host.Outcome.next ?_ <;>
    rw [hostReg_ofPart hp h (by omega) (by omega) (by omega) (by omega)] <;> simp only [partWrite] <;> rw [fld_ofNat_four _ (by omega)]

theorem headOpen_fields {s : State} {pg : Nat} (h : headOpen s pg = true) : pg < 8192 ∧ (pageType pg).isSome = true ∧ hostReach s = true ∧ pageServed s pg = true ∧ pageOn s pg = true ∧ crossingReset s pg = false := by
  simpa [headOpen, Bool.and_eq_true, and_assoc] using h

theorem entryPage_ofPage {pg : Nat} (h : (pageType pg).isSome = true) : entryPage pg = false := by
  cases he : entryPage pg with
  | false => rfl
  | true =>
    simp only [entryPage, Bool.and_eq_true, decide_eq_true_eq] at he
    have h1 : ∀ k < 16, pageType (0x80 + k) = none := by decide
    have := h1 (pg - 0x80) (by omega)
    rw [show 0x80 + (pg - 0x80) = pg by omega] at this
    rw [this] at h; simp at h

theorem wide_header {pg o : Nat} (h : (pageType pg).isSome = true) (ho : o < 0x40) : wide pg o = false := by
  unfold wide; rw [entryPage_ofPage h]
  simp only [Bool.false_eq_true, if_false]
  split
  · simp; intro _; omega
  · simp; omega
  · simp; omega
  · simp; omega
  · rfl

theorem hostReg_ofHead {s : State} {pg o : Nat} {v : W32} (h : headOpen s pg = true) (ho2 : o < 0x40) (h4 : o % 4 = 0) :
    headerReg s pg o v = if (hdr s pg).locked && !openWhenLocked o then pcieErr s 0x0E03 0 4 (pg * 4096 + o) else headerWrite s pg o v := by
  obtain ⟨h1, h2, h3, h5, h6, h7⟩ := headOpen_fields h
  have hp : (pg * 4096 + o) / 4096 = pg := by omega
  have hm : (pg * 4096 + o) % 4096 = o := by omega
  have ha : writeSizeOk 4 (pg * 4096 + o) = true := by
    have : (pg * 4096 + o) % 4 = 0 := by omega
    simp [writeSizeOk, this]
  have hlim : ¬ 0x2000000 ≤ pg * 4096 + o := by omega
  unfold headerReg; rw [if_pos h2]
  unfold hostReg hostWrite bar0Write
  simp [h3, h5, h6, h7, overtaken, ha, hlim, hp, hm, pageWrite, half, lockedFor, entryPage_ofPage h2, writeReg4, wide_header h2 (show o - o % 8 < 0x40 by omega), ho2]

theorem hostReg_hostReset {s : State} {o v : Nat} (h : regOpen s pgPcie = true) (ho : o = 0x44) : hostReg s pgPcie o v = hostResetWrite s (BitVec.ofNat 32 v) := by
  subst ho
  rw [hostReg_ofOpen h (by decide) (by omega) (by omega), writeReg4_block _ _ (by decide) (by omega) (by decide)]
  rfl

theorem noseUp_fields {s : State} (h : noseUp s = true) : powered s = true ∧ s.nose.mode = 1 := by
  simpa [noseUp] using h

theorem mbHolds_fields {s : State} {op arg req : Nat} (h : mbHolds s op arg req = true) :
    s.nose.mb = some { op := op, arg := arg, req := req, result := none } ∧ s.nose.restarting = none ∧ powered s = true := by
  simpa [mbHolds, and_assoc] using h

theorem mbRun_ofHolds {s : State} {op arg req : Nat} (h : mbHolds s op arg req = true) (f : State → MbOp → State) :
    mbRun s op f = f s { op := op, arg := arg, req := req, result := none } := by
  obtain ⟨h1, h2, h3⟩ := mbHolds_fields h
  unfold mbRun; rw [h1]; dsimp only; rw [if_pos ⟨rfl, rfl, by rw [h2]; rfl, h3⟩]

theorem mbRun_ofNotHeld {s : State} {op : Nat} (h : ∀ arg req, mbHolds s op arg req = false) (f : State → MbOp → State) : mbRun s op f = s := by
  unfold mbRun; split
  · next m hm =>
    rw [if_neg]; rintro ⟨h1, h2, h3, h4⟩
    have := h m.arg m.req
    have e : m = { op := op, arg := m.arg, req := m.req, result := none } := by
      cases m; simp only [Option.isNone_iff_eq_none] at *; subst h1; subst h2; rfl
    have h5 : mbHolds s op m.arg m.req = true := by unfold mbHolds; rw [hm, ← e, h3, h4]; simp
    exact absurd (this.symm.trans h5) (by decide)
  · rfl

theorem mbResult_ofHolds {s : State} {op arg req : Nat} (h : mbHolds s op arg req = true) (code : Nat) (resp : List Byte) :
    mbResult s code resp = mbGives s op arg req code resp := by
  unfold mbResult mbGives; rw [(mbHolds_fields h).1]; rfl

theorem commitUpdate_good {t : State} {w : Update} {v : Nat} (h : stagedVerdict t w v = 0) : commitUpdate t w v = (switchImage t w, 0) := by
  unfold commitUpdate; rw [h]; rfl

theorem commitUpdate_oldVersion {t : State} {w : Update} {v : Nat} (h : stagedVerdict t w v = 5) : commitUpdate t w v = (noseErr (dropStaging t) 0x0C0E 5, 0x0C09) := by
  unfold commitUpdate; rw [h]; rfl

theorem commitUpdate_bad {t : State} {w : Update} {v c : Nat} (h : stagedVerdict t w v = c) (h0 : c ≠ 0) (h5 : c ≠ 5) :
    commitUpdate t w v = (noseErr (dropStaging t) 0x0C0E c, 0x0C08) := by
  unfold commitUpdate; rw [h]; dsimp only; rw [if_neg h0, if_neg h5]

theorem spdmServed_fields {s : State} {t : Nat} (h : spdmServed s t = true) : spdmUp s t = true ∧ s.nose.keysReady = true := by
  simpa [spdmServed] using h

theorem spdmStep_inTurn {s : State} {t e : Nat} {turn : Spdm → Bool} {f : Spdm → State} (h : spdmUp s t = true) (h1 : s.nose.keysReady = true)
    (h2 : turn (conn s t) = true) : spdmStep s t e turn f = f (conn s t) := by
  unfold spdmStep; rw [if_neg (by rw [h]; decide), if_neg (by rw [h1]; decide), if_pos h2]

theorem spdmStep_outOfTurn {s : State} {t e : Nat} {turn : Spdm → Bool} {f : Spdm → State} (h : spdmUp s t = true) (h1 : s.nose.keysReady = true)
    (h2 : turn (conn s t) = false) : spdmStep s t e turn f = spdmError s t e 4 := by
  unfold spdmStep; rw [if_neg (by rw [h]; decide), if_neg (by rw [h1]; decide), if_neg (by rw [h2]; decide)]

theorem spdmStep_keysNotReady {s : State} {t e : Nat} {turn : Spdm → Bool} {f : Spdm → State} (h : spdmUp s t = true) (h1 : s.nose.keysReady = false) :
    spdmStep s t e turn f = spdmError s t e 0x42 := by
  unfold spdmStep; rw [if_neg (by rw [h]; decide), if_pos (by rw [h1]; decide)]

theorem spdmStep_down {s : State} {t e : Nat} {turn : Spdm → Bool} {f : Spdm → State} (h : spdmUp s t = false) : spdmStep s t e turn f = s := by
  unfold spdmStep; rw [if_pos (by rw [h]; rfl)]

theorem exec_spdmRow {t e : Nat} {turn : Spdm → Bool} {i : Instr} (h : spdmRow t e turn i) (s : State) :
    ∃ f, exec i s = .next (spdmStep s t e turn f) := by
  obtain ⟨slot, len, index, op, tag, k, h⟩ := h
  simp only [List.mem_cons, List.mem_nil_iff, or_false, Prod.mk.injEq] at h
  rcases h with h | h | h | h | h | h | h | h | h | h <;> obtain ⟨rfl, rfl⟩ := h <;> exact ⟨_, rfl⟩

theorem decIeee_encMag_not_nan (eb mb mag : Nat) (bias : Int) (neg : Bool) (h : mag ≤ (2 ^ eb - 1) * 2 ^ mb) (he : 1 ≤ eb) :
    decIeee eb mb bias (withSign (eb + mb) neg mag) ≠ .nan := by
  have hm : 0 < 2 ^ mb := Nat.two_pow_pos mb
  have hE : 0 < 2 ^ eb := Nat.two_pow_pos eb
  have hp : (2 : Nat) ^ (eb + mb) = 2 ^ eb * 2 ^ mb := Nat.pow_add _ _ _
  have q : mag / 2 ^ mb ≤ 2 ^ eb - 1 := Nat.div_le_of_le_mul (by rw [Nat.mul_comm]; exact h)
  have x1 : (withSign (eb + mb) neg mag) / 2 ^ mb % 2 ^ eb = mag / 2 ^ mb := by
    unfold withSign; cases neg
    · simp only [Bool.false_eq_true, if_false, Nat.add_zero]; exact Nat.mod_eq_of_lt (by omega)
    · simp only [if_true]; rw [hp, Nat.add_mul_div_right _ _ hm, Nat.add_mod_right]; exact Nat.mod_eq_of_lt (by omega)
  have x2 : (withSign (eb + mb) neg mag) % 2 ^ mb = mag % 2 ^ mb := by
    unfold withSign; cases neg
    · simp
    · simp only [if_true]; rw [hp, Nat.add_mul_mod_self_right]
  have x3 : nfld (withSign (eb + mb) neg mag) (eb + mb - 1) mb = mag / 2 ^ mb := by
    unfold nfld; rw [show eb + mb - 1 + 1 - mb = eb by omega, Nat.shiftRight_eq_div_pow, x1]
  unfold decIeee; simp only [x2, x3]
  by_cases e : mag / 2 ^ mb = 2 ^ eb - 1
  · have d := Nat.div_add_mod mag (2 ^ mb)
    rw [e] at d
    have z : mag % 2 ^ mb = 0 := by
      have : 2 ^ mb * (2 ^ eb - 1) = (2 ^ eb - 1) * 2 ^ mb := Nat.mul_comm _ _
      omega
    rw [if_pos e, if_pos z]; simp
  · rw [if_neg e]; split <;> simp

end Sys2Proof.Machine
end

