-- ==== Sys2Proof/Laws/Vial.lean ====
section
/-! SUPPORT. The vial's blocks: what an update of one leaves of the others, what retiring one can do, and which blocks of IMAGE no map
names. -/

namespace Sys2Proof.Machine

theorem mem_insertBy {α : Type} (key : α → Nat) (x d : α) (l : List α) : d ∈ insertBy key x l ↔ d = x ∨ d ∈ l := by
  induction l with
  | nil => simp [insertBy]
  | cons a l ih => unfold insertBy; split <;> simp [ih]; tauto

theorem mem_sortBy {α : Type} (key : α → Nat) (d : α) (l : List α) : d ∈ sortBy key l ↔ d ∈ l := by
  have : ∀ a : List α, d ∈ l.foldl (fun a x => insertBy key x a) a ↔ d ∈ l ∨ d ∈ a := by
    induction l with
    | nil => simp
    | cons x l ih => intro a; rw [List.foldl_cons, ih, mem_insertBy]; simp; tauto
  unfold sortBy; rw [this]; simp

theorem leastErased_mem {v : Vial} {c : Nat} (l : List Nat) (h : leastErased v l = some c) : c ∈ l := by
  have : ∀ (l : List Nat) (a : Option Nat), l.foldl (fun a b => match a with
      | none => some b
      | some c => if (vblock v b).erases < (vblock v c).erases then some b else a) a = some c → c ∈ l ∨ a = some c := by
    intro l
    induction l with
    | nil => intro a h; exact .inr h
    | cons x l ih =>
      intro a h
      rcases ih _ h with h | h
      · exact .inl (List.mem_cons_of_mem _ h)
      · cases a with
        | none => exact .inl (by simp_all)
        | some y =>
          dsimp only at h
          split at h
          · exact .inl (by simp_all)
          · exact .inr h
  rcases this l none h with h | h
  · exact h
  · cases h

theorem vblock_putBlock (v : Vial) (b : Nat) (x : VBlock) (j : Nat) : vblock (putBlock v b x) j = if j = b then x else vblock v j := sget_sput _ _ _ _ _

theorem sget_from {α : Type} (d : α) (m : SMap α) (k : Nat) : sget d m k = d ∨ ∃ e ∈ m, e.1 = k ∧ sget d m k = e.2 := by
  induction m with
  | nil => exact .inl rfl
  | cons a m ih =>
    obtain ⟨i, x⟩ := a
    unfold sget
    split
    · next h => exact .inr ⟨(i, x), by simp_all⟩
    · rcases ih with h | ⟨e, he, h⟩
      · exact .inl h
      · exact .inr ⟨e, List.mem_cons_of_mem _ he, h⟩

/-- A vial whose block b is retired before a replacement joins. -/
def goneBlock (v : Vial) (b : Nat) : Vial :=
  let w := putBlock v b { vblock v b with retired := true, stale := false }
  setMap w { w.map with retired := w.map.retired + 1 }

theorem retireBlock_joins (v : Vial) (b : Nat) : retireBlock v b = goneBlock v b ∨ ∃ c, (vblock (goneBlock v b) c).region = 6 ∧
    retireBlock v b = putBlock (goneBlock v b) c { vblock (goneBlock v b) c with region := (vblock v b).region, unit := noUnit } := by
  show joinSpare (goneBlock v b) (vblock v b).region = _ ∨ ∃ c, _ ∧ joinSpare (goneBlock v b) (vblock v b).region = _
  unfold joinSpare
  split
  · next c _ h =>
    have hm := leastErased_mem _ h
    refine .inr ⟨c, ?_, rfl⟩
    simp only [regionBlocks, List.mem_filter, Bool.and_eq_true, beq_iff_eq] at hm
    exact hm.1.2.1
  · exact .inl rfl

theorem vblock_retireBlock (v : Vial) (b j : Nat) (hj : j ≠ b) : vblock (retireBlock v b) j = vblock v j ∨
    (vblock v j).region = 6 ∧ (vblock (retireBlock v b) j).region = (vblock v b).region := by
  have hg : vblock (goneBlock v b) j = vblock v j := (vblock_putBlock v b _ j).trans (if_neg hj)
  rcases retireBlock_joins v b with h | ⟨c, h6, h⟩
  · rw [h]; exact .inl hg
  · rw [h, vblock_putBlock]
    by_cases e : j = c
    · subst e; rw [hg] at h6; rw [if_pos rfl]; exact .inr ⟨h6, rfl⟩
    · rw [if_neg e]; exact .inl hg

theorem mem_unnamed {v : Vial} {d : Nat} (h : d ∈ unnamedBlocks v) : (vblock v d).region = 1 ∧ (vblock v d).retired = false ∧ (vblock v d).live = false ∧
    (d ∈ factoryBlocks 1 ∨ factoryRegion d ≠ 1) := by
  simp only [unnamedBlocks, mem_sortBy, List.mem_filter, regionBlocks, List.mem_append, Bool.and_eq_true, beq_iff_eq, Bool.not_eq_true'] at h
  refine ⟨h.1.2.1, h.1.2.2, h.2, h.1.1.imp id ?_⟩
  intro h
  simp only [List.mem_map, List.mem_filter] at h
  obtain ⟨a, ⟨_, ha⟩, rfl⟩ := h
  simpa using ha

theorem vblock_goneBlock (v : Vial) (b : Nat) : (vblock (goneBlock v b) b).retired = true :=
  congrArg VBlock.retired ((vblock_putBlock v b _ b).trans (if_pos rfl))

/-- With every block of IMAGE holding data, a block of SPARE retired leaves none for a staging. -/

theorem unnamed_none {v : Vial} {b : Nat} (h6 : (vblock v b).region = 6) (hi : ∀ d ∈ factoryBlocks 1, (vblock v d).live = true)
    (hm : ∀ e ∈ v.map.blocks, e.2.live = true) : unnamedBlocks (retireBlock v b) = [] := by
  refine List.eq_nil_iff_forall_not_mem.mpr (fun d hd => ?_)
  obtain ⟨h1, hr, hl, hd⟩ := mem_unnamed hd
  by_cases e : d = b
  · subst e
    rcases retireBlock_joins v d with h | ⟨c, _, h⟩
    · rw [h, vblock_goneBlock] at hr; cases hr
    · rw [h, vblock_putBlock] at h1 hr
      by_cases e : d = c
      · rw [if_pos e] at h1; exact absurd (h6.symm.trans h1) (by decide)
      · rw [if_neg e, vblock_goneBlock] at hr; cases hr
  · rcases vblock_retireBlock v b d e with h | ⟨_, h⟩
    · rw [h] at h1 hl
      rcases hd with hd | hd
      · rw [hi d hd] at hl; cases hl
      · rcases sget_from (factoryBlock d) v.map.blocks d with g | ⟨x, hx, _, g⟩
        · exact hd ((congrArg VBlock.region g).symm.trans h1)
        · rw [show vblock v d = x.2 from g, hm x hx] at hl; cases hl
    · rw [h, h6] at h1; cases h1

end Sys2Proof.Machine
end

