-- ==== Sys2Proof/WellFormed.lean ====
section
/-! DEFINITION. Well-formed commands: every operand names a unit that exists in the module's numbering and every list has the
length its row gives it. -/

namespace Sys2Proof

/-- Core numbers (R91). -/
def coreNo (n : Nat) : Bool := decide (n < 4096)

/-- Queue numbers (R248). -/
def queueNo (n : Nat) : Bool := decide (n < 4096)

/-- Cluster numbers. -/
def clusterNo (n : Nat) : Bool := decide (n < 256)

/-- Stack sites (Table 0-3). -/
def siteNo (n : Nat) : Bool := decide (n < 16)

/-- Partitions (Table 1-3). -/
def partNo (n : Nat) : Bool := decide (n < 4)

/-- Port indexes (R14). -/
def portNo (n : Nat) : Bool := decide (n < 32)

/-- Reduction groups (R381). -/
def groupNo (n : Nat) : Bool := decide (n < 1024)

/-- Bucket IDs. -/
def bucketNo (n : Nat) : Bool := decide (n < 2 ^ 20)

/-- Ranks. -/
def rankNo (n : Nat) : Bool := decide (n < 64)

/-- Pseudo-channels of a stack. -/
def channelNo (n : Nat) : Bool := decide (n < 64)

/-- Banks of a pseudo-channel. -/
def bankNo (n : Nat) : Bool := decide (n < 64)

/-- Blocks of the vial. -/
def blockNo (n : Nat) : Bool := decide (n < 16384)

/-- Regions of Table 20-3. -/
def regionNo (n : Nat) : Bool := decide (n < 7)

/-- Apertures of the command window (R518). -/
def apertureNo (n : Nat) : Bool := decide (n < 16)

/-- COMP_PEND registers (Table 22-6). -/
def compWord (n : Nat) : Bool := decide (n < 128)

/-- MSI-X vectors (R519). -/
def vectorNo (n : Nat) : Bool := decide (n < 2048)

/-- Pages of BAR0 (Table 22-3). -/
def pageNo (n : Nat) : Bool := decide (n < 0x2000)

/-- BARs (Table 22-2). -/
def barNo (n : Nat) : Bool := decide (n = 0 ∨ n = 2 ∨ n = 4)

/-- Image conditions (R549). -/
def verdictNo (n : Nat) : Bool := decide (n ≤ 5)

/-- Lanes of a port. -/
def laneMask (n : Nat) : Bool := decide (n < 16)

/-- Module IDs (Table 1-9). -/
def moduleNo (n : Nat) : Bool := decide (n < 4096)

/-- MCTP bindings (R534). -/
def bindingNo (n : Nat) : Bool := decide (n < 2)

/-- SPDM transports (R554). -/
def transportNo (n : Nat) : Bool := decide (n < 3)

/-- Channel of a credit field (R353). -/
def creditNo (n : Nat) : Bool := decide (n ≤ 8)

/-- PCIe widths (Table 22-6). -/
def linkWidth (n : Nat) : Bool := decide (n = 1 ∨ n = 2 ∨ n = 4)

/-- PCIe speeds (Table 22-6). -/
def linkSpeed (n : Nat) : Bool := decide (1 ≤ n ∧ n ≤ 6)

/-- Return contexts (Table 14-10). -/
def contextNo (n : Nat) : Bool := decide (n < 256)

/-- I/O dies (Table 0-3). -/
def iodNo (n : Nat) : Bool := decide (n < 4)

/-- Compute dies. -/
def dieNo (n : Nat) : Bool := decide (n < 2)

/-- Flits (R350). -/
def flitLen (n : List Byte) : Bool := decide (n.length = 256)

/-- Temperatures of a stack's channels (R209). -/
def channelTemps (n : List Nat) : Bool := decide (n.length = 32)

/-- A command is well formed. -/
def Instr.wf : Instr → Bool
  | .nop core _ => coreNo core
  | .add core _ => coreNo core
  | .sub core _ => coreNo core
  | .mul core _ => coreNo core
  | .and core _ => coreNo core
  | .or core _ => coreNo core
  | .xor core _ => coreNo core
  | .shl core _ => coreNo core
  | .shr core _ => coreNo core
  | .sar core _ => coreNo core
  | .slt core _ => coreNo core
  | .sltu core _ => coreNo core
  | .lui core _ => coreNo core
  | .rdcnt core _ => coreNo core
  | .rdacc core _ => coreNo core
  | .rdcap core _ => coreNo core
  | .br core _ => coreNo core
  | .beqz core _ => coreNo core
  | .bnez core _ => coreNo core
  | .endProg core _ => coreNo core
  | .hset core _ => coreNo core
  | .hrel core _ => coreNo core
  | .wait core _ => coreNo core
  | .signal core _ => coreNo core
  | .cset core _ => coreNo core
  | .tset core _ => coreNo core
  | .launchAt core _ => coreNo core
  | .ufence core _ => coreNo core
  | .mmaD core _ => coreNo core
  | .mmaS core _ => coreNo core
  | .mmaA core _ => coreNo core
  | .moveL core _ => coreNo core
  | .moveS core _ => coreNo core
  | .moveR core _ => coreNo core
  | .moveX core _ => coreNo core
  | .vadd core _ => coreNo core
  | .vsub core _ => coreNo core
  | .vmul core _ => coreNo core
  | .vfma core _ => coreNo core
  | .vmin core _ => coreNo core
  | .vmax core _ => coreNo core
  | .vabs core _ => coreNo core
  | .vcmp core _ => coreNo core
  | .vsel core _ => coreNo core
  | .vcvt core _ => coreNo core
  | .vdiv core _ => coreNo core
  | .vsqrt core _ => coreNo core
  | .vrcp core _ => coreNo core
  | .vrsq core _ => coreNo core
  | .vexp2 core _ => coreNo core
  | .vlog2 core _ => coreNo core
  | .vrsum core _ => coreNo core
  | .vbcast core _ => coreNo core
  | .vld core _ => coreNo core
  | .vst core _ => coreNo core
  | .vlda core _ => coreNo core
  | .vsta core _ => coreNo core
  | .vmovg core _ => coreNo core
  | .mmaDTileWrite core _ _ => coreNo core
  | .mmaAPart core => coreNo core
  | .mergeTileWrite core _ => coreNo core
  | .vectorResult core _ => coreNo core
  | .moveComplete core _ _ _ => coreNo core
  | .programLoadDone core _ => coreNo core
  | .tileProgramEnd core => coreNo core
  | .counterWaitMet core => coreNo core
  | .launchStampReached core => coreNo core
  | .waitLimitExpire core => coreNo core
  | .counterIncrement core _ _ => coreNo core
  | .remoteWriteLand core _ _ => coreNo core
  | .coreCmdStop core => coreNo core
  | .coreCmdReset core => coreNo core
  | .holdExpire core => coreNo core
  | .launchWakeLead core => coreNo core
  | .wakeWindow => true
  | .wakeComplete core _ => coreNo core
  | .accPllLock => true
  | .accModeSwitch => true
  | .accCopyCompare _ _ => true
  | .accLoRead size off => decide ((size = 1 ∨ size = 2 ∨ size = 4) ∧ off + size ≤ 4)
  | .doorbellWrite queue _ _ => queueNo queue
  | .tileRun queue _ => queueNo queue
  | .update queue core count => queueNo queue && coreNo core && decide (0 < count)
  | .combine queue core count => queueNo queue && coreNo core && decide (0 < count)
  | .test queue => queueNo queue
  | .testComplete core failing => coreNo core && decide (failing.getD 0 ≤ 5)
  | .dispatch queue => queueNo queue
  | .fenceRecord queue => queueNo queue
  | .waitCount queue => queueNo queue
  | .launchAtRecord queue => queueNo queue
  | .signalAdd queue => queueNo queue
  | .seqWrite queue => queueNo queue
  | .seTranspose queue => queueNo queue
  | .signPack queue _ => queueNo queue
  | .topkPack queue _ => queueNo queue
  | .reduce queue => queueNo queue
  | .ckptPush queue => queueNo queue
  | .ckptPull queue => queueNo queue
  | .ctrSet queue => queueNo queue
  | .linkEngineMove queue => queueNo queue
  | .seCommandComplete site unit _ _ => siteNo site && decide (unit = 1 ∨ unit = 2 ∨ unit = 4)
  | .recordComplete queue => queueNo queue
  | .recordFailed queue => queueNo queue
  | .schedAging queue => queueNo queue
  | .qBindEnable queue _ => queueNo queue
  | .qBindDisable queue _ => queueNo queue
  | .qBindSkip queue _ => queueNo queue
  | .queueConfigWrite queue _ _ => queueNo queue
  | .reduceSlotAvailable site => siteNo site
  | .contribLanded site group bucket rank => siteNo site && groupNo group && bucketNo bucket && rankNo rank
  | .reducePass site group bucket _ _ => siteNo site && groupNo group && bucketNo bucket
  | .sillageResume site group bucket => siteNo site && groupNo group && bucketNo bucket
  | .reducePassDone site group bucket => siteNo site && groupNo group && bucketNo bucket
  | .scrubCodeword site _ => siteNo site
  | .ctrDataWrite site _ => siteNo site
  | .hbmRead _ _ _ _ => true
  | .hbmWrite _ _ _ _ _ => true
  | .hbmReduceStore _ _ _ _ _ => true
  | .hbmRefresh site pc bank _ _ => siteNo site && channelNo pc && bankNo bank
  | .hbmTempSample site temps => siteNo site && channelTemps temps
  | .imbWindowEnd site => siteNo site
  | .bankPowerDown site pc bank => siteNo site && channelNo pc && bankNo bank
  | .selfRefreshEntry site => siteNo site
  | .dispatchMessage die _ => iodNo die
  | .endMarkMessage die _ => iodNo die
  | .roundOpenAfterDrain queue => queueNo queue
  | .returnMessage die _ => iodNo die
  | .dropMessage die _ => iodNo die
  | .atomCancel die ctx => iodNo die && contextNo ctx
  | .portTrainStart port _ => portNo port
  | .portTrainDone port lanes peerId peerPort => portNo port && laneMask lanes && moduleNo peerId && portNo peerPort
  | .laneLockLoss port => portNo port
  | .laneErrorWindow port _ => portNo port
  | .portCmdRetrain port => portNo port
  | .portCmdSaveEq port => portNo port
  | .flitSend port ca cb => portNo port && creditNo ca && creditNo cb
  | .dataFlitReceive port bytes _ _ _ => portNo port && flitLen bytes
  | .controlFlitReceive port bytes _ _ _ => portNo port && flitLen bytes
  | .nakReceive port bytes _ _ _ => portNo port && flitLen bytes
  | .replayTimeout port => portNo port
  | .writeMessage die _ _ => iodNo die
  | .readReqMessage die _ => iodNo die
  | .readDataMessage die _ => iodNo die
  | .contribMessage die _ => iodNo die
  | .diagMessage die _ => iodNo die
  | .ackMessage die _ _ => iodNo die
  | .refuseMessage die _ => iodNo die
  | .busyMessage die _ => iodNo die
  | .streamAckMessage die _ => iodNo die
  | .streamNakMessage die _ => iodNo die
  | .streamAckTimer die _ => iodNo die
  | .streamResendTimeout die _ => iodNo die
  | .transferResend die _ => iodNo die
  | .sourceStreamClose die _ => iodNo die
  | .landingContextFree die _ => iodNo die
  | .trackerEntryAvailable die => iodNo die
  | .rtDataAccess die _ => iodNo die
  | .grpSettle group => groupNo group
  | .grpReshard group => groupNo group
  | .reshardDrainDone group => groupNo group
  | .grpAbort group => groupNo group
  | .lateRankDeadline site group bucket => siteNo site && groupNo group && bucketNo bucket
  | .grpCfgWrite group _ => groupNo group
  | .layoutDataWrite group _ => groupNo group
  | .dupCompare cluster _ => clusterNo cluster
  | .checkerRotate cluster => clusterNo cluster
  | .dupCfgWrite cluster _ => clusterNo cluster
  | .partResetComplete part_ => partNo part_
  | .railMonitorSample _ => true
  | .noseLockstepMismatch => true
  | .noseWatchdogExpire => true
  | .noseRestartDone verdict _ => verdictNo verdict
  | .noseSensorPoll _ _ => true
  | .vialMount _ _ _ _ _ verdict => verdictNo verdict
  | .vialPatrol block _ _ _ _ _ _ => blockNo block
  | .vialWearLevel region => regionNo region
  | .blotterLogProgram _ => true
  | .powerUp width speed _ => linkWidth width && linkSpeed speed
  | .bootReady _ _ _ _ _ => true
  | .inputSag _ _ => true
  | .inputOvervoltage _ _ => true
  | .inputOvercurrent _ _ => true
  | .inputOutOfRange _ => true
  | .drydownCommit _ => true
  | .inputRestore _ width speed _ => linkWidth width && linkSpeed speed
  | .bankCutoff => true
  | .bankCharged _ _ => true
  | .bankLow _ => true
  | .powerWindow _ _ _ _ => true
  | .dieThermalSample unit _ => decide (unit < 2 ∨ (10 ≤ unit ∧ unit < 14))
  | .opCfgWrite _ => true
  | .opChangeDone die => dieNo die
  | .refClockLoss => true
  | .refClockReturn => true
  | .wxlRefclkLoss die => iodNo die
  | .pcieRefclkLoss => true
  | .perstAssert => true
  | .perstRelease width speed _ => linkWidth width && linkSpeed speed
  | .pcieReset => true
  | .msixEnable _ _ => true
  | .msixUnmask vector => vectorNo vector
  | .partInit part_ => partNo part_
  | .partInitDone part_ => partNo part_
  | .partActivate part_ => partNo part_
  | .partActivateResume part_ => partNo part_
  | .partQuiesce part_ => partNo part_
  | .partQuiesceDone part_ => partNo part_
  | .partOff part_ => partNo part_
  | .partModeWrite _ => true
  | .portOwnerWrite die _ => iodNo die
  | .partModuleIdWrite part_ _ => partNo part_
  | .hbmPlacementWrite part_ which _ => partNo part_ && decide (which < 3)
  | .expTableWrite part_ _ => partNo part_
  | .sillageWrite part_ which _ => partNo part_ && decide (which < 3)
  | .registerWrite _ bar _ _ _ => barNo bar
  | .hostReadBad bar _ _ => barNo bar
  | .evtPendClear page _ => pageNo page
  | .evtForce page _ => pageNo page
  | .evtEnWrite page _ => pageNo page
  | .errClear page => pageNo page
  | .pageLockWrite page _ => pageNo page
  | .mergeCtrlClear cluster => clusterNo cluster
  | .compPendClear word _ => compWord word
  | .cwApWrite aperture _ => apertureNo aperture
  | .cmdWindowWrite _ _ => true
  | .cmdWindowRead _ _ => true
  | .hostResetPartition part_ => partNo part_
  | .hostResetModule => true
  | .mailboxComplete => true
  | .getInfo => true
  | .setTime => true
  | .readEvents => true
  | .readBlotters _ => true
  | .stageWrite => true
  | .stageRead => true
  | .storeRead _ => true
  | .storeWrite _ => true
  | .calibrate => true
  | .retrainHbm => true
  | .recalPorts => true
  | .selftest _ _ _ _ => true
  | .fwBegin => true
  | .fwData _ => true
  | .fwCommit verdict _ => verdictNo verdict
  | .fwAbort => true
  | .fwActivate => true
  | .setMinVersion => true
  | .readSensors => true
  | .recoveryLoad verdict => verdictNo verdict
  | .mctpControl binding _ _ _ _ => bindingNo binding
  | .pldmDiscovery binding _ _ _ _ _ => bindingNo binding
  | .pldmSensorRead binding _ _ _ => bindingNo binding
  | .pldmSetEventReceiver binding _ _ _ _ => bindingNo binding
  | .pldmRequestUpdate binding _ _ _ => bindingNo binding
  | .doeDiscovery _ => true
  | .spdmGetVersion transport _ => transportNo transport
  | .spdmGetCapabilities transport _ version => transportNo transport && decide (0x10 ≤ version ∧ version ≤ 0x13)
  | .spdmNegotiateAlgorithms transport _ => transportNo transport
  | .spdmGetDigests transport _ => transportNo transport
  | .spdmGetCertificate transport _ _ _ => transportNo transport
  | .spdmChallenge transport _ _ => transportNo transport
  | .spdmGetMeasurements transport _ _ _ => transportNo transport
  | .spdmKeyExchange transport _ => transportNo transport
  | .spdmFinish transport _ _ => transportNo transport
  | .spdmHeartbeat transport _ => transportNo transport
  | .spdmKeyUpdate transport _ op _ => transportNo transport && decide (1 ≤ op ∧ op ≤ 3)
  | .spdmEndSession transport _ => transportNo transport
  | .bankPoweredDown site pc bank => siteNo site && channelNo pc && bankNo bank
  | .selfRefreshExitComplete site => siteNo site
  | .wxlRefclkReturn die => iodNo die
  | .pcieRefclkReturn width speed _ => linkWidth width && linkSpeed speed
  | .garbageCollection block _ => blockNo block
  | .aliasKeysReady => true
  | .i3cDynamicAddress addr => decide (addr < 128)
  | .unlistedMailboxOpcode => true
  | .reservedOpcodeIssue core => coreNo core
  | .reservedOpclassRecord queue => queueNo queue
  | .dStateChange _ => true
  | .pldmActivateFirmware binding _ _ _ verdict => bindingNo binding && verdictNo verdict

end Sys2Proof
end

