-- ==== Sys2Proof/Safety.lean ====
section
/-! DEFINITION. What counts as a safe run: the commands that wait are well formed, and the state keeps the forms that every later
claim rests on. -/

namespace Sys2Proof.Machine

/-- Every waiting command is well formed. -/
def queueWf (s : State) : Bool := s.pending.all Instr.wf

/-- Memory is in canonical form: addresses rising, no listed byte equal to what an unlisted address reads as. -/
def memoryWf (s : State) : Prop := s.mem.wf = true

end Sys2Proof.Machine
end

