-- ==== Sys2Proof/Tests/Slice0.lean ====
section
/-! SUPPORT. Tests: ill-formed commands refused by their check, and for every statement with hypotheses a concrete state
that meets them, clause by clause. -/

set_option Elab.async false
set_option maxRecDepth 4000

namespace Sys2Proof.Machine.Tests

open Sys2Proof Sys2Proof.Machine

/-! ### Ill-formed commands -/

theorem test_core_number : (Instr.nop 4096 .clean).wf = false := by decide
theorem test_queue_number : (Instr.tileRun 4096 .clean).wf = false := by decide
theorem test_cluster_number : (Instr.checkerRotate 256).wf = false := by decide
theorem test_site_number : (Instr.selfRefreshEntry 16).wf = false := by decide
theorem test_partition_number : (Instr.partInit 4).wf = false := by decide
theorem test_port_number : (Instr.replayTimeout 32).wf = false := by decide
theorem test_group_number : (Instr.grpSettle 1024).wf = false := by decide
theorem test_bucket_number : (Instr.sillageResume 0 0 (2 ^ 20)).wf = false := by decide
theorem test_rank_number : (Instr.contribLanded 0 0 0 64).wf = false := by decide
theorem test_channel_number : (Instr.bankPowerDown 0 64 0).wf = false := by decide
theorem test_bank_number : (Instr.bankPowerDown 0 0 64).wf = false := by decide
theorem test_block_number : (Instr.garbageCollection 16384 false).wf = false := by decide
theorem test_region_number : (Instr.vialWearLevel 7).wf = false := by decide
theorem test_aperture_number : (Instr.cwApWrite 16 0).wf = false := by decide
theorem test_comp_word : (Instr.compPendClear 128 0).wf = false := by decide
theorem test_vector_number : (Instr.msixUnmask 2048).wf = false := by decide
theorem test_page_number : (Instr.errClear 0x2000).wf = false := by decide
theorem test_bar_number : (Instr.registerWrite false 1 0 4 0).wf = false := by decide
theorem test_verdict : (Instr.fwCommit 6 ⟨0, 0, []⟩).wf = false := by decide
theorem test_lane_mask : (Instr.portTrainDone 0 16 0 0).wf = false := by decide
theorem test_module_number : (Instr.portTrainDone 0 15 4096 0).wf = false := by decide
theorem test_binding : (Instr.pldmSensorRead 2 0 0 0).wf = false := by decide
theorem test_transport : (Instr.spdmGetVersion 3 0).wf = false := by decide
theorem test_credit_channel : (Instr.flitSend 0 9 0).wf = false := by decide
theorem test_link_width : (Instr.powerUp 3 1 true).wf = false := by decide
theorem test_link_speed : (Instr.powerUp 4 7 true).wf = false := by decide
theorem test_context : (Instr.atomCancel 0 256).wf = false := by decide
theorem test_io_die : (Instr.trackerEntryAvailable 4).wf = false := by decide
theorem test_die : (Instr.opChangeDone 2).wf = false := by decide
theorem test_flit_length : (Instr.nakReceive 0 [] 0 0 false).wf = false := by decide
theorem test_channel_temps : (Instr.hbmTempSample 0 []).wf = false := by decide
theorem test_read_span : (Instr.accLoRead 4 1).wf = false := by decide
theorem test_no_cores : (Instr.update 0 0 0).wf = false := by decide
theorem test_failing_part : (Instr.testComplete 0 (some 6)).wf = false := by decide
theorem test_engine_unit : (Instr.seCommandComplete 0 3 .clean []).wf = false := by decide
theorem test_placement_register : (Instr.hbmPlacementWrite 0 3 0).wf = false := by decide
theorem test_sillage_register : (Instr.sillageWrite 0 3 0).wf = false := by decide
theorem test_thermal_unit : (Instr.dieThermalSample 2 0).wf = false := by decide
theorem test_capability_version : (Instr.spdmGetCapabilities 0 0 0x14).wf = false := by decide
theorem test_key_operation : (Instr.spdmKeyUpdate 0 0 0 0).wf = false := by decide
theorem test_dynamic_address : (Instr.i3cDynamicAddress 128).wf = false := by decide
/-- No row of the table gives bits, so no word spells a command. -/
theorem test_no_word : decodeTableWord 16 0x1234 = none := by decide

/-! ### Witnesses -/

/-- Partition P-A ACTIVE, the module ready, the endpoint up. -/
def live : State :=
  { State.reset with
    glob := { Glob.reset with ready := true, stage := 5 }
    pcie := { Pcie.reset with up := true, linkUp := true, dState := 0 }
    parts := [(0, { Part.reset with state := .active })] }
/-- Partition P-A ACTIVE as module 1, landing on L0. -/
def linked : State := { live with glob := { live.glob with portOwner := [(0, 0)] }, parts := [(0, { Part.reset with state := .active, moduleId := 1, landing := 1 })] }

/-- Core 5 about to issue the only word of its program, its other state set by f. -/
def oneWordWith (o rest : Nat) (f : Core → Core) : State :=
  setCore State.reset 5 (f { Core.reset with state := .running, prog := [BitVec.ofNat 64 (o * 2 ^ 56 + rest)], progLen := 1 })

/-- Core 5 about to issue the only word of its program. -/
def oneWord (o rest : Nat) : State := oneWordWith o rest id

theorem wit_scalars : ([1, 2, 3, 4, 5, 6, 7, 8, 9, 10, 11, 12, 0, 13, 14, 15, 0x13].all (fun o => ready (oneWord o 0) 5 o)) = true := by decide
theorem wit_branches : ∀ o ∈ [0x10, 0x11, 0x12], ∀ k ∈ [0, 7], ready (oneWord o k) 5 o = true := by decide

theorem wit_hset : ready (oneWord 0x20 0) 5 0x20 = true ∧ hsetBad (core (oneWord 0x20 0) 5) 0 0 = false := by decide
theorem wit_hset_bad : ready (oneWordWith 0x20 (2 ^ 37) (fun c => { c with g := [(1, BitVec.ofNat 64 (2 ^ 63))] })) 5 0x20 = true ∧
    hsetBad (core (oneWord 0x20 0) 5) 0 (BitVec.ofNat 64 (2 ^ 63)) = true := by decide
/-- HREL of one slot of handle 0, whose entry is e. -/
def hrelState (e : Nat) : State := oneWordWith 0x21 (2 ^ 36) (fun c => { c with handles := [(0, BitVec.ofNat 64 e)] })
theorem wit_hrel : ready (hrelState (2 ^ 63)) 5 0x21 = true ∧ hrelWaits (core (hrelState (2 ^ 63)) 5) (wordAt (core (hrelState (2 ^ 63)) 5)) = false ∧
    hValid (getH (core (hrelState (2 ^ 63)) 5) 0) = true ∧ hChecked (getH (core (hrelState (2 ^ 63)) 5) 0) = false := by decide
theorem wit_hrel_invalid : ready (hrelState 0) 5 0x21 = true ∧ hrelWaits (core (hrelState 0) 5) (wordAt (core (hrelState 0) 5)) = false ∧
    hValid (getH (core (hrelState 0) 5) 0) = false := by decide
theorem wit_hrel_not_full : ready (hrelState (3 * 2 ^ 62)) 5 0x21 = true ∧
    hrelWaits (core (hrelState (3 * 2 ^ 62)) 5) (wordAt (core (hrelState (3 * 2 ^ 62)) 5)) = false ∧
    hValid (getH (core (hrelState (3 * 2 ^ 62)) 5) 0) = true ∧ hChecked (getH (core (hrelState (3 * 2 ^ 62)) 5) 0) = true ∧
    (relSlots (hSlots (getH (core (hrelState (3 * 2 ^ 62)) 5) 0)) 1 (getSlots (core (hrelState (3 * 2 ^ 62)) 5) 0) false).2 = true := by decide
theorem wit_sync : ready (oneWord 0x28 (2 ^ 55)) 5 0x28 = true ∧ ready (oneWord 0x29 1) 5 0x29 = true ∧
    destErr (oneWord 0x29 1) 5 0 = none ∧ ready (oneWord 0x2A 0) 5 0x2A = true ∧ ready (oneWord 0x2B 0) 5 0x2B = true ∧
    ready (oneWord 0x2D (2 ^ 43)) 5 0x2D = true ∧ ufenceWaits (core (oneWord 0x2D (2 ^ 43)) 5) (wordAt (core (oneWord 0x2D (2 ^ 43)) 5)) = false := by decide
theorem wit_signal_refused : ready { oneWord 0x29 1 with glob := { Glob.reset with disabled := [0] } } 5 0x29 = true ∧
    destErr { oneWord 0x29 1 with glob := { Glob.reset with disabled := [0] } } 5 0 = some 0x0101 := by decide
theorem wit_ufence_waits : ready (oneWordWith 0x2D (2 ^ 43) (fun c => { c with flights := [mkFlight .mover 0 0 0 [] []] })) 5 0x2D = true ∧
    ufenceWaits (core (oneWordWith 0x2D (2 ^ 43) (fun c => { c with flights := [mkFlight .mover 0 0 0 [] []] })) 5)
      (BitVec.ofNat 64 (0x2D * 2 ^ 56 + 2 ^ 43)) = true := by decide
theorem wit_launch : ready (oneWord 0x2C 0) 5 0x2C = true ∧ stampOf (core (oneWord 0x2C 0) 5) (wordAt (core (oneWord 0x2C 0) 5)) ≤ localCopy (oneWord 0x2C 0) 0 := by decide
/-- Core 5 before LAUNCH_AT G1 with G1 = 9, its state set by f. -/
def beforeStamp (f : Core → Core) : State := oneWordWith 0x2C (2 ^ 38) (fun c => f { c with g := [(1, 9)] })
theorem wit_launch_held : ready (beforeStamp id) 5 0x2C = true ∧ localCopy (beforeStamp id) 0 < stampOf (core (beforeStamp id) 5) (wordAt (core (beforeStamp id) 5)) := by decide
/-- The hold of a LAUNCH_AT, or of a counter wait. -/
def heldBy (l : Bool) (c : Core) : Core := { c with state := .waiting, hold := some { launch := l, since := 0, limited := false } }
theorem wit_launch_reached : (core (oneWordWith 0x2C 0 (heldBy true)) 5).state = .waiting ∧ (core (oneWordWith 0x2C 0 (heldBy true)) 5).startAt = none ∧
    opc (wordAt (core (oneWordWith 0x2C 0 (heldBy true)) 5)) = 0x2C ∧ illegal (wordAt (core (oneWordWith 0x2C 0 (heldBy true)) 5)) = false ∧
    stampOf (core (oneWordWith 0x2C 0 (heldBy true)) 5) (wordAt (core (oneWordWith 0x2C 0 (heldBy true)) 5)) ≤ localCopy (oneWordWith 0x2C 0 (heldBy true)) 0 := by decide
theorem wit_launch_record : (core (oneWordWith 0 0 (fun c => { heldBy true c with startAt := some 0 })) 5).hold.isSome = true ∧
    (core (oneWordWith 0 0 (fun c => { heldBy true c with startAt := some 0 })) 5).startAt = some 0 := by decide
theorem wit_wait_holds : canIssue (oneWordWith 0x28 (2 ^ 55) (fun c => { c with tgt := [(0, 1)] })) 5 = true ∧
    waitMet (core (oneWordWith 0x28 (2 ^ 55) (fun c => { c with tgt := [(0, 1)] })) 5) 0 = false := by decide
theorem wit_wait_met : (core (oneWordWith 0x28 (2 ^ 55) (heldBy false)) 5).state = .waiting ∧
    hazards (core (oneWordWith 0x28 (2 ^ 55) (heldBy false)) 5) (wordAt (core (oneWordWith 0x28 (2 ^ 55) (heldBy false)) 5)) [] [] = false ∧
    illegal (wordAt (core (oneWordWith 0x28 (2 ^ 55) (heldBy false)) 5)) = false ∧ waitMet (core (oneWordWith 0x28 (2 ^ 55) (heldBy false)) 5) 0 = true := by decide
theorem wit_reserved : canIssue (oneWord 0x30 0) 5 = true ∧ opListed (opc (wordAt (core (oneWord 0x30 0) 5))) = false ∧ waitEn (wordAt (core (oneWord 0x30 0) 5)) = false := by decide
theorem wit_held_move : canIssue (oneWordWith 0x4A (2 ^ 55) (fun c => { c with tgt := [(0, 1)] })) 5 = true ∧
    opc (wordAt (core (oneWordWith 0x4A (2 ^ 55) (fun c => { c with tgt := [(0, 1)] })) 5)) = 0x4A := by decide
theorem wit_held_issues : (core (oneWordWith 0x01 (2 ^ 55) (heldBy false)) 5).state = .waiting ∧
    ready (unheld (oneWordWith 0x01 (2 ^ 55) (heldBy false)) 5) 5 0x01 = true ∧ waitMet (core (oneWordWith 0x01 (2 ^ 55) (heldBy false)) 5) 0 = true := by decide
theorem wit_held_move_issues : (core (oneWordWith 0x4A (2 ^ 55) (heldBy false)) 5).hold = some { launch := false, since := 0, limited := false } := by decide
theorem wit_attempts : (coreRows 5 .clean).all (fun r => attempts (oneWord r.1 0) 5 r.1) = true := by decide
theorem wit_reads_acc : readsAcc (oneWord 0x74 0) (coreRow (oneWord 0x74 0) 5 0x74) 5 = true ∧
    readsAcc (oneWord 0x01 0) (coreRow (oneWord 0x01 0) 5 0x01) 5 = false := by decide

/-- A valid handle entry of 1,024 lines over 16 banks from row 0. -/
def bigHandle : W64 := BitVec.ofNat 64 (2 ^ 63 + 1024 * 2 ^ 27 + 4 * 2 ^ 24)
/-- Core 5 before a word whose handle 0 is valid. -/
def withHandle (o rest : Nat) : State := oneWordWith o rest (fun c => { c with handles := [(0, bigHandle)] })
theorem wit_vector_issue : ∀ r ∈ coreRows 5 .clean, unitOf r.1 = some .vec → unitReady (withHandle r.1 0) 5 r.1 .vec = true := by decide
theorem wit_merge_issue : unitReady (withHandle 0x41 (2 ^ 11)) 5 0x41 .merge = true ∧ unitReady (withHandle 0x42 (2 ^ 11)) 5 0x42 .merge = true := by decide
theorem wit_array_issue : unitReady (withHandle 0x40 (2 ^ 11)) 5 0x40 .array = true := by decide
/-- Core 5 with one started instruction o of unit u in flight. -/
def oneFlight (u : CUnit) (o rest : Nat) : Flight := { mkFlight u (BitVec.ofNat 64 (o * 2 ^ 56 + rest)) 0 0 [] [] with started := true }
/-- Core 5 with one instruction in flight. -/
def flying (f : Flight) : State := setCore State.reset 5 { Core.reset with state := .running, flights := [f] }
theorem wit_vector_result : ∀ o ∈ [0x60, 0x61, 0x62, 0x63, 0x64, 0x65, 0x66, 0x67, 0x68, 0x69, 0x6A, 0x6B, 0x6C, 0x6D, 0x6E, 0x6F, 0x70, 0x71, 0x72, 0x73, 0x74, 0x75, 0x76],
    (unitFlights (core (flying (oneFlight .vec o 0)) 5) .vec).head? = some (oneFlight .vec o 0) ∧ opc (oneFlight .vec o 0).word = o ∧
    checkPasses (flying (oneFlight .vec o 0)) .pass = true := by decide
theorem wit_array_write : headArray (flying (oneFlight .array 0x40 0)) 5 = some (oneFlight .array 0x40 0) ∧ mayFinish (oneFlight .array 0x40 0) = true := by decide
/-- An MMA.A of two steps of 16 on its path p at part k. -/
def mmaAFlight (p : Option Bool) (k : Nat) : Flight := { oneFlight .merge 0x42 (2 * 2 ^ 11) with path := p, part := k }
theorem wit_mma_a : headMerge (flying (mmaAFlight (some true) 1)) 5 = some (mmaAFlight (some true) 1) ∧ mmaK16 (mmaAFlight (some true) 1).word ≤ 1 + 1 ∧
    (mmaAFlight (some true) 0).part + 1 < mmaK16 (mmaAFlight (some true) 0).word ∧
    (mergeOps (flying (mmaAFlight (some false) 1)) 5 (mmaAFlight (some false) 1) 1 1).bad = none ∧
    (mergeOps (flying (mmaAFlight none 0)) 5 (mmaAFlight none 0) 0 1).bad = none ∧ mayFinish (mmaAFlight none 0) = true := by decide
theorem wit_mma_s : headMerge (flying (oneFlight .merge 0x41 (2 ^ 11))) 5 = some (oneFlight .merge 0x41 (2 ^ 11)) ∧
    (mergeOps (flying (oneFlight .merge 0x41 (2 ^ 11))) 5 (oneFlight .merge 0x41 (2 ^ 11)) 0 1).bad = none ∧ bit (oneFlight .merge 0x41 0).reg 58 = false := by decide
/-- An MMA.S over a CTILE operand whose slots are empty memory. -/
def badCtile : Flight := { oneFlight .merge 0x41 (2 ^ 11) with reg := BitVec.ofNat 64 (2 ^ 56 + 9 * 2 ^ 48) }
theorem wit_ctile_bad : (mergeOps (flying badCtile) 5 badCtile 0 1).bad.isSome = true := by decide
theorem wit_array_free : arrayBusy (core (flying (mmaAFlight (some true) 1)) 5) = false ∧ (mergeOps (flying (mmaAFlight (some true) 1)) 5 (mmaAFlight (some true) 1) 1 1).bad = none := by decide
/-- An MMA.A over such an operand, on path p. -/
def badPart (p : Option Bool) : Flight := { mmaAFlight p 0 with reg := BitVec.ofNat 64 (2 ^ 56 + 9 * 2 ^ 48) }
theorem wit_part_bad : ∀ p ∈ [none, some true, some false], (mergeOps (flying (badPart p)) 5 (badPart p) 0 1).bad.isSome = true := by decide
theorem wit_checks : bit ({ flying (oneFlight .vec 0x60 0) with glob := { Glob.reset with integCfg := 1 } } : State).glob.integCfg 0 = true ∧
    vecChecked (oneFlight .vec 0x60 0).word = true ∧ vecChecked (oneFlight .vec 0x67 0).word = false := by decide

/-- A strided descriptor of one FP32 element at a module address. -/
def oneElem (base : Nat) : List Byte :=
  toBytes 8 base ++ toBytes 8 0 ++ toBytes 4 1 ++ toBytes 4 0 ++ toBytes 4 0 ++ toBytes 4 0 ++ toBytes 4 1 ++ toBytes 20 0
    ++ toBytes 4 1 ++ toBytes 20 0 ++ toBytes 6 1 ++ toBytes 30 0 ++ toBytes 12 0
/-- Core 5 before mover opcode o from a to b, its descriptors in lines 0 to 3 of handle 0 and G1 naming them. -/
def moving (o a b : Nat) : State :=
  let s := oneWordWith o (2 ^ 37) (fun c => { c with handles := [(0, bigHandle)], g := [(1, BitVec.ofNat 64 (2 ^ 17))] })
  { s with mem := writeBytes s.mem (coreAddr 5 0) (oneElem a ++ oneElem b) }
theorem wit_move_l : moverReady (moving 0x48 0 (coreAddr 5 0x2000)) 5 0x48 = true := by decide
theorem wit_move_s : moverReady (moving 0x49 (coreAddr 5 0x2000) 0) 5 0x49 = true := by decide
theorem wit_move_r : moverReady (moving 0x4A (coreAddr 5 0x2000) (coreAddr 6 0x2000)) 5 0x4A = true := by decide
theorem wit_move_x : moverReady (moving 0x4B (coreAddr 5 0x2000) 0) 5 0x4B = true := by decide
/-- A mover flight of opcode o from the scratchpad to b. -/
def moveFlight (o b : Nat) (sent : Bool) : Flight :=
  { oneFlight .mover o 0 with src := oneElem (coreAddr 5 0x2000), dst := oneElem b, sent := sent, id := 1 }
theorem wit_move_complete : (unitFlights (core (flying (moveFlight 0x49 0 false)) 5) .mover)[0]? = some (moveFlight 0x49 0 false) ∧
    toRemote (flying (moveFlight 0x49 0 false)) 5 (moveView (moveFlight 0x49 0 false)) = false ∧
    toRemote (flying (moveFlight 0x4B 0 false)) 5 (moveView (moveFlight 0x4B 0 false)) = false ∧
    toRemote (flying (moveFlight 0x4A (coreAddr 6 0) true)) 5 (moveView (moveFlight 0x4A (coreAddr 6 0) true)) = false ∧
    (flying (moveFlight 0x4A (coreAddr 6 0) true)).net.any (fun m => m.src == 5 && m.flight == 1) = false := by decide
/-- A flit from core 6 to core 5. -/
def oneFlit (cs : List Host.Cell) (inc : Option (Nat × Nat)) : NetMsg := { src := 6, flight := 1, dst := 5, cells := cs, red := none, inc := inc, fence := [], injected := true }
/-- That flit in flight. -/
def inFlight (m : NetMsg) : State := { State.reset with net := [m] }
theorem wit_move_landing : (inFlight { oneFlit [] none with src := 5 }).net.any (fun m => m.src == 5 && m.flight == 1) = true := by decide
theorem wit_flits : netPick (inFlight (oneFlit [] (some (0, 1)))) 5 0 (fun m => m.cells.isEmpty) = some 0 ∧
    netPick (inFlight (oneFlit [(coreAddr 5 0, 1)] none)) 5 0 (fun m => !m.cells.isEmpty) = some 0 ∧
    mayArrive (inFlight (oneFlit [] (some (0, 1)))) 0 = true ∧ mayArrive (inFlight (oneFlit [(coreAddr 5 0, 1)] none)) 0 = true ∧
    (core (inFlight (oneFlit [] none)) 5).state ≠ .testing := by decide
theorem wit_increment : (checkedHandles (core State.reset 5)).filter (fun e => hCtr e.2 == 3) = [] ∧ (core State.reset 5).hold = none := by decide
theorem wit_refusal : (core State.reset 5).flights = [] ∧ (core State.reset 5).checker = false ∧ (core State.reset 5).stopping = none ∧
    (core State.reset 5).run = none ∧ (core State.reset 5).loading = false := by decide
theorem wit_flit_testing : (core (setCore (inFlight (oneFlit [] none)) 5 { Core.reset with state := .testing }) 5).state = .testing := by decide
theorem wit_increment_handle : (checkedHandles { Core.reset with handles := [(3, BitVec.ofNat 64 (3 * 2 ^ 62 + 5))] }).length = 1 := by decide

theorem wit_program_load : (core (setCore live 5 { Core.reset with loading := true, state := .running }) 5).loading = true := by decide
theorem wit_program_end : (core (setCore live 5 { Core.reset with ended := true, run := some { queue := 5, index := 0, cls := 1 } }) 5).ended = true ∧
    (core (setCore live 5 { Core.reset with ended := true, run := some { queue := 5, index := 0, cls := 1 } }) 5).flights = [] ∧
    (core (setCore live 5 { Core.reset with ended := true, run := some { queue := 5, index := 0, cls := 1 } }) 5).stopping = none := by decide
theorem wit_wait_limit : (heldBy false { Core.reset with waitLimit := 1 }).waitLimit ≠ 0 ∧
    0 + (heldBy false { Core.reset with waitLimit := 1 }).waitLimit.toNat * 1024 ≤ now { live with accord := { Accord.reset with master := 1024 } } := by decide
theorem wit_wait_limit_off : (heldBy false Core.reset).waitLimit = 0 ∧ (core (setCore live 5 (heldBy false Core.reset)) 5).hold = some { launch := false, since := 0, limited := false } := by decide
theorem wit_core_cmd_asleep : (core live 5).state = .asleep ∧ (core live 5).run = none ∧ (core (setCore live 5 { Core.reset with state := .testing }) 5).state = .testing ∧
    coreOn (setCore live 5 { Core.reset with state := .testing }) 5 = true ∧ regOpen (setCore live 5 { Core.reset with state := .testing }) (pgCore 5) = true := by decide
theorem wit_core_cmd : regOpen live (pgCore 5) = true ∧ coreOn live 5 = true ∧ (core (setCore live 5 { Core.reset with state := .running }) 5).state = .running ∧
    regOpen (setCore live 5 { Core.reset with state := .running }) (pgCore 5) = true ∧
    regOpen (setCore live 5 { Core.reset with state := .stopped }) (pgCore 5) = true := by decide
/-- Core 5 IDLE in a cluster with SLEEP_EN, the Accord at 1,500. -/
def idleNow : State := setCluster (setCore { live with accord := { Accord.reset with master := 1500 } } 5 { Core.reset with state := .idle, predLevel := 0, holdCfg := 0x80000000 }) 0
  { Cluster.reset with sleepCfg := 0x80000000 }
theorem wit_sleep : coreOn idleNow 5 = true ∧ bit (core idleNow 5).holdCfg 31 = true ∧ (core idleNow 5).state = .idle ∧ (core idleNow 5).run = none ∧
    (core idleNow 5).idleSince + 1500 * 2 ^ (core idleNow 5).predLevel.toNat ≤ now idleNow := by decide
theorem wit_wake_lead : stampOf (core (beforeStamp id) 5) (wordAt (core (beforeStamp id) 5)) ≤ localCopy (beforeStamp id) 0 + 2250 := by decide
theorem wit_window : (Accord.reset).window < now { live with accord := { Accord.reset with master := 1500 } } / 1500 := by decide
theorem wit_wake : (core (setCore live 5 { Core.reset with state := .waking, wakeTo := 0 }) 5).state = .waking ∧
    (core (setCore live 5 { heldBy false Core.reset with state := .waking, wakeTo := 2 }) 5).startAt = none ∧
    (core (setCore live 5 { Core.reset with state := .waking, wakeTo := 0 }) 5).run = none := by decide
theorem wit_accord : ({ Accord.reset with pllOn := true } : Accord).pllLock = false ∧
    copyRuns { live with accord := { Accord.reset with fine := true } } 3 = true ∧ (2 : Nat) < (-3 : Int).natAbs ∧ (2 : Int).natAbs ≤ 2 ∧
    hostReach live = true ∧ pageServed live pgAcc = true ∧ readSizeOk 4 0 = true ∧ readSizeOk 1 3 = true := by decide

/-- A record of class c with the given bytes 16 to 63, no flags. -/
def recOf (c : Nat) (fl : Nat) (body : List Byte) : List Byte := toBytes 1 c ++ toBytes 1 fl ++ toBytes 14 0 ++ body
/-- Queue 0 of an ACTIVE partition, bound to a consumer, its one record b at the start of HBM. -/
def queueWith (consumer : Nat) (b : List Byte) : State :=
  { setQueue live 0 { Queue.reset with cfg := BitVec.ofNat 64 (0xFFFF * 2 ^ 48), bind := BitVec.ofNat 32 (2 ^ 31 + consumer * 2 ^ 25), tail := 1 } with
    mem := writeBytes { cells := [], holes := [] } 0 b }
/-- A WAIT_COUNT record on memory counter 0 of site 0, target 0. -/
def waitRec : List Byte := toBytes 1 8 ++ toBytes 1 2 ++ toBytes 4 0x40000000 ++ toBytes 58 0
theorem wit_fence_record : mayStart (queueWith 0 (recOf 7 0 (toBytes 48 0))) 0 0 (recOf 7 0 (toBytes 48 0)) = true := by decide
theorem wit_wait_record : mayStart (queueWith 0 waitRec) 0 0 waitRec = true ∧ recCls waitRec = 8 := by decide
theorem wit_launch_record_ready : mayStart (queueWith 0 (recOf 0xA 1 (toBytes 48 0))) 0 0 (recOf 0xA 1 (toBytes 48 0)) = true := by decide
/-- A SEQ_WRITE of entry 5. -/
def seqRec : List Byte := recOf 9 0 (toBytes 1 1 ++ toBytes 3 0 ++ toBytes 4 5 ++ toBytes 40 0)
theorem wit_seq_write : mayStart (queueWith 0 seqRec) 0 0 seqRec = true := by decide
/-- A SIGNAL of k to a selector. -/
def signalRec (k sel : Nat) : List Byte := recOf 9 0 (toBytes 4 0 ++ toBytes 4 k ++ toBytes 4 sel ++ toBytes 36 0)
theorem wit_signal_add : mayStart (queueWith 0 (signalRec 1 0x40000000)) 0 0 (signalRec 1 0x40000000) = true := by decide
theorem wit_signal_bell : mayStart (queueWith 0 (signalRec 1 0x80000001)) 0 0 (signalRec 1 0x80000001) = true ∧
    (1 + ((queue live 1).tail - (queue live 1).head).toNat ≤ qDepth (queue live 1)) ∧
    mayStart (queueWith 0 (signalRec 100 0x80000001)) 0 0 (signalRec 100 0x80000001) = true ∧ qDepth (queue live 1) < 100 ∧
    qProducer { Queue.reset with bind := BitVec.ofNat 32 (2 ^ 28) } = 1 ∧ qProducer (queue (queueWith 0 (signalRec 1 0x80000001)) 1) ≠ 1 := by decide
theorem wit_refused : nextRec (queueWith 0 (recOf 7 0 (toBytes 48 1))) 0 = some (0, recOf 7 0 (toBytes 48 1)) ∧
    recErr (queueWith 0 (recOf 7 0 (toBytes 48 1))) 0 (recOf 7 0 (toBytes 48 1)) = some 0x0401 ∧
    recErr (queueWith 0 (recOf 8 0 (toBytes 48 0))) 0 (recOf 8 0 (toBytes 48 0)) = some 0x0401 ∧
    recErr (queueWith 0 (recOf 0xA 0 (toBytes 48 0))) 0 (recOf 0xA 0 (toBytes 48 0)) = some 0x0401 ∧
    recErr (queueWith 0 (recOf 1 0 (toBytes 48 0))) 0 (recOf 1 0 (toBytes 48 0)) = some 0x0401 ∧
    recErr (queueWith 0 (recOf 0xB 0 (toBytes 48 0))) 0 (recOf 0xB 0 (toBytes 48 0)) = some 0x0401 ∧
    recErr (queueWith 0 (recOf 4 16 (toBytes 48 0))) 0 (recOf 4 16 (toBytes 48 0)) = some 0x0401 ∧
    recErr (queueWith 0 (recOf 6 16 (toBytes 48 0))) 0 (recOf 6 16 (toBytes 48 0)) = some 0x0401 ∧
    recErr (queueWith 3 (recOf 5 16 (toBytes 48 0))) 0 (recOf 5 16 (toBytes 48 0)) = some 0x0401 ∧
    (atom (queueWith 3 (recOf 5 16 (toBytes 48 0))) 0).disps = [] ∧
    recErr (queueWith 0 (recOf 9 16 (toBytes 48 0))) 0 (recOf 9 16 (toBytes 48 0)) = some 0x0401 ∧
    recErr (queueWith 0 (recOf 9 16 (toBytes 48 1))) 0 (recOf 9 16 (toBytes 48 1)) = some 0x0401 ∧
    nextRec (queueWith 0 (recOf 0xD 0 (toBytes 48 0))) 0 = some (0, recOf 0xD 0 (toBytes 48 0)) := by decide
/-- A TILE_RUN of one instruction, any core. -/
def tileRec : List Byte := recOf 1 0 (toBytes 8 0x1000 ++ toBytes 2 1 ++ toBytes 1 0x80 ++ toBytes 37 0)
/-- A body whose byte 26 names any core. -/
def anyCore (c : Nat) (lead : List Byte) : List Byte := recOf c 0 (lead ++ toBytes 1 0x80 ++ toBytes 37 0)
theorem wit_tile_run : candidate (queueWith 0 tileRec) 0 = some (0, tileRec, 0) ∧ schedPick (queueWith 0 tileRec) 0 = true := by decide
theorem wit_update_combine_start : candidate (queueWith 0 (anyCore 4 (toBytes 10 0))) 0 = some (0, anyCore 4 (toBytes 10 0), 0) ∧
    schedPick (queueWith 0 (anyCore 4 (toBytes 10 0))) 0 = true ∧ jobRuns (queueWith 0 (anyCore 4 (toBytes 10 0))) 0 0 4 = false ∧
    candidate (queueWith 0 (anyCore 6 (toBytes 10 0))) 0 = some (0, anyCore 6 (toBytes 10 0), 0) ∧
    schedPick (queueWith 0 (anyCore 6 (toBytes 10 0))) 0 = true := by decide
/-- A TEST of part 0 on core 0. -/
def testRec : List Byte := recOf 0xB 0 (toBytes 2 1 ++ toBytes 46 0)
theorem wit_test_start : candidate (queueWith 0 testRec) 0 = some (0, testRec, 0) ∧ schedPick (queueWith 0 testRec) 0 = true := by decide
theorem wit_assign : (core (setCore live 0 { Core.reset with state := .idle }) 0).state = .idle ∧ (core live 0).state = .asleep ∧
    (core live 0).wakeReq = false ∧ (core (setCore live 0 { Core.reset with wakeReq := true }) 0).state = .asleep := by decide
/-- Queue 0 whose candidate has waited two ticks, AGE 1. -/
def agedQueue : State := setCluster (modQueue (queueWith 0 tileRec) 0 (fun x => { x with waited := 2 })) 0
  { Cluster.reset with schedCfg := BitVec.ofNat 32 (2 ^ 16) }
theorem wit_aging : candidate agedQueue 0 = some (0, tileRec, 0) ∧ fld (cluster agedQueue 0).schedCfg 21 16 = 1 ∧
    2 ^ min 40 1 ≤ (queue agedQueue 0).waited := by decide
/-- Core 0 running a begun record of class c. -/
def jobOn (c : Nat) (st : CState) (b : List Byte) : State := setCore live 0 { Core.reset with
  state := st, run := some { queue := 0, index := 0, cls := c },
  job := some { bytes := b, desc := toBytes 128 0, grad := [], done := 0, begun := true, tainted := false, at_ := 0 } }
/-- Core 0 running a record of class c whose work has not begun. -/
def jobFresh (c : Nat) (b : List Byte) : State := setCore live 0 { Core.reset with
  state := .running, run := some { queue := 0, index := 0, cls := c },
  job := some { bytes := b, desc := [], grad := [], done := 0, begun := false, tainted := false, at_ := 0 } }
theorem wit_jobs_refused : jobRuns (jobFresh 6 (toBytes 64 0)) 0 0 6 = true ∧ jobRuns (jobFresh 4 (toBytes 64 0)) 0 0 4 = true ∧
    combineBad (toBytes 64 0) = true ∧ (core (jobFresh 6 (toBytes 64 0)) 0).job.isSome = true := by decide
theorem wit_jobs : jobRuns (jobOn 6 .running (toBytes 64 0)) 0 0 6 = true ∧ jobRuns (jobOn 4 .running (toBytes 64 0)) 0 0 4 = true ∧
    0 + min 1 (upCount (toBytes 64 0) - 0) = upCount (toBytes 64 0) ∧
    0 + min 1 (upCount (toBytes 64 (2 ^ 224 + 2 ^ 225)) - 0) ≠ upCount (toBytes 64 (2 ^ 224 + 2 ^ 225)) ∧ upAdvance (toBytes 64 0) = false ∧
    upAdvance (toBytes 64 (2 ^ 214)) = true ∧ upCount (toBytes 64 (2 ^ 214)) = 0 := by decide
theorem wit_test_end : (core (jobOn 0xB .testing testRec) 0).state = .testing ∧ (core (jobOn 0xB .testing testRec) 0).job.isSome = true := by decide
theorem wit_dispatch : qConsumer (queue (queueWith 3 (recOf 5 0 (toBytes 48 0))) 0) = 3 ∧
    mayStart (queueWith 3 (recOf 5 0 (toBytes 48 0))) 0 0 (recOf 5 0 (toBytes 48 0)) = true ∧
    handPick (queueWith 3 (recOf 5 0 (toBytes 48 0))) 0 0 = true ∧ (atom (queueWith 3 (recOf 5 0 (toBytes 48 0))) 0).disps = [] := by decide
/-- The Atomizer of L0 running a DISPATCH of queue 0 at choice k. -/
def dispatching (b : List Byte) (k : Nat) : State :=
  setAtom (queueWith 3 b) 0 { Atom.reset with disps := [{ queue := 0, index := 0, bytes := b, started := true, next := k, ends := 0 }] }
/-- A DISPATCH of one choice. -/
def dispRec : List Byte := recOf 5 0 (toBytes 48 (2 ^ 240))
theorem wit_dispatch_sent : dispSent (dispatching dispRec 1) 0 0 = true ∧ (atom (dispatching dispRec 1) 0).disps ≠ [] := by decide
theorem wit_dispatch_goes_on : 0 < dpTokens dispRec * dpNch dispRec ∧ (dispatchChoice (dispatching dispRec 0) 0 0 dispRec 0).2 = false ∧
    dpTokens dispRec * dpNch dispRec ≤ 1 ∧ dpEnd dispRec = false ∧ qConsumer (queue (dispatching dispRec 0) 0) = 3 := by decide
/-- Queue 0 running record b, with a report of a code. -/
def reported (b : List Byte) (code : Nat) : State :=
  { setQueue live 0 { Queue.reset with bind := BitVec.ofNat 32 (2 ^ 31), tail := 1, recs := [{ index := 0, bytes := b, st := .running }] } with
    reports := [{ queue := 0, index := 0, code := code, g31 := 0 }] }
theorem wit_report : (takeReport (reported tileRec 0) 0 false).isSome = true ∧ recBytes (reported tileRec 0) 0 0 = tileRec ∧
    Nat.testBit (leAt tileRec 30 2) 15 = false ∧ qExpert (queue (reported tileRec 0) 0) = false ∧
    (takeReport (reported tileRec 0x0208) 0 true).isSome = true := by decide
/-- A TILE_RUN that posts to queue 1, and queue 1 taking core doorbells. -/
def postRec : List Byte := (tileRec.take 30) ++ toBytes 2 0x8001 ++ toBytes 32 0
def posting : State := setQueue (reported postRec 0) 1 { Queue.reset with bind := BitVec.ofNat 32 (2 ^ 28) }
theorem wit_post : (takeReport posting 0 false).isSome = true ∧ Nat.testBit (leAt (recBytes posting 0 0) 30 2) 15 = true ∧
    bellErr (queue posting 1) (BitVec.ofNat 64 (2 ^ 63)) 1 = none ∧ qExpert (queue (doorbell posting 1 (BitVec.ofNat 64 (2 ^ 63)) 1) 0) = false := by decide
theorem wit_expert_report : qExpert (queue (modQueue (reported tileRec 0) 0 (fun x => { x with bind := BitVec.ofNat 32 (2 ^ 31 + 2 ^ 29) })) 0) = true := by decide

theorem wit_doorbell : queueOpen live 0 = true ∧ qProducer (queue live 0) = 0 ∧
    ((queue live 0).tail + BitVec.ofNat 32 (fld (BitVec.ofNat 64 (2 ^ 63 + 1)) 16 0) - (queue live 0).head).toNat ≤ qDepth (queue live 0) ∧
    qDepth (queue live 0) < (BitVec.ofNat 32 (fld (BitVec.ofNat 64 5000) 31 0) - (queue live 0).head).toNat ∧
    queueOpen (setQueue live 0 { Queue.reset with bind := BitVec.ofNat 32 (2 ^ 28) }) 0 = true ∧
    qProducer { Queue.reset with bind := BitVec.ofNat 32 (2 ^ 28) } = 1 := by decide
/-- Queue 0 enabled. -/
def bound : State := setQueue live 0 { Queue.reset with bind := 0x80000000 }
/-- Queue 0 halted before a TILE_RUN. -/
def halted0 (st : RecSt) : State := setQueue live 0 { Queue.reset with bind := 0x80000000, tail := 1, halted := true, recs := [{ index := 0, bytes := tileRec, st := st }] }
theorem wit_bindings : queueOpen (setQueue live 0 { Queue.reset with cfg := 0xFFFF000000000000 }) 0 = true ∧
    qOn { Queue.reset with cfg := 0xFFFF000000000000 } = false ∧ queueOpen live 0 = true ∧ queueOpen bound 0 = true ∧ qOn (queue live 0) = false ∧ qOn (queue bound 0) = true ∧
    setFld (2 ^ 12 : W64) 7 0 0 ≠ (queue bound 0).cfg ∧ (2 ^ 12 : W64).toNat < 2 ^ 32 ∧ (queue live 0).halted = false ∧
    bindKept (setBit (setBit (0x80000000 : W32) 31 false) 21 false) = bindKept (queue bound 0).bind ∧
    bindBad (setQueue live 0 { Queue.reset with cfg := 0xFFFF000000000000, bind := 0x80000000 }) 0
      { Queue.reset with cfg := 0xFFFF000000000000, bind := 0x80000000 } = false := by decide
theorem wit_halted : queueOpen (halted0 (.failed 0x0208)) 0 = true ∧ qOn (queue (halted0 (.failed 0x0208)) 0) = true ∧
    bindKept (setBit (setBit (0 : W32) 31 true) 21 false) = bindKept (queue (halted0 (.failed 0x0208)) 0).bind ∧
    bindKept (setBit (0 : W32) 21 true) = bindKept (queue (halted0 (.failed 0x0208)) 0).bind ∧ qExpert (queue (halted0 (.failed 0x0208)) 0) = false := by decide
/-- A plain strided descriptor of n elements of a type at a module address. -/
def plainD (base ty n : Nat) : List Byte :=
  toBytes 8 base ++ toBytes 8 0 ++ toBytes 4 (1 + ty * 8) ++ toBytes 12 0 ++ toBytes 4 n ++ toBytes 20 0
    ++ toBytes 4 n ++ toBytes 20 0 ++ toBytes 6 1 ++ toBytes 30 0 ++ toBytes 12 0
/-- A one-element tensor of two dimensions. -/
def squareD (base : Nat) : List Byte :=
  toBytes 8 base ++ toBytes 8 0 ++ toBytes 4 2 ++ toBytes 12 0 ++ toBytes 4 1 ++ toBytes 4 1 ++ toBytes 16 0
    ++ toBytes 4 1 ++ toBytes 4 1 ++ toBytes 16 0 ++ toBytes 6 1 ++ toBytes 6 1 ++ toBytes 24 0 ++ toBytes 12 0
/-- First address of site 0's local region when 32 GiB of each site are placed. -/
def lb : Nat := 12 * 32 * 2 ^ 30
/-- A stack-engine record: class, operation and flags, source, destination, AUX0, AUX1. -/
def seRec (c op src dst a0 a1 : Nat) : List Byte := recOf c 0 (toBytes 8 op ++ toBytes 8 src ++ toBytes 8 dst ++ toBytes 8 a0 ++ toBytes 8 a1 ++ toBytes 8 0)
/-- Queue 0 bound to the stack engine of site 0, which holds one command of record b not yet started; descriptors from 0x1000 on in the local region. -/
def engineWith (b : List Byte) (on : Bool) : State :=
  let s := { live with parts := [(0, { Part.reset with state := .active, placedGib := 32, moduleId := 1 })],
                       mem := writeBytes (writeBytes { cells := [], holes := [] } (lb + 0x1000) (squareD (lb + 0x4000) ++ squareD (lb + 0x6000))) (lb + 0x1100) (plainD (lb + 0x4000) 0 256) }
  let q := { Queue.reset with bind := BitVec.ofNat 32 (2 ^ 31 + 2 ^ 25) }
  let c : SeCmd := { queue := 0, index := 0, bytes := b, unit := seUnit (seOp b), started := on, d0 := [], d1 := [], sent := 0, ended := 0, err := 0, dig := 0, pulled := [] }
  setSe (setQueue s 0 q) 0 { Se.reset with cmds := [c] }
/-- Its command. -/
def engineCmd (b : List Byte) (on : Bool) : SeCmd :=
  { queue := 0, index := 0, bytes := b, unit := seUnit (seOp b), started := on, d0 := [], d1 := [], sent := 0, ended := 0, err := 0, dig := 0, pulled := [] }
def transposeRec : List Byte := seRec 2 1 (lb + 0x1000) (lb + 0x1080) 0 0
def signRec : List Byte := seRec 2 2 (lb + 0x1100) (lb + 0x8000) 0 0
def topkRec : List Byte := seRec 2 (3 + (2 * 2 ^ 7) * 2 ^ 16) (lb + 0x1100) (lb + 0x8000) 0 0
def ctrRec : List Byte := seRec 2 7 0 0 (5 * 2 ^ 32 + 3) 0
def pushRec : List Byte := seRec 0xC 5 (lb + 0x2000) (7 * 2 ^ 48) 256 1
def pullRec : List Byte := seRec 0xC 6 (7 * 2 ^ 48) (lb + 0x2000) 256 1
theorem wit_se_transpose : seReady (engineWith transposeRec false) 0 isTranspose (engineCmd transposeRec false) = true ∧
    localErr (engineWith transposeRec false) 0 0 transposeRec (squareD (lb + 0x4000)) (squareD (lb + 0x6000)) = none := by decide
theorem wit_se_pack : seReady (engineWith signRec false) 0 isSignPack (engineCmd signRec false) = true ∧
    localErr (engineWith signRec false) 0 0 signRec (plainD (lb + 0x4000) 0 256) (toBytes 128 0) = none := by decide +kernel
theorem wit_se_topk : seReady (engineWith topkRec false) 0 isTopkPack (engineCmd topkRec false) = true ∧
    localErr (engineWith topkRec false) 0 0 topkRec (plainD (lb + 0x4000) 0 256) (toBytes 128 0) = none := by decide +kernel
theorem wit_se_ctr_set : seReady (engineWith ctrRec false) 0 isCtrSet (engineCmd ctrRec false) = true ∧ seOpBad ctrRec = false ∧
    seSigBad (engineWith ctrRec false) 0 ctrRec = false := by decide +kernel
theorem wit_se_ckpt : seReady (engineWith pushRec false) 0 isPush (engineCmd pushRec false) = true ∧ ckptErr (engineWith pushRec false) 0 0 pushRec = none ∧
    seOp pushRec = 5 ∧ nfld (seDst pushRec) 63 60 = 0 ∧ seReady (engineWith pullRec false) 0 isPull (engineCmd pullRec false) = true ∧
    ckptErr (engineWith pullRec false) 0 0 pullRec = none ∧ nfld (seSrc pullRec) 63 60 = 0 := by decide +kernel
theorem wit_se_hand_over : mayStart (queueWith 1 (seRec 2 2 0 0 0 0)) 0 0 (seRec 2 2 0 0 0 0) = true ∧
    handPick (queueWith 1 (seRec 2 2 0 0 0 0)) 0 (se (queueWith 1 (seRec 2 2 0 0 0 0)) 0).lastQueue = true ∧ isSignPack (seRec 2 2 0 0 0 0) = true := by decide +kernel
theorem wit_se_complete : seHead (engineWith transposeRec true) 0 1 = some (engineCmd transposeRec true) ∧
    seHead (engineWith signRec true) 0 2 = some (engineCmd signRec true) := by decide +kernel
/-- A checkpoint command whose two transfers have ended, a trailer t kept. -/
def ckptCmd (b : List Byte) (t : List Byte) : SeCmd := { engineCmd b true with sent := 2, ended := 2, d0 := t }
def ckptEnd (b : List Byte) (t : List Byte) : State := setSe (engineWith b true) 0 { Se.reset with cmds := [ckptCmd b t] }
def goodTrailer : List Byte := toBytes 4 0x5A434B50 ++ toBytes 4 0 ++ toBytes 8 256 ++ toBytes 8 1 ++ toBytes 40 0
theorem wit_ckpt_complete : seHead (ckptEnd pushRec []) 0 4 = some (ckptCmd pushRec []) ∧ ckptPieces pushRec + 1 = 2 ∧
    ckptPieces pullRec + 1 = 2 ∧ ckptGood (ckptCmd pullRec []) = false := by decide +kernel
theorem wit_ckpt_good : ckptGood (ckptCmd pullRec goodTrailer) = true := by decide +kernel
/-- Group 0 READY with ranks 0 and 1 of one share each, OWN_RANK 0. -/
def group0 (st : BitVec 3) : Group := { Group.reset with st := st, mask := 3, tag := 5, active := [(0, 1), (1, 1)], cfg := 0x00010000 }
/-- A REDUCE of bucket 7, one FP32 element from a bucket of two. -/
def reduceRec : List Byte := seRec 3 4 (lb + 0x1000) (lb + 0x1080) 7 (lb + 0x100000 + 2 ^ 48)
/-- The engine of site 0 with that command and group 0 in a state. -/
def reduceWith (st : BitVec 3) : State :=
  let s := engineWith reduceRec false
  setGroup { s with mem := writeBytes s.mem (lb + 0x1000) (plainD (lb + 0x4000) 0 2 ++ plainD (lb + 0x6000) 0 1) } 0 (group0 st)
theorem wit_reduce_opens : seReady (reduceWith 1) 0 isReduce (engineCmd reduceRec false) = true ∧
    reduceErr (reduceWith 1) 0 0 reduceRec (plainD (lb + 0x4000) 0 2) (plainD (lb + 0x6000) 0 1) = none ∧
    joinErr (reduceWith 1) 0 0 reduceRec (plainD (lb + 0x4000) 0 2) (plainD (lb + 0x6000) 0 1) = none ∧
    (group (reduceWith 1) 0).st ≠ 2 ∧ (se (reduceWith 1) 0).slots.length < 256 ∧ slotAt (reduceWith 1) 0 0 7 true = none ∧
    silMode (reduceWith 1) 0 ≠ 3 ∧ 0 = qTarget (queue (reduceWith 1) 0) := by decide +kernel
/-- Rank 1's contribution of bucket 7: a landed one of 4 bytes. -/
def oneContrib (ready passing : Bool) (d : Option Nat) : Contrib :=
  { rank := 1, carry := false, off := 0, len := 4, got := 44, dig := d, tag := 5, form := 0, topk := 0, fits := true, last := true,
    ready := ready, passing := passing, die := 0, src := 7, xtag := 3 }
/-- Its slot, with that contribution held. -/
def oneSlot (c : Contrib) (pass held : Bool) : RSlot :=
  { newSlot (reduceWith 1) (engineCmd reduceRec false) none with held := [c], pass := pass, ownPass := pass, silHeld := held, added := 1 }
/-- Site 0 with that slot open, group 0 in a state, partition P-A's sillage mode m. -/
def slotOpen (r : RSlot) (st : BitVec 3) (m : BitVec 2) : State :=
  let s := reduceWith st
  setSe { s with parts := [(0, { part s 0 with sillageMode := m, sillageLen := 2 ^ 20, sillageOfs := 2 ^ 30 })] } 0 { Se.reset with slots := [r] }
theorem wit_contrib : (se (slotOpen (oneSlot (oneContrib false false none) false false) 1 0) 0).slots.findSome? (fun r => if r.group = 0 ∧ r.bucket = 7 then
      (r.held.find? (fun c => c.rank == 1 && c.last && !c.ready)).map (fun c => (r, c)) else none) =
      some (oneSlot (oneContrib false false none) false false, oneContrib false false none) ∧
    partOfSite (slotOpen (oneSlot (oneContrib false false none) false false) 1 0) 0 = some 0 ∧
    bit (group (slotOpen (oneSlot (oneContrib false false none) false false) 1 0) 0).cfg 9 = false := by decide +kernel
theorem wit_digest : some (crc64 (readBytes (slotOpen (oneSlot (oneContrib false false (some 0)) false false) 1 0).mem (lb + 0x100000) 4)) = some 0 := by decide +kernel
theorem wit_pass : slotAt (slotOpen (oneSlot (oneContrib true false none) false false) 1 0) 0 0 7 false = some (oneSlot (oneContrib true false none) false false) ∧
    passRuns (slotOpen (oneSlot (oneContrib true false none) false false) 1 0) 0 = false ∧
    siteOn (slotOpen (oneSlot (oneContrib true false none) false false) 1 0) 0 = true ∧
    (leading (itemReady (oneSlot (oneContrib true false none) false false)) (seqItems (oneSlot (oneContrib true false none) false false))).take 8 = [(1, false)] ∧
    (oneSlot (oneContrib true false none) false false).silSettle = [] ∧
    slotAt (slotOpen (oneSlot (oneContrib true true none) true false) 1 0) 0 0 7 false = some (oneSlot (oneContrib true true none) true false) ∧
    silMode (slotOpen (oneSlot (oneContrib true true none) true false) 1 0) 0 = 0 := by decide +kernel
theorem wit_resume : silMode (slotOpen (oneSlot (oneContrib true false none) false true) 1 1) 0 = 1 ∧
    (logItems (putSlot (slotOpen (oneSlot (oneContrib true false none) false true) 1 1) 0 (oneSlot (oneContrib true false none) false true)) 0 0
      (oneSlot (oneContrib true false none) false true) 0 [(1, false)]).2 = [(1, false)] := by decide +kernel
/-- That slot open since tick 0, the Accord at tick 2,000. -/
def lateSlot : State := { slotOpen (oneSlot (oneContrib false false none) false false) 1 0 with accord := { Accord.reset with master := 2000 } }
theorem wit_late : slotAt lateSlot 0 0 7 false = some (oneSlot (oneContrib false false none) false false) ∧
    (oneSlot (oneContrib false false none) false false).deadline = 1 ∧ 0 + 1 * 1024 ≤ now lateSlot ∧
    (oneSlot (oneContrib false false none) false false).mask &&& ~~~ (oneSlot (oneContrib false false none) false false).added
      &&& ~~~ (oneSlot (oneContrib false false none) false false).settled ≠ 0 := by decide +kernel
theorem wit_group : groupOpen live 3 = true ∧ grpOpen live 3 = 0 ∧ fld (setFld (0 : W32) 15 10 0) 7 6 ≠ 3 ∧ bit (group live 3).sel 30 = false ∧
    groupOpen (slotOpen (oneSlot (oneContrib false false none) false false) 1 0) 0 = true ∧
    grpOpen (slotOpen (oneSlot (oneContrib false false none) false false) 1 0) 0 ≠ 0 ∧
    fld (setFld (1 : W32) 15 10 0) 9 0 ≠ fld (group (slotOpen (oneSlot (oneContrib false false none) false false) 1 0) 0).cfg 9 0 := by decide +kernel
theorem wit_group_cmds : groupOpen live 0 = true ∧ (group live 0).st = 0 ∧ groupOpen (setGroup live 0 { group0 1 with epoch := 1 }) 0 = true ∧
    (group (setGroup live 0 { group0 1 with epoch := 1 }) 0).st = 1 ∧ bit ((0 : W32) - 1) 31 = true ∧ (group (setGroup live 0 (group0 2)) 0).st = 2 ∧
    (partSites (setGroup live 0 (group0 2)) 0).any (fun i => (se (setGroup live 0 (group0 2)) i).slots.any (fun r => r.group == 0 && !r.carrySlot)) = false := by
  decide +kernel
theorem wit_bind_refused : bindBad (setQueue live 0 { Queue.reset with bind := 0x80000000 }) 0 { Queue.reset with bind := 0x80000000 } = true ∧
    setFld (0 : W64) 7 0 0 = (queue live 0).cfg ∧ qOn (queue bound 0) = true ∧
    bindKept (setBit (setBit (0x00800000 : W32) 31 false) 21 false) ≠ bindKept (queue bound 0).bind := by decide
theorem wit_expert_skip : (let x := { Queue.reset with bind := 0xA0000000, halted := true, recs := [{ index := 0, bytes := tileRec, st := .failed 0x0208 }] }
    qOn x = true ∧ qExpert x = true ∧ queueOpen (setQueue live 0 x) 0 = true ∧ bindKept (setBit (0x20000000 : W32) 21 true) = bindKept x.bind) := by decide
/-- A TRANSPOSE whose descriptors are not local, a CTR_SET with a reserved bit, a push to an address with reserved bits. -/
theorem wit_se_refused : localErr (engineWith (seRec 2 1 0 0 0 0) false) 0 0 (seRec 2 1 0 0 0 0) (readBytes (engineWith (seRec 2 1 0 0 0 0) false).mem 0 128)
      (readBytes (engineWith (seRec 2 1 0 0 0 0) false).mem 0 128) = some 0x0502 ∧
    seReady (engineWith (seRec 2 1 0 0 0 0) false) 0 isTranspose (engineCmd (seRec 2 1 0 0 0 0) false) = true ∧ seOpBad (seRec 2 7 1 0 0 0) = true ∧
    seReady (engineWith (seRec 2 7 1 0 0 0) false) 0 isCtrSet (engineCmd (seRec 2 7 1 0 0 0) false) = true ∧
    nfld (seDst (seRec 0xC 5 (lb + 0x2000) (2 ^ 60 + 7 * 2 ^ 48) 256 1)) 63 60 ≠ 0 := by decide +kernel
theorem wit_ckpt_failed : (let c := { ckptCmd pushRec [] with err := 0x050C }
    seHead (setSe (engineWith pushRec true) 0 { Se.reset with cmds := [c] }) 0 4 = some c ∧ c.err ≠ 0 ∧ c.sent = c.ended) := by decide +kernel
theorem wit_contrib_bad : (oneContrib false false none).got = (oneContrib false false none).len + 40 ∧ ({ oneContrib false false none with fits := false } : Contrib).fits = false ∧
    sget 0 (oneSlot (oneContrib false false (some 1)) false false).fails 1 + 1 < 3 ∧
    3 ≤ sget 0 ({ oneSlot (oneContrib false false (some 1)) false false with fails := [(1, 2)] } : RSlot).fails 1 + 1 ∧
    (some 1 : Option Nat) ≠ some (crc64 (readBytes (slotOpen (oneSlot (oneContrib false false (some 1)) false false) 1 0).mem (lb + 0x100000) 4)) := by decide +kernel
theorem wit_pass_other : passRuns (slotOpen (oneSlot (oneContrib true true none) true false) 1 0) 0 = true ∧
    (oneSlot (oneContrib true false none) false false).silHeld = false ∧ (oneSlot (oneContrib true false none) false true).silHeld = true ∧
    silMode (slotOpen (oneSlot (oneContrib true false none) true true) 1 3) 0 = 3 ∧
    (replayItems (slotOpen (oneSlot (oneContrib true false none) true true) 1 3) 0 0 8 (oneSlot (oneContrib true false none) true true) []).isSome = true ∧
    leading (itemReady (oneSlot (oneContrib false false none) false false)) (seqItems (oneSlot (oneContrib false false none) false false)) = [] := by decide +kernel
theorem wit_group_more : latePolicy (group live 0) = 0 ∧ (group (setGroup live 0 { group0 1 with cfg := 0x80 }) 0).cfg = 0x80 ∧
    latePolicy { group0 1 with cfg := 0x80 } ≠ 0 ∧ bit ({ group0 1 with cfg := 0x80 } : Group).arg (ownRank { group0 1 with cfg := 0x80 }) = false ∧
    fld (setFld (0xC0 : W32) 15 10 0) 7 6 = 3 ∧ bit ({ group0 1 with sel := 0x40000000 } : Group).sel 30 = true := by decide +kernel

theorem wit_hbm : hbmServes live 0 (placeIn (partSites live 0) 0 0 0) = true ∧ partialWrite 0 64 = false ∧ partialWrite 0 3 = true ∧
    0 + 64 ≤ regionEnd live 0 ∧ typeBits (b2n true) / 8 ≤ regionEnd live 0 := by decide +kernel
/-- Site 0's stack in a state. -/
def stackIn (st : BitVec 2) (since : Option Nat) : State :=
  setMc { live with accord := { Accord.reset with master := 4000000 } } 0 { Mc.reset with st := st, idleSince := since, restDown := since.isSome, cfg := 0x00010003 }
theorem wit_self_refresh : (mc (stackIn 1 none) 0).st = 1 ∧ (mc (stackIn 2 none) 0).st = 2 ∧
    hbmPlace (stackIn 1 none) 0 = some (placeIn (partSites live 0) 0 0 0) ∧ (placeIn (partSites live 0) 0 0 0).site = 0 ∧
    siteOn (stackIn 1 none) 0 = true ∧ (mc (stackIn 0 (some 0)) 0).idleSince = some 0 ∧ bit (mc (stackIn 0 (some 0)) 0).cfg 1 = true ∧
    (mc (stackIn 0 (some 0)) 0).st = 0 ∧ allDown (mc (stackIn 0 (some 0)) 0) = true ∧ sePending (se (stackIn 0 (some 0)) 0) = false ∧ (se (stackIn 0 (some 0)) 0).idleAt = 0 ∧
    0 + 1500 * max 1 (fld (mc (stackIn 0 (some 0)) 0).cfg 31 24) ≤ now (stackIn 0 (some 0)) := by decide +kernel
/-- Bank 2 of pseudo-channel 1 of site 0 in a state. -/
def bankIn (st : BankState) : State := setMc (stackIn 0 none) 0 (putBank (mc (stackIn 0 none) 0) 1 2 { Bank.reset with st := st })
theorem wit_bank : siteOn (bankIn .closed) 0 = true ∧ (getBank (mc (bankIn .closed) 0) 1 2).st = .closed ∧ (getBank (mc (bankIn .closed) 0) 1 2).writes = 0 ∧
    bit (mc (bankIn .closed) 0).cfg 0 = true ∧ (getBank (mc (bankIn .closed) 0) 1 2).last + 15 * max 1 (fld (mc (bankIn .closed) 0).cfg 23 16) ≤ now (bankIn .closed) ∧
    (getBank (mc (bankIn .poweringDown) 0) 1 2).st = .poweringDown ∧ (mc (bankIn .down) 0).st = 0 ∧
    (getBank (mc (bankIn .down) 0) 1 2).st = .down := by decide +kernel
theorem wit_temps : siteOn live 0 = true ∧ (List.replicate 32 50).length = 32 ∧
    ((List.range 32).any (fun h => fld (mc live 0).throttle (2 * h + 1) (2 * h) == 0 &&
      nth (mapIx (fun h t => throttleStep (fld (mc live 0).throttle (2 * h + 1) (2 * h)) t) 0 (List.replicate 32 50)) h != 0)) = false ∧
    ((List.range 32).any (fun h => fld (mc live 0).throttle (2 * h + 1) (2 * h) == 0 &&
      nth (mapIx (fun h t => throttleStep (fld (mc live 0).throttle (2 * h + 1) (2 * h)) t) 0 (List.replicate 32 96)) h != 0)) = true := by decide +kernel
/-- A window of 2^10 ticks gone by with requests to pseudo-channel 3 only, and a threshold t. -/
def windowOver (t run : Nat) : State := setMc (stackIn 0 none) 0 { Mc.reset with running := [(3, 5)], run := BitVec.ofNat 8 run, imbCfg := BitVec.ofNat 32 (t * 2 ^ 24 + 1 + 2 * 2 ^ 16) }
theorem wit_window_end : ∀ x ∈ [(255, 0), (0, 0), (0, 1)], imbRuns (windowOver x.1 x.2) 0 = true ∧
    (mc (windowOver x.1 x.2) 0).winStart + 2 ^ imbWindow (mc (windowOver x.1 x.2) 0) ≤ now (windowOver x.1 x.2) := by decide +kernel
theorem wit_window_runs : 2 ≤ (satInc (1 : Byte) 1).toNat ∧ (mc (windowOver 0 1) 0).imbRaised = false ∧
    fld (mc (windowOver 0 1) 0).imbCfg 23 16 = 2 ∧ fld (mc (windowOver 0 1) 0).imbCfg 31 24 * 5 ≤ 64 * 5 * 4 ∧ imbRuns State.reset 0 = false := by decide +kernel
/-- Site 0 scrubbing at a position. -/
def scrubbing (w : BitVec 30) : State := setSe live 0 { Se.reset with scrubEn := true, scrubPos := w }
theorem wit_scrub : siteOn (scrubbing 7) 0 = true ∧ mcServes (scrubbing 7) 0 = true ∧ (se (scrubbing 7) 0).scrubPos.toNat ≠ 2 ^ 30 - 1 ∧
    (se (scrubbing 0x3FFFFFFF) 0).scrubPos.toNat = 2 ^ 30 - 1 ∧ siteOn (scrubbing 0x3FFFFFFF) 0 = true ∧ regOpen live (pgSe 0) = true := by decide +kernel


/-- A whole message of kind k for module 1 from module 2, bytes d. -/
def whole (k : Nat) (flags : Nat) (d : List Byte) : Msg := { blankMsg 5 k 1 with flags := flags, src := 2, data := d, addr := 0x100 }
/-- That message in L0's inbox, with or without a landing context of its stream. -/
def arrived (m : Msg) (old : Bool) : State :=
  setIod linked 0 { Iod.reset with inbox := [{ port := some 0, msg := m }], lands := if old then [newLand 0 m 0] else [] }
/-- A span of eight bytes at 0x100, and the bytes. -/
def spanned : List Byte := toBytes 8 0x100 ++ toBytes 8 0x107 ++ toBytes 8 0x1122334455667788
theorem wit_in_turn : ∀ k ∈ [1, 2, 3, 4, 7, 8, 14], inTurn (arrived (whole k 7 spanned) false) 0 k 0 0 0 (whole k 7 spanned) (newLand 0 (whole k 7 spanned) 0) = true := by
  decide +kernel
theorem wit_in_turn_old : ∀ k ∈ [1, 2, 3, 4, 7, 8, 14], inTurn (arrived (whole k 6 spanned) true) 0 k 0 0 0 (whole k 6 spanned) (newLand 0 (whole k 6 spanned) 0) = true := by
  decide +kernel
theorem wit_dispatch_turn : inTurn (arrived (whole 5 7 spanned) false) 0 5 0 0 0 (whole 5 7 spanned) (newLand 0 (whole 5 7 spanned) 0) = true ∧
    (dispatchMessage (met (arrived (whole 5 7 spanned) false) 0 0 0 (whole 5 7 spanned) (newLand 0 (whole 5 7 spanned) 0)) 0 0 (whole 5 7 spanned)).2 = true ∧
    takesChoices linked 0 ((whole 5 7 spanned).addr % 4096) = false := by decide +kernel
/-- Queue 256 an enabled expert queue of SRC_COUNT 1. -/
def expertQ (s : State) : State := setQueue { s with parts := [(0, { part s 0 with expTable := 0x10000 })] } 256 { Queue.reset with
  bind := BitVec.ofNat 32 (2 ^ 31 + 2 ^ 29), entry := toBytes 21 0 ++ toBytes 1 1 ++ toBytes 42 0 }
theorem wit_end_mark_turn : inTurn (expertQ (arrived (whole 6 7 spanned) false)) 0 6 0 0 0 (whole 6 7 spanned) (newLand 0 (whole 6 7 spanned) 0) = true ∧
    takesChoices (met (expertQ (arrived (whole 6 7 spanned) false)) 0 0 0 (whole 6 7 spanned) (newLand 0 (whole 6 7 spanned) 0)) 0 256 = true ∧
    (endMark (met (expertQ (arrived (whole 6 7 spanned) false)) 0 0 0 (whole 6 7 spanned) (newLand 0 (whole 6 7 spanned) 0)) 256 0x100 0).2 = true := by decide +kernel
theorem wit_delivered : (whole 1 7 spanned).first = true ∧ (whole 1 7 spanned).last = true ∧ (whole 1 7 spanned).incEn = false ∧
    spanErr linked 0 (leAt spanned 0 8) (leAt spanned 8 8) = none ∧ spanErr linked 0 0x100 (0x100 + 8 - 1) = none ∧
    (spanErr linked 0 0x100 0x50).isSome = true ∧ tagContext linked 0 0 (spanned.take 16) = none := by decide +kernel
theorem wit_passed_over : (let m := whole 1 4 spanned
    let s := setIod linked 0 { Iod.reset with lands := [{ newLand 0 m 0 with xfers := [{ tag := 0, refused := true, wrote := [] }] }] }
    (!m.first && xferRefused s 0 0 m) = true) := by decide +kernel
theorem wit_round : (queue (flushGroup (setQueue linked 256 { Queue.reset with heldGen := some 4 }) 256) 256).heldGen = some 4 ∧
    roundDrained (flushGroup (setQueue linked 256 { Queue.reset with heldGen := some 4 }) 256) 256 = true := by decide +kernel
/-- A return context of GEN 3. -/
def oneCtx : Ctx := { gen := 3, retBase := 0x2000, choiceAddr := 0x3000, nch := 1, outLines := 1, retCtr := 0, pend := 2, part := 0 }
theorem wit_cancel : regOpen (setAtom linked 1 { Atom.reset with ctxs := [(5, oneCtx)] }) (pgAtom 1) = true ∧
    (atom (setAtom linked 1 { Atom.reset with ctxs := [(5, oneCtx)] }) 1).ctxs.find? (fun e => e.1 == 5) = some (5, oneCtx) ∧
    (atom (setAtom linked 1 { Atom.reset with ctxs := [(5, oneCtx)] }) 1).disps = [] := by decide +kernel
/-- A transfer of tag 9 to module 2 and a stream of one unacknowledged message there. -/
def oneXfer : Xfer := { req := .rmt 0, part := 0, dst := 2, vc := 5, msgs := [whole 1 7 spanned], busyAt := some 0, want := 0, got := 0 }
def oneStream (n : Nat) : SrcStream := { newStream 0 2 5 0 with sent := [whole 1 7 spanned], nextSeq := 1, resends := n }
/-- An answer of kind k on channel 0 for transfer 9, and what it answers. -/
def reply (k : Nat) : Msg := { blankMsg 0 k 1 with src := 2, xtag := 9, svc := 5 }
def awaiting (k n : Nat) : State :=
  { setIod linked 0 { Iod.reset with inbox := [{ port := some 0, msg := reply k }], xfers := [(9, oneXfer)], streams := [oneStream n] } with time := 1000000 }
theorem wit_answers : ∀ k ∈ [0x09, 0x0A, 0x0B, 0x0C, 0x0D], atDie (awaiting k 0) 0 k 0 0 0 (reply k) = true := by decide +kernel
theorem wit_answer_parts : (iod (dropInbox (awaiting 0x0A 0) 0 0) 0).xfers.find? (fun e => e.1 == 9) = some (9, oneXfer) ∧ answered (dropInbox (awaiting 0x0A 0) 0 0) 0 0 (reply 0x0A) = some (9, oneXfer) ∧
    (iod (dropInbox (awaiting 0x0C 0) 0 0) 0).streams.findIdx? (isStream 0 2 5) = some 0 ∧ (oneStream 0).sent = [whole 1 7 spanned] ∧
    (iod (dropInbox (awaiting 0x0C 0) 0 0) 0).streams[0]? = some (oneStream 0) ∧ subMod (2 ^ 32) 0 (whole 1 7 spanned).sseq + 1 ≤ 1 ∧
    (iod (dropInbox (awaiting 0x0D 0) 0 0) 0).streams.find? (isStream 0 2 5) = some (oneStream 0) := by decide +kernel
theorem wit_timers : (iod (awaiting 1 0) 0).streams[0]? = some (oneStream 0) ∧ (oneStream 0).ackAt + resendTicks (iod (awaiting 1 0) 0) ≤ (awaiting 1 0).time ∧
    (oneStream 0).resends + 1 < resendMax (iod (awaiting 1 0) 0) ∧ resendMax (iod (awaiting 1 20) 0) ≤ (oneStream 20).resends + 1 ∧
    (iod (awaiting 1 0) 0).xfers.find? (fun e => e.1 == 9) = some (9, oneXfer) ∧ 0 + resendTicks (iod (awaiting 1 0) 0) ≤ (awaiting 1 0).time := by decide +kernel
/-- A landing context with an unacknowledged delivery and an idle stream. -/
def oneLand : LandCtx := { newLand 0 (whole 1 7 spanned) 0 with unacked := 1 }
def idleStreams : State := { setIod linked 0 { Iod.reset with lands := [oneLand], streams := [newStream 0 2 5 0] } with time := 1000000 }
theorem wit_idle_streams : (iod idleStreams 0).lands[0]? = some oneLand ∧ oneLand.deliveredAt + 3000 ≤ idleStreams.time ∧ oneLand.msgAt + 300000 ≤ idleStreams.time ∧
    (iod idleStreams 0).streams[0]? = some (newStream 0 2 5 0) ∧ (newStream 0 2 5 0).sentAt + 150000 ≤ idleStreams.time := by decide +kernel
theorem wit_link_move : mayStart (queueWith 2 (recOf 2 0 (toBytes 48 0))) 0 0 (recOf 2 0 (toBytes 48 0)) = true ∧
    qTarget (queue (queueWith 2 (recOf 2 0 (toBytes 48 0))) 0) = 0 ∧
    handPick (queueWith 2 (recOf 2 0 (toBytes 48 0))) 0 (iod (queueWith 2 (recOf 2 0 (toBytes 48 0))) 0).lastQueue = true := by decide +kernel
/-- A message ahead, behind, far ahead, without a context, and the same with OPEN come again. -/
def seqOf (n : Nat) (f : Nat) : Msg := { whole 1 f spanned with sseq := n }
theorem wit_order : ∀ n ∈ [5, 2000, 2 ^ 32 - 1], atDie (arrived (seqOf n 6) true) 0 1 0 0 0 (seqOf n 6) = true ∧ (seqOf n 6).vc ≠ 0 ∧
    meetsCtx (arrived (seqOf n 6) true) 0 0 (seqOf n 6) (newLand 0 (seqOf n 6) 0) = true := by decide +kernel
theorem wit_no_context : atDie (arrived (seqOf 5 6) false) 0 1 0 0 0 (seqOf 5 6) = true ∧ landCtx (arrived (seqOf 5 6) false) 0 0 (seqOf 5 6) = none ∧
    startsAnew (arrived (seqOf 5 6) false) 0 0 (seqOf 5 6) = false ∧ startsAnew (arrived (seqOf 0 7) false) 0 0 (seqOf 0 7) = true ∧
    startsAnew (arrived (seqOf 0 7) true) 0 0 (seqOf 0 7) = false := by decide +kernel
/-- Choices at the expert queue: its round not begun, and begun. -/
theorem wit_admission : (queue (flushGroup (expertQ linked) 256) 256).group.length < 16 ∧ (queue (expertQ linked) 256).heldGen = none ∧
    roundSeen (expertQ linked) 256 = false ∧ (enterRound (expertQ linked) 256 3 matches .current _) = true ∧
    roundSeen (openRound (expertQ linked) 256 3) 256 = true := by decide +kernel
theorem wit_transit : (let m := whole 1 7 spanned
    idHolder linked 9 = none ∧ portOwner linked 0 = some 0 ∧ (inboxPick (arrived m false) 0 1 0).isSome = true ∧ inboxPick linked 0 1 0 = none) := by
  decide +kernel
/-- A context held by the running DISPATCH. -/
theorem wit_cancel_running : (let s := setAtom linked 1 { Atom.reset with ctxs := [(5, oneCtx)] }
    regOpen s (pgAtom 1) = true ∧ (atom s 1).ctxs.find? (fun e => e.1 == 6) = none) := by decide +kernel
theorem wit_link_start : (let m : LinkMove := { queue := 0, index := 0, bytes := recOf 2 0 (toBytes 48 0), sent := 0, acked := 0 }
    let s := setIod linked 0 { Iod.reset with waiting := [m] }
    (iod s 0).waiting = [m] ∧ (iod s 0).moves.length < 4 ∧ linkMoveBad (modIod s 0 (fun d => { d with waiting := [] })) 0 m.bytes = true) := by
  decide +kernel

/-- Port 0 of a module linked by its partition's ports, in a state. -/
def portIn (st : PortSt) : State := setPort linked 0 { Port.reset with st := st, ctrl := 1 }
theorem wit_train : trainable (portIn .down) 0 = true ∧ (port (portIn .training) 0).st = .training ∧ (iod (portIn .training) 0).refClk = true ∧
    trainable (portIn .training) 0 = true ∧ minWidth (port (portIn .training) 0) ≤ (chooseLanes 15).1 ∧ (chooseLanes 15).1 = 4 ∧
    (chooseLanes 3).1 < minWidth (port (portIn .training) 0) ∧ (chooseLanes 3).1 ≠ 4 ∧
    minWidth { Port.reset with ctrl := 0x21 } ≤ (chooseLanes 3).1 := by decide +kernel
/-- A held flit. -/
def oneFlitHeld : TxFlit := { seq := 0, vc := 5, first := 0, payload := List.replicate 236 0 }
/-- Port 0 UP, changed by f. -/
def portUpWith (f : Port → Port) : State := { setPort linked 0 (f { Port.reset with st := .up, ctrl := 1, width := 4 }) with time := 100000 }
theorem wit_retrain : portUp (portUpWith id) 0 = true ∧ regOpen (portUpWith id) (pgPort 0) = true ∧
    (port (portUpWith (fun p => { p with replay := [oneFlitHeld] })) 0).ackAt + 3000 ≤ 100000 ∧
    (port (portUpWith (fun p => { p with replay := [oneFlitHeld] })) 0).replayRun < 15 := by decide +kernel
theorem wit_flit_send : (port (portUpWith (fun p => { p with slot := 127 })) 0).slot = 127 ∧ (port (portUpWith id) 0).slot ≠ 127 ∧
    (port (portUpWith (fun p => { p with resend := [oneFlitHeld] })) 0).resend = [oneFlitHeld] ∧ (port (portUpWith id) 0).resend = [] ∧
    arbitrate (iod (portUpWith id) 0) (port (portUpWith id) 0) = none ∧
    (arbitrate (iod (portUpWith id) 0) (port (portUpWith (fun p => { p with tx := [(5, [List.replicate 32 1])] })) 0)).isSome = true := by decide +kernel
/-- A flit of a type with sequence number n and a good CRC. -/
def flitOf (ft n : Nat) : List Byte := flitBytes Port.reset ft n 5 0 8 8 (List.replicate 236 0)
theorem wit_flit_data : sound (flitOf 0 0) 0 false = true ∧ (flitOf 0 0).length = 256 ∧ portUp (heard (portUpWith id) 0 (flitOf 0 0) 0) 0 = true ∧
    leAt (flitOf 0 0) 0 1 % 4 = 0 ∧ leAt (flitOf 0 0) 1 2 % 4096 = (port (heard (portUpWith id) 0 (flitOf 0 0) 0) 0).rxSeq ∧
    leAt (flitOf 0 0) 5 1 % 8 = 5 ∧ sget 0 (port (heard (portUpWith id) 0 (flitOf 0 0) 0) 0).taken 5 + 1 ≤ vcBuffers 5 := by decide +kernel
theorem wit_flit_out : sound (flitOf 0 9) 0 false = true ∧ leAt (flitOf 0 9) 1 2 % 4096 ≠ (port (heard (portUpWith id) 0 (flitOf 0 9) 1) 0).rxSeq ∧
    portUp (heard (portUpWith id) 0 (flitOf 0 9) 1) 0 = true ∧ sound (flitOf 0 9) 0 true = false := by decide +kernel
theorem wit_flit_bad : (List.replicate 256 (0 : Byte)).length = 256 ∧ leAt (List.replicate 256 0) 0 1 % 4 = 0 ∧
    sound (List.replicate 256 0) 0 false = false := by decide +kernel
theorem wit_flit_control : sound (flitOf 2 0) 0 false = true ∧ portUp (heard (portUpWith id) 0 (flitOf 2 0) 0) 0 = true ∧
    leAt (flitOf 2 0) 0 1 % 4 = 2 ∧ leAt (flitOf 1 0) 0 1 % 4 = 1 ∧ sound (flitOf 3 0) 0 false = true ∧ leAt (flitOf 3 0) 0 1 % 4 = 3 := by decide +kernel
/-- An IDLE flit with a NAK. -/
def nakFlit : List Byte := flitBytes { Port.reset with nakDue := true } 1 0 5 0 8 8 (List.replicate 236 0)
theorem wit_flit_nak : sound nakFlit 0 false = true ∧ Nat.testBit (leAt nakFlit 0 1) 2 = true ∧ leAt nakFlit 0 1 % 4 = 1 := by decide +kernel
/-- The slot of step 5 of training, and a port whose enable is off. -/
theorem wit_step5 : (port (portIn .training) 0).st = .training ∧ trainable (portIn .training) 0 = true ∧ portUp (portIn .down) 0 = false ∧
    trainable (setPort linked 0 { Port.reset with st := .training, ctrl := 0 }) 0 = false := by decide +kernel
theorem wit_replay_limit : portUp (portUpWith (fun p => { p with replay := [oneFlitHeld], replayRun := 15 })) 0 = true := by decide +kernel
theorem wit_route : regOpen linked (pgLink 1) = true := by decide +kernel
/-- Cluster 0 with duplicates on, core 3 the checker, a sample of core 4 or none. -/
def checking (x : Option Sample) : State := setCluster linked 0 { Cluster.reset with dupCfg := 0xC0000000, checker := some 3, sample := x }
/-- A written sample of core 4. -/
def oneSample : Sample := { core := 4, word := 0, pc := 0, reg := 0, thresh := 0, rowSplit := 0, start := [], reads := [], tile := [], written := true }
theorem wit_compare : (cluster (checking (some oneSample)) 0).checker = some 3 ∧ (cluster (checking (some oneSample)) 0).sample = some oneSample ∧ oneSample.written = true := by
  decide +kernel
theorem wit_rotate : clusterActive (checking none) 0 = true ∧ (cluster (checking none) 0).rotateAt ≤ now (checking none) ∧ bit (cluster (checking none) 0).dupCfg 30 = true ∧
    (nextChecker (setCluster (checking none) 0 { cluster (checking none) 0 with rotateDue := true, rotateAt := now (checking none) + 2 ^ rotShift (cluster (checking none) 0) }) 0 4).isSome = true := by
  decide +kernel
theorem wit_compare_tiles : (let x := { oneSample with reads := [{ a := [], b := [], m := [] }], tile := List.replicate 256 0 }
    x.reads ≠ [] ∧ x.tile ≠ []) := by decide +kernel
theorem wit_sample_start : (checking none).cores = [] ∧ (cluster (checking none) 0).checker.isSome = true ∧ bit (cluster (checking none) 0).dupCfg 31 = true ∧
    (2 ^ periodShift (cluster (checking none) 0) ≤ (core (setCore (checking none) 4 { Core.reset with sinceSample := 4096 }) 4).sinceSample) ∧
    (cluster (checking none) 0).dupQueue = [] := by decide +kernel
theorem wit_dup_cfg : regOpen linked (pgCluster 0) = true ∧ regOpen (checking none) (pgCluster 0) = true ∧ bit (setFld (setFld (0x80000000 : W32) 29 24 0) 15 4 0) 31 = true ∧
    (cluster linked 0).checker = none ∧ (cluster (checking none) 0).checker ≠ none ∧ (cluster (checking none) 0).sample = none := by decide +kernel

/-- Partition P-A in a state, the module ready, changed by f. -/
def partIn (st : PState) (f : Part → Part) : State := { linked with parts := [(0, f { Part.reset with state := st, moduleId := 1 })], pwr := { Pwr.reset with bankOk := true } }
theorem wit_part_ops : partOpen (partIn .off id) 0 = true ∧ partOpen (partIn .init id) 0 = true ∧ partOpen (partIn .active id) 0 = true ∧
    partOpen (partIn .quiesced id) 0 = true ∧ cmdBad (partIn .off id) 0 1 = false ∧ cmdBad (partIn .init id) 0 2 = false ∧ idClash (partIn .init id) 0 = false ∧
    cmdBad (partIn .active id) 0 3 = false ∧ cmdBad (partIn .quiesced id) 0 4 = false ∧ cmdBad (partIn .active id) 0 1 = true ∧
    cmdBad (partIn .off id) 0 2 = true ∧ cmdBad (partIn .init id) 0 3 = true ∧ cmdBad (partIn .active id) 0 4 = true := by decide +kernel
/-- Two partitions of one module ID, P-A ACTIVE and P-B in INIT. -/
def clashing : State := { linked with glob := { linked.glob with partMode := 1 }, parts := [(0, { Part.reset with state := .active, moduleId := 1 }), (1, { Part.reset with state := .init, moduleId := 1 })] }
theorem wit_part_clash : partOpen clashing 1 = true ∧ cmdBad clashing 1 2 = false ∧ idClash clashing 1 = true := by decide +kernel
theorem wit_part_states : (part (partIn .off (fun x => { x with pendOp := 1 })) 0).state = .off ∧ partExists (partIn .off id) 0 = true ∧ opHolds (partIn .off id) 0 = false ∧
    (partIn .off id).accord.toCoarse = false ∧ domainsOk (partIn .off (fun x => { x with pendOp := 1 })) 0 = true ∧ ({ partIn .off id with accord := { Accord.reset with fine := true } } : State).accord.fine = true ∧
    activateWait (partIn .init (fun x => { x with pendOp := 2 })) 0 = 0 ∧ quiesced (partIn .active (fun x => { x with pendOp := 3 })) 0 = true ∧
    (part (partIn .resetting id) 0).state = .resetting := by decide +kernel
theorem wit_part_settings : regOpen (partIn .off id) pgGlob = true ∧ allOff (partIn .off id) = true ∧ allOff (partIn .active id) = false ∧ regOpen (partIn .active id) pgGlob = true ∧
    (List.range 8).all (fun y => decide ((port (partIn .off id) (8 * 0 + y)).st = .down)) = true ∧ partLocked (partIn .active id) 0 = true ∧ partLocked (partIn .off id) 0 = false ∧
    partOpen (partIn .off id) 0 = true ∧ slotsOpen (partIn .off id) 0 = false ∧
    (List.range (nParts (partIn .off id))).any (fun q => q != 0 && (part (partIn .off id) q).moduleId == BitVec.ofNat 12 5) = false := by decide +kernel
/-- P-A with a ring set up, MODE 0. -/
def ringReady : State := partIn .init (fun x => { x with localGib := 1, sillageOfs := 0, sillageLen := 65536 })
theorem wit_sillage : slotsOpen ringReady 0 = false ∧ (part ringReady 0).sillageMode ≠ 1 ∧ (part ringReady 0).sillageOfs.toNat + (part ringReady 0).sillageLen.toNat ≤ (part ringReady 0).localGib.toNat * 2 ^ 30 ∧
    65536 ≤ (part ringReady 0).sillageLen.toNat ∧ partOpen ringReady 0 = true := by decide +kernel
/-- A carry slot open in P-A. -/
def slotInPart : State := setSe (partIn .active id) 0 { Se.reset with slots := [{ group := 0, bucket := 0, queue := 0, index := 0, bytes := [], res := [], src := [], mask := 0, own := 0, epoch := 0, tag := 0, deadline := 0, form := 0, topk := 0, elems := 0, holdBase := 0, holdSize := 0, openedAt := 0, lateRaised := false, added := 0, settled := 0, carried := 0, held := [], fails := [], sends := [], pass := false, ownPass := false, any := false, seen := [], order := 0, silSettle := [], silHeld := false, carrySlot := true }] }
theorem wit_slot_in_part : slotsOpen slotInPart 0 = true ∧ partOpen slotInPart 0 = true ∧ (part (partIn .init (fun x => { x with sillageMode := 1 })) 0).sillageMode ≠ 0 := by decide +kernel

theorem wit_header : headOpen live pgGlob = true ∧ (hdr live pgGlob).locked = false ∧ headOpen (setHdr live pgGlob { Hdr.reset with locked := true }) pgGlob = true ∧
    (hdr (setHdr live pgGlob { Hdr.reset with locked := true }) pgGlob).locked = true ∧ fld (0x4C4B0001 : W32) 31 16 = 0x4C4B ∧ fld (1 : W32) 31 16 ≠ 0x4C4B := by decide +kernel
theorem wit_register : pgGlob < 8192 ∧ entryPage pgGlob = false ∧ wide pgGlob (0x60 - 0x60 % 8) = false ∧ regOpen live pgGlob = true ∧ powered { live with pwr := { Pwr.reset with st := 1 } } = true ∧
    ({ live with nose := { Nose.reset with mode := 1 } } : State).nose.mode = 1 ∧ pagePop live pgGlob = true ∧ pageOn live pgGlob = true ∧ writeSizeOk 2 (pgGlob * 4096 + 0x60) = false ∧
    readSizeOk 3 (pgGlob * 4096 + 0x60) = false ∧ pageServed { live with parts := [] } (pgCore 0) = true ∧ pageOn { live with parts := [] } (pgCore 0) = false := by decide +kernel
theorem wit_endpoint : regOpen live (pgCluster 3) = true ∧ regOpen live pgPcie = true := by decide +kernel
/-- Aperture 0 open on P-A's HBM. -/
def windowed : State := { live with pcie := { live.pcie with cwAp := [(0, 0x8000000000000000)] } }
theorem wit_window_access : hostReach windowed = true ∧ inWindow 0x10000000 1 = true ∧ windowErr windowed 0x10000000 = none ∧ windowLive windowed 0x10000000 = true ∧
    (windowErr live 0x10000000) = some 0x0E01 ∧ windowLive { windowed with parts := [] } 0x10000000 = false ∧ inWindow 0x10000000 8 = true := by decide +kernel
theorem wit_register_cases : hostReach live = true ∧ writeSizeOk 4 (pgGlob * 4096 + 0x60) = true ∧ overtaken live pgGlob = false ∧
    writeSizeOk 8 0x100000 = true ∧ mbBusy live = false ∧ pageThere live pgGlob = true ∧ pageServed State.reset (pgCore 0) = false ∧
    crossingReset { live with parts := [(0, { Part.reset with state := .resetting })] } (pgCore 0) = true ∧ readSizeOk 4 (pgGlob * 4096 + 0x60) = true ∧
    pageType 0x80 = none := by decide +kernel
theorem wit_host_reset_held : (let s := { live with glob := { live.glob with moduleOp := 1, moduleOpParts := 1 }, parts := [(0, { Part.reset with state := .quiesced })] }
    (opHolds s 0 && decide ((part s 0).state = .quiesced)) = true ∧ regOpen s pgPcie = true) := by decide +kernel
theorem wit_host_reset : (part live 0).state = .active ∧ (part live 1).state = .off := by decide +kernel
theorem wit_msix : live.pcie.up = true ∧ live.pcie.linkUp = true ∧ live.pcie.msixEn = false := by decide +kernel
theorem wit_endpoint_events : live.pwr.st.toNat < 2 ∧ powered live = true ∧ 2 ≤ live.glob.stage.toNat ∧ live.pcie.refClk = true := by decide +kernel

theorem wit_inputs : powered live = true := by decide +kernel
theorem wit_drydown : (drydown live 1 30000 45000).pwr.st = 2 ∧ (drydown live 1 30000 45000).pwr.dry.isSome = true ∧ (drydown live 1 30000 45000).pwr.drySkip = true ∧
    (drydown live 1 30000 45000).vial.dryTarget = false := by decide +kernel
/-- A drydown with a prepared half. -/
def dryWith (target : Bool) : State := drydown { live with vial := { Vial.reset with dryReady := true, dryTarget := target } } 1 30000 45000
theorem wit_drydown_halves : (dryWith true).pwr.st = 2 ∧ (dryWith true).pwr.dry.isSome = true ∧ (dryWith true).pwr.drySkip = false ∧ (dryWith true).vial.dryTarget = true ∧
    (dryWith false).pwr.drySkip = false ∧ (dryWith false).vial.dryTarget = false ∧ (dryWith false).pwr.dry.isSome = true := by decide +kernel
/-- A live module with power page p. -/
def withPwr (f : Pwr → Pwr) : State := { live with pwr := f Pwr.reset, time := 1000 }
theorem wit_bank_volts : powered (withPwr (fun p => { p with bankOk := true })) = true ∧ anyActive (withPwr (fun p => { p with bankOk := true })) = true ∧
    anyActive { withPwr (fun p => { p with bankOk := true }) with parts := [] } = false ∧ powered { withPwr (fun p => { p with bankOk := true }) with parts := [] } = true := by decide +kernel
theorem wit_power_window : limitWatts (withPwr id) < 9999 ∧ (windowSensors (withPwr id).pwr 40000 0 9999 0).powerCap.toNat < 2 ∧
    2 ≤ (windowSensors (withPwr (fun p => { p with powerCap := 2, bottomAt := some 0 })).pwr 40000 0 9999 0).powerCap.toNat ∧
    (windowSensors (withPwr (fun p => { p with powerCap := 2, bottomAt := some 0 })).pwr 40000 0 9999 0).bottomAt = some 0 ∧
    0 * 10 ≤ limitWatts (withPwr id) * 9 ∧ (withPwr id).pwr.under + 1 < 10 ∧ 10 ≤ (withPwr (fun p => { p with under := 9 })).pwr.under + 1 ∧
    limitWatts (withPwr id) * 9 < limitWatts (withPwr id) * 10 := by decide +kernel
theorem wit_thermal : (withPwr id).pwr.tripped.contains 0 = false ∧ unitOn (withPwr id) 0 = true ∧ powered (withPwr id) = true ∧ unitOn (withPwr id) 10 = true ∧
    opOf (withPwr (fun p => { p with op := [(0, 2)] })) 0 = 2 ∧ (withPwr (fun p => { p with tripped := [0] })).pwr.tripped.contains 0 = true := by decide +kernel
theorem wit_points : regOpen live pgPwr = true ∧ (withPwr (fun p => { p with change := [(0, 1)] })).pwr.change.find? (fun x => x.1 == 0) = some (0, 1) ∧
    bit ({ live with glob := { live.glob with integCfg := 5 } } : State).glob.integCfg 1 = false ∧ bit live.glob.integCfg 1 = true ∧ railLive live 4 = true ∧
    live.pwr.dead.contains 4 = false ∧ sget 0 live.pwr.railRun 4 < 4 ∧ 4 ≤ sget 0 (withPwr (fun p => { p with railRun := [(4, 4)] })).pwr.railRun 4 := by decide +kernel
theorem wit_clocks : iodPop live 0 = true := by decide +kernel

/-- The module ready with the Nose at work. -/
def noseAt (n : Nose → Nose) : State := { live with nose := n { live.nose with mode := 1 } }
/-- A mailbox operation in progress. -/
def mbOf (op arg req : Nat) : MbOp := { op := op, arg := arg, req := req, result := none }
/-- A read of the vial that meets nothing. -/
def cleanRead : VRead := { corr := 0, retry := 0, lost := [] }
theorem wit_nose_up : noseUp (noseAt id) = true ∧ bit (noseAt id).glob.integCfg 2 = true ∧ noseUp State.reset = false ∧ powered State.reset = false ∧
    bit ({ noseAt id with glob := { live.glob with integCfg := 3 } } : State).glob.integCfg 2 = false := by decide +kernel
theorem wit_nose_powered : nosePowered (noseAt id) ∧ nosePowered (noseAt (fun n => { n with mode := 2 })) ∧ ¬ nosePowered State.reset := by
  unfold nosePowered; decide +kernel
/-- The end of a restart, of a cause and a mailbox operation. -/
def restartEnd (cause : Nat) (asked : Bool) (mb : Option MbOp) : Option MbOp :=
  let s := noseAt (fun n => { n with mode := 3, restarting := some (cause, asked, 5), mb := mb })
  let a := romStarted s cause 0 cleanRead
  let b := releaseBlotters (if cause = 0 then a else noseBlotter (noseErr a cause 0) cause 5)
  (raiseEvt (if asked = true then raiseEvt (addEvent b 0xC0000 5 0 0 0x54) pgNose 1 else b) pgNose 0).nose.mb
theorem wit_restart_done : restartEnd 0x0C01 false none = none ∧ restartEnd 0x0C01 false (some (mbOf 1 0 0)) = some (mbOf 1 0 0) ∧
    restartEnd 0 true none = none ∧ restartEnd 0 true (some (mbOf 0x54 0 0)) = some (mbOf 0x54 0 0) ∧ (noseAt id).nose.restarting = none := by decide +kernel
theorem wit_sensor_read : sensorIds.contains 1 = true ∧ sensorLive (noseAt id) 1 = true ∧ sensorLevel (noseAt id) 1 40 = sget 0 (noseAt id).nose.levels 1 ∧
    sensorLevel (noseAt id) 1 95 ≠ sget 0 (noseAt id).nose.levels 1 ∧ sensorLive { noseAt id with parts := [] } 1 = false ∧ noseUp { noseAt id with parts := [] } = true ∧
    sensorIds.contains 150 = false := by decide +kernel
theorem wit_keys : (noseAt id).nose.mode = 1 ∧ (noseAt id).nose.keysReady = false ∧ powered (noseAt id) = true ∧
    (noseAt (fun n => { n with keysReady := true })).nose.keysReady = true := by decide +kernel

/-- An image of version 3. -/
def someImage : Image := { version := 3, len := 65536, bytes := { cells := [], holes := [] } }
/-- The module at stage 2 before mount, ANCHOR's map naming an image or none. -/
def unmounted (i : Option Image) : State :=
  { live with
    glob := { live.glob with stage := 2 }
    vial := { Vial.reset with anchor := [(0, { seq := 1, good := true, map := { VMap.reset with image := i } })] } }
/-- The state that the image check of a mount sees, of a copy of ANCHOR read. -/
def mountSees (t : State) (c : Anchor) : State :=
  let y := { t with
    vial := { t.vial with map := c.map, anchorSeq := c.seq }
    nose := { t.nose with sensors := [], levels := [] }
    pwr := { t.pwr with minMv := 0 } }
  let k := deriveKeys (retireFailed (mountDry y true true))
  dropRecords k (if (versionRec k).isNone then [384] else [])
theorem wit_mount : (unmounted none).glob.stage = 2 ∧ (unmounted none).vial.mounted = false ∧ (mountAnchor (unmounted none) []).2.isSome = true ∧
    (mountAnchor (unmounted none) [0]).2 = none ∧ live.glob.stage ≠ 2 ∧ (newestAnchor (unmounted none).vial).isSome = true := by decide +kernel
/-- The copy of ANCHOR that names the image. -/
def imageAnchor : Anchor := { seq := 1, good := true, map := { VMap.reset with image := some someImage } }
theorem wit_mount_image : (mountAnchor (unmounted (some someImage)) []).2 = some imageAnchor ∧
    imageVerdict (mountSees (unmounted (some someImage)) imageAnchor) 0 = 0 ∧ imageVerdict (mountSees (unmounted (some someImage)) imageAnchor) 2 ≠ 0 := by decide +kernel
/-- A critical set with SEQ q. -/
def setNo (q : Nat) (good : Bool) : CritSet := { critSet live 1 0 0 with seq := q, good := good }
theorem wit_critical_sets : (setNo 1 true).good = true ∧ (setNo 2 true).good = true ∧ (setNo 1 true).seq < (setNo 2 true).seq ∧ (setNo 2 false).good = false ∧
    ({ Vial.reset with halfA := some (setNo 1 true), halfB := some (setNo 2 true) } : Vial).halfA = some (setNo 1 true) ∧
    ({ Vial.reset with halfA := some (setNo 1 true), halfB := some (setNo 2 true) } : Vial).halfB = some (setNo 2 true) ∧ Vial.reset.halfA = none ∧ Vial.reset.halfB = none := by decide +kernel
/-- A mounted vial. -/
def mountedWith (f : Vial → Vial) : State := { live with vial := f { Vial.reset with mounted := true } }
/-- Block 0 written last, as all blocks are as made; block 16,383 has its turn. -/
theorem wit_patrol : vialIdle (mountedWith id) = true ∧ (vblock (mountedWith id).vial 0).live = true ∧ patrolTurn (mountedWith id).vial 0 = true ∧
    vialIdle live = false ∧ (vblock (mountedWith id).vial 16383).live = false ∧ patrolTurn (mountedWith id).vial 1 = false := by decide +kernel
theorem wit_regions : (vblock Vial.reset 0).region = 0 ∧ (vblock Vial.reset 2).region = 1 ∧ (vblock Vial.reset 10).region = 2 ∧ (vblock Vial.reset 18).region = 3 ∧
    (vblock Vial.reset 22).region = 4 ∧ (vblock Vial.reset 54).region = 5 ∧ (vblock Vial.reset 1590).region = 6 ∧
    (Vial.reset.records.find? (fun e => e.1 == 448)).isSome = true ∧ Vial.reset.records.find? (fun e => e.1 == 64) = none := by decide +kernel
/-- Block k of CONFIG n erases, the other fifteen free ones none. -/
def wornBlock (n : Nat) : State := mountedWith (fun v => putBlock (putBlock v 10 { vblock v 10 with live := true }) 11 { vblock v 11 with erases := n, live := false })
theorem wit_wear : leastErased (wornBlock 2001).vial ((regionBlocks (wornBlock 2001).vial 2).filter (fun b => (vblock (wornBlock 2001).vial b).live)) = some 10 ∧
    leastErased (wornBlock 2001).vial ((regionBlocks (wornBlock 2001).vial 2).filter (fun c => blockFree (wornBlock 2001).vial c && decide ((vblock (wornBlock 2001).vial 10).erases < (vblock (wornBlock 2001).vial c).erases))) = some 11 ∧
    leastErased (wornBlock 0).vial ((regionBlocks (wornBlock 0).vial 2).filter (fun c => blockFree (wornBlock 0).vial c && decide ((vblock (wornBlock 0).vial 10).erases < (vblock (wornBlock 0).vial c).erases))) = none ∧
    leastErased (wornBlock 0).vial ((regionBlocks (wornBlock 0).vial 3).filter (fun b => (vblock (wornBlock 0).vial b).live)) = none := by decide +kernel
theorem wit_garbage : reclaimable (mountedWith (fun v => putBlock v 22 { vblock v 22 with stale := true })).vial 22 = true ∧
    (unitsIn (mountedWith (fun v => putBlock v 22 { vblock v 22 with stale := true })).vial 22).isEmpty = true ∧ reclaimable (mountedWith id).vial 22 = false := by decide +kernel
/-- k unlogged blotters. -/
def unloggedOf (k : Nat) (t : Nat) : State := { mountedWith id with time := t, nose := { live.nose with unlogged := (List.range k).map (fun _ => blank 1 1 0 0 0) } }
theorem wit_blotter_log : vialIdle (unloggedOf 8 0) = true ∧ 8 ≤ (unloggedOf 8 0).nose.unlogged.length ∧ (unloggedOf 1 0).nose.unlogged.length < 8 ∧
    (unloggedOf 1 0).time < (unloggedOf 1 0).nose.loggedAt + 75000000 := by decide +kernel
/-- Block 22 is the log's one block, with k pages. -/
def logOf (k : Nat) : State := mountedWith (fun v => { putBlock v 22 { vblock v 22 with live := true } with logPages := [(22, List.replicate k [])] })
theorem wit_log_blocks : (logList (logOf 1).vial).getLast? = some 22 ∧ (pagesOf (logOf 1).vial 22).length < 256 ∧ 256 ≤ (pagesOf (logOf 256).vial 22).length ∧
    logList (logOf 1).vial = 22 :: [] := by decide +kernel

/-- Without power, PERST# at level p. -/
def noPower (p : Bool) : State := { State.reset with pcie := { State.reset.pcie with perst := p, refClk := true } }
theorem wit_power_up : (noPower false).glob.stage = 0 ∧
    powered (stage2 (afresh (noPower false))) = true ∧ 2 ≤ (stage2 (afresh (noPower false))).glob.stage.toNat ∧
    (stage2 (afresh (noPower false))).pcie.perst = false ∧ (stage2 (afresh (noPower false))).pcie.refClk = true ∧ live.glob.stage ≠ 0 ∧
    (noPower true).glob.stage = 0 ∧ (stage2 (afresh (noPower true))).pcie.perst = true := by decide +kernel
/-- At boot stage 5. -/
def booting : State := { live with glob := { live.glob with ready := false, stage := 5 }, nose := { live.nose with mode := 1 }, parts := [] }
theorem wit_boot : booting.glob.stage = 5 ∧ booting.nose.mode = 1 ∧ powered booting = true ∧ warmPath booting = false ∧
    [].any (sitePop booting) = false ∧ [0].any (sitePop booting) = true ∧ 64 < (List.range 65).length ∧ live.nose.mode ≠ 1 := by decide +kernel
/-- Held after a drydown of cause k. -/
def heldAfter (k : Nat) : State := { live with pwr := { live.pwr with st := 3, dry := some (critSet live k 0 0) } }
theorem wit_restore : (heldAfter 1).pwr.st = 3 ∧ (heldAfter 1).pwr.dry = some (critSet live 1 0 0) ∧ (critSet live 1 0 0).cause ≠ 3 ∧
    (heldAfter 3).pwr.dry = some (critSet live 3 0 0) ∧ (critSet live 3 0 0).cause = 3 ∧ live.pwr.st.toNat < 2 ∧ live.pwr.st ≠ 3 := by decide +kernel
theorem wit_cutoff : ({ heldAfter 1 with pwr := { (heldAfter 1).pwr with st := 2 } } : State).pwr.st = 2 ∧ (heldAfter 1).pwr.drySkip = false ∧
    ({ (heldAfter 1).pwr with drySkip := true } : Pwr).drySkip = true := by decide +kernel

/-- The Nose at work on an operation, the module READY at stage 8. -/
def mbAt (op arg req : Nat) : State := noseAt (fun n => { n with mb := some (mbOf op arg req) })
/-- Registers of the mailbox. -/
def startAt (mode : BitVec 3) (op req arg : Nat) : State :=
  noseAt (fun n => { n with mode := mode, mbOpcode := BitVec.ofNat 16 op, mbReqLen := BitVec.ofNat 21 req, mbArg := BitVec.ofNat 64 arg })
theorem wit_unlisted : mbOpcodes.contains (noseAt id).nose.mbOpcode.toNat = false ∧ mbBusy (noseAt id) = false ∧ mbServes (noseAt id) = true ∧
    (noseAt id).nose.mbReqLen.toNat ≤ 1048576 ∧ (noseAt id).nose.mode ≠ 2 ∧ mbBusy (mbAt 1 0 0) = true ∧ mbOpcodes.contains (mbAt 1 0 0).nose.mbOpcode.toNat = false ∧
    mbServes (startAt 2 0 0 0) = true ∧ 1048576 < (startAt 1 0 1048577 0).nose.mbReqLen.toNat ∧ mbServes State.reset = false ∧
    mbOpcodes.contains (startAt 1 1 0 0).nose.mbOpcode.toNat = true := by decide +kernel
theorem wit_starts : mbArgOk (startAt 2 0xF0 0 0) 0xF0 0 0 = true ∧ mbArgOk (startAt 2 0xF0 0 (2 ^ 48)) 0xF0 (2 ^ 48) 0 = false ∧ mbArgOk (startAt 1 1 0 1) 1 1 0 = false ∧
    mbArgOk (startAt 1 0x40 0 0) 0x40 0 0 = true ∧ isModuleOp 0x40 = true ∧ (opParts (startAt 1 0x40 0 0) 0x40 0).all (partStill (startAt 1 0x40 0 0)) = false ∧
    mbArgOk (startAt 1 1 0 0) 1 0 0 = true ∧ isModuleOp 1 = false ∧ (opParts { startAt 1 0x40 0 0 with parts := [] } 0x40 0).all (partStill { startAt 1 0x40 0 0 with parts := [] }) = true := by decide +kernel
theorem wit_complete : (noseAt (fun n => { n with mb := some { mbOf 1 0 0 with result := some (0, []) } })).nose.mb = some { mbOf 1 0 0 with result := some (0, []) } ∧
    (noseAt (fun n => { n with mb := some { mbOf 1 0 0 with result := some (0, []) } })).nose.restarting = none ∧ (noseAt id).nose.mb = none ∧ (mbOf 1 0 0).result = none := by decide +kernel
theorem wit_mailbox_idle : ∀ arg req, mbHolds (noseAt id) 1 arg req = false := fun _ _ => rfl
theorem wit_mailbox_reads : mbHolds (mbAt 0x01 0 0) 0x01 0 0 = true ∧ mbHolds (mbAt 0x02 5 0) 0x02 5 0 = true ∧ mbHolds (mbAt 0x10 0 0) 0x10 0 0 = true ∧
    mbHolds (mbAt 0x11 0 0) 0x11 0 0 = true ∧ mbHolds (mbAt 0x70 0 0) 0x70 0 0 = true := by decide +kernel
theorem wit_storage : mbHolds (mbAt 0x20 0 16) 0x20 0 16 = true ∧ mbHolds (mbAt 0x21 0 0) 0x21 0 0 = true ∧ mbHolds (mbAt 0x21 (2 ^ 63) 0) 0x21 (2 ^ 63) 0 = true ∧
    mbHolds (mbAt 0x30 0 0) 0x30 0 0 = true ∧ mbHolds (mbAt 0x31 0 262144) 0x31 0 262144 = true ∧ storeWritable (mbAt 0x31 0 262144).vial = true ∧
    (mbAt 0x31 0 262144).vial.map.openBlock = none ∧ (mbAt 0x21 (2 ^ 63) 0).nose.restored = none ∧
    storeWritable { live.vial with roRegions := 32 } = false := by decide +kernel
/-- A vial with block b open for k units, unit 7 in block 54. -/
def openVial (b k : Nat) : State := { mbAt 0x31 0 262144 with vial := setMap live.vial { live.vial.map with openBlock := some (b, k), place := [(7, 54, 2)] } }
theorem wit_store_open : mbHolds (openVial 54 3) 0x31 0 262144 = true ∧ storeWritable (openVial 54 3).vial = true ∧ (openVial 54 3).vial.map.openBlock = some (54, 3) ∧
    (openVial 54 3).vial.map.place.find? (fun e => e.1 == 0) = none ∧ (openVial 54 3).vial.map.place.find? (fun e => e.1 == 7) = some (7, 54, 2) ∧
    (openVial 55 16).vial.map.openBlock = some (55, 16) ∧ (unitsIn (setMap live.vial { live.vial.map with place := [(7, 55, 3)] }) 54).isEmpty = true ∧
    storeOpen (openVial 55 3).vial = (some (55, 3), (openVial 55 3).vial) := by decide +kernel
theorem wit_store_worn : mbHolds { mbAt 0x31 0 262144 with vial := { live.vial with roRegions := 32 } } 0x31 0 262144 = true := by decide +kernel
theorem wit_restored : mbHolds (noseAt (fun n => { n with mb := some (mbOf 0x21 (2 ^ 63) 0), restored := some (critSet live 1 0 0) })) 0x21 (2 ^ 63) 0 = true := by decide +kernel

/-- A module operation on QUIESCED partitions. -/
def opAt (op arg req : Nat) (bits : BitVec 4) : State :=
  { mbAt op arg req with parts := [(0, { Part.reset with state := .quiesced })], glob := { live.glob with moduleOp := BitVec.ofNat 16 op, moduleOpParts := bits } }
theorem wit_module_ops : mbHolds (opAt 0x40 0 0 15) 0x40 0 0 = true ∧ opWhole (opAt 0x40 0 0 15) 0x40 0 = true ∧ opWhole (opAt 0x40 0 0 0) 0x40 0 = false ∧
    mbHolds (opAt 0x40 0 0 0) 0x40 0 0 = true ∧ mbHolds (opAt 0x41 1 0 15) 0x41 1 0 = true ∧
    mbHolds (opAt 0x42 1 0 15) 0x42 1 0 = true ∧ mbHolds (opAt 0x43 0 0 15) 0x43 0 0 = true := by decide +kernel
/-- An update in progress. -/
def updOf (path len done : Nat) : Update := { path := path, len := len, done := done, bytes := { cells := [], holes := [] }, blocks := [] }
/-- The Nose at work on op with update u. -/
def updAt (op arg req : Nat) (u : Option Update) : State := noseAt (fun n => { n with mb := some (mbOf op arg req), update := u })
theorem wit_fw_begin : mbHolds (updAt 0x50 mib 0 none) 0x50 mib 0 = true ∧ otherPath (updAt 0x50 mib 0 (some (updOf 2 0 0))) 1 = true ∧
    mbHolds (updAt 0x50 mib 0 (some (updOf 2 0 0))) 0x50 mib 0 = true ∧ otherPath (updAt 0x50 mib 0 none) 1 = false := by decide +kernel
/-- The IMAGE blocks that the map as made does not name: 32. -/
theorem wit_fw_blocks : (unnamedBlocks Vial.reset).length = 32 ∧ imageBlocks mib = 1 ∧ imageBlocks (96 * mib) = 28 := by decide +kernel
theorem wit_fw_begin_takes : (beginUpdate (dropStaging (updAt 0x50 mib 0 none)) 1 mib).isSome = true := by decide +kernel
/-- The vial with every block of IMAGE holding data. -/
def fullImage : Vial := (List.range 8).foldl (fun v l => (List.range 8).foldl (fun v i => putBlock v (l * 2048 + 2 + i) { vblock v (l * 2048 + 2 + i) with live := true }) v) Vial.reset
theorem wit_fw_begin_none : beginUpdate (dropStaging { updAt 0x50 mib 0 none with vial := fullImage }) 1 mib = none ∧
    mbHolds { updAt 0x50 mib 0 none with vial := fullImage } 0x50 mib 0 = true := by decide +kernel
theorem wit_fw_data : mbHolds (updAt 0x51 0 0 (some (updOf 1 1048576 0))) 0x51 0 0 = true ∧ mbHolds (updAt 0x51 8 0 (some (updOf 1 1048576 0))) 0x51 8 0 = true ∧
    mbHolds (updAt 0x51 0 0 none) 0x51 0 0 = true ∧ mbHolds (updAt 0x51 0 0 (some (updOf 2 1048576 0))) 0x51 0 0 = true ∧ (updOf 2 1048576 0).path ≠ 1 := by decide +kernel
theorem full_live : (vblock fullImage 1590).region = 6 ∧ (∀ d ∈ factoryBlocks 1, (vblock fullImage d).live = true) ∧
    (∀ e ∈ fullImage.map.blocks, e.2.live = true) := by decide +kernel
theorem wit_fw_swap : ((unnamedBlocks (retireBlock Vial.reset 6)).find? (fun c => !([6] : List Nat).contains c)).isSome = true ∧
    (unnamedBlocks (retireBlock fullImage 1590)).find? (fun c => !([1590] : List Nat).contains c) = none := by
  refine ⟨?_, by rw [unnamed_none full_live.1 full_live.2.1 full_live.2.2]; rfl⟩
  have h7 : vblock (retireBlock Vial.reset 6) 7 = vblock Vial.reset 7 := (vblock_retireBlock Vial.reset 6 7 (by decide)).resolve_right (fun h => absurd h.1 (by decide))
  refine List.find?_isSome.mpr ⟨7, ?_, by decide⟩
  simp only [unnamedBlocks, mem_sortBy, List.mem_filter, regionBlocks, List.mem_append, h7]
  exact ⟨⟨.inl (by decide), by decide⟩, by decide⟩
/-- A staged image of version 3 whose header is as Table 24-3 says. -/
def goodUpdate (ver : Nat) : Update := { updOf 1 65536 65536 with bytes := writeBytes { cells := [], holes := [] } 0 (toBytes 4 0x5A465750 ++ toBytes 4 ver ++ toBytes 8 65536) }
theorem wit_fw_commit : mbHolds (updAt 0x52 0 0 (some (goodUpdate 3))) 0x52 0 0 = true ∧
    (vialRead (updAt 0x52 0 0 (some (goodUpdate 3))) cleanRead 1 0).nose.update = some (goodUpdate 3) ∧
    stagedVerdict (vialRead (updAt 0x52 0 0 (some (goodUpdate 3))) cleanRead 1 0) (goodUpdate 3) 0 = 0 ∧
    stagedVerdict (vialRead (updAt 0x52 0 0 (some (goodUpdate 3))) cleanRead 1 0) (goodUpdate 3) 2 = 2 ∧ (goodUpdate 3).done = (goodUpdate 3).len ∧
    mbHolds (updAt 0x52 0 0 none) 0x52 0 0 = true ∧ (updOf 1 1048576 0).done ≠ (updOf 1 1048576 0).len := by decide +kernel
/-- A minimum-version record of version 9, its MAC that of key k. -/
def versionNine (k : List Byte) : CfgRec := { gen := 1, payload := toBytes 4 9 ++ toBytes 12 0 ++ versionMac k 1 9 }
theorem le_nine (l : List Byte) : leAt (toBytes 4 9 ++ l) 0 4 = 9 := by
  unfold leAt; simp [toBytes]; rfl
theorem versionNine_min (s : State) (k : List Byte) (h : s.vial.records = [(384, versionNine k)]) (h1 : s.nose.kMin = some k) : minVersion s = 9 := by
  have e : cfgRec s.vial 6 0 = some (versionNine k) := by unfold cfgRec; rw [h]; rfl
  have e2 : leAt (versionNine k).payload 0 4 = 9 := by
    show leAt (toBytes 4 9 ++ toBytes 12 0 ++ versionMac k 1 9) 0 4 = 9; rw [List.append_assoc]; exact le_nine _
  have e3 : ((versionNine k).payload.drop 16).take 48 = versionMac k (versionNine k).gen 9 := by
    show ((toBytes 4 9 ++ toBytes 12 0 ++ versionMac k 1 9).drop 16).take 48 = versionMac k 1 9
    have a : (toBytes 4 9 ++ toBytes 12 0).length = 16 := by decide
    have b : (versionMac k 1 9).length = 48 := by unfold versionMac hmac384; simp
    rw [show 16 = (toBytes 4 9 ++ toBytes 12 0).length from a.symm, List.drop_left, ← b, List.take_length]
  unfold minVersion versionRec; rw [e, h1]; dsimp only; rw [e2, if_pos e3]; rfl
/-- A module whose minimum version is 9, the Nose at work on op. -/
def atNine (op arg : Nat) (u : Option Update) : State :=
  let s := updAt op arg 0 u
  { s with vial := { s.vial with records := [(384, versionNine [])] }, nose := { s.nose with kMin := some [] } }
theorem wit_version_nine (op arg : Nat) (u : Option Update) : minVersion (atNine op arg u) = 9 := versionNine_min _ [] rfl rfl
theorem wit_bad_version : (vialRead (atNine 0x52 0 (some (goodUpdate 3))) cleanRead 1 0).nose.update = some (goodUpdate 3) ∧
    stagedVerdict (vialRead (atNine 0x52 0 (some (goodUpdate 3))) cleanRead 1 0) (goodUpdate 3) 0 = 5 := by
  refine ⟨rfl, ?_⟩
  have e : minVersion (vialRead (atNine 0x52 0 (some (goodUpdate 3))) cleanRead 1 0) = 9 := versionNine_min _ [] rfl rfl
  unfold stagedVerdict; dsimp only; rw [e]; decide +kernel
theorem wit_fw_abort_activate : mbHolds (updAt 0x53 0 0 none) 0x53 0 0 = true ∧ otherPath (updAt 0x53 0 0 none) 1 = false ∧ otherPath (updAt 0x53 0 0 (some (updOf 2 0 0))) 1 = true ∧
    mbHolds (updAt 0x54 0 0 none) 0x54 0 0 = true ∧ (updAt 0x54 0 0 none).nose.mode = 1 := by decide +kernel
theorem wit_min_version : mbHolds (mbAt 0x60 3 0) 0x60 3 0 = true ∧ minVersion (mbAt 0x60 3 0) ≤ 3 := by decide +kernel
theorem wit_min_version_below : mbHolds (atNine 0x60 3 none) 0x60 3 0 = true ∧ 3 < minVersion (atNine 0x60 3 none) := by
  refine ⟨rfl, ?_⟩; rw [wit_version_nine]; decide
theorem wit_recovery : mbHolds (mbAt 0xF0 8 0) 0xF0 8 0 = true ∧ recoveryUpdate (mbAt 0xF0 8 0) 8 = none ∧
    recoveryUpdate (updAt 0xF0 8 0 (some (updOf 3 0 8))) 8 = some (updOf 3 0 8) ∧ mbHolds (updAt 0xF0 8 0 (some (updOf 3 0 8))) 0xF0 8 0 = true ∧
    mbHolds (updAt 0xF0 (8 + 2 ^ 63) 0 (some (updOf 3 0 8))) 0xF0 (8 + 2 ^ 63) 0 = true ∧ (8 + 2 ^ 63) % 2 ^ 48 = 8 := by decide +kernel

theorem wit_binding : bindingUp (noseAt id) 0 = true ∧ manageServes (noseAt id) = true ∧ (noseAt id).pcie.linkUp = true ∧ bindingUp (noseAt id) 1 = false ∧
    8 ≤ leAt [0, 9] 1 1 ∧ leAt [0, 9] 1 1 ≤ 254 ∧ leAt [0, 3] 1 1 < 8 ∧ manageServes live = false := by decide +kernel
theorem wit_pldm_sensor : sensorIds.contains 1 = true ∧ sensorLive (noseAt id) 1 = true ∧ sensorLive { noseAt id with parts := [] } 1 = false ∧
    bindingUp { noseAt id with parts := [] } 0 = true ∧ sensorIds.contains 150 = false := by decide +kernel
theorem wit_pldm_update : bindingUp (updAt 0 0 0 (some (updOf 2 0 0))) 0 = true ∧ (updAt 0 0 0 (some (updOf 2 0 0))).nose.update ≠ none ∧
    bindingUp (noseAt id) 0 = true ∧ (noseAt id).nose.update = none ∧ (updOf 1 0 0).path ≠ 2 := by decide +kernel
/-- The header of an image of version 3. -/
def headerBytes : List Byte := toBytes 4 0x5A465750 ++ toBytes 4 3 ++ toBytes 8 65536
theorem wit_pldm_activate : bindingUp (noseAt (fun n => { n with update := some (updOf 2 16 0) })) 0 = true ∧ (updOf 2 16 0).path = 2 ∧ headerBytes.length = (updOf 2 16 0).len ∧
    stagedVerdict (noseAt (fun n => { n with update := some (updOf 2 16 0) })) { updOf 2 16 0 with done := 16, bytes := writeBytes (updOf 2 16 0).bytes 0 headerBytes } 0 = 0 ∧
    stagedVerdict (noseAt (fun n => { n with update := some (updOf 2 16 0) })) { updOf 2 16 0 with done := 16, bytes := writeBytes (updOf 2 16 0).bytes 0 headerBytes } 3 = 3 := by decide +kernel
theorem wit_pldm_old : stagedVerdict (atNine 0 0 none) { updOf 2 16 0 with done := 16, bytes := writeBytes (updOf 2 16 0).bytes 0 headerBytes } 0 = 5 := by
  unfold stagedVerdict; dsimp only; rw [wit_version_nine]; decide +kernel
/-- A fresh vial finds a block for an image of 1 MiB; a full one does not. -/
theorem wit_pldm_begin : (beginUpdate (noseAt id) 2 1048576).isSome = true ∧ beginUpdate { noseAt id with vial := fullImage } 2 1048576 = none := by decide +kernel

/-- The Nose serving SPDM over DOE with connection c. -/
def spdmWith (ready : Bool) (c : Spdm) : State := noseAt (fun n => { n with keysReady := ready, spdm := [(0, c)] })
theorem wit_spdm_down : spdmUp live 0 = false ∧ spdmRow 0 0 (fun c => c.caps) (.spdmNegotiateAlgorithms 0 0) :=
  ⟨by decide +kernel, 0, 0, 0, 0, 0, false, List.mem_cons_self⟩
theorem wit_spdm : spdmUp (spdmWith false Spdm.reset) 0 = true ∧ (spdmWith false Spdm.reset).nose.keysReady = false ∧
    spdmServed (spdmWith true Spdm.reset) 0 = true ∧ (conn (spdmWith true Spdm.reset) 0).caps = false ∧
    (conn (spdmWith true { Spdm.reset with caps := true }) 0).caps = true ∧ spdmServed (spdmWith true { Spdm.reset with caps := true }) 0 = true := by decide +kernel
theorem wit_attest : spdmServed (spdmWith true { Spdm.reset with algs := true }) 0 = true ∧ (conn (spdmWith true { Spdm.reset with algs := true }) 0).algs = true ∧
    (conn (spdmWith true { Spdm.reset with algs := true }) 0).session = false := by decide +kernel
theorem wit_sessions : (conn (spdmWith true { Spdm.reset with handshake := true }) 0).handshake = true ∧ spdmServed (spdmWith true { Spdm.reset with handshake := true }) 0 = true ∧
    (conn (spdmWith true { Spdm.reset with session := true }) 0).session = true ∧ spdmServed (spdmWith true { Spdm.reset with session := true }) 0 = true := by decide +kernel
theorem wit_measurements : measSelect live 1 false ≠ [] ∧ measSelect live 0xFF true ≠ [] ∧ measSelect live 6 true = [] := by
  refine ⟨?_, ?_, rfl⟩ <;> exact List.cons_ne_nil _ _

/-- An idle module with counter a. -/
def ticking (a : Accord) : State := { live with accord := a }
theorem wit_tick : (ticking Accord.reset).pending = [] ∧ Accord.reset.phase + 1 < 60 ∧ Accord.reset.fine = false ∧ Accord.reset.holding = false ∧
    Accord.reset.toCoarse = false ∧ Accord.reset.toFine = false ∧ 60 ≤ ({ Accord.reset with phase := 59 } : Accord).phase + 1 := by decide
theorem wit_tick_switch : ({ Accord.reset with toFine := true, pllLock := true, fine := false, toCoarse := false } : Accord).toFine = true ∧
    ({ Accord.reset with fine := true, toCoarse := true } : Accord).toCoarse = true := ⟨rfl, rfl⟩
theorem wit_memory_form : State.reset.mem.wf = true := by decide
theorem wit_quiet : mayStore .aliasKeysReady = false ∧ mayStore (.nop 0 .clean) = false := ⟨rfl, rfl⟩

theorem wit_part_mode : regOpen live pgGlob = true ∧ allOff { live with parts := [] } = true ∧ regOpen { live with parts := [] } pgGlob = true ∧ allOff live = false := by decide +kernel

end Sys2Proof.Machine.Tests
end

section
/-! PROOFS. Writes of PART_MODE (R20): the mode changes only while every partition is OFF. -/

namespace Sys2Proof.Machine

/-- Recording an error leaves the module global registers, PART_MODE among them, as they were. -/
@[simp] theorem recordErr_glob (s : State) (p code lo hi : Nat) : (recordErr s p code lo hi).glob = s.glob := by
  obtain ⟨h, o, x, pc, e⟩ := recordErr_fields s p code lo hi
  rw [e]

/-- On an open module global page the row is a write of the register PART_MODE at offset 0x48. -/
theorem exec_partModeWrite_of_regOpen {s : State} (v : W32) (h : regOpen s pgGlob = true) :
    exec (.partModeWrite v) s = .next (partModeWrite s v) := by
  have reach : hostReg s pgGlob 0x48 v.toNat = globWrite s 0x48 (BitVec.ofNat 32 v.toNat) :=
    hostReg_ofGlob h (by decide) (by decide) (by decide)
  rw [BitVec.ofNat_toNat, BitVec.setWidth_eq] at reach
  exact congrArg Host.Outcome.next reach

theorem partModeWrite_of_allOff {s : State} {v : W32} (hoff : allOff s = true) (hv : fld v 1 0 ≠ 3) :
    partModeWrite s v =
      settleFull { holdShares s with glob := { (holdShares s).glob with partMode := BitVec.ofNat 2 (fld v 1 0) } } :=
  if_neg (by simp [hoff, hv])

theorem partModeWrite_of_refused {s : State} {v : W32} (h : allOff s = false ∨ fld v 1 0 = 3) :
    partModeWrite s v = recordErr s pgGlob 0x0104 0 0 :=
  if_pos (by simpa using h)

/-- Settles O40: an open write reaches `partModeWrite`, whose two branches are the statement's two cases. -/
theorem partModeOnlyWhileOff : Obligations.PartModeOnlyWhileOff := by
  intro s v hopen
  rw [exec_partModeWrite_of_regOpen v hopen]
  refine ⟨fun hoff hv => ?taken, fun hrefused => ?refused, ?modeStays⟩
  case taken => rw [partModeWrite_of_allOff hoff hv]
  case refused => rw [partModeWrite_of_refused hrefused]
  case modeStays => rw [recordErr_glob]

end Sys2Proof.Machine
end

section
/-! PROOFS. Canonical NaNs (R47, R48): no number and no infinity is rounded to a word that reads as NaN, and which sums and
products are NaN. -/

namespace Sys2Proof.Machine

/-- A rounding `enc` into a format with IEEE special values makes a NaN word of NaN only: it writes an infinity as the sign and the
infinite magnitude, and a number as the sign and a magnitude that saturates at `top`, which is no more than the infinite one. -/
theorem decIeee_enc_eq_nan_iff {eb mb top : Nat} {bias : Int} {enc : FVal → Nat} (heb : 1 ≤ eb) (htop : top ≤ (2 ^ eb - 1) * 2 ^ mb)
    (hnan : decIeee eb mb bias (enc .nan) = .nan)
    (hinf : ∀ neg, enc (.inf neg) = withSign (eb + mb) neg ((2 ^ eb - 1) * 2 ^ mb))
    (hfin : ∀ neg m e, enc (.fin neg m e) = withSign (eb + mb) neg (min (encMag mb bias m e) top)) (v : FVal) :
    decIeee eb mb bias (enc v) = .nan ↔ v = .nan := by
  cases v with
  | nan => exact iff_of_true hnan rfl
  | inf neg =>
    rw [hinf]
    exact iff_of_false (decIeee_encMag_not_nan eb mb _ bias neg le_rfl heb) nofun
  | fin neg m e =>
    rw [hfin]
    exact iff_of_false (decIeee_encMag_not_nan eb mb _ bias neg (min_le_of_right_le htop) heb) nofun

theorem dec32_enc32_eq_nan_iff (v : FVal) : dec32 (enc32 v) = .nan ↔ v = .nan :=
  decIeee_enc_eq_nan_iff (by decide) (by decide) (by decide) (fun _ => rfl) (fun _ _ _ => rfl) v

theorem dec16b_enc16b_eq_nan_iff (v : FVal) : dec16b (enc16b v) = .nan ↔ v = .nan :=
  decIeee_enc_eq_nan_iff (by decide) (by decide) (by decide) (fun _ => rfl) (fun _ _ _ => rfl) v

theorem dec16h_enc16h_eq_nan_iff (v : FVal) : dec16h (enc16h v) = .nan ↔ v = .nan :=
  decIeee_enc_eq_nan_iff (by decide) (by decide) (by decide) (fun _ => rfl) (fun _ _ _ => rfl) v

/-- E5M2 saturates a number one step below infinity, at 0x7B (Table 3-6). -/
theorem decE5M2_encE5M2_eq_nan_iff (v : FVal) : decE5M2 (encE5M2 v) = .nan ↔ v = .nan :=
  decIeee_enc_eq_nan_iff (by decide) (by decide) (by decide) (fun _ => rfl) (fun _ _ _ => rfl) v

/-- The one NaN code of E4M3 is S.1111.111 (Table 3-2). -/
theorem decE4M3_eq_nan_iff (x : Nat) : decE4M3 x = .nan ↔ x % 128 = 127 := by
  have hcode : (nfld x 6 3 = 15 ∧ x % 8 = 7) ↔ x % 128 = 127 := by
    simp only [nfld, Nat.shiftRight_eq_div_pow]
    omega
  rw [← hcode]
  unfold decE4M3
  by_cases h : nfld x 6 3 = 15 ∧ x % 8 = 7
  · exact iff_of_true (if_pos h) h
  · refine iff_of_false ?_ h
    dsimp only
    rw [if_neg h]
    split <;> nofun

theorem withSign_seven_mod {mag : Nat} (neg : Bool) (h : mag < 128) : withSign 7 neg mag % 128 = mag := by
  cases neg <;> simp [withSign] <;> omega

/-- E4M3 holds no infinity, so both infinities become its NaN; a number saturates at 0x7E, below the NaN code (Table 3-6). -/
theorem decE4M3_encE4M3_eq_nan_iff (v : FVal) : decE4M3 (encE4M3 v) = .nan ↔ fisFin v = false := by
  rw [decE4M3_eq_nan_iff]
  cases v with
  | nan => exact iff_of_true rfl rfl
  | inf neg => exact iff_of_true rfl rfl
  | fin neg m e =>
    have hsat : min (encMag 3 7 m e) 0x7E ≤ 0x7E := min_le_right _ _
    have hcode : encE4M3 (.fin neg m e) % 128 = min (encMag 3 7 m e) 0x7E := withSign_seven_mod neg (by omega)
    refine iff_of_false ?_ nofun
    omega

@[simp] theorem fadd_nan_left (v : FVal) : fadd .nan v = .nan := rfl

@[simp] theorem fadd_nan_right (v : FVal) : fadd v .nan = .nan := by cases v <;> rfl

@[simp] theorem fmul_nan_left (v : FVal) : fmul .nan v = .nan := rfl

@[simp] theorem fmul_nan_right (v : FVal) : fmul v .nan = .nan := by cases v <;> rfl

theorem fadd_opposite_infs (a : Bool) : fadd (.inf a) (.inf (!a)) = .nan := if_neg (by cases a <;> decide)

theorem fmul_inf_zero (a b : Bool) (e : Int) : fmul (.inf a) (.fin b 0 e) = .nan := rfl

theorem fmul_zero_inf (a b : Bool) (e : Int) : fmul (.fin b 0 e) (.inf a) = .nan := rfl

/-- Settles O54: what reads as NaN after each rounding, the five NaN words, and the operations of R48. -/
theorem canonicalNans : Obligations.CanonicalNans :=
  ⟨fun v => ⟨dec32_enc32_eq_nan_iff v, dec16b_enc16b_eq_nan_iff v, dec16h_enc16h_eq_nan_iff v, decE5M2_encE5M2_eq_nan_iff v,
      decE4M3_encE4M3_eq_nan_iff v⟩,
    rfl, rfl, rfl, rfl, rfl, rfl,
    fun v => ⟨fadd_nan_left v, fadd_nan_right v, fmul_nan_left v, fmul_nan_right v⟩,
    fadd_opposite_infs, fun a b e => ⟨fmul_inf_zero a b e, fmul_zero_inf a b e⟩⟩

end Sys2Proof.Machine
end

section
/-! PROOFS. The wait limit of a held core (R87): the core records it when it is due and else does nothing. -/

namespace Sys2Proof.Machine

/-- Hold h of core c has lasted WAIT_LIMIT times 1,024 ticks, with WAIT_LIMIT on and not raised in this hold (R87). -/
def WaitLimitDue (s : State) (c : Core) (h : Hold) : Prop :=
  c.waitLimit ≠ 0 ∧ !h.limited ∧ h.since + c.waitLimit.toNat * 1024 ≤ now s

/-- Core n with its wait limit raised in hold h: the event, and the error with the counter or 256 and the PC (R87). -/
def recordWaitLimit (s : State) (n : Nat) (h : Hold) : State :=
  let c := core s n
  recordErr (raiseEvt (setCore s n { c with hold := some { h with limited := true } }) (pgCore n) 0) (pgCore n) 0x020A
    (if h.launch then 256 else heldCtr c) c.pc

theorem waitLimitDue_iff {s : State} {c : Core} {h : Hold} :
    WaitLimitDue s c h ↔ c.waitLimit ≠ 0 ∧ h.limited = false ∧ h.since + c.waitLimit.toNat * 1024 ≤ now s := by
  simp only [WaitLimitDue, Bool.not_eq_true']

theorem not_waitLimitDue_iff {s : State} {c : Core} {h : Hold} :
    ¬ WaitLimitDue s c h ↔ c.waitLimit = 0 ∨ h.limited = true ∨ now s < h.since + c.waitLimit.toNat * 1024 := by
  simp only [waitLimitDue_iff, not_and_or, ne_eq, not_not, Bool.not_eq_false, not_le]

section HeldCore
variable {s : State} {n : Nat} {h : Hold} (hhold : (core s n).hold = some h)
include hhold

theorem waitLimitExpire_of_due (hdue : WaitLimitDue s (core s n) h) : waitLimitExpire s n = recordWaitLimit s n h := by
  simp only [waitLimitExpire, hhold]
  exact if_pos hdue

theorem waitLimitExpire_of_not_due (hnot : ¬ WaitLimitDue s (core s n) h) : waitLimitExpire s n = s := by
  simp only [waitLimitExpire, hhold]
  exact if_neg hnot

end HeldCore

/-- Settles O16: the statement's two clauses are the row with the limit due and the row with the limit not due. -/
theorem waitLimitIsRecordedOnce : Obligations.WaitLimitIsRecordedOnce := by
  intro s n h hhold
  refine ⟨fun hon hnew hlong => ?due, fun hidle => ?notDue⟩
  case due => exact congrArg Host.Outcome.next (waitLimitExpire_of_due hhold (waitLimitDue_iff.mpr ⟨hon, hnew, hlong⟩))
  case notDue => exact congrArg Host.Outcome.next (waitLimitExpire_of_not_due hhold (not_waitLimitDue_iff.mpr hidle))

end Sys2Proof.Machine
end

section
/-! PROOFS. The frame of `exec`: every command keeps the queue, the variant and the form of memory, and one that stores nothing keeps every
byte. -/

namespace Sys2Proof.Machine

/-- What command c leaves as it was, from s to t: the queue, the variant and the form of memory, and the bytes unless c may store. -/
structure ExecFrame (c : Instr) (s t : State) : Prop where
  sound : Sound s t
  mem : mayStore c = false → t.mem = s.mem

theorem ExecFrame.keeps {c : Instr} {s t : State} (h : Keeps s t) : ExecFrame c s t := ⟨h.sound, fun _ => h.mem⟩

theorem ExecFrame.stores {c : Instr} {s t : State} (hc : mayStore c = true) (h : Sound s t) : ExecFrame c s t :=
  ⟨h, fun hno => absurd (hc.symm.trans hno) (by decide)⟩

/-- An attempt to issue stores to memory only by the partition reset it may end in. -/
theorem coreRowMet_keeps {s : State} {n o : Nat} {m : Met} (hm : metResets m = false) : Keeps s (coreRowMet s n o m) := by
  have row : Keeps s (coreRow s n o) := coreRow_keeps (.refl s)
  unfold coreRowMet
  refine .ite row ?_
  cases m with
  | clean => exact row
  | spadCorrected => exact coreCe_keeps row
  | accCorrected => exact .ite (coreCe_keeps row) row
  | spadUncorrectable | accUncorrectable | seqFault => exact absurd hm (by decide)

/-- The row of a core instruction, whose command stores exactly where what it met resets the partition. -/
theorem coreRow_frame {c : Instr} {s t : State} {n o : Nat} {m : Met}
    (h : .next (coreRowMet s n o m) = (.next t : Host.Outcome State Fault Refusal))
    (hc : mayStore c = metResets m := by rfl) : ExecFrame c s t := by
  cases h
  exact ⟨coreRowMet_sound (.refl s), fun hno => (coreRowMet_keeps (hc.symm.trans hno)).mem⟩

theorem exec_frame {c : Instr} {s t : State} (h : exec c s = .next t) : ExecFrame c s t := by
  cases c with
  | nop n m | add n m | sub n m | mul n m | and n m | or n m | xor n m | shl n m | shr n m | sar n m | slt n m | sltu n m | lui n m
  | rdcnt n m | rdacc n m | rdcap n m | br n m | beqz n m | bnez n m | endProg n m | hset n m | hrel n m | wait n m | signal n m
  | cset n m | tset n m | launchAt n m | ufence n m | mmaD n m | mmaS n m | mmaA n m | moveL n m | moveS n m | moveX n m | vadd n m
  | vsub n m | vmul n m | vfma n m | vmin n m | vmax n m | vabs n m | vcmp n m | vsel n m | vcvt n m | vdiv n m | vsqrt n m | vrcp n m
  | vrsq n m | vexp2 n m | vlog2 n m | vrsum n m | vbcast n m | vld n m | vst n m | vlda n m | vsta n m | vmovg n m => exact coreRow_frame h
  | moveR => exact .stores rfl (execMoveR_sound h)
  | mmaDTileWrite => exact .stores rfl (execMmaDTileWrite_sound h)
  | mmaAPart => exact .stores rfl (execMmaAPart_sound h)
  | mergeTileWrite => exact .stores rfl (execMergeTileWrite_sound h)
  | vectorResult => exact .stores rfl (execVectorResult_sound h)
  | moveComplete => exact .stores rfl (execMoveComplete_sound h)
  | programLoadDone => exact .stores rfl (execProgramLoadDone_sound h)
  | tileProgramEnd => exact .keeps (execTileProgramEnd_keeps h)
  | counterWaitMet => exact .stores rfl (execCounterWaitMet_sound h)
  | launchStampReached => exact .keeps (execLaunchStampReached_keeps h)
  | waitLimitExpire => exact .keeps (execWaitLimitExpire_keeps h)
  | counterIncrement => exact .stores rfl (execCounterIncrement_sound h)
  | remoteWriteLand => exact .stores rfl (execRemoteWriteLand_sound h)
  | coreCmdStop => exact .stores rfl (execCoreCmdStop_sound h)
  | coreCmdReset => exact .stores rfl (execCoreCmdReset_sound h)
  | holdExpire => exact .keeps (execHoldExpire_keeps h)
  | launchWakeLead => exact .keeps (execLaunchWakeLead_keeps h)
  | wakeWindow => exact .keeps (execWakeWindow_keeps h)
  | wakeComplete => exact .stores rfl (execWakeComplete_sound h)
  | accPllLock => exact .keeps (execAccPllLock_keeps h)
  | accModeSwitch => exact .keeps (execAccModeSwitch_keeps h)
  | accCopyCompare => exact .keeps (execAccCopyCompare_keeps h)
  | accLoRead => exact .keeps (execAccLoRead_keeps h)
  | doorbellWrite => exact .stores rfl (execDoorbellWrite_sound h)
  | tileRun => exact .stores rfl (execTileRun_sound h)
  | update => exact .stores rfl (execUpdate_sound h)
  | combine => exact .stores rfl (execCombine_sound h)
  | test => exact .stores rfl (execTest_sound h)
  | testComplete => exact .stores rfl (execTestComplete_sound h)
  | dispatch => exact .stores rfl (execDispatch_sound h)
  | fenceRecord => exact .stores rfl (execFenceRecord_sound h)
  | waitCount => exact .stores rfl (execWaitCount_sound h)
  | launchAtRecord => exact .stores rfl (execLaunchAtRecord_sound h)
  | signalAdd => exact .stores rfl (execSignalAdd_sound h)
  | seqWrite => exact .stores rfl (execSeqWrite_sound h)
  | seTranspose => exact .stores rfl (execSeTranspose_sound h)
  | signPack => exact .stores rfl (execSignPack_sound h)
  | topkPack => exact .stores rfl (execTopkPack_sound h)
  | reduce => exact .stores rfl (execReduce_sound h)
  | ckptPush => exact .stores rfl (execCkptPush_sound h)
  | ckptPull => exact .stores rfl (execCkptPull_sound h)
  | ctrSet => exact .stores rfl (execCtrSet_sound h)
  | linkEngineMove => exact .stores rfl (execLinkEngineMove_sound h)
  | seCommandComplete => exact .stores rfl (execSeCommandComplete_sound h)
  | recordComplete => exact .stores rfl (execRecordComplete_sound h)
  | recordFailed => exact .stores rfl (execRecordFailed_sound h)
  | schedAging => exact .keeps (execSchedAging_keeps h)
  | qBindEnable => exact .stores rfl (execQBindEnable_sound h)
  | qBindDisable => exact .stores rfl (execQBindDisable_sound h)
  | qBindSkip => exact .stores rfl (execQBindSkip_sound h)
  | queueConfigWrite => exact .stores rfl (execQueueConfigWrite_sound h)
  | reduceSlotAvailable => exact .keeps (execReduceSlotAvailable_keeps h)
  | contribLanded => exact .keeps (execContribLanded_keeps h)
  | reducePass => exact .stores rfl (execReducePass_sound h)
  | sillageResume => exact .stores rfl (execSillageResume_sound h)
  | reducePassDone => exact .stores rfl (execReducePassDone_sound h)
  | scrubCodeword => exact .stores rfl (execScrubCodeword_sound h)
  | ctrDataWrite => exact .stores rfl (execCtrDataWrite_sound h)
  | hbmRead => exact .stores rfl (execHbmRead_sound h)
  | hbmWrite => exact .stores rfl (execHbmWrite_sound h)
  | hbmReduceStore => exact .stores rfl (execHbmReduceStore_sound h)
  | hbmRefresh => exact .keeps (execHbmRefresh_keeps h)
  | hbmTempSample => exact .stores rfl (execHbmTempSample_sound h)
  | imbWindowEnd => exact .keeps (execImbWindowEnd_keeps h)
  | bankPowerDown => exact .keeps (execBankPowerDown_keeps h)
  | selfRefreshEntry => exact .keeps (execSelfRefreshEntry_keeps h)
  | dispatchMessage => exact .stores rfl (execDispatchMessage_sound h)
  | endMarkMessage => exact .stores rfl (execEndMarkMessage_sound h)
  | roundOpenAfterDrain => exact .stores rfl (execRoundOpenAfterDrain_sound h)
  | returnMessage => exact .stores rfl (execReturnMessage_sound h)
  | dropMessage => exact .stores rfl (execDropMessage_sound h)
  | atomCancel => exact .stores rfl (execAtomCancel_sound h)
  | portTrainStart => exact .keeps (execPortTrainStart_keeps h)
  | portTrainDone => exact .keeps (execPortTrainDone_keeps h)
  | laneLockLoss => exact .keeps (execLaneLockLoss_keeps h)
  | laneErrorWindow => exact .keeps (execLaneErrorWindow_keeps h)
  | portCmdRetrain => exact .stores rfl (execPortCmdRetrain_sound h)
  | portCmdSaveEq => exact .stores rfl (execPortCmdSaveEq_sound h)
  | flitSend => exact .keeps (execFlitSend_keeps h)
  | dataFlitReceive => exact .keeps (execDataFlitReceive_keeps h)
  | controlFlitReceive => exact .keeps (execControlFlitReceive_keeps h)
  | nakReceive => exact .keeps (execNakReceive_keeps h)
  | replayTimeout => exact .keeps (execReplayTimeout_keeps h)
  | writeMessage => exact .stores rfl (execWriteMessage_sound h)
  | readReqMessage => exact .keeps (execReadReqMessage_keeps h)
  | readDataMessage => exact .stores rfl (execReadDataMessage_sound h)
  | contribMessage => exact .stores rfl (execContribMessage_sound h)
  | diagMessage => exact .keeps (execDiagMessage_keeps h)
  | ackMessage => exact .stores rfl (execAckMessage_sound h)
  | refuseMessage => exact .stores rfl (execRefuseMessage_sound h)
  | busyMessage => exact .keeps (execBusyMessage_keeps h)
  | streamAckMessage => exact .keeps (execStreamAckMessage_keeps h)
  | streamNakMessage => exact .keeps (execStreamNakMessage_keeps h)
  | streamAckTimer => exact .keeps (execStreamAckTimer_keeps h)
  | streamResendTimeout => exact .stores rfl (execStreamResendTimeout_sound h)
  | transferResend => exact .keeps (execTransferResend_keeps h)
  | sourceStreamClose => exact .keeps (execSourceStreamClose_keeps h)
  | landingContextFree => exact .keeps (execLandingContextFree_keeps h)
  | trackerEntryAvailable => exact .stores rfl (execTrackerEntryAvailable_sound h)
  | rtDataAccess => exact .stores rfl (execRtDataAccess_sound h)
  | grpSettle => exact .stores rfl (execGrpSettle_sound h)
  | grpReshard => exact .stores rfl (execGrpReshard_sound h)
  | reshardDrainDone => exact .keeps (execReshardDrainDone_keeps h)
  | grpAbort => exact .stores rfl (execGrpAbort_sound h)
  | lateRankDeadline => exact .keeps (execLateRankDeadline_keeps h)
  | grpCfgWrite => exact .stores rfl (execGrpCfgWrite_sound h)
  | layoutDataWrite => exact .stores rfl (execLayoutDataWrite_sound h)
  | dupCompare => exact .keeps (execDupCompare_keeps h)
  | checkerRotate => exact .keeps (execCheckerRotate_keeps h)
  | dupCfgWrite => exact .stores rfl (execDupCfgWrite_sound h)
  | partResetComplete => exact .stores rfl (execPartResetComplete_sound h)
  | railMonitorSample => exact .stores rfl (execRailMonitorSample_sound h)
  | noseLockstepMismatch => exact .keeps (execNoseLockstepMismatch_keeps h)
  | noseWatchdogExpire => exact .keeps (execNoseWatchdogExpire_keeps h)
  | noseRestartDone => exact .stores rfl (execNoseRestartDone_sound h)
  | noseSensorPoll => exact .keeps (execNoseSensorPoll_keeps h)
  | vialMount => exact .keeps (execVialMount_keeps h)
  | vialPatrol => exact .keeps (execVialPatrol_keeps h)
  | vialWearLevel => exact .keeps (execVialWearLevel_keeps h)
  | blotterLogProgram => exact .keeps (execBlotterLogProgram_keeps h)
  | powerUp => exact .stores rfl (execPowerUp_sound h)
  | bootReady => exact .keeps (execBootReady_keeps h)
  | inputSag => exact .stores rfl (execInputSag_sound h)
  | inputOvervoltage => exact .stores rfl (execInputOvervoltage_sound h)
  | inputOvercurrent => exact .stores rfl (execInputOvercurrent_sound h)
  | inputOutOfRange => exact .keeps (execInputOutOfRange_keeps h)
  | drydownCommit => exact .keeps (execDrydownCommit_keeps h)
  | inputRestore => exact .stores rfl (execInputRestore_sound h)
  | bankCutoff => exact .stores rfl (execBankCutoff_sound h)
  | bankCharged => exact .keeps (execBankCharged_keeps h)
  | bankLow => exact .keeps (execBankLow_keeps h)
  | powerWindow => exact .keeps (execPowerWindow_keeps h)
  | dieThermalSample => exact .stores rfl (execDieThermalSample_sound h)
  | opCfgWrite => exact .stores rfl (execOpCfgWrite_sound h)
  | opChangeDone => exact .keeps (execOpChangeDone_keeps h)
  | refClockLoss => exact .keeps (execRefClockLoss_keeps h)
  | refClockReturn => exact .keeps (execRefClockReturn_keeps h)
  | wxlRefclkLoss => exact .keeps (execWxlRefclkLoss_keeps h)
  | pcieRefclkLoss => exact .keeps (execPcieRefclkLoss_keeps h)
  | perstAssert => exact .keeps (execPerstAssert_keeps h)
  | perstRelease => exact .keeps (execPerstRelease_keeps h)
  | pcieReset => exact .keeps (execPcieReset_keeps h)
  | msixEnable => exact .keeps (execMsixEnable_keeps h)
  | msixUnmask => exact .stores rfl (execMsixUnmask_sound h)
  | partInit => exact .stores rfl (execPartInit_sound h)
  | partInitDone => exact .stores rfl (execPartInitDone_sound h)
  | partActivate => exact .stores rfl (execPartActivate_sound h)
  | partActivateResume => exact .stores rfl (execPartActivateResume_sound h)
  | partQuiesce => exact .stores rfl (execPartQuiesce_sound h)
  | partQuiesceDone => exact .keeps (execPartQuiesceDone_keeps h)
  | partOff => exact .stores rfl (execPartOff_sound h)
  | partModeWrite => exact .stores rfl (execPartModeWrite_sound h)
  | portOwnerWrite => exact .stores rfl (execPortOwnerWrite_sound h)
  | partModuleIdWrite => exact .stores rfl (execPartModuleIdWrite_sound h)
  | hbmPlacementWrite => exact .stores rfl (execHbmPlacementWrite_sound h)
  | expTableWrite => exact .stores rfl (execExpTableWrite_sound h)
  | sillageWrite => exact .stores rfl (execSillageWrite_sound h)
  | registerWrite => exact .stores rfl (execRegisterWrite_sound h)
  | hostReadBad => exact .keeps (execHostReadBad_keeps h)
  | evtPendClear => exact .stores rfl (execEvtPendClear_sound h)
  | evtForce => exact .stores rfl (execEvtForce_sound h)
  | evtEnWrite => exact .stores rfl (execEvtEnWrite_sound h)
  | errClear => exact .stores rfl (execErrClear_sound h)
  | pageLockWrite => exact .stores rfl (execPageLockWrite_sound h)
  | mergeCtrlClear => exact .stores rfl (execMergeCtrlClear_sound h)
  | compPendClear => exact .stores rfl (execCompPendClear_sound h)
  | cwApWrite => exact .stores rfl (execCwApWrite_sound h)
  | cmdWindowWrite => exact .stores rfl (execCmdWindowWrite_sound h)
  | cmdWindowRead => exact .keeps (execCmdWindowRead_keeps h)
  | hostResetPartition => exact .stores rfl (execHostResetPartition_sound h)
  | hostResetModule => exact .stores rfl (execHostResetModule_sound h)
  | mailboxComplete => exact .stores rfl (execMailboxComplete_sound h)
  | getInfo => exact .keeps (execGetInfo_keeps h)
  | setTime => exact .keeps (execSetTime_keeps h)
  | readEvents => exact .keeps (execReadEvents_keeps h)
  | readBlotters => exact .keeps (execReadBlotters_keeps h)
  | stageWrite => exact .keeps (execStageWrite_keeps h)
  | stageRead => exact .keeps (execStageRead_keeps h)
  | storeRead => exact .keeps (execStoreRead_keeps h)
  | storeWrite => exact .keeps (execStoreWrite_keeps h)
  | calibrate => exact .keeps (execCalibrate_keeps h)
  | retrainHbm => exact .keeps (execRetrainHbm_keeps h)
  | recalPorts => exact .keeps (execRecalPorts_keeps h)
  | selftest => exact .stores rfl (execSelftest_sound h)
  | fwBegin => exact .keeps (execFwBegin_keeps h)
  | fwData => exact .keeps (execFwData_keeps h)
  | fwCommit => exact .keeps (execFwCommit_keeps h)
  | fwAbort => exact .keeps (execFwAbort_keeps h)
  | fwActivate => exact .keeps (execFwActivate_keeps h)
  | setMinVersion => exact .keeps (execSetMinVersion_keeps h)
  | readSensors => exact .keeps (execReadSensors_keeps h)
  | recoveryLoad => exact .keeps (execRecoveryLoad_keeps h)
  | mctpControl => exact .keeps (execMctpControl_keeps h)
  | pldmDiscovery => exact .keeps (execPldmDiscovery_keeps h)
  | pldmSensorRead => exact .keeps (execPldmSensorRead_keeps h)
  | pldmSetEventReceiver => exact .keeps (execPldmSetEventReceiver_keeps h)
  | pldmRequestUpdate => exact .keeps (execPldmRequestUpdate_keeps h)
  | doeDiscovery => exact .keeps (execDoeDiscovery_keeps h)
  | spdmGetVersion => exact .keeps (execSpdmGetVersion_keeps h)
  | spdmGetCapabilities => exact .keeps (execSpdmGetCapabilities_keeps h)
  | spdmNegotiateAlgorithms => exact .keeps (execSpdmNegotiateAlgorithms_keeps h)
  | spdmGetDigests => exact .keeps (execSpdmGetDigests_keeps h)
  | spdmGetCertificate => exact .keeps (execSpdmGetCertificate_keeps h)
  | spdmChallenge => exact .keeps (execSpdmChallenge_keeps h)
  | spdmGetMeasurements => exact .keeps (execSpdmGetMeasurements_keeps h)
  | spdmKeyExchange => exact .keeps (execSpdmKeyExchange_keeps h)
  | spdmFinish => exact .keeps (execSpdmFinish_keeps h)
  | spdmHeartbeat => exact .keeps (execSpdmHeartbeat_keeps h)
  | spdmKeyUpdate => exact .keeps (execSpdmKeyUpdate_keeps h)
  | spdmEndSession => exact .keeps (execSpdmEndSession_keeps h)
  | bankPoweredDown => exact .keeps (execBankPoweredDown_keeps h)
  | selfRefreshExitComplete => exact .stores rfl (execSelfRefreshExitComplete_sound h)
  | wxlRefclkReturn => exact .keeps (execWxlRefclkReturn_keeps h)
  | pcieRefclkReturn => exact .keeps (execPcieRefclkReturn_keeps h)
  | garbageCollection => exact .keeps (execGarbageCollection_keeps h)
  | aliasKeysReady => exact .keeps (execAliasKeysReady_keeps h)
  | i3cDynamicAddress => exact .keeps (execI3cDynamicAddress_keeps h)
  | unlistedMailboxOpcode => exact .keeps (execUnlistedMailboxOpcode_keeps h)
  | reservedOpcodeIssue => exact .keeps (execReservedOpcodeIssue_keeps h)
  | reservedOpclassRecord => exact .stores rfl (execReservedOpclassRecord_sound h)
  | dStateChange => exact .keeps (execDStateChange_keeps h)
  | pldmActivateFirmware => exact .keeps (execPldmActivateFirmware_keeps h)

theorem tick_sound (s : State) : Sound s (tick s) := ageQueues_sound (coreTick_keeps (.refl s)).sound

/-- Settles O58: the step is a tick or the front command, and both keep the form. -/
theorem memoryKeepsItsForm : Obligations.MemoryKeepsItsForm := by
  intro s t hwf h
  unfold step at h
  split at h
  case h_1 => cases h; exact (tick_sound s).wf hwf
  case h_2 => exact (exec_frame h).sound.wf hwf

/-- Settles O59: every arm of `exec` is a next state, and its frame has the queue and the variant. -/
theorem commandsAnswerAndKeepTheQueue : Obligations.CommandsAnswerAndKeepTheQueue := by
  refine ⟨fun c s => ?answers, fun c s t h => ⟨(exec_frame h).sound.pending, (exec_frame h).sound.variant⟩⟩
  case answers => cases c <;> exact ⟨_, rfl⟩

/-- Settles O60: the frame of a command that stores nothing has memory itself. -/
theorem otherCommandsKeepMemory : Obligations.OtherCommandsKeepMemory :=
  fun _ _ _ hno h a => congrArg (readByte · a) ((exec_frame h).mem hno)

end Sys2Proof.Machine
end

section
/-! PROOFS. One step: the front command, one tick on an empty queue, and the state that reset leaves. -/

namespace Sys2Proof.Machine

/-- Settles O55: `popped` drops the front command and nothing else. -/
theorem stepRunsTheFrontCommand : Obligations.StepRunsTheFrontCommand := fun _ _ _ => rfl

/-! ### One tick -/

/-- What a tick does before the master counts: time and activity go on (R448). -/
def timeGoesOn (s : State) : State :=
  { s with time := s.time + 1, cores := s.cores.map (fun (e : Nat × Core) =>
      if coreActive e.2 then (e.1, { e.2 with activity := e.2.activity + 1 }) else e) }

theorem step_of_empty {s t : State} (h : s.pending = []) (ht : accTick (timeGoesOn s) = t) : step s = .next (ageQueues t) := by
  subst ht
  unfold step
  rw [h]
  rfl

section
variable {s : State}

theorem accTick_counts (h : s.accord.phase + 1 < 60) (hf : s.accord.fine = true) (hh : s.accord.holding = false) : accTick s =
    { s with accord := { s.accord with phase := s.accord.phase + 1, master := s.accord.master + 1 } } := by
  simp only [accTick, h, hf, hh, Bool.not_false, Bool.and_self, if_true]

theorem accTick_holds (h : s.accord.phase + 1 < 60) (hc : s.accord.fine = false ∨ s.accord.holding = true) : accTick s =
    { s with accord := { s.accord with phase := s.accord.phase + 1 } } := by
  have still : (s.accord.fine && !s.accord.holding) = false := by rcases hc with hc | hc <;> simp [hc]
  simp only [accTick, h, still, Bool.false_eq_true, if_true, if_false]

theorem accTick_atEdge (h : 60 ≤ s.accord.phase + 1) : accTick s = refEdge s := if_neg (Nat.not_lt.mpr h)

theorem refEdge_toCoarse (h : s.accord.toCoarse = true) : refEdge s = raiseEvt { s with accord := { s.accord with
    phase := 0, master := s.accord.edge + 60, edge := s.accord.edge + 60, fine := false, holding := false, toCoarse := false } } pgAcc 1 :=
  if_pos h

theorem refEdge_toFine (hc : s.accord.toCoarse = false) (hf : s.accord.fine = false) (ht : s.accord.toFine = true)
    (hl : s.accord.pllLock = true) : refEdge s = raiseEvt { s with accord := { s.accord with
      phase := 0, master := s.accord.edge + 60, edge := s.accord.edge + 60, fine := true, toFine := false } } pgAcc 1 := by
  simp only [refEdge, hc, hf, ht, hl, Bool.not_false, Bool.and_self, Bool.false_eq_true, if_false, if_true]

theorem refEdge_keepsMode (hc : s.accord.toCoarse = false)
    (h : s.accord.fine = true ∨ s.accord.toFine = false ∨ s.accord.pllLock = false) : refEdge s = { s with accord := { s.accord with
      phase := 0, master := s.accord.edge + 60, edge := s.accord.edge + 60 } } := by
  have noSwitch : (!s.accord.fine && s.accord.toFine && s.accord.pllLock) = false := by
    rcases h with h | h | h <;> simp [h]
  simp only [refEdge, hc, noSwitch, Bool.false_eq_true, if_false]

end

/-- Settles O56: the tick is time going on, then the master's count, between two REF edges or at one. -/
theorem tickOnAnEmptyQueue : Obligations.TickOnAnEmptyQueue := by
  intro s hempty
  have tick : ∀ {t}, accTick (timeGoesOn s) = t → step s = .next (ageQueues t) := step_of_empty hempty
  refine ⟨fun hb hf hh => ?fine, fun hb hc => ?coarse, fun he hc h => ?edge, fun he hc => ?toCoarse, fun he hc hf ht hl => ?toFine⟩
  case fine => exact tick (accTick_counts (s := timeGoesOn s) hb hf hh)
  case coarse => exact tick (accTick_holds (s := timeGoesOn s) hb hc)
  case edge => exact tick ((accTick_atEdge (s := timeGoesOn s) he).trans (refEdge_keepsMode (s := timeGoesOn s) hc h))
  case toCoarse => exact tick ((accTick_atEdge (s := timeGoesOn s) he).trans (refEdge_toCoarse (s := timeGoesOn s) hc))
  case toFine => exact tick ((accTick_atEdge (s := timeGoesOn s) he).trans (refEdge_toFine (s := timeGoesOn s) hc hf ht hl))

/-! ### Reset -/

/-- Settles O57: no unit is listed at reset, so each reads as its own reset value. -/
theorem resetLeavesTheSpecsState : Obligations.ResetLeavesTheSpecsState := by
  have disabled : qOn Queue.reset = false := by decide
  exact ⟨rfl, rfl, rfl, rfl, rfl, rfl, rfl, rfl, rfl, rfl, rfl, rfl,
    fun _ => ⟨rfl, rfl, rfl, rfl, rfl, rfl, rfl, disabled, rfl, rfl, rfl, rfl, rfl⟩⟩

end Sys2Proof.Machine
end

section
/-! PROOFS. The core instructions that issue on the core itself (R60, R65, R73, R79, R82-R86): `issueLocal` says once per class what the
word does, and each statement reads off the row of its opcode. -/

namespace Sys2Proof.Machine

/-! ### The issue of a word on its core -/

theorem issued_eq (s : State) (n : Nat) (w : W64) (pc : Nat) : issued s n w pc = setCore s n (stepped (core s n) w pc) := rfl

theorem issued_setCore (s : State) (n : Nat) (c : Core) (w : W64) (pc : Nat) :
    issued (setCore s n c) n w pc = setCore s n (stepped c w pc) := by
  rw [issued_eq, core_setCore, setCore_setCore]

section
variable {s : State} {n : Nat} {w : W64} (hlegal : illegal w = false)
include hlegal

theorem issueLocal_branch_inside (ho : opc w = 0x10 ∨ opc w = 0x11 ∨ opc w = 0x12) {t : Int}
    (ht : t = ((core s n).pc : Int) + sval 32 (fld w 31 0)) (hin : 0 ≤ t ∧ t < ((core s n).progLen : Int)) :
    issueLocal s n w = setCore s n (stepped (core s n) w
      (if opc w = 0x10 ∨ (opc w = 0x11 ∧ opA (core s n) w = 0) ∨ (opc w = 0x12 ∧ opA (core s n) w ≠ 0) then t.toNat
        else (core s n).pc + 1)) := by
  subst ht
  rcases ho with ho | ho | ho <;> simp [issueLocal, hlegal, ho, Int.not_lt.mpr hin.1, Int.not_le.mpr hin.2, issued_eq, opA]

theorem issueLocal_branch_outside (ho : opc w = 0x10 ∨ opc w = 0x11 ∨ opc w = 0x12) {t : Int}
    (ht : t = ((core s n).pc : Int) + sval 32 (fld w 31 0)) (hout : ¬ (0 ≤ t ∧ t < ((core s n).progLen : Int))) :
    issueLocal s n w = refuse s n 0x0208 0 := by
  subst ht
  simp only [not_and_or, Int.not_le, Int.not_lt] at hout
  rcases ho with ho | ho | ho <;> simp [issueLocal, hlegal, ho, hout]

theorem issueLocal_end (ho : opc w = 0x13) :
    issueLocal s n w = setCore s n { stepped (core s n) w ((core s n).pc + 1) with ended := true } := by
  simp [issueLocal, hlegal, ho, issued_eq]

theorem issueLocal_hset (ho : opc w = 0x20) : issueLocal s n w =
    if hsetBad (core s n) (fld w 47 42) (getG (core s n) (fld w 41 37)) then refuse s n 0x0205 0
    else setCore s n (stepped { core s n with
      handles := sput (core s n).handles (fld w 47 42) (getG (core s n) (fld w 41 37) &&& 0xFFFFFFFFFFFFF000)
      slots := sput (core s n).slots (fld w 47 42) { full := 0, fill := 0, rel := 0 } } w ((core s n).pc + 1)) := by
  simp [issueLocal, hlegal, ho, issued_setCore]

/-- HREL with its credit's destination good (R79, R85). -/
theorem issueLocal_hrel (ho : opc w = 0x21) (haway : (if bit w 35 then destErr s n (fld w 34 23) else none) = none) :
    issueLocal s n w =
      let c := core s n
      let free := relSlots (hSlots (getH c (fld w 47 42))) (hrelN w) (getSlots c (fld w 47 42)) false
      let after := setCore s n (stepped { c with
        slots := if hChecked (getH c (fld w 47 42)) then sput c.slots (fld w 47 42) free.1 else c.slots } w (c.pc + 1))
      if !hValid (getH c (fld w 47 42)) then refuse s n 0x0203 0
      else if hChecked (getH c (fld w 47 42)) && free.2 then refuse s n 0x0206 0
      else if bit w 35 then sendInc after n (fld w 34 23) (fld w 22 18) (hrelN w) [] else after := by
  simp only [issueLocal, hlegal, ho, haway]
  cases hc : hChecked (getH (core s n) (fld w 47 42)) <;> simp [issued_eq]

theorem issueLocal_signal_sent (ho : opc w = 0x29) (hdest : destErr s n (fld w 47 36) = none) : issueLocal s n w =
    sendInc (setCore s n (stepped (core s n) w ((core s n).pc + 1))) n (fld w 47 36) (fld w 35 31) (fld w 15 0)
      (if bit w 30 then moverIds (core s n) else []) := by
  simp [issueLocal, hlegal, ho, hdest, issued_eq]

theorem issueLocal_signal_refused (ho : opc w = 0x29) {code : Nat} (hdest : destErr s n (fld w 47 36) = some code) :
    issueLocal s n w = refuse s n code 0 := by
  simp [issueLocal, hlegal, ho, hdest]

theorem issueLocal_cset (ho : opc w = 0x2A) : issueLocal s n w = setCore s n (stepped { core s n with
    ctr := sput (core s n).ctr (fld w 47 43) (BitVec.ofNat 32 (fld (opA (core s n) w) 31 0 + fld w 31 0)) } w ((core s n).pc + 1)) := by
  simp [issueLocal, hlegal, ho, issued_setCore, opA]

theorem issueLocal_tset (ho : opc w = 0x2B) : issueLocal s n w =
    let next := stepped (core s n) w ((core s n).pc + 1)
    setCore s n { next with
      tgt := sput next.tgt (fld w 47 43) (BitVec.ofInt 32 ((fld (opA (core s n) w) 31 0 : Int) + sval 24 (fld w 23 0)))
      stp := sput next.stp (fld w 47 43) (BitVec.ofNat 8 (fld w 31 24)) } := by
  simp [issueLocal, hlegal, ho, issued_eq, opA]

/-- NOP, WAIT, LAUNCH_AT and UFENCE only move on. -/
theorem issueLocal_plain (ho : opc w = 0x00 ∨ opc w = 0x28 ∨ opc w = 0x2C ∨ opc w = 0x2D) :
    issueLocal s n w = setCore s n (stepped (core s n) w ((core s n).pc + 1)) := by
  rcases ho with ho | ho | ho | ho <;> simp [issueLocal, hlegal, ho, issued_eq]

end
/-! ### The rows that issue -/

/-- A ready word of no unit issues on its core, unless UFENCE, HREL or LAUNCH_AT still waits (R65, R79, R86). -/
theorem coreRow_issues {s : State} {n o : Nat} (h : ready s n o = true) (hu : unitOf o = none)
    (hfence : o = 0x2D → ufenceWaits (core s n) (wordAt (core s n)) = false)
    (hrel : o = 0x21 → hrelWaits (core s n) (wordAt (core s n)) = false)
    (hstamp : o = 0x2C → stampOf (core s n) (wordAt (core s n)) ≤ localCopy s (n / 16)) :
    coreRow s n o = issueLocal s n (wordAt (core s n)) := by
  rw [(coreRow_ofAtWord h hu).1, if_neg, if_neg, if_neg]
  · exact fun hlate => absurd hlate.2 (Nat.not_lt.mpr (hstamp hlate.1))
  · exact fun hwaits => absurd (hwaits.2.symm.trans (hrel hwaits.1)) (by decide)
  · exact fun hwaits => absurd (hwaits.2.symm.trans (hfence hwaits.1)) (by decide)

theorem illegal_ofReady {s : State} {n o : Nat} (h : ready s n o = true) : illegal (wordAt (core s n)) = false := by
  simp only [ready, Bool.and_eq_true, Bool.not_eq_true'] at h
  exact h.1.2

theorem opc_ofReady {s : State} {n o : Nat} (h : ready s n o = true) : opc (wordAt (core s n)) = o := by
  simp only [ready, atWord, Bool.and_eq_true, beq_iff_eq] at h
  exact h.1.1.1.2

/-- The row of opcode o when core n's word is ready and leaves `t`. -/
theorem row_issues {s t : State} {n o : Nat} (h : ready s n o = true)
    (hissue : illegal (wordAt (core s n)) = false → opc (wordAt (core s n)) = o → issueLocal s n (wordAt (core s n)) = t)
    (hu : unitOf o = none := by rfl)
    (hfence : o = 0x2D → ufenceWaits (core s n) (wordAt (core s n)) = false := by simp)
    (hrel : o = 0x21 → hrelWaits (core s n) (wordAt (core s n)) = false := by simp)
    (hstamp : o = 0x2C → stampOf (core s n) (wordAt (core s n)) ≤ localCopy s (n / 16) := by simp) :
    (.next (coreRowMet s n o .clean) : Host.Outcome State Fault Refusal) = .next t := by
  rw [coreRowMet_clean, coreRow_issues h hu hfence hrel hstamp, hissue (illegal_ofReady h) (opc_ofReady h)]

/-- The row of a scalar instruction: GD takes its value of Table 4-2. -/
theorem row_scalar {s : State} {n o : Nat} {v : W64} (h : ready s n o = true)
    (hv : opc (wordAt (core s n)) = o → scalarVal s n (wordAt (core s n)) = v) (ho : 1 ≤ o ∧ o ≤ 15 := by decide) :
    (.next (coreRowMet s n o .clean) : Host.Outcome State Fault Refusal) =
      .next (setCore s n (wrote (core s n) (wordAt (core s n)) v)) := by
  rw [coreRowMet_clean, coreRow_scalar h ho.1 ho.2 v (hv (opc_ofReady h))]

/-! ### Table 4-2 -/

section
variable {s : State} {n : Nat} {w : W64}

theorem scalarVal_add (h : opc w = 0x01) : scalarVal s n w = opA (core s n) w + opB (core s n) w := by simp only [scalarVal, h]; rfl
theorem scalarVal_sub (h : opc w = 0x02) : scalarVal s n w = opA (core s n) w - opB (core s n) w := by simp only [scalarVal, h]; rfl
theorem scalarVal_mul (h : opc w = 0x03) : scalarVal s n w = opA (core s n) w * opB (core s n) w := by simp only [scalarVal, h]; rfl
theorem scalarVal_and (h : opc w = 0x04) : scalarVal s n w = opA (core s n) w &&& opB (core s n) w := by simp only [scalarVal, h]; rfl
theorem scalarVal_or (h : opc w = 0x05) : scalarVal s n w = opA (core s n) w ||| opB (core s n) w := by simp only [scalarVal, h]; rfl
theorem scalarVal_xor (h : opc w = 0x06) : scalarVal s n w = opA (core s n) w ^^^ opB (core s n) w := by simp only [scalarVal, h]; rfl

theorem scalarVal_shl (h : opc w = 0x07) : scalarVal s n w = opA (core s n) w <<< ((opB (core s n) w).toNat % 64) := by
  simp only [scalarVal, h]; rfl
theorem scalarVal_shr (h : opc w = 0x08) : scalarVal s n w = opA (core s n) w >>> ((opB (core s n) w).toNat % 64) := by
  simp only [scalarVal, h]; rfl
theorem scalarVal_sar (h : opc w = 0x09) : scalarVal s n w = (opA (core s n) w).sshiftRight ((opB (core s n) w).toNat % 64) := by
  simp only [scalarVal, h]; rfl

theorem scalarVal_slt (h : opc w = 0x0A) :
    scalarVal s n w = if (opA (core s n) w).slt (opB (core s n) w) then 1 else 0 := by
  simp only [scalarVal, h]
  exact slt_value _ _

theorem scalarVal_sltu (h : opc w = 0x0B) :
    scalarVal s n w = if (opA (core s n) w).ult (opB (core s n) w) then 1 else 0 := by
  simp only [scalarVal, h, BitVec.ult, decide_eq_true_eq]
  rfl

theorem scalarVal_lui (h : opc w = 0x0C) :
    scalarVal s n w = BitVec.ofNat 64 (fld w 31 0 * 2 ^ 32 ||| fld (opA (core s n) w) 31 0) := by
  simp only [scalarVal, h]; rfl
theorem scalarVal_rdcnt (h : opc w = 0x0D) : scalarVal s n w = BitVec.ofNat 64 (getCtr (core s n) (fld w 4 0)).toNat := by
  simp only [scalarVal, h]
theorem scalarVal_rdacc (h : opc w = 0x0E) : scalarVal s n w = BitVec.ofNat 64 (localCopy s (n / 16)) := by
  simp only [scalarVal, h]
theorem scalarVal_rdcap (h : opc w = 0x0F) : scalarVal s n w = BitVec.ofNat 64 (coreCaps s n) := by simp only [scalarVal, h]

end

/-- Settles O1: each row is its line of Table 4-2. -/
theorem scalarArithmeticWritesResult : Obligations.ScalarArithmeticWritesResult := fun _ _ =>
  ⟨fun h => row_scalar h scalarVal_add, fun h => row_scalar h scalarVal_sub, fun h => row_scalar h scalarVal_mul,
    fun h => row_scalar h scalarVal_and, fun h => row_scalar h scalarVal_or, fun h => row_scalar h scalarVal_xor⟩

/-- Settles O2: each row is its line of Table 4-2. -/
theorem scalarShiftAndCompareResults : Obligations.ScalarShiftAndCompareResults := fun _ _ =>
  ⟨fun h => row_scalar h scalarVal_shl, fun h => row_scalar h scalarVal_shr, fun h => row_scalar h scalarVal_sar,
    fun h => row_scalar h scalarVal_slt, fun h => row_scalar h scalarVal_sltu, fun h => row_scalar h scalarVal_lui⟩

/-- Settles O3: NOP only moves on, the other rows are lines of Table 4-2. -/
theorem scalarReadsMachineState : Obligations.ScalarReadsMachineState := fun _ _ =>
  ⟨fun h => row_issues h fun hlegal ho => issueLocal_plain hlegal (.inl ho), fun h => row_scalar h scalarVal_rdcnt,
    fun h => row_scalar h scalarVal_rdacc, fun h => row_scalar h scalarVal_rdcap⟩

/-- Settles O4: the target is inside the program or it is not, and each opcode says when it is taken. -/
theorem branchesAndEnd : Obligations.BranchesAndEnd := by
  intro s n
  simp only [decide_eq_true_eq, decide_eq_false_iff_not]
  refine ⟨fun h hin => ?br, fun h hin => ?beqz, fun h hin => ?bnez,
    fun h hout => row_issues h fun hlegal ho => issueLocal_branch_outside hlegal (.inl ho) rfl hout,
    fun h hout => row_issues h fun hlegal ho => issueLocal_branch_outside hlegal (.inr (.inl ho)) rfl hout,
    fun h hout => row_issues h fun hlegal ho => issueLocal_branch_outside hlegal (.inr (.inr ho)) rfl hout,
    fun h => row_issues h issueLocal_end⟩
  case br => exact row_issues h fun hlegal ho => by rw [issueLocal_branch_inside hlegal (.inl ho) rfl hin, if_pos (.inl ho)]
  case beqz =>
    refine row_issues h fun hlegal ho => ?_
    rw [issueLocal_branch_inside hlegal (.inr (.inl ho)) rfl hin]
    simp [ho]
  case bnez =>
    refine row_issues h fun hlegal ho => ?_
    rw [issueLocal_branch_inside hlegal (.inr (.inr ho)) rfl hin]
    simp [ho]

/-- Settles O5: R73 refuses the entry or it is put; HREL's checks fail in their order or its slots empty. -/
theorem handleInstructions : Obligations.HandleInstructions := by
  intro s n
  refine ⟨fun h hgood => ?put, fun h hbad => ?refused, fun h hfree haway hvalid hfull => ?released, fun h hfree haway hvalid => ?invalid,
    fun h hfree haway hvalid hempty => ?empty⟩
  case put => exact row_issues h fun hlegal ho => by rw [issueLocal_hset hlegal ho, if_neg (by simp [hgood])]
  case refused => exact row_issues h fun hlegal ho => by rw [issueLocal_hset hlegal ho, if_pos hbad]
  case released =>
    refine row_issues h (hrel := fun _ => hfree) fun hlegal ho => ?_
    rw [issueLocal_hrel hlegal ho haway]
    simp only [hvalid, hrelN, hfull]
    rfl
  case invalid =>
    refine row_issues h (hrel := fun _ => hfree) fun hlegal ho => ?_
    rw [issueLocal_hrel hlegal ho haway]
    simp only [hvalid]
    rfl
  case empty =>
    refine row_issues h (hrel := fun _ => hfree) fun hlegal ho => ?_
    rw [issueLocal_hrel hlegal ho haway]
    simp only [hvalid, hrelN, hempty]
    rfl

/-- Settles O6: SIGNAL's destination is refused or not, UFENCE waits or not, and the other rows always issue. -/
theorem synchronisationInstructions : Obligations.SynchronisationInstructions := by
  intro s n
  refine ⟨fun h => row_issues h fun hlegal ho => issueLocal_plain hlegal (.inr (.inl ho)), fun h hdest => ?sent,
    fun code h hdest => ?refused, fun h => row_issues h issueLocal_cset, fun h => row_issues h issueLocal_tset,
    fun h hidle => ?fence, fun h hwaits => ?fenceWaits⟩
  case sent => exact row_issues h fun hlegal ho => issueLocal_signal_sent hlegal ho hdest
  case refused => exact row_issues h fun hlegal ho => issueLocal_signal_refused hlegal ho hdest
  case fence =>
    exact row_issues h (hfence := fun _ => hidle) fun hlegal ho => issueLocal_plain hlegal (.inr (.inr (.inr ho)))
  case fenceWaits =>
    refine congrArg Host.Outcome.next ?_
    rw [coreRowMet_clean, (coreRow_ofAtWord h rfl).1, if_pos ⟨rfl, hwaits⟩]

end Sys2Proof.Machine
end

section
/-! PROOFS. Waits that hold a core (R82, R86, R281), and the words that issue into a unit's queue (R56, R62, R63). -/

namespace Sys2Proof.Machine

/-! ### A core whose hold has ended -/

section
variable (s : State) (n : Nat)

theorem core_unheld : core (unheld s n) n = { core s n with state := .running, hold := none } := core_setCore _ _ _

theorem stopCore_setCore (c : Core) (code lo hi : Nat) : stopCore (setCore s n c) n code lo hi =
    settleStop (setCore (noteErr s (pgCore n) code lo hi) n
      { c with stopping := some (c.stopping.getD (BitVec.ofNat 16 code)), hold := none }) n := by
  have hnote : noteErr (setCore s n c) (pgCore n) code lo hi = setCore (noteErr s (pgCore n) code lo hi) n c := rfl
  unfold stopCore
  simp only [hnote, core_setCore, setCore_setCore]

/-- A refusal ends the hold itself. -/
theorem refuse_unheld (code lo : Nat) : refuse (unheld s n) n code lo = refuse s n code lo := by
  simp only [refuse, modCore_eq, core_unheld, stopCore_setCore]
  exact congrArg (settleStop · n) (setCore_setCore (noteErr s _ _ _ _) n _ _)

/-- So does an issue. -/
theorem issued_unheld (w : W64) (pc : Nat) : issued (unheld s n) n w pc = issued s n w pc := by
  rw [unheld, issued_setCore, issued_eq]
  rfl

theorem issueLocal_unheld (w : W64) : issueLocal (unheld s n) n w = issueLocal s n w := by
  have issuedPut {a b : Core} {pc : Nat} (hab : stepped a w pc = stepped b w pc) :
      issued (setCore (unheld s n) n a) n w pc = issued (setCore s n b) n w pc := by
    rw [unheld, setCore_setCore, issued_setCore, issued_setCore, hab]
  have hdest : destErr (unheld s n) n = destErr s n := rfl
  have hscalar : scalarVal (unheld s n) n w = scalarVal s n w := by simp only [scalarVal, core_unheld]; rfl
  unfold issueLocal
  simp only [core_unheld, hdest, hscalar]
  refine ite_congr rfl (fun _ => refuse_unheld s n _ _) fun _ => ?_
  -- a branch
  refine ite_congr rfl (fun _ => ?_) fun _ => ?_
  · exact ite_congr rfl (fun _ => refuse_unheld s n _ _) fun _ => issued_unheld s n _ _
  -- END
  refine ite_congr rfl (fun _ => ?_) fun _ => ?_
  · exact congrArg (modCore · n _) (issued_unheld s n _ _)
  -- a scalar result
  refine ite_congr rfl (fun _ => ?_) fun _ => ?_
  · unfold setG
    split <;> exact issuedPut rfl
  -- HSET
  refine ite_congr rfl (fun _ => ?_) fun _ => ?_
  · exact ite_congr rfl (fun _ => refuse_unheld s n _ _) fun _ => issuedPut rfl
  -- HREL
  refine ite_congr rfl (fun _ => ?_) fun _ => ?_
  · generalize (if bit w 35 then destErr s n (fld w 34 23) else none) = away
    cases away with
    | some code => exact refuse_unheld s n _ _
    | none =>
      refine ite_congr rfl (fun _ => refuse_unheld s n _ _) fun _ => ?_
      refine ite_congr rfl (fun _ => refuse_unheld s n _ _) fun _ => ?_
      have after (x : SMap Slots) : issued (if hChecked (getH (core s n) (fld w 47 42)) then
            setCore (unheld s n) n { core s n with state := .running, hold := none, slots := x } else unheld s n) n w ((core s n).pc + 1) =
          issued (if hChecked (getH (core s n) (fld w 47 42)) then setCore s n { core s n with slots := x } else s) n w
            ((core s n).pc + 1) := by
        split
        · exact issuedPut rfl
        · exact issued_unheld s n _ _
      exact ite_congr rfl (fun _ => congrArg (sendInc · n _ _ _ _) (after _)) fun _ => after _
  -- SIGNAL
  refine ite_congr rfl (fun _ => ?_) fun _ => ?_
  · cases destErr s n (fld w 47 36) with
    | some code => exact refuse_unheld s n _ _
    | none => exact congrArg (sendInc · n _ _ _ _) (issued_unheld s n _ _)
  -- CSET
  refine ite_congr rfl (fun _ => issuedPut rfl) fun _ => ?_
  -- TSET and the words that only move on
  exact ite_congr rfl (fun _ => congrArg (modCore · n _) (issued_unheld s n _ _)) fun _ => issued_unheld s n _ _

end

/-- An attempt at a word of no unit that nothing but LAUNCH_AT's stamp may hold (R63, R65, R79). -/
theorem tryIssue_local {s : State} {n o : Nat} {w : W64} (ho : opc w = o) (hu : unitOf o = none) (hlegal : illegal w = false)
    (hfree : hazards (core s n) w (readsOf w 0) (writesOf w) = false) (hfence : o = 0x2D → ufenceWaits (core s n) w = false)
    (hrel : o = 0x21 → hrelWaits (core s n) w = false) : tryIssue s n w =
      if o = 0x2C ∧ localCopy s (n / 16) < stampOf (core s n) w then
        setCore s n (startHold s n { core s n with state := .waiting, hold := some { launch := true, since := now s, limited := false } })
      else issueLocal s n w := by
  have noFence : ¬ (o = 0x2D ∧ ufenceWaits (core s n) w = true) := fun h => absurd (h.2.symm.trans (hfence h.1)) (by decide)
  have noRel : ¬ (o = 0x21 ∧ hrelWaits (core s n) w = true) := fun h => absurd (h.2.symm.trans (hrel h.1)) (by decide)
  simp only [tryIssue, ho, hu, hlegal, hfree, noFence, noRel, Bool.false_eq_true, if_false]

/-! ### LAUNCH_AT -/

theorem launchStampReached_ofHold {s : State} {n : Nat} {h : Hold} (hst : (core s n).state = .waiting) (hh : (core s n).hold = some h)
    (hl : h.launch = true) (hreached : stampOf (core s n) (wordAt (core s n)) ≤ localCopy s (n / 16)) : launchStampReached s n =
      if (core s n).startAt.isSome then setCore s n { core s n with state := .running, hold := none, startAt := none }
      else issueLocal s n (wordAt (core s n)) := by
  simp [launchStampReached, hst, hh, hl, hreached]

theorem launchAtHoldsUntilItsStamp : claimLaunchAtHoldsUntilItsStamp := by
  intro s n
  refine ⟨fun h hreached => ?issues, fun h hlate => ?holds, fun h hst hh hl hword ho hlegal hreached => ?word,
    fun h t hst hh hl hrec hreached => ?record⟩
  case issues =>
    exact row_issues h (hstamp := fun _ => hreached) fun hlegal ho => issueLocal_plain hlegal (.inr (.inr (.inl ho)))
  case holds =>
    refine congrArg Host.Outcome.next ?_
    rw [coreRowMet_clean, (coreRow_ofAtWord h rfl).1, if_neg (by simp), if_neg (by simp), if_pos ⟨rfl, hlate⟩]
  case word =>
    refine congrArg Host.Outcome.next ?_
    rw [launchStampReached_ofHold hst hh hl hreached, hword, if_neg (by decide), issueLocal_plain hlegal (.inr (.inr (.inl ho)))]
  case record =>
    have hstamp : stampOf (core s n) (wordAt (core s n)) ≤ localCopy s (n / 16) := by
      simpa only [stampOf, hrec, Option.getD_some] using hreached
    refine congrArg Host.Outcome.next ?_
    rw [launchStampReached_ofHold hst hh hl hstamp, if_pos (by simp [hrec])]

/-! ### Counter waits -/

theorem hazards_ofReady {s : State} {n o : Nat} (h : ready s n o = true) :
    hazards (core s n) (wordAt (core s n)) (readsOf (wordAt (core s n)) 0) (writesOf (wordAt (core s n))) = false := by
  simp only [ready, Bool.and_eq_true, Bool.not_eq_true'] at h
  exact h.2

/-- The attempt at the held word is the attempt at it on the core whose hold has ended. -/
theorem tryIssue_ofUnheldReady {s : State} {n o : Nat} (h : ready (unheld s n) n o = true) (hu : unitOf o = none)
    (hfence : o = 0x2D → ufenceWaits (core s n) (wordAt (core s n)) = false)
    (hrel : o = 0x21 → hrelWaits (core s n) (wordAt (core s n)) = false) :
    tryIssue s n (wordAt (core s n)) = coreRow (unheld s n) n o := by
  have hword : wordAt (core (unheld s n) n) = wordAt (core s n) := by rw [core_unheld]; rfl
  have ho := hword ▸ opc_ofReady h
  have hlegal := hword ▸ illegal_ofReady h
  have hfree := hazards_ofReady h
  rw [hword, core_unheld] at hfree
  have noFence : ¬ (o = 0x2D ∧ ufenceWaits (core s n) (wordAt (core s n)) = true) := by
    rintro ⟨he, hw⟩; exact absurd (hw.symm.trans (hfence he)) (by decide)
  have noRel : ¬ (o = 0x21 ∧ hrelWaits (core s n) (wordAt (core s n)) = true) := by
    rintro ⟨he, hw⟩; exact absurd (hw.symm.trans (hrel he)) (by decide)
  rw [tryIssue_local ho hu hlegal hfree hfence hrel, (coreRow_ofAtWord h hu).1, hword, issueLocal_unheld]
  simp only [core_unheld]
  refine Eq.trans ?_ (if_neg noFence).symm
  refine Eq.trans ?_ (if_neg noRel).symm
  refine ite_congr rfl (fun _ => ?_) fun _ => rfl
  rw [unheld]
  exact (setCore_setCore _ _ _ _).symm

theorem counterWaitMet_ofHold {s : State} {n : Nat} {h : Hold} (hst : (core s n).state = .waiting) (hh : (core s n).hold = some h)
    (hl : h.launch = false) (hmet : waitMet (core s n) (waitCtr (wordAt (core s n))) = true) :
    counterWaitMet s n = tryIssue s n (wordAt (core s n)) := by
  have hmet' : waitMet (core s n) (heldCtr (core s n)) = true := hmet
  simp [counterWaitMet, hst, hh, hl, hmet']

theorem counterWaitHoldsTheCore : claimCounterWaitHoldsTheCore := by
  intro s n
  have metRow {h} (hst : (core s n).state = .waiting) (hh : (core s n).hold = some h) (hl : h.launch = false)
      (hmet : waitMet (core s n) (waitCtr (wordAt (core s n))) = true) (ho : opc (wordAt (core s n)) ≠ 0x4A) :
      exec (.counterWaitMet n) s = .next (tryIssue s n (wordAt (core s n))) :=
    congrArg Host.Outcome.next ((if_neg ho).trans (counterWaitMet_ofHold hst hh hl hmet))
  refine ⟨fun r hr hc hpc ho hen hunmet => ?held, fun hc hpc ho hen hunmet => ?moveHeld, fun h hst hh hl hmet =>
    ⟨metRow hst hh hl hmet, fun ho => ?move, fun ho hlegal hfree => ?wait, fun r hr hu hready hfence hrel => ?unheld⟩⟩
  case held => rw [exec_coreRows hr, coreRowMet_clean, coreRow_held hc hpc ho hen hunmet]
  case moveHeld =>
    refine congrArg Host.Outcome.next ?_
    simp only [moveR, coreRowMet_clean, coreRow_held hc hpc ho hen hunmet, core_setCore]
    exact if_pos rfl
  case move => exact congrArg Host.Outcome.next ((if_pos ho).trans (congrArg (movesOpen · n) (counterWaitMet_ofHold hst hh hl hmet)))
  case wait =>
    have noReads : readsOf (wordAt (core s n)) 0 = [] := by simp [readsOf, ho]
    have noWrites : writesOf (wordAt (core s n)) = [] := by simp [writesOf, ho]
    rw [metRow hst hh hl hmet (by simp [ho]), tryIssue_local ho rfl hlegal (by rw [noReads, noWrites, hfree]) (by simp) (by simp),
      if_neg (by simp), issueLocal_plain hlegal (.inr (.inl ho))]
  case unheld =>
    rw [metRow hst hh hl hmet (fun ho => ?_), tryIssue_ofUnheldReady hready hu hfence hrel, exec_coreRows hr, coreRowMet_clean]
    have hword := opc_ofReady hready
    rw [core_unheld] at hword
    exact absurd (hu.symm.trans (congrArg unitOf (hword.symm.trans ho))) (by decide)

/-- Settles O7: waits on a stamp and waits on a counter. -/
theorem waitsHoldTheCore : Obligations.WaitsHoldTheCore := ⟨launchAtHoldsUntilItsStamp, counterWaitHoldsTheCore⟩

/-! ### The units' queues -/

/-- Settles O9: every row of these units is the attempt to issue, and a ready word goes into its queue. -/
theorem unitInstructionsIssue : Obligations.UnitInstructionsIssue := by
  intro s n u r hr hunit hmover hready
  rw [exec_coreRows hr, coreRowMet_clean, coreRow_ofUnitReady hready hunit hmover]

end Sys2Proof.Machine
end

section
/-! PROOFS. What the vector engine writes at VECTOR_RESULT (Table 4-8, R88, R120, R588). -/

namespace Sys2Proof.Machine

/-- The lines of Table 4-8 that compute a vector register: the opcode and the value in VD. -/
def vecRows (c : Core) (w reg : W64) : List (Nat × VReg) :=
  let ty := fld w 27 26
  let a := getV c (fld w 42 38)
  let b := getV c (fld w 37 33)
  let d := getV c (fld w 32 28)
  [(0x60, vAdd ty a b), (0x61, vSub ty a b), (0x62, vMul ty a b), (0x63, vFma ty a b d), (0x64, vMin ty a b),
    (0x65, vMax ty a b), (0x66, vAbs ty a), (0x67, vCmp ty (fld w 2 0) a b), (0x68, vSel ty a b d),
    (0x69, vCvt ty (fld w 25 22) (bit w 21) a), (0x6A, vDiv ty a b), (0x6B, vSqrt ty a), (0x6C, vTrans ty vrcp a),
    (0x6D, vTrans ty vrsq a), (0x6E, vTrans ty vexp2 a), (0x6F, vTrans ty vlog2 a), (0x70, vRsum ty a), (0x71, vBcast ty reg)]

theorem vecArith_ofRow {c : Core} {w reg : W64} {r : Nat × VReg} (hr : r ∈ vecRows c w reg) (ho : opc w = r.1) :
    vecArith c w reg = r.2 := by
  simp only [vecRows, List.mem_cons, List.not_mem_nil, or_false] at hr
  unfold vecArith
  rcases hr with rfl | rfl | rfl | rfl | rfl | rfl | rfl | rfl | rfl | rfl | rfl | rfl | rfl | rfl | rfl | rfl | rfl | rfl <;>
    (rw [ho]; rfl)

theorem opc_vecRows {c : Core} {w reg : W64} {r : Nat × VReg} (hr : r ∈ vecRows c w reg) : r.1 < 0x72 := by
  have all : ∀ x ∈ vecRows c w reg, x.1 < 0x72 := by simp [vecRows]
  exact all r hr

section
variable {s : State} {n : Nat} {f : Flight}

theorem vecEffect_arith (ho : opc f.word < 0x72) :
    vecEffect s n f = setCore s n (setV (core s n) (fld f.word 47 43) (vecArith (core s n) f.word f.reg)) := by
  simp only [vecEffect]
  repeat rw [if_neg (by omega)]

theorem flightLine_unchanged (h : f.olds = []) (tag l : Nat) :
    flightLine s n f tag l = ofBytes (readBytes s.mem (coreAddr n (64 * l)) 64) := by
  simp only [flightLine, h, List.filter_nil, List.map_nil]

theorem vecEffect_vld (ho : opc f.word = 0x72) (h : f.olds = []) : vecEffect s n f =
    let l := (vmemOff f.word f.reg).toNat / 64
    let e := getH (core s n) (fld f.word 37 32)
    setCore s n (setV (core s n) (fld f.word 47 43) (BitVec.ofNat 1024
      (ofBytes (readBytes s.mem (coreAddr n (64 * hLine e l)) 64) +
        ofBytes (readBytes s.mem (coreAddr n (64 * hLine e (l + 1))) 64) * 2 ^ 512))) := by
  simp only [vecEffect, ho, flightLine_unchanged h, h, List.isEmpty_nil, if_true]

theorem vecEffect_vst (ho : opc f.word = 0x73) : vecEffect s n f =
    { s with mem := writeCells s.mem (mapIx (fun i b => (vmemAddr (core s n) n f i, b)) 0
        (toBytes 128 (getV (core s n) (fld f.word 47 43)).toNat)) } := by
  simp [vecEffect, ho]

theorem vecEffect_vlda (ho : opc f.word = 0x74) : vecEffect s n f = setCore s n
    (setV (core s n) (fld f.word 47 43) (BitVec.ofNat 1024 (readLe s.mem (vaccAddr n f.word 0) 128))) := by
  simp [vecEffect, ho]

theorem vecEffect_vsta (ho : opc f.word = 0x75) : vecEffect s n f =
    { s with mem := writeBytes s.mem (vaccAddr n f.word 0) (toBytes 128 (getV (core s n) (fld f.word 47 43)).toNat) } := by
  simp [vecEffect, ho, writeLe]

theorem setG_eq (c : Core) (d : Nat) (v : W64) : setG c d v = { c with g := if d = 0 then c.g else sput c.g d v } := by
  unfold setG
  split <;> rfl

theorem vecEffect_vmovg (ho : opc f.word = 0x76) : vecEffect s n f = setCore s n (setG (core s n) (fld f.word 47 43)
    (vLane (fld f.word 27 26) (fld f.word 5 0) (getV (core s n) (fld f.word 42 38)))) := by
  simp [vecEffect, ho]

end

/-- Settles O10: the head of the queue completes with its line of Table 4-8 in VD. -/
theorem vectorArithmeticResults : Obligations.VectorArithmeticResults := by
  intro s n chk f hhead hpass w ty a b d r hr ho
  have hr : r ∈ vecRows (core s n) f.word f.reg := hr
  have hlow : opc f.word < 0x72 := lt_of_eq_of_lt ho (opc_vecRows hr)
  rw [vectorResult_head hhead hpass, vecEffect_arith hlow, vecArith_ofRow hr ho]
  rfl

/-- Settles O11: the head of the queue completes with its line of Table 4-8 in VD, in memory or in GD. -/
theorem vectorMemoryResults : Obligations.VectorMemoryResults := by
  intro s n chk f hhead hpass
  simp only [vectorResult_head hhead hpass]
  refine ⟨fun ho hold => ?_, fun ho => ?_, fun ho => ?_, fun ho => ?_, fun ho => ?_⟩
  · rw [vecEffect_vld ho hold]; rfl
  · rw [vecEffect_vst ho]
  · rw [vecEffect_vlda ho]; rfl
  · rw [vecEffect_vsta ho]
  · rw [vecEffect_vmovg ho, setG_eq]

end Sys2Proof.Machine
end

section
/-! PROOFS. What the array and the merge engine write at MMA_D_TILE_WRITE, MMA_A_PART and MERGE_TILE_WRITE, and the residue checks
(R107, R110, R181, R187, R189-R191, R444, R445). -/

namespace Sys2Proof.Machine

section
variable {s : State} {n : Nat} {f : Flight} {chk : Chk}

/-! ### The residue checks -/

theorem withCheck_rerun (hon : bit s.glob.integCfg 0 = true) (good : State → State) :
    withCheck s n f .rerun good = complete (good (cureArith s n f)) n f := by
  simp [withCheck, hon]

theorem withCheck_fail (hon : bit s.glob.integCfg 0 = true) (good : State → State) :
    withCheck s n f .fail good = failedCheck s n f := by
  simp [withCheck, hon, failedCheck]

/-! ### Parts of an MMA.A -/

/-- What part f.part of f computes from operands o. -/
def partVals (s : State) (n : Nat) (f : Flight) (o : OpLines) : List Nat :=
  partForm f.word f.reg (f.path == some true) o (partStart s n f)

/-- Part f.part of f, computed over s, writes its tile into t. -/
def partWritten (s : State) (n : Nat) (f : Flight) (o : OpLines) (t : State) : State :=
  putTile (noteSample t n f o (partStart s n f) (partVals s n f o)) n f (partVals s n f o)

theorem endPart_last (hlast : mmaK16 f.word ≤ f.part + 1) (o : OpLines) :
    endPart s n f chk o = withCheck s n f chk (partWritten s n f o) := if_neg (Nat.not_lt.mpr hlast)

theorem endPart_next (hnext : f.part + 1 < mmaK16 f.word) (hpass : checkPasses s chk = true) (o : OpLines) :
    endPart s n f chk o = partWritten s n f o (nextPart s n f) := by
  simp only [checkPasses, Bool.or_eq_true, Bool.not_eq_true', decide_eq_true_eq] at hpass
  unfold endPart
  rw [if_pos hnext]
  rcases hpass with hoff | rfl
  · rw [hoff]
    cases chk <;> rfl
  · cases bit s.glob.integCfg 0 <;> rfl

theorem endPart_fail (hon : bit s.glob.integCfg 0 = true) (o : OpLines) : endPart s n f .fail o = failedCheck s n f := by
  unfold endPart
  split
  · rw [hon]
    exact withCheck_fail hon id
  · exact withCheck_fail hon _

/-! ### The commands on the instruction at the head -/

section
variable (hmay : mayFinish f = true)
include hmay

theorem mmaDTileWrite_array (hhead : headArray s n = some f) : mmaDTileWrite s n false chk = withCheck s n f chk
    (fun t => putTile (noteSample t n f (mmadReads t n f) (startTile t.mem f.word n) (mmadTile t n f)) n f (mmadTile t n f)) := by
  simp [mmaDTileWrite, hhead, hmay]

theorem mmaDTileWrite_part (hhead : headMerge s n = some f) (hpath : f.path = some true) (hidle : arrayBusy (core s n) = false)
    (hgood : (mergeOps s n f f.part 1).bad = none) :
    mmaDTileWrite s n true chk = addBusy (endPart s n f chk (mergeReads s n f f.part 1)) n := by
  simp [mmaDTileWrite, hhead, hmay, hpath, hidle, hgood]

theorem mmaDTileWrite_badPart (hhead : headMerge s n = some f) (hpath : f.path = some true) (hidle : arrayBusy (core s n) = false)
    {b} (hbad : (mergeOps s n f f.part 1).bad = some b) : mmaDTileWrite s n true chk = ctileBad s n f b := by
  simp [mmaDTileWrite, hhead, hmay, hpath, hidle, hbad]

theorem mmaAPart_badPart (hhead : headMerge s n = some f) (ho : opc f.word = 0x42) (hpath : f.path = none)
    {b} (hbad : (mergeOps s n f f.part 1).bad = some b) : mmaAPart s n = ctileBad s n f b := by
  simp [mmaAPart, hhead, hmay, ho, hpath, hbad]

theorem mmaAPart_picks (hhead : headMerge s n = some f) (ho : opc f.word = 0x42) (hpath : f.path = none)
    (hgood : (mergeOps s n f f.part 1).bad = none) : mmaAPart s n =
      let merge := partMerges f.reg f.thresh (mergeReads s n f f.part 1)
      let k := cluster s (n / 16)
      setCluster (setCore s n (putFlight (core s n) { f with path := some (!merge) })) (n / 16)
        (if merge then { k with pickMerge := k.pickMerge + 1 } else { k with pickDense := k.pickDense + 1 }) := by
  simp [mmaAPart, hhead, hmay, ho, hpath, hgood]

theorem mergeTileWrite_part (hhead : headMerge s n = some f) (ho : opc f.word = 0x42) (hpath : f.path = some false)
    (hgood : (mergeOps s n f f.part 1).bad = none) :
    mergeTileWrite s n chk = addBusy (endPart s n f chk (mergeReads s n f f.part 1)) n := by
  simp [mergeTileWrite, hhead, hmay, ho, hpath, hgood]

theorem mergeTileWrite_badPart (hhead : headMerge s n = some f) (ho : opc f.word = 0x42) (hpath : f.path = some false)
    {b} (hbad : (mergeOps s n f f.part 1).bad = some b) : mergeTileWrite s n chk = ctileBad s n f b := by
  simp [mergeTileWrite, hhead, hmay, ho, hpath, hbad]

theorem mergeTileWrite_badSparse (hhead : headMerge s n = some f) (ho : opc f.word = 0x41)
    {b} (hbad : (mergeOps s n f 0 (mmaK16 f.word)).bad = some b) : mergeTileWrite s n chk = ctileBad s n f b := by
  simp [mergeTileWrite, hhead, hmay, ho, hbad]

/-- The state in which an MMA.S's check is made: SEG_EXTRA has counted its segments (R187). -/
def segsCounted (s : State) (n : Nat) (f : Flight) : State :=
  setCluster s (n / 16) { cluster s (n / 16) with
    segExtra := (cluster s (n / 16)).segExtra + BitVec.ofNat 64 (segExtra (mergeOps s n f 0 (mmaK16 f.word)) f.rowSplit) }

/-- What an MMA.S computes over s. -/
def sparseVals (s : State) (n : Nat) (f : Flight) : List Nat :=
  mergeForm f.word f.reg f.rowSplit (mergeReads s n f 0 (mmaK16 f.word)) (startTile s.mem f.word n)

/-- An MMA.S, computed over s, writes its tile into t. -/
def sparseWritten (s : State) (n : Nat) (f : Flight) (t : State) : State :=
  putTile (noteSample t n f (mergeReads s n f 0 (mmaK16 f.word)) (startTile s.mem f.word n) (sparseVals s n f)) n f (sparseVals s n f)

theorem mergeTileWrite_sparse (hhead : headMerge s n = some f) (ho : opc f.word = 0x41)
    (hgood : (mergeOps s n f 0 (mmaK16 f.word)).bad = none) :
    mergeTileWrite s n chk = addBusy (withCheck (segsCounted s n f) n f chk (sparseWritten s n f)) n := by
  simp [mergeTileWrite, hhead, hmay, ho, hgood, segsCounted]
  rfl

end
end

/-- Settles O12: for each command, the instruction at the head is whole, ends its last part, goes on to the next or has a bad header. -/
theorem matrixTilesAreWritten : Obligations.MatrixTilesAreWritten := by
  intro s n chk f hmay hpass
  refine ⟨fun hhead => ?array,
    fun hhead hpath hidle => ⟨fun hgood hlast => ?denseLast, fun hgood hnext => ?denseNext, fun b hbad => ?denseBad⟩,
    fun hhead ho hpath => ⟨fun hgood hlast => ?mergeLast, fun hgood hnext => ?mergeNext, fun b hbad => ?mergeBad⟩,
    fun hhead ho hgood => ?sparse, fun b hhead ho hbad => ?sparseBad,
    fun hhead ho hpath => ⟨fun hgood => ?pick, fun b hbad => ?pickBad⟩⟩
  all_goals refine congrArg Host.Outcome.next ?_
  case array => rw [mmaDTileWrite_array hmay hhead, withCheck_pass hpass]; rfl
  case denseLast =>
    rw [mmaDTileWrite_part hmay hhead hpath hidle hgood, endPart_last hlast, withCheck_pass hpass]; rfl
  case denseNext => rw [mmaDTileWrite_part hmay hhead hpath hidle hgood, endPart_next hnext hpass]; rfl
  case denseBad => exact mmaDTileWrite_badPart hmay hhead hpath hidle hbad
  case mergeLast => rw [mergeTileWrite_part hmay hhead ho hpath hgood, endPart_last hlast, withCheck_pass hpass]; rfl
  case mergeNext => rw [mergeTileWrite_part hmay hhead ho hpath hgood, endPart_next hnext hpass]; rfl
  case mergeBad => exact mergeTileWrite_badPart hmay hhead ho hpath hbad
  case sparse =>
    have hcounted : checkPasses (segsCounted s n f) chk = true := hpass
    rw [mergeTileWrite_sparse hmay hhead ho hgood, withCheck_pass hcounted]
    rfl
  case sparseBad => exact mergeTileWrite_badSparse hmay hhead ho hbad
  case pick => exact mmaAPart_picks hmay hhead ho hpath hgood
  case pickBad => exact mmaAPart_badPart hmay hhead ho hpath hbad

theorem vectorResult_checked {s : State} {n : Nat} {f : Flight} (hhead : (unitFlights (core s n) .vec).head? = some f)
    (hcov : vecChecked f.word = true) (chk : Chk) : vectorResult s n chk = withCheck s n f chk (fun t => vecEffect t n f) := by
  simp [vectorResult, hhead, hcov]

theorem vectorResult_unchecked {s : State} {n : Nat} {f : Flight} (hhead : (unitFlights (core s n) .vec).head? = some f)
    (hcov : vecChecked f.word = false) (chk : Chk) : vectorResult s n chk = complete (vecEffect s n f) n f := by
  have pass : checkPasses s .pass = true := by simp [checkPasses]
  simp only [vectorResult, hhead, hcov, Bool.false_eq_true, if_false, withCheck_pass pass]

theorem arithmeticChecks : claimArithmeticChecks := by
  intro s n f hon hmay
  refine ⟨fun hhead hcov => ⟨?vecRerun, ?vecFail⟩, fun chk hhead hcov => ?vecUnchecked, fun hhead => ⟨?arrayRerun, ?arrayFail⟩,
    fun hhead hpath hidle hgood => ?denseFail, fun hhead ho hpath hgood => ?mergeFail, fun hhead ho hgood => ?sparseFail⟩
  all_goals refine congrArg Host.Outcome.next ?_
  case vecRerun => rw [vectorResult_checked hhead hcov, withCheck_rerun hon]
  case vecFail => rw [vectorResult_checked hhead hcov, withCheck_fail hon]
  case vecUnchecked => exact vectorResult_unchecked hhead hcov chk
  case arrayRerun => rw [mmaDTileWrite_array hmay hhead, withCheck_rerun hon]
  case arrayFail => rw [mmaDTileWrite_array hmay hhead, withCheck_fail hon]
  case denseFail => rw [mmaDTileWrite_part hmay hhead hpath hidle hgood, endPart_fail hon]
  case mergeFail => rw [mergeTileWrite_part hmay hhead ho hpath hgood, endPart_fail hon]
  case sparseFail =>
    have hcounted : bit (segsCounted s n f).glob.integCfg 0 = true := hon
    rw [mergeTileWrite_sparse hmay hhead ho hgood, withCheck_fail hcounted]
    rfl

end Sys2Proof.Machine
end

section
/-! PROOFS. What a host write of four bytes reaches on the pages of cores, clusters and the endpoint once its page is open. -/

namespace Sys2Proof.Machine

section
variable {s : State} {o : Nat} {v : W32} (ho : o < 4096) (h4 : o % 4 = 0) (h40 : 0x40 ≤ o)
include ho h4 h40

theorem hostReg_ofCore {n : Nat} (hn : n < 4096) (h : regOpen s (pgCore n) = true) :
    hostReg s (pgCore n) o v.toNat = coreWrite s n o v := by
  have hpage := pageType_pgCore hn
  rw [hostReg_ofBlock h hpage (by unfold pgCore; omega) ho h4 h40 entryPage_pgCore (by simp [wide, hpage, entryPage_pgCore])]
  simp only [blockWrite, hpage, BitVec.ofNat_toNat, BitVec.setWidth_eq]

theorem hostReg_ofCluster {g : Nat} (hg : g < 256) (h : regOpen s (pgCluster g) = true) :
    hostReg s (pgCluster g) o v.toNat = clusterWrite s g o v := by
  have hpage := pageType_pgCluster hg
  rw [hostReg_ofBlock h hpage (by unfold pgCluster; omega) ho h4 h40 entryPage_pgCluster (by simp [wide, hpage, entryPage_pgCluster])]
  simp only [blockWrite, hpage, BitVec.ofNat_toNat, BitVec.setWidth_eq]

end

end Sys2Proof.Machine
end

section
/-! PROOFS. Checked duplication: samples, comparisons, DUP_CFG and the rotation of the checker role (R447-R450). -/

namespace Sys2Proof.Machine

/-! ### DUP_COMPARE -/

theorem dupCompare_idle {s : State} {g : Nat} (b : Bool) (h : (cluster s g).checker = none ∨ (cluster s g).sample = none) :
    dupCompare s g b = s := by
  rcases h with h | h
  · simp only [dupCompare, h]
  · cases hc : (cluster s g).checker <;> simp only [dupCompare, h, hc]

section
variable {s : State} {g i : Nat} {x : Sample} (hchecker : (cluster s g).checker = some i) (hsample : (cluster s g).sample = some x)
include hchecker hsample

theorem dupCompare_unwritten (b : Bool) (h : x.written = false) : dupCompare s g b = s := by
  simp [dupCompare, hchecker, hsample, h]

theorem dupCompare_written (b : Bool) (h : x.written = true) : dupCompare s g b =
    let t := setCluster s g { cluster s g with sample := none, dupSamples := (cluster s g).dupSamples + 1 }
    if tilesDiffer x b then dupMismatch t g i x else afterSample t g := by
  simp [dupCompare, hchecker, hsample, h]

end

theorem tilesDiffer_iff (x : Sample) : tilesDiffer x false = true ↔
    ¬ (x.reads = [] ∨ x.tile = [] ∨ tilesAgree (fld x.word 5 2) (checkerTile x) x.tile = true) := by
  simp [tilesDiffer, and_assoc]

/-! ### The rotation of the role -/

/-- The rotation point of cluster g has come (R447). -/
def rotationDue (s : State) (g : Nat) : State :=
  if clusterActive s g && decide ((cluster s g).rotateAt ≤ now s) then setCluster s g { cluster s g with
    rotateDue := (cluster s g).rotateDue || (bit (cluster s g).dupCfg 30 && (cluster s g).checker.isSome)
    rotateAt := now s + 2 ^ rotShift (cluster s g) } else s

theorem checkerRotate_eq (s : State) (g : Nat) : checkerRotate s g = tryRotate (rotationDue s g) g := rfl

section
variable {s : State} {g : Nat}

theorem tryRotate_none (h : (cluster s g).checker = none) : tryRotate s g = if (cluster s g).rotateDue then passRole s g 0 else s := by
  simp only [tryRotate, h]

theorem tryRotate_waits {i : Nat} (h : (cluster s g).checker = some i)
    (hno : (cluster s g).rotateDue = false ∨ (cluster s g).sample ≠ none) : tryRotate s g = s := by
  have notNow : ((cluster s g).rotateDue && (cluster s g).sample.isNone) = false := by
    rcases hno with hno | hno <;> simp [hno, Option.isSome_iff_ne_none]
  simp only [tryRotate, h, notNow, Bool.false_eq_true, if_false]

theorem tryRotate_due {i : Nat} (h : (cluster s g).checker = some i) (hdue : (cluster s g).rotateDue = true)
    (hfree : (cluster s g).sample = none) : tryRotate s g =
      (nextChecker s g (i + 1)).elim s (fun j => takeRole (leaveRole s g) g j) := by
  simp only [tryRotate, h, hdue, hfree, Option.isNone_none, Bool.and_self, if_true]
  cases nextChecker s g (i + 1) <;> rfl

end

/-! ### DUP_CFG -/

/-- A host write of DUP_CFG reaches its cluster. -/
theorem exec_dupCfgWrite {s : State} {g : Nat} (v : W32) (hg : g < 256) (hopen : regOpen s (pgCluster g) = true) :
    exec (.dupCfgWrite g v) s = .next (dupCfgWrite s g v) := by
  refine congrArg Host.Outcome.next ?_
  rw [if_pos hg, hostReg_ofCluster (by omega) (by omega) (by omega) hg hopen]
  simp [clusterWrite]

/-- Cluster g with the fields of DUP_CFG written. -/
def dupCfgTaken (s : State) (g : Nat) (v : W32) : State :=
  settleFull (setCluster s g { cluster s g with dupCfg := setFld (setFld v 29 24 0) 15 4 0 })

section
variable {s : State} {g : Nat} {v : W32}

theorem dupCfgWrite_on (hon : bit (setFld (setFld v 29 24 0) 15 4 0) 31 = true) : dupCfgWrite s g v =
    if (cluster s g).checker = none then passRole (dupCfgTaken s g v) g 0 else dupCfgTaken s g v := by
  simp only [dupCfgWrite, hon, Bool.true_and, Option.isNone_iff_eq_none, Bool.not_true, Bool.false_and, Bool.false_eq_true, if_false]
  rfl

theorem dupCfgWrite_off (hoff : bit (setFld (setFld v 29 24 0) 15 4 0) 31 = false) : dupCfgWrite s g v =
    if (cluster s g).sample = none then dropRole (dupCfgTaken s g v) g else dupCfgTaken s g v := by
  simp only [dupCfgWrite, hoff, Bool.false_and, Bool.false_eq_true, if_false, Bool.not_false, Bool.true_and, Option.isNone_iff_eq_none]
  rfl

end

/-! ### The choice of a sample -/

/-- The start of an instruction that is not sampled. -/
def startedPlain (s : State) (n : Nat) (f : Flight) : State :=
  setCore s n { putFlight (core s n) { f with started := true } with sinceSample := (core s n).sinceSample + 1 }

/-- Core n has a checker that is not itself (R447). -/
def isChecked (s : State) (n : Nat) : Bool :=
  decide ((cluster s (n / 16)).checker.all (fun ck => ck ≠ n % 16)) && (cluster s (n / 16)).checker.isSome &&
    bit (cluster s (n / 16)).dupCfg 31

/-- The period or the activity calls for a sample (R448). -/
def sampleDue (s : State) (n : Nat) : Bool :=
  decide (2 ^ periodShift (cluster s (n / 16)) ≤ (core s n).sinceSample) || decide (2 ^ 20 ≤ (core s n).activity)

theorem sampleStart_eq (s : State) (n : Nat) (f : Flight) : sampleStart s n f =
    if isChecked s n && sampleDue s n then
      if (cluster s (n / 16)).sample = none ∧ (cluster s (n / 16)).dupQueue = [] then
        setCluster (setCore s n { putFlight (core s n) { f with started := true, sampled := true } with sinceSample := 0, activity := 0 })
          (n / 16) { cluster s (n / 16) with sample := some (newSample n f) }
      else
        setCluster (setCore s n (putFlight (core s n) { f with started := true, sampleWait := true })) (n / 16)
          { cluster s (n / 16) with dupQueue := (cluster s (n / 16)).dupQueue ++ [n] }
    else startedPlain s n f := by
  unfold sampleStart isChecked sampleDue startedPlain
  cases hc : (cluster s (n / 16)).checker with
  | none => simp [hc]
  | some ck =>
    by_cases hself : ck = n % 16
    · simp [hc, hself]
    · cases hon : bit (cluster s (n / 16)).dupCfg 31 <;> simp [hc, hself, hon]

theorem duplicates : claimDuplicates := by
  intro s g
  refine ⟨fun i x hchecker hsample => ⟨fun b hw => ?unwritten, fun hw => ?faulty, fun hw => ?compared⟩, fun b hidle => ?idle,
    ⟨fun i hchecker hdue hfree => ?rotates, fun i hchecker hno => ?waits, fun hnone => ?noChecker⟩,
    fun v hg hopen => ⟨fun hon hc => ?gives, fun hon hc => ?keeps, fun hoff hs => ?drops, fun hoff hs => ?waitsSample⟩,
    fun v hg => ?outside, fun n f hn => ?samples⟩
  case unwritten => exact congrArg Host.Outcome.next (dupCompare_unwritten hchecker hsample b hw)
  case faulty => exact congrArg Host.Outcome.next (dupCompare_written hchecker hsample true hw)
  case compared =>
    refine congrArg Host.Outcome.next ((dupCompare_written hchecker hsample false hw).trans ?_)
    simp only [tilesDiffer_iff, ite_not]
  case idle => exact congrArg Host.Outcome.next (dupCompare_idle b hidle)
  case rotates =>
    refine congrArg Host.Outcome.next ((tryRotate_due hchecker hdue hfree).trans ?_)
    cases nextChecker _ g (i + 1) <;> rfl
  case waits => exact congrArg Host.Outcome.next (tryRotate_waits hchecker hno)
  case noChecker => exact congrArg Host.Outcome.next (tryRotate_none hnone)
  case gives => rw [exec_dupCfgWrite v hg hopen, dupCfgWrite_on hon, if_pos hc]; rfl
  case keeps => rw [exec_dupCfgWrite v hg hopen, dupCfgWrite_on hon, if_neg hc]; rfl
  case drops => rw [exec_dupCfgWrite v hg hopen, dupCfgWrite_off hoff, if_pos hs]; rfl
  case waitsSample => rw [exec_dupCfgWrite v hg hopen, dupCfgWrite_off hoff, if_neg hs]; rfl
  case outside => exact congrArg Host.Outcome.next (if_neg (Nat.not_lt.mpr hg))
  case samples =>
    subst hn
    refine ⟨fun hno => ?_, fun hyes hfree hempty => ?_, fun hyes hbusy => ?_⟩
    · exact (sampleStart_eq s n f).trans (if_neg (ne_true_of_eq_false hno))
    · exact (sampleStart_eq s n f).trans ((if_pos hyes).trans (if_pos ⟨hfree, hempty⟩))
    · exact (sampleStart_eq s n f).trans ((if_pos hyes).trans (if_neg (by rw [not_and_or]; exact hbusy)))

/-- Settles O38: the duplicates, and the checks of arithmetic. -/
theorem duplicateExecution : Obligations.DuplicateExecution := ⟨duplicates, arithmeticChecks⟩

end Sys2Proof.Machine
end

section
/-! PROOFS. Cores as they load and end a program, take STOP and RESET, fall asleep and wake (R66, R94, R259, R267, R284-R289). -/

namespace Sys2Proof.Machine

/-! ### Programs -/

theorem programLoadFillsTheCore : claimProgramLoadFillsTheCore := by
  intro s n es hload hrun
  refine ⟨fun hclean => congrArg Host.Outcome.next ?_, fun hpoison => congrArg Host.Outcome.next ?_⟩
  · simp [programLoadDone, hload, hrun, hclean]
  · simp [programLoadDone, hload, hrun, hpoison]

theorem programEndReportsTheRecord : claimProgramEndReportsTheRecord := by
  intro s n hended hflights hstop
  refine ⟨fun r hrun => congrArg Host.Outcome.next ?_, fun hrun => congrArg Host.Outcome.next ?_⟩
  · simp [tileProgramEnd, hended, hflights, hstop, hrun, report]
  · simp [tileProgramEnd, hended, hflights, hstop, hrun]

/-- Settles O15: a program's load and its end. -/
theorem tileProgramsBeginAndEnd : Obligations.TileProgramsBeginAndEnd := ⟨programLoadFillsTheCore, programEndReportsTheRecord⟩

/-! ### STOP and RESET -/

section
variable {s : State} {n : Nat}

theorem exec_coreCmdStop (hn : n < 4096) (h : regOpen s (pgCore n) = true) :
    exec (.coreCmdStop n) s = .next (coreCmdWrite s n 1) :=
  congrArg Host.Outcome.next (hostReg_ofCore (v := 1) (by omega) (by omega) (by omega) hn h)

theorem exec_coreCmdReset (hn : n < 4096) (h : regOpen s (pgCore n) = true) :
    exec (.coreCmdReset n) s = .next (coreCmdWrite s n 2) :=
  congrArg Host.Outcome.next (hostReg_ofCore (v := 2) (by omega) (by omega) (by omega) hn h)

theorem coreCmdWrite_stop (hchecker : (core s n).checker = false) : coreCmdWrite s n 1 = coreStop s n := by
  have h0 : bit 1#32 0 = true := by decide
  have h1 : bit 1#32 1 = false := by decide
  simp [coreCmdWrite, h0, h1, stopCommand, hchecker]

theorem coreCmdWrite_reset : coreCmdWrite s n 2 =
    if (core s n).state = .idle ∨ (core s n).state = .asleep ∨ (core s n).state = .stopped then coreReset s n else s := by
  have h0 : bit 2#32 0 = false := by decide
  have h1 : bit 2#32 1 = true := by decide
  simp [coreCmdWrite, h0, h1, or_assoc]

theorem coreStop_ofOn (hon : coreOn s n = true) (hst : (core s n).state = .running ∨ (core s n).state = .waiting)
    (hstop : (core s n).stopping = none) :
    coreStop s n = stopCore (setCore s n { core s n with hold := none, state := .running }) n 0x020C 0 (core s n).pc := by
  rcases hst with hst | hst <;> simp [coreStop, hon, hst, hstop]

theorem coreReset_awake (hon : coreOn s n = true) (hst : (core s n).state = .idle ∨ (core s n).state = .stopped) :
    coreReset s n = tryRotate (setCore s n (startHold s n { cleared (core s n) with state := .idle })) (n / 16) := by
  simp [coreReset, hon, hst]

theorem core_dropWake : core (dropWake s n) n = { core s n with wakeReq := false } := sget_sput_same _ _ _ _

theorem coreReset_asleep (hon : coreOn s n = true) (hst : (core s n).state = .asleep) (hrun : (core s n).run = none) :
    coreReset s n = requestWake (setCore (dropWake s n) n { cleared (core s n) with wakeReq := false, wakeTo := 0 }) n 0 false := by
  refine (if_neg (by simp [hon])).trans ((if_neg (by simp [hst])).trans ((if_pos hst).trans ?_))
  simp only [hrun, core_dropWake]
  rfl

theorem coreReset_abandons (hon : coreOn s n = true) (hst : (core s n).state = .asleep) {r : Run} (hrun : (core s n).run = some r) :
    coreReset s n =
      let s1 := report (recordErr (dropWake s n) (pgCore n) 0x020D 0 (core s n).pc) r 0x020D 0
      requestWake (setCore s1 n { cleared (core s n) with wakeReq := false, wakeTo := 0 }) n 0 false := by
  have hcore : core (report (recordErr (dropWake s n) (pgCore n) 0x020D 0 (core s n).pc) r 0x020D 0) n =
      { core s n with wakeReq := false } := by
    rw [← core_dropWake]
    exact congrArg (sget Core.reset · n) (recordErr_cores (dropWake s n) _ _ _ _)
  refine (if_neg (by simp [hon])).trans ((if_neg (by simp [hst])).trans ((if_pos hst).trans ?_))
  simp only [hrun, hcore]
  rfl

end

/-- Settles O17: an open write of CORE_CMD is the command, which each state of the core takes or leaves. -/
theorem coreCommands : Obligations.CoreCommands := by
  intro s n hn hopen hon
  rw [exec_coreCmdStop hn hopen, exec_coreCmdReset hn hopen, coreCmdWrite_reset]
  refine ⟨fun hst hstop hchecker => ?stop, fun hst => ?awake, fun hst hrun => ?asleep, fun r hst hrun => ?abandons,
    fun hidle hstopped hasleep => ?ignored⟩
  all_goals refine congrArg Host.Outcome.next ?_
  case stop => rw [coreCmdWrite_stop hchecker, coreStop_ofOn hon hst hstop]
  case awake => rw [if_pos (by tauto), coreReset_awake hon hst]; rfl
  case asleep => rw [if_pos (.inr (.inl hst)), coreReset_asleep hon hst hrun]; rfl
  case abandons => rw [if_pos (.inr (.inl hst)), coreReset_abandons hon hst hrun]; rfl
  case ignored => exact if_neg (by tauto)

/-! ### Sleep -/

theorem idleCoreFallsAsleep : claimIdleCoreFallsAsleep := by
  intro s n c asleep hon hen hflights hchecker hstop hlong
  refine ⟨fun hst hrun hhold => congrArg Host.Outcome.next ?idle, fun h hst hhold hunmet => congrArg Host.Outcome.next ?held⟩
  case idle => simp_all [holdExpire, c, asleep]
  case held =>
    cases hl : h.launch with
    | true => simp_all [holdExpire, c, asleep]
    | false => simp_all [holdExpire, c, asleep]

theorem wakesOfCores : claimWakesOfCores := by
  intro s n c woke
  refine ⟨fun h hhold hst hl hnear => ?lead, fun hw => ?window, fun hst hto => ?idle, fun hst hto => ?running, fun hst hto hat => ?held,
    fun hst hto hat => ?launch, fun hst hto => ?testing, fun hst hto => ?checker,
    fun hst => ⟨fun hto hrun => ?failed, fun r hto hrun => ?reported, fun hto hrun => ?passed⟩⟩
  all_goals refine congrArg Host.Outcome.next ?_
  case lead => simp_all [launchWakeLead, c]
  case window => exact if_pos hw
  all_goals refine (if_neg (not_not_intro hst)).trans ?_
  case idle => simp [show (core s n).wakeTo = 0 from hto, woke, c]
  case running => simp [show (core s n).wakeTo = 1 from hto, woke, c]
  case held => simp [show (core s n).wakeTo = 2 from hto, show (core s n).startAt = none from hat, woke, c]
  case launch => simp [show (core s n).wakeTo = 2 from hto, show (core s n).startAt.isSome = true from hat, woke, c]
  case testing => simp [show (core s n).wakeTo = 3 from hto, woke, c]
  case checker => simp [show (core s n).wakeTo = 4 from hto, woke, c]
  case failed => simp [show (core s n).wakeTo ≠ 4 from hto, show (core s n).run = none from hrun, c]
  case reported => simp [show (core s n).wakeTo ≠ 4 from hto, show (core s n).run = some r from hrun, c]
  case passed => simp [show (core s n).wakeTo = 4 from hto, show (core s n).run = none from hrun, c]

theorem governorAdmitsARequest : claimGovernorAdmitsARequest := by
  intro s w
  simp only [admitWake, decide_eq_true_eq]
  rfl

/-- Settles O18: falling asleep, waking, and the governor's admission. -/
theorem sleepAndWake : Obligations.SleepAndWake := ⟨idleCoreFallsAsleep, wakesOfCores, governorAdmitsARequest⟩

end Sys2Proof.Machine
end

section
/-! PROOFS. The Accord's modes and its local copies, and the latch of ACC_HI (R277-R280). -/

namespace Sys2Proof.Machine

section
variable {s : State}

theorem accModeSwitch_ofWaiting (h : (s.accord.toCoarse || (!s.accord.fine && s.accord.toFine && s.accord.pllLock)) = true) :
    exec .accModeSwitch s = .next (refEdge { s with time := s.time + (60 - s.accord.phase) }) :=
  congrArg Host.Outcome.next (if_pos h)

theorem accCopyCompare_keeps {u : Nat} {err : Int} (hrun : copyRuns s u = true) (hmay : copyMay s u err = true) :
    exec (.accCopyCompare u err) s = .next { s with accord := { s.accord with
      maxErr := (if s.accord.maxErr.toNat < err.natAbs then BitVec.ofNat 8 err.natAbs else s.accord.maxErr),
      copyErr := (if err = 0 then sdel s.accord.copyErr u else sput s.accord.copyErr u err) } } := by
  have hnear : err.natAbs ≤ 2 := by
    simp only [copyMay, Bool.and_eq_true, decide_eq_true_eq] at hmay
    exact hmay.1
  refine congrArg Host.Outcome.next ((if_pos (by simp [hrun, hmay])).trans ((if_neg (by omega)).trans ?_))
  rw [show min 255 err.natAbs = err.natAbs by omega]

theorem accCopyCompare_reloads {u : Nat} {err : Int} (hrun : copyRuns s u = true) (hfar : 2 < err.natAbs) :
    exec (.accCopyCompare u err) s = .next (skewBlotter (raiseEvt (recordErr { s with accord := { s.accord with
      maxErr := (if s.accord.maxErr.toNat < min 255 err.natAbs then BitVec.ofNat 8 (min 255 err.natAbs) else s.accord.maxErr),
      copyErr := sdel s.accord.copyErr u } } pgAcc 0x0A01 u (min 255 err.natAbs)) pgAcc 0)) :=
  congrArg Host.Outcome.next ((if_pos (by simp [hrun, hfar])).trans (if_pos hfar))

theorem readEffect_accLo {o size : Nat} (hserved : pageServed s pgAcc = true) (hin : o + size ≤ 4) (h0 : 0 < size) :
    readEffect s pgAcc (0x40 + o) size =
      { s with accord := { s.accord with accHi := some (BitVec.ofNat 32 (s.accord.master / 2 ^ 32)) } } := by
  have hon : pageOn s pgAcc = true := rfl
  have hentry : entryPage pgAcc = false := by decide
  have htype : pageType pgAcc = some (0xA, 0) := by decide
  have htakes : 0x40 + o < 0x44 ∧ 0x40 < 0x40 + o + size ∧ size ≤ 4 := by omega
  simp [readEffect, hserved, hon, hentry, htype, htakes]

theorem accLoRead_latches {size off : Nat} (hreach : hostReach s = true) (hserved : pageServed s pgAcc = true)
    (hok : readSizeOk size off = true) (hin : off + size ≤ 4) :
    exec (.accLoRead size off) s = .next { s with
      accord := { s.accord with accHi := some (BitVec.ofNat 32 (s.accord.master / 2 ^ 32)) }
      reply := readData s 0 (0x5040 + off) size } := by
  have hpos : 0 < size := by
    simp only [readSizeOk, Bool.and_eq_true, Bool.or_eq_true, beq_iff_eq] at hok
    omega
  have halign : readSizeOk size (0x5040 + off) = true := by
    simp only [readSizeOk, Bool.and_eq_true, Bool.or_eq_true, beq_iff_eq] at hok ⊢
    rcases hok with ⟨(((rfl | rfl) | rfl) | rfl), _⟩ <;> omega
  have hpage : (0x5040 + off) / 4096 = pgAcc := by unfold pgAcc; omega
  have hplace : (0x5040 + off) % 4096 = 0x40 + off := by omega
  have hlimit : 0x5040 + off < 0x2000000 := by omega
  have hcrossing : crossingReset s pgAcc = false := rfl
  refine congrArg Host.Outcome.next ((if_pos hin).trans ?_)
  change hostRead s 0 (0x5040 + off) size = _
  simp [hostRead, overtaken, hreach, halign, hpage, hplace, hlimit, hserved, hcrossing, readEffect_accLo hserved hin hpos]

end

/-- Settles O19: the switch of modes at a REF edge, the comparison of copies and the latch of a narrow read. -/
theorem accordModesAndCopies : Obligations.AccordModesAndCopies := by
  intro s a
  refine ⟨fun hon hlock => ?lock, fun hf hc ht hl => ?toFine, fun hc => ?toCoarse, fun u err hrun hmay => accCopyCompare_keeps hrun hmay,
    fun u err hrun hfar => accCopyCompare_reloads hrun hfar, fun size off hr hs hok hin => accLoRead_latches hr hs hok hin⟩
  case lock =>
    exact congrArg Host.Outcome.next (if_pos (by simp [show s.accord.pllOn = true from hon, show s.accord.pllLock = false from hlock]))
  case toFine =>
    have hwaits : (s.accord.toCoarse || (!s.accord.fine && s.accord.toFine && s.accord.pllLock)) = true := by simp_all [a]
    exact (accModeSwitch_ofWaiting hwaits).trans (congrArg Host.Outcome.next (refEdge_toFine hc hf ht hl))
  case toCoarse =>
    have hwaits : (s.accord.toCoarse || (!s.accord.fine && s.accord.toFine && s.accord.pllLock)) = true := by simp_all [a]
    exact (accModeSwitch_ofWaiting hwaits).trans (congrArg Host.Outcome.next (refEdge_toCoarse hc))

end Sys2Proof.Machine
end

section
/-! PROOFS. Records: what the queue engine runs itself, what it refuses, and what goes to a core (R256-R269). -/

namespace Sys2Proof.Machine

section
variable {s : State} {q i : Nat} {b : List Byte} {kind : List Byte → Bool} {start : State → Nat → List Byte → State}

theorem recRow_starts (h : mayStart s q i b = true) (hk : kind b = true) : recRow s q kind start = start s i b := by
  obtain ⟨hnext, hgood, hready⟩ := recRow_ofMayStart h
  simp [recRow, hnext, hk, hgood, hready]

theorem recRow_refuses {code : Nat} (hnext : nextRec s q = some (i, b)) (hbad : recErr s q b = some code) (hk : kind b = true) :
    recRow s q kind start = settleQ (putRec (queueErr s q code 0 i) q i b .refused) q := by
  simp [recRow, hnext, hk, hbad]

end

/-! ### Control records (R264, R265) -/

theorem controlRecords : claimControlRecords := by
  intro s q i b h done
  refine ⟨fun hc => ?_, fun hc => ?_, fun hc => ?_, fun hc hkind => ?_⟩ <;> refine congrArg Host.Outcome.next ?_
  · exact recRow_starts h (by simp [hc])
  · exact recRow_starts h (by simp [hc])
  · exact recRow_starts h (by simp [hc])
  · exact recRow_starts h (by simp [hc, hkind])

theorem signalRecords : claimSignalRecords := by
  intro s q i b h hc hkind sel k t x s1 fits
  have hrow := fun start => recRow_starts (start := start) (kind := fun b => recCls b == 9 && leAt b 16 1 != 1) h (by simp [hc, hkind])
  refine ⟨fun hspace => ?counter, fun hspace hfits hprod => ?taken, fun hspace hfits hprod => ?producer, fun hspace hfits => ?full⟩
  all_goals refine congrArg Host.Outcome.next ((hrow _).trans ?_)
  case counter => exact if_neg hspace
  all_goals refine (if_pos hspace).trans ?_
  case taken =>
    have hroom : ¬ qDepth (queue s (leAt b 24 4 % 4096)) < leAt b 20 4 +
        ((queue s (leAt b 24 4 % 4096)).tail - (queue s (leAt b 24 4 % 4096)).head).toNat := not_lt.mpr (of_decide_eq_true hfits)
    simp only [if_neg hroom, show qProducer (queue s (leAt b 24 4 % 4096)) = 1 from hprod, ne_eq, not_true_eq_false, if_false]
    rfl
  case producer =>
    have hroom : ¬ qDepth (queue s (leAt b 24 4 % 4096)) < leAt b 20 4 +
        ((queue s (leAt b 24 4 % 4096)).tail - (queue s (leAt b 24 4 % 4096)).head).toNat := not_lt.mpr (of_decide_eq_true hfits)
    simp only [if_neg hroom, if_pos (show qProducer (queue s (leAt b 24 4 % 4096)) ≠ 1 from hprod)]
    rfl
  case full =>
    have hroom : qDepth (queue s (leAt b 24 4 % 4096)) < leAt b 20 4 +
        ((queue s (leAt b 24 4 % 4096)).tail - (queue s (leAt b 24 4 % 4096)).head).toNat := not_le.mp (of_decide_eq_false hfits)
    simp only [if_pos hroom]
    rfl

/-- Settles O20: each record starts its row, whose effect is delivered before the record completes. -/
theorem queueEngineRecords : Obligations.QueueEngineRecords := ⟨controlRecords, signalRecords⟩

/-! ### Refused records (R258) -/

theorem recErr_reserved {s : State} {q code : Nat} {b : List Byte} (hc : recCls b = 0 ∨ 0xC < recCls b) (h : recErr s q b = some code) :
    code = 0x0401 := by
  have hbad : recBad s q b = true := by
    rcases hc with hc | hc <;> simp [recBad, hc]
  simpa [recErr, hbad, eq_comm] using h

theorem dispatchRow_refuses {s : State} {q i code : Nat} {b : List Byte} (hnext : nextRec s q = some (i, b))
    (hbad : recErr s q b = some code) (hc : recCls b = 5)
    (hidle : qConsumer (queue s q) ≠ 3 ∨ (atom s (qTarget (queue s q))).disps = []) :
    dispatchRow s q = settleQ (putRec (queueErr s q code 0 i) q i b .refused) q := by
  by_cases hcons : qConsumer (queue s q) ≠ 3
  · exact (if_pos hcons).trans (recRow_refuses hnext hbad (by simp [hc]))
  · refine (if_neg hcons).trans ?_
    simp only [hidle.resolve_left hcons]
    exact recRow_refuses hnext hbad (by simp [hc])

/-- Settles O21: every row that starts records refuses through `recRow`. -/
theorem refusedRecords : Obligations.RefusedRecords := by
  intro s q i code b hnext hbad no
  have hcore : ∀ {cls}, recCls b = cls → coreRecRow s q cls = settleQ (putRec (queueErr s q code 0 i) q i b .refused) q :=
    fun hc => recRow_refuses hnext hbad (by simp [hc])
  refine ⟨fun hc => ?tile, fun hc => ?test, fun hc => ?fence, fun hc => ?wait, fun hc => ?launch, fun hc hkind => ?add,
    fun hc hkind => ?seq, fun c k hc hjob => ?update, fun c k hc hjob => ?combine, fun hc hcons => ?dispatch,
    fun hc => ⟨recErr_reserved hc hbad, ?reserved⟩⟩
  all_goals refine congrArg Host.Outcome.next ?_
  case tile => exact hcore hc
  case test => exact hcore hc
  case update => exact (if_neg (ne_true_of_eq_false hjob)).trans (hcore hc)
  case combine => exact (if_neg (ne_true_of_eq_false hjob)).trans (hcore hc)
  case dispatch => exact dispatchRow_refuses hnext hbad hc hcons
  case add => exact recRow_refuses hnext hbad (by simp [hc, hkind])
  case seq => exact recRow_refuses hnext hbad (by simp [hc, hkind])
  all_goals exact recRow_refuses hnext hbad (by simp [hc])

/-! ### Records of cores (R267-R269) -/

theorem coreRecords : claimCoreRecords := by
  intro s q i n b hcand hpick
  obtain ⟨hnext, -, -⟩ := candidate_fields hcand
  have hrow : ∀ {cls}, recCls b = cls → coreRecRow s q cls = assign s q i b n := coreRecRow_ofCandidate hcand hpick
  refine ⟨fun hc => ?tile, fun c k hc hjob => ?update, fun c k hc hjob => ?combine, fun hc => ?test, ?corrected, ?lost⟩
  all_goals refine congrArg Host.Outcome.next ?_
  case tile => exact hrow hc
  case test => exact hrow hc
  case update => exact (if_neg (ne_true_of_eq_false hjob)).trans (hrow hc)
  case combine => exact (if_neg (ne_true_of_eq_false hjob)).trans (hrow hc)
  case corrected => exact if_neg (by simp [hnext])
  case lost => simp only [prefetchRead, hnext]

theorem tileRunAssignment : claimTileRunAssignment := by
  intro s q i n b c s1 k s2 taken c1 to_
  refine ⟨fun hst => if_neg hst, fun hst hreq => ?asks, fun hst hreq => ?asked⟩
  case asks => exact (if_pos hst).trans (if_neg (ne_true_of_eq_false hreq))
  case asked => exact (if_pos hst).trans (if_pos hreq)

theorem aging : claimAging := by
  intro s q i n b hcand x age hage haged hcls hwaited
  refine congrArg Host.Outcome.next ?_
  simp only [schedAging, hcand]
  exact (if_pos ⟨hage, by simpa using haged, hcls, hwaited⟩).trans rfl

/-- Settles O22: the scheduler's pick, the assignment and ageing. -/
theorem schedulerAssignsRecords : Obligations.SchedulerAssignsRecords := ⟨coreRecords, tileRunAssignment, aging⟩

end Sys2Proof.Machine
end

section
/-! PROOFS. COMBINE, UPDATE and TEST on their core (R337, R406-R408, R435). -/

namespace Sys2Proof.Machine

section
variable {s : State} {n count : Nat} {j : Job}

theorem combineWork_bad (hjob : (core s n).job = some j) (hnew : j.begun = false) (hbad : combineBad j.bytes = true) :
    combineWork s n count = stopCore s n 0x0250 0 0 := by
  simp [combineWork, hjob, hnew, hbad]

theorem combineWork_outside {code : Nat} (hjob : (core s n).job = some j) (hnew : j.begun = false) (hgood : combineBad j.bytes = false)
    (hspan : spansErr s (partOfCore s n) (combineSpans j.bytes) = some code) : combineWork s n count = stopCore s n code 0 0 := by
  simp [combineWork, hjob, hnew, hgood, hspan]

/-- What the checks leave of an UPDATE's descriptor: the one it began with, or the shard's. -/
def upDesc (s : State) (j : Job) : List Byte := if j.begun then j.desc else readBytes s.mem (upShard j.bytes) 128

theorem updateWork_bad {code lo : Nat} (hjob : (core s n).job = some j) (hnew : j.begun = false)
    (hcheck : upCheck s (partOfCore s n) j.bytes (upDesc s j) = .bad code lo) : updateWork s n count = stopCore s n code lo 0 := by
  simp only [upDesc, hnew, Bool.false_eq_true, if_false] at hcheck
  simp only [updateWork, hjob, hnew, Bool.false_eq_true, if_false, hcheck]

theorem updateWork_frozen (hjob : (core s n).job = some j) (hnew : j.begun = false)
    (hcheck : upCheck s (partOfCore s n) j.bytes (upDesc s j) = .frozen) : updateWork s n count = updFrozen s n j.bytes (upDesc s j) := by
  simp only [upDesc, hnew, Bool.false_eq_true, if_false] at hcheck ⊢
  simp only [updateWork, hjob, hnew, Bool.false_eq_true, if_false, hcheck]

theorem upCheck_passes (h : j.begun = true ∨ upCheck s (partOfCore s n) j.bytes (upDesc s j) = .good) :
    (if j.begun then UpCheck.good else upCheck s (partOfCore s n) j.bytes (upDesc s j)) = .good := by
  split <;> simp_all

end

theorem jobsGoOn : claimJobsGoOn := by
  intro s q n count j hjob b p
  refine ⟨fun hruns => ?_, fun hruns => ?_⟩
  · intro kc row out begun read sc
    refine ⟨fun hpass => ?goes, fun hnew hbad => ?bad, fun code hnew hgood hspan => ?outside⟩
    all_goals refine congrArg Host.Outcome.next ((if_pos hruns).trans ?_)
    case bad => exact combineWork_bad hjob hnew hbad
    case outside => exact combineWork_outside hjob hnew hgood hspan
    case goes =>
      have hbody : (!j.begun && combineBad j.bytes) = false := by rcases hpass with h | h <;> simp [h, b]
      have hspans : (if j.begun then none else spansErr s (partOfCore s n) (combineSpans j.bytes)) = none := by
        rcases hpass with h | h <;> simp [h, b, p]
      simp only [combineWork, hjob, hbody, hspans]
      rfl
  · intro d ga gr ku begun read su
    have hstep : ∀ (h : j.begun = true ∨ upCheck s p b d = .good), updateWork s n count =
        if j.done + ku = upCount b then
          endJob (if upAdvance b then { su with mem := writeLe su.mem (upShard b + 0x38) 8 (sdStep d + 1) } else su) n
        else su := fun h => by
      have hcheck := upCheck_passes h
      unfold upDesc at hcheck
      simp only [updateWork, hjob, hcheck]
      rfl
    refine ⟨fun h hmore => ?goes, fun h hlast hadv => ?advances, fun h hlast hadv => ?ends, fun hnew hcheck => ?frozen,
      fun code lo hnew hcheck => ?bad⟩
    all_goals refine congrArg Host.Outcome.next ((if_pos hruns).trans ?_)
    case goes => exact (hstep h).trans (if_neg hmore)
    case advances => rw [hstep h, if_pos hlast, if_pos hadv]
    case ends => rw [hstep h, if_pos hlast, if_neg (ne_true_of_eq_false hadv)]
    case frozen => exact updateWork_frozen hjob hnew hcheck
    case bad => exact updateWork_bad hjob hnew hcheck

theorem testPasses : claimTestPasses := by
  intro s n r j hrun hjob hcls hst b f left wrote signalled done
  refine ⟨congrArg Host.Outcome.next ?pass, fun k hk hsel => congrArg Host.Outcome.next ?fail⟩
  case pass => simp only [testComplete, hrun, hjob, hcls, hst]; rfl
  case fail =>
    have hpart : (decide (k < 6) && Nat.testBit (leAt j.bytes 16 2) k) = true := by
      simp [hk, show Nat.testBit (leAt j.bytes 16 2) k = true from hsel]
    simp only [testComplete, hrun, hjob, hcls, hst, hpart]
    rfl

/-- Settles O23: the checks, the work that goes on, and its end. -/
theorem coreJobsGoOn : Obligations.CoreJobsGoOn := ⟨jobsGoOn, testPasses⟩

end Sys2Proof.Machine
end

section
/-! PROOFS. DISPATCH, the reports of records, doorbells and queue bindings (R249-R261, R321-R323, R332). -/

namespace Sys2Proof.Machine

/-! ### DISPATCH -/

section
variable {s : State} {q x p : Nat} {d : Disp}

theorem dispatchRow_hands {i : Nat} {b : List Byte} (hcons : qConsumer (queue s q) = 3) (hidle : (atom s (qTarget (queue s q))).disps = [])
    (hstart : mayStart s q i b = true) (hc : recCls b = 5) (hpick : handPick s q (atom s (qTarget (queue s q))).lastQueue = true) :
    dispatchRow s q = startDisp
      (modAtom (putRec s q i b .running) (qTarget (queue s q)) (fun a => { a with lastQueue := q })) (qTarget (queue s q)) (qPart s q)
      { queue := q, index := i, bytes := b, started := false, next := 0, ends := 0 } := by
  refine (if_neg (not_not_intro hcons)).trans ?_
  simp only [hidle]
  exact (recRow_starts hstart (by simp [hc])).trans (if_pos hpick)

theorem dispatchRow_goesOn {r : List Disp} (hcons : qConsumer (queue s q) = 3) (hruns : (atom s (qTarget (queue s q))).disps = d :: r)
    (hq : d.queue = q) : dispatchRow s q = stepDisp s (qTarget (queue s q)) (qPart s q) d := by
  refine (if_neg (not_not_intro hcons)).trans ?_
  simp only [hruns]
  exact if_pos hq

theorem startDisp_bad {code : Nat} (h : atomErr s x p d.bytes = some code) :
    startDisp s x p d = endDisp (raiseEvt (recordErr s (pgAtom x) code (dpCtx d.bytes) 0) (pgAtom x) 0) x d code := by
  simp only [startDisp, h]
  rfl

theorem startDisp_good (h : atomErr s x p d.bytes = none) : startDisp s x p d = setAtom s x { atom s x with
    disps := [{ d with started := true }],
    ctxs := sput (atom s x).ctxs (dpCtx d.bytes) {
      gen := dpGen d.bytes, retBase := dpRet d.bytes, choiceAddr := dpChoice d.bytes, nch := dpNch d.bytes,
      outLines := dpOutLen d.bytes / 64, retCtr := dpCtr d.bytes, pend := dpTokens d.bytes * dpNch d.bytes, part := p } } := by
  simp only [startDisp, h, putDisp, modAtom_eq, atom_setAtom, setAtom_setAtom]

theorem stepDisp_choice (hmore : d.next < dpTokens d.bytes * dpNch d.bytes) : stepDisp s x p d =
    if (dispatchChoice s x p d.bytes d.next).2 then (dispatchChoice s x p d.bytes d.next).1
    else putDisp (dispatchChoice s x p d.bytes d.next).1 x { d with next := d.next + 1 } := if_pos hmore

theorem stepDisp_mark (hchoices : dpTokens d.bytes * dpNch d.bytes ≤ d.next) (hend : dpEnd d.bytes = true)
    (hmore : d.ends < dpN d.bytes) :
    stepDisp s x p d =
      if (dispatchMark s x p d.bytes (dpLo d.bytes + d.ends)).2 then (dispatchMark s x p d.bytes (dpLo d.bytes + d.ends)).1
      else putDisp (dispatchMark s x p d.bytes (dpLo d.bytes + d.ends)).1 x { d with ends := d.ends + 1 } :=
  (if_neg (Nat.not_lt.mpr hchoices)).trans (if_pos (by simp [hend, hmore]))

theorem stepDisp_last (hchoices : dpTokens d.bytes * dpNch d.bytes ≤ d.next)
    (hmarks : (dpEnd d.bytes && decide (d.ends < dpN d.bytes)) = false) :
    stepDisp s x p d = if dispSent s x p then endDisp s x d 0 else s :=
  (if_neg (Nat.not_lt.mpr hchoices)).trans (if_neg (ne_true_of_eq_false hmarks))

end

/-- The end markers a DISPATCH sends. -/
def dispMarks (b : List Byte) : Nat := if dpEnd b then dpN b else 0

theorem lt_dispMarks {b : List Byte} {k : Nat} : k < dispMarks b ↔ dpEnd b = true ∧ k < dpN b := by
  unfold dispMarks
  split <;> simp_all

theorem dispatchGoesOn : claimDispatch := by
  intro s q hcons x p
  refine ⟨fun i b hidle hstart hc hpick => ?_, fun d r hruns hq => ?_⟩
  · intro s0 s1
    refine ⟨fun code hbad => ?bad, fun hgood => ?good⟩
    all_goals refine congrArg Host.Outcome.next ((dispatchRow_hands hcons hidle hstart hc hpick).trans ?_)
    case bad => exact startDisp_bad hbad
    case good => exact startDisp_good (s := s1) (d := ⟨q, i, b, false, 0, 0⟩) hgood
  · intro choices marks
    have hrow := dispatchRow_goesOn hcons hruns hq
    have hmarks : marks ≤ d.ends → (dpEnd d.bytes && decide (d.ends < dpN d.bytes)) = false := fun h => by
      have hnone := mt lt_dispMarks.mpr (Nat.not_lt.mpr h)
      simpa using hnone
    refine ⟨fun hmore hfree => ?choice, fun hmore hheld => ?choiceHeld, fun hall hmore hfree => ?mark, fun hall hmore hheld => ?markHeld,
      fun hall hlast hsent => ?ends, fun hall hlast hsent => ?waits⟩
    all_goals refine congrArg Host.Outcome.next (hrow.trans ?_)
    case choice => exact (stepDisp_choice hmore).trans (if_neg (ne_true_of_eq_false hfree))
    case choiceHeld => exact (stepDisp_choice hmore).trans (if_pos hheld)
    case mark =>
      obtain ⟨hend, hlt⟩ := lt_dispMarks.mp hmore
      exact (stepDisp_mark hall hend hlt).trans (if_neg (ne_true_of_eq_false hfree))
    case markHeld =>
      obtain ⟨hend, hlt⟩ := lt_dispMarks.mp hmore
      exact (stepDisp_mark hall hend hlt).trans (if_pos hheld)
    case ends => exact (stepDisp_last hall (hmarks hlast)).trans (if_pos hsent)
    case waits => exact (stepDisp_last hall (hmarks hlast)).trans (if_neg (ne_true_of_eq_false hsent))

theorem reports : claimReports := by
  intro s q r s1 b posts t v retire fail
  have hposts : posts = true → recCls (recBytes s1 q r.index) = 1 ∧ Nat.testBit (leAt (recBytes s1 q r.index) 30 2) 15 = true :=
    fun h => by simpa [posts, b] using h
  refine ⟨fun htake hno => ?done, fun htake hpost hring => ?rings, fun code htake hpost hring => ?refused, fun htake => ?failed⟩
  all_goals refine congrArg Host.Outcome.next ?_
  case done =>
    have hno' : ¬ (recCls (recBytes s1 q r.index) = 1 ∧ Nat.testBit (leAt (recBytes s1 q r.index) 30 2) 15 = true) := by
      simpa [posts, b] using hno
    simp only [recordComplete, htake, if_neg hno']
    rfl
  case rings =>
    simp only [recordComplete, htake, if_pos (hposts hpost), show bellErr (queue s1 (leAt (recBytes s1 q r.index) 30 2 % 4096))
      (BitVec.ofNat 64 (2 ^ 63 + fld r.g31 16 0)) 1 = none from hring]
    rfl
  case refused =>
    simp only [recordComplete, htake, if_pos (hposts hpost), show bellErr (queue s1 (leAt (recBytes s1 q r.index) 30 2 % 4096))
      (BitVec.ofNat 64 (2 ^ 63 + fld r.g31 16 0)) 1 = some code from hring]
    rfl
  case failed =>
    simp only [recordFailed, htake]
    rfl

/-- Settles O24: the start and the steps of a DISPATCH, and the reports of the consumers. -/
theorem dispatchAndReports : Obligations.DispatchAndReports := ⟨dispatchGoesOn, reports⟩

/-! ### Doorbells -/

section
variable {s : State} {q : Nat} {v : W64}

theorem bellErr_full {x : Queue} {cls : Nat}
    (h : (decide (qDepth x < (bellTail x v - x.head).toNat) || decide (qDepth x < (bellTail x v - x.tail).toNat)) = true) :
    bellErr x v cls = some 0x0404 := if_pos (by simpa using h)

theorem bellErr_producer {x : Queue} {cls : Nat}
    (h : (decide (qDepth x < (bellTail x v - x.head).toNat) || decide (qDepth x < (bellTail x v - x.tail).toNat)) = false)
    (hprod : qProducer x ≠ cls) : bellErr x v cls = some 0x0405 :=
  (if_neg (by simpa using h)).trans (if_pos hprod)

theorem bellErr_none {x : Queue} {cls : Nat}
    (h : (decide (qDepth x < (bellTail x v - x.head).toNat) || decide (qDepth x < (bellTail x v - x.tail).toNat)) = false)
    (hprod : qProducer x = cls) : bellErr x v cls = none :=
  (if_neg (by simpa using h)).trans (if_neg (not_not_intro hprod))

theorem doorbell_refused {cls code : Nat} (h : bellErr (queue s q) v cls = some code) :
    doorbell s q v cls = queueErr s q code 0 (queue s q).tail.toNat := by
  simp only [doorbell, h]

theorem doorbell_taken {cls : Nat} (h : bellErr (queue s q) v cls = none) :
    doorbell s q v cls = setQueue s q { queue s q with tail := bellTail (queue s q) v } := by
  simp only [doorbell, h, modQueue_eq]

theorem doorbellWrite_ofOpen {size : Nat} (h : queueOpen s q = true) :
    exec (.doorbellWrite q size v) s = .next (bellWrite s (q * 8) size v.toNat) := by
  obtain ⟨hq, hopen, -⟩ := queueOpen_fields h
  have hreach : hostReach s = true := by
    simp only [regOpen, Bool.and_eq_true] at hopen
    exact hopen.1.1.1.1
  refine congrArg Host.Outcome.next ((if_pos hq).trans ?_)
  simp [hostWrite, hreach, show q * 8 < 0x8000 by omega]

theorem bellWrite_doorbell (h : queueOpen s q = true) : bellWrite s (q * 8) 8 v.toNat = doorbell s q v 0 := by
  obtain ⟨-, -, hon⟩ := queueOpen_fields h
  simp [bellWrite, hon]

end

theorem doorbells : claimDoorbells := by
  intro s q v hopen x t past
  refine ⟨fun hfits hprod => ?taken, fun hpast => ?full, fun hfits hprod => ?producer, fun size hsize => ?size⟩
  all_goals refine (doorbellWrite_ofOpen hopen).trans (congrArg Host.Outcome.next ?_)
  case size => exact if_pos (.inl hsize)
  all_goals refine (bellWrite_doorbell hopen).trans ?_
  case taken => exact doorbell_taken (bellErr_none hfits hprod)
  case full => exact doorbell_refused (bellErr_full hpast)
  case producer => exact doorbell_refused (bellErr_producer hfits hprod)

/-! ### Bindings -/

section
variable {n i j : Nat} {w : BitVec n} {b : Bool}

theorem bit_setBit_same (hi : i < n) : bit (setBit w i b) i = b := by
  have hpow : (BitVec.ofNat n (2 ^ i)).getLsbD i = true := by rw [BitVec.getLsbD_ofNat, Nat.testBit_two_pow]; simp [hi]
  cases b
  · rw [bit, setBit, if_neg Bool.false_ne_true, BitVec.getLsbD_and, BitVec.getLsbD_not, hpow]
    simp
  · rw [bit, setBit, if_pos rfl, BitVec.getLsbD_or, hpow, Bool.or_true]

theorem bit_setBit_other (hij : i ≠ j) (hj : j < n) : bit (setBit w i b) j = bit w j := by
  have hpow : (BitVec.ofNat n (2 ^ i)).getLsbD j = false := by rw [BitVec.getLsbD_ofNat, Nat.testBit_two_pow]; simp [hij]
  cases b
  · rw [bit, setBit, if_neg Bool.false_ne_true, BitVec.getLsbD_and, BitVec.getLsbD_not, hpow]
    simp [hj, bit]
  · rw [bit, setBit, if_pos rfl, BitVec.getLsbD_or, hpow, Bool.or_false, bit]

end

section
variable {s : State} {q : Nat} {v : W32}

theorem writeQbind_off (hoff : qOn (queue s q) = false) (hskip : bit v 21 = false) : writeQbind s q v =
    if bit v 31 then bindEnable s q (bindKept v) else setQueue s q { queue s q with bind := bindKept v } := by
  simp only [writeQbind, hoff, hskip, bindFields_kept, Bool.false_and, Bool.false_eq_true, if_false, modQueue_eq]

theorem writeQbind_on (hon : qOn (queue s q) = true) (hskip : bit v 21 = false) (hsame : bindKept v = bindKept (queue s q).bind) :
    writeQbind s q v = if bit v 31 then bindEnable s q ((queue s q).bind &&& 0x7FFFFFFF)
      else setQueue s q { queue s q with bind := (queue s q).bind &&& 0x7FFFFFFF } := by
  simp only [writeQbind, hon, hskip, bindFields_kept, hsame, bne_self_eq_false, Bool.and_false, Bool.false_and, Bool.false_eq_true,
    if_false, if_true, modQueue_eq]

theorem writeQbind_busy (hon : qOn (queue s q) = true) (hskip : bit v 21 = false) (henable : bit v 31 = false)
    (hdiff : bindKept v ≠ bindKept (queue s q).bind) :
    writeQbind s q v = modQueue (queueErr s q 0x0408 0 (queue s q).head.toNat) q
      (fun y => { y with bind := (queue s q).bind &&& 0x7FFFFFFF }) := by
  have hne : (true && bindKept v != bindKept (queue s q).bind) = true := by simpa using hdiff
  simp only [writeQbind, hon, hskip, henable, bindFields_kept, hne, Bool.false_and, Bool.false_eq_true, if_false, if_true]

theorem writeQbind_skip (hon : qOn (queue s q) = true) (hhalt : (queue s q).halted = true) (hskip : bit v 21 = true)
    (hsame : bindKept v = bindKept (queue s q).bind) :
    writeQbind s q v = modQueue (bindSkip s q) q (fun y => { y with
      bind := if bit v 31 then (queue s q).bind &&& 0x7FFFFFFF ||| 0x80000000 else (queue s q).bind &&& 0x7FFFFFFF }) := by
  simp only [writeQbind, hon, hhalt, hskip, bindFields_kept, hsame, bne_self_eq_false, Bool.and_false, Bool.and_self, Bool.false_eq_true,
    if_false, if_true]

theorem bindSkip_ofHalted {r : QRec} {l : List QRec} (hhalt : (queue s q).halted = true) (hrecs : (queue s q).recs = r :: l) :
    bindSkip s q = flushGroup (skipHead (if qExpert (queue s q) then noticeSlots s q r.bytes else s) q) q := by
  simp only [bindSkip, hhalt, hrecs]

theorem skipHead_ofHalted {r : QRec} {l : List QRec} (hhalt : (queue s q).halted = true) (hrecs : (queue s q).recs = r :: l) :
    skipHead s q = settleQ (retireHead (setQueue s q { queue s q with halted := false }) q r.bytes) q := by
  simp only [skipHead, hhalt, hrecs]

/-- A queue with ENABLE set and the fields y. -/
def enabled (s : State) (q : Nat) (y : W32) : State := setQueue s q { queue s q with bind := y ||| 0x80000000 }

section
variable {y : W32}

theorem bindEnable_halted (hhalt : (queue s q).halted = true) : bindEnable s q y = rerunHead (enabled s q y) q := if_pos hhalt

variable (hlive : (queue s q).halted = false)
include hlive

theorem bindEnable_bad (hbad : bindBad (enabled s q y) q (queue (enabled s q y) q) = true) :
    bindEnable s q y = queueErr s q 0x0407 0 (queue s q).head.toNat :=
  (if_neg (ne_true_of_eq_false hlive)).trans (if_pos hbad)

theorem bindEnable_plain (hgood : bindBad (enabled s q y) q (queue (enabled s q y) q) = false)
    (hplain : qProducer (queue (enabled s q y) q) ≠ 2) : bindEnable s q y = enabled s q y :=
  (if_neg (ne_true_of_eq_false hlive)).trans ((if_neg (ne_true_of_eq_false hgood)).trans (if_neg hplain))

theorem bindEnable_expertBad (hgood : bindBad (enabled s q y) q (queue (enabled s q y) q) = false)
    (hexpert : qProducer (queue (enabled s q y) q) = 2) (hbad : expertBad (enabled s q y) q (readBytes s.mem (expEntry s q) 256) = true) :
    bindEnable s q y = queueErr s q 0x0409 0 (queue s q).head.toNat :=
  (if_neg (ne_true_of_eq_false hlive)).trans ((if_neg (ne_true_of_eq_false hgood)).trans ((if_pos hexpert).trans (if_pos hbad)))

theorem bindEnable_expert (hgood : bindBad (enabled s q y) q (queue (enabled s q y) q) = false)
    (hexpert : qProducer (queue (enabled s q y) q) = 2) (hok : expertBad (enabled s q y) q (readBytes s.mem (expEntry s q) 256) = false) :
    bindEnable s q y = modQueue
      { enabled s q y with mem := writeBytes (enabled s q y).mem (expEntry s q + 64) (List.replicate 192 0) } q
      (fun x => { x with entry := (readBytes s.mem (expEntry s q) 256).take 64, group := [], heldGen := none }) :=
  (if_neg (ne_true_of_eq_false hlive)).trans ((if_neg (ne_true_of_eq_false hgood)).trans
    ((if_pos hexpert).trans (if_neg (ne_true_of_eq_false hok))))

end

theorem qBindEnable_ofOpen (h : queueOpen s q = true) :
    exec (.qBindEnable q v) s = .next (writeQbind s q (setBit (setBit v 31 true) 21 false)) :=
  congrArg Host.Outcome.next (bindWrite_ofOpen h)

theorem qBindDisable_ofOpen (h : queueOpen s q = true) :
    exec (.qBindDisable q v) s = .next (writeQbind s q (setBit (setBit v 31 false) 21 false)) :=
  congrArg Host.Outcome.next (bindWrite_ofOpen h)

theorem qBindSkip_ofOpen (h : queueOpen s q = true) : exec (.qBindSkip q v) s = .next (writeQbind s q (setBit v 21 true)) :=
  congrArg Host.Outcome.next (bindWrite_ofOpen h)

theorem qBindWrite_ofOpen {w : W64} (h : queueOpen s q = true) :
    exec (.queueConfigWrite q true w) s = .next (writeQbind s q (BitVec.ofNat 32 w.toNat)) := by
  obtain ⟨hq, -, -⟩ := queueOpen_fields h
  refine congrArg Host.Outcome.next ((if_neg (by omega)).trans ?_)
  exact bindWrite_ofOpen h

end

theorem bindings : claimBindings := by
  intro s q hopen x
  have hskip : ∀ {v : W32} {b : Bool}, bit (setBit (setBit v 31 b) 21 false) 21 = false := bit_setBit_same (by omega)
  have hflag : ∀ {v : W32} {b : Bool}, bit (setBit (setBit v 31 b) 21 false) 31 = b := fun {v b} => by
    rw [bit_setBit_other (by omega) (by omega), bit_setBit_same (by omega)]
  have hlow : ∀ {w : W64} {i : Nat}, i < 32 → bit (BitVec.ofNat 32 w.toNat) i = bit w i := fun hi => by
    rw [bit, bit, BitVec.getLsbD_ofNat, decide_eq_true hi, Bool.true_and]
    rfl
  refine ⟨fun v hdiff hoff => ?cfg, fun v hdiff hon => ?cfgBusy, fun v hsame => ?cfgSame, fun v hoff h31 h21 _ => ?fields,
    fun v hon hsame => ?disable, fun v hon hdiff => ?disableBusy, fun v hoff hlive => ?enable, fun v hon hhalt hsame => ?rerun,
    fun v r l hon hhalt hrecs hsame => ⟨fun hplain => ?skip, fun hexpert => ?skipExpert⟩⟩
  case cfg =>
    refine (exec_queueConfigWrite_ofOpen hopen).trans (congrArg Host.Outcome.next ?_)
    exact (if_neg hdiff).trans (if_neg (ne_true_of_eq_false hoff))
  case cfgBusy =>
    refine (exec_queueConfigWrite_ofOpen hopen).trans (congrArg Host.Outcome.next ?_)
    exact (if_neg hdiff).trans (if_pos hon)
  case cfgSame => exact (exec_queueConfigWrite_ofOpen hopen).trans (congrArg Host.Outcome.next (if_pos hsame))
  case fields =>
    refine (qBindWrite_ofOpen hopen).trans (congrArg Host.Outcome.next ?_)
    exact (writeQbind_off hoff ((hlow (by omega)).trans h21)).trans (if_neg (ne_true_of_eq_false ((hlow (by omega)).trans h31)))
  case disable =>
    refine (qBindDisable_ofOpen hopen).trans (congrArg Host.Outcome.next ?_)
    exact (writeQbind_on hon hskip hsame).trans (if_neg (ne_true_of_eq_false hflag))
  case disableBusy =>
    refine (qBindDisable_ofOpen hopen).trans (congrArg Host.Outcome.next ?_)
    exact writeQbind_busy hon hskip hflag hdiff
  case enable =>
    intro y s1 e
    have hwrite : exec (.qBindEnable q v) s = .next (bindEnable s q (bindKept (setBit (setBit v 31 true) 21 false))) :=
      (qBindEnable_ofOpen hopen).trans (congrArg Host.Outcome.next ((writeQbind_off hoff hskip).trans (if_pos hflag)))
    have hqueue : queue s1 q = y := queue_setQueue s q y
    refine ⟨fun hbad => ?bad, fun hgood hprod => ?plain, fun hgood hprod hbad => ?expertBad, fun hgood hprod hok => ?expert⟩
    all_goals refine hwrite.trans (congrArg Host.Outcome.next ?_)
    case bad => exact bindEnable_bad hlive ((congrArg _ hqueue).trans hbad)
    case plain => exact bindEnable_plain hlive ((congrArg _ hqueue).trans hgood) (fun h => hprod ((congrArg _ hqueue).symm.trans h))
    case expertBad => exact bindEnable_expertBad hlive ((congrArg _ hqueue).trans hgood) ((congrArg _ hqueue).trans hprod) hbad
    case expert => exact bindEnable_expert hlive ((congrArg _ hqueue).trans hgood) ((congrArg _ hqueue).trans hprod) hok
  case rerun =>
    refine (qBindEnable_ofOpen hopen).trans (congrArg Host.Outcome.next ?_)
    exact (writeQbind_on hon hskip hsame).trans ((if_pos hflag).trans (bindEnable_halted hhalt))
  case skip =>
    refine (qBindSkip_ofOpen hopen).trans (congrArg Host.Outcome.next ?_)
    rw [writeQbind_skip hon hhalt (bit_setBit_same (by omega)) hsame, bindSkip_ofHalted hhalt hrecs,
      if_neg (ne_true_of_eq_false hplain), skipHead_ofHalted hhalt hrecs]
    rfl
  case skipExpert =>
    refine (qBindSkip_ofOpen hopen).trans (congrArg Host.Outcome.next ?_)
    rw [writeQbind_skip hon hhalt (bit_setBit_same (by omega)) hsame, bindSkip_ofHalted hhalt hrecs, if_pos hexpert]
    rfl

/-- Settles O25: a doorbell moves TAIL or is refused, and a write of Q_CFG or Q_BIND goes by the queue's state. -/
theorem doorbellsAndBindings : Obligations.DoorbellsAndBindings := ⟨doorbells, bindings⟩

end Sys2Proof.Machine
end

section
/-! PROOFS. Commands of the stack engines: how they are handed over, start and complete (R217-R220, R237, R446). -/

namespace Sys2Proof.Machine

/-! ### Starts -/

theorem checkPasses_pass (s : State) : checkPasses s .pass = true := by simp [checkPasses]

section
variable {s : State} {i : Nat} {c : SeCmd}

theorem startCtrSet_good (hop : seOpBad c.bytes = false) (hsig : seSigBad s (cmdPart s c) c.bytes = false) :
    startCtrSet s i c = seFinish (setSe s i { se s i with
      ctrs := sput (se s i).ctrs (seAux0 c.bytes % 4096) (BitVec.ofNat 32 (seAux0 c.bytes / 2 ^ 32)) }) i c :=
  (if_neg (ne_true_of_eq_false hop)).trans (if_neg (ne_true_of_eq_false hsig))

theorem startCtrSet_opBad (hop : seOpBad c.bytes = true) : startCtrSet s i c = seFail s i c 0x0501 := if_pos hop

theorem startCtrSet_sigBad (hop : seOpBad c.bytes = false) (hsig : seSigBad s (cmdPart s c) c.bytes = true) :
    startCtrSet s i c = seFail s i c 0x0505 :=
  (if_neg (ne_true_of_eq_false hop)).trans (if_pos hsig)

/-- The global address a checkpoint command names. -/
def ckptGlobal (b : List Byte) : Nat := if seOp b = 5 then seDst b else seSrc b

theorem startCkpt_opens (hgood : ckptErr s i (cmdPart s c) c.bytes = none) (hplain : nfld (ckptGlobal c.bytes) 63 60 = 0) :
    startCkpt s i c = ckptPump 16 (putCmd s i { c with started := true, d0 := [], pulled := [] }) i := by
  simp only [startCkpt, hgood]
  exact if_neg (not_not_intro hplain)

theorem startCkpt_reserved (hgood : ckptErr s i (cmdPart s c) c.bytes = none) (hbits : nfld (ckptGlobal c.bytes) 63 60 ≠ 0) :
    startCkpt s i c = seFail (linkErr s (seEntry s i) 0x0701 (globalId (ckptGlobal c.bytes)) 0) i c 0x050C := by
  simp only [startCkpt, hgood]
  exact if_pos hbits

theorem startCkpt_bad {code : Nat} (hbad : ckptErr s i (cmdPart s c) c.bytes = some code) : startCkpt s i c = seFail s i c code := by
  simp only [startCkpt, hbad]

end

theorem seReady_kind {s : State} {q : Nat} {kind : List Byte → Bool} {c : SeCmd} (h : seReady s q kind c = true) : kind c.bytes = true := by
  simp only [seReady, Bool.and_eq_true, beq_iff_eq] at h
  obtain ⟨⟨⟨⟨-, hfirst⟩, -⟩, -⟩, -⟩ := h
  have hkind := List.find?_some hfirst
  simp only [Bool.and_eq_true] at hkind
  exact hkind.1.1

theorem stackEngineStartsCommands : claimStackEngineStarts := by
  intro s q c i b p d0 d1 read go no
  refine ⟨fun h => ?transpose, fun chk h => ?sign, fun chk h => ?topk, fun h => ?ctr, fun h hop => ?push, fun h => ?pull⟩
  case transpose =>
    obtain ⟨hgo, -, hno⟩ := seRow_ofReady_checked h .pass
    exact ⟨fun hgood => congrArg Host.Outcome.next (hgo hgood (checkPasses_pass s)),
      fun code hbad => congrArg Host.Outcome.next (hno code hbad)⟩
  case sign =>
    obtain ⟨hgo, harith, hno⟩ := seRow_ofReady_checked h chk
    exact ⟨fun hgood hchk => congrArg Host.Outcome.next (hgo hgood hchk), fun hgood hchk => congrArg Host.Outcome.next (harith hgood hchk),
      fun code hbad => congrArg Host.Outcome.next (hno code hbad)⟩
  case topk =>
    obtain ⟨hgo, harith, hno⟩ := seRow_ofReady_checked h chk
    exact ⟨fun hgood hchk => congrArg Host.Outcome.next (hgo hgood hchk), fun hgood hchk => congrArg Host.Outcome.next (harith hgood hchk),
      fun code hbad => congrArg Host.Outcome.next (hno code hbad)⟩
  case ctr =>
    have hrow := seRow_ofReady h startCtrSet
    exact ⟨fun hop hsig => congrArg Host.Outcome.next (hrow.trans (startCtrSet_good hop hsig)),
      fun hop => congrArg Host.Outcome.next (hrow.trans (startCtrSet_opBad hop)),
      fun hop hsig => congrArg Host.Outcome.next (hrow.trans (startCtrSet_sigBad hop hsig))⟩
  case push =>
    have hrow := seRow_ofReady h startCkpt
    have haddr : ckptGlobal c.bytes = seDst c.bytes := if_pos hop
    refine ⟨fun hgood hplain => congrArg Host.Outcome.next (hrow.trans ?_), fun hgood hbits => congrArg Host.Outcome.next (hrow.trans ?_),
      fun code hbad => congrArg Host.Outcome.next (hrow.trans (startCkpt_bad hbad))⟩
    · exact startCkpt_opens hgood ((congrArg (nfld · 63 60) haddr).trans hplain)
    · rw [startCkpt_reserved hgood (haddr ▸ hbits), haddr]
  case pull =>
    have hrow := seRow_ofReady h startCkpt
    have hop : seOp c.bytes = 6 := by
      have hkind := seReady_kind h
      simp only [isPull, Bool.and_eq_true, beq_iff_eq] at hkind
      exact hkind.2
    have haddr : ckptGlobal c.bytes = seSrc c.bytes := if_neg (by omega)
    refine ⟨fun hgood hplain => congrArg Host.Outcome.next (hrow.trans ?_), fun hgood hbits => congrArg Host.Outcome.next (hrow.trans ?_),
      fun code hbad => congrArg Host.Outcome.next (hrow.trans (startCkpt_bad hbad))⟩
    · exact startCkpt_opens hgood ((congrArg (nfld · 63 60) haddr).trans hplain)
    · rw [startCkpt_reserved hgood (haddr ▸ hbits), haddr]

theorem stackEngineHandOver : claimStackEngineHandOver := by
  intro s q idx b hstart hcons hc i s1 hpick handed
  have hclass : (recCls b == 2 || recCls b == 3 || recCls b == 0xC) = true := by rcases hc with h | h | h <;> simp [h]
  have hrow : ∀ {kind : List Byte → Bool} {start : State → Nat → SeCmd → State}, kind b = true →
      seRow s q kind start = seStart handed i kind (fun s c => start s i c) := fun {kind start} hk => by
    have hforward : seForward s q kind = handed := by
      refine (if_neg (not_not_intro hcons)).trans ((recRow_starts hstart (by rw [hclass, hk]; rfl)).trans ?_)
      exact if_pos hpick
    refine (if_neg (not_not_intro hcons)).trans ?_
    rw [hforward]
  exact ⟨fun hk => congrArg Host.Outcome.next (hrow hk), fun chk hk => congrArg Host.Outcome.next (hrow hk),
    fun chk hk => congrArg Host.Outcome.next (hrow hk), fun hk => congrArg Host.Outcome.next (hrow hk),
    fun hk => congrArg Host.Outcome.next (hrow hk), fun hk => congrArg Host.Outcome.next (hrow hk),
    fun hk => congrArg Host.Outcome.next (hrow hk)⟩

/-- Settles O26: a ready command starts as its kind does, and a record that is handed over waits on its engine. -/
theorem stackEngineStarts : Obligations.StackEngineStarts := ⟨stackEngineStartsCommands, stackEngineHandOver⟩

/-! ### Completion -/

section
variable {s : State} {i u : Nat} {c : SeCmd} {es : List (Nat × Ecc)}

/-- A command's reads as they have gone through the controller when it ends. -/
def seRead (s : State) (u : Nat) (c : SeCmd) (es : List (Nat × Ecc)) : State :=
  hbmMeets (if u = 4 then s else hbmTouch s (seDataReads s c) false) (seReads s c) es

theorem seCommandComplete_ends (hhead : seHead s i u = some c) (hmay : seMayEnd c = true) (hclean : hbmPoison (seReads s c) es = false) :
    seCommandComplete s i u es = seEnd (seRead s u c es) i c := by
  simp only [seCommandComplete, hhead, hmay, Bool.not_true, Bool.false_eq_true, if_false, hclean]
  rfl

theorem seCommandComplete_poisoned (hhead : seHead s i u = some c) (hmay : seMayEnd c = true)
    (hpoison : hbmPoison (seReads s c) es = true) :
    seCommandComplete s i u es = seRead s u c es := by
  simp only [seCommandComplete, hhead, hmay, Bool.not_true, Bool.false_eq_true, if_false, hpoison, if_true]
  rfl

theorem seMayEnd_local (hstarted : c.started = true) (hu : c.unit = 1 ∨ c.unit = 2) : seMayEnd c = true := by
  rcases hu with h | h <;> simp [seMayEnd, hstarted, h]

theorem seMayEnd_ckpt (hstarted : c.started = true) (hu : c.unit = 4)
    (hall : (c.err = 0 ∧ c.ended = ckptPieces c.bytes + 1) ∨ (c.err ≠ 0 ∧ c.sent = c.ended)) : seMayEnd c = true := by
  rcases hall with ⟨h, hall⟩ | ⟨h, hall⟩ <;> simp [seMayEnd, hstarted, hu, h, hall]

theorem seEnd_failed (hu : c.unit = 4) (herr : c.err ≠ 0) : seEnd s i c = seFail s i c c.err := by
  simp only [seEnd, hu, herr, if_true, ne_eq, not_false_eq_true]
  rfl

theorem seEnd_ckpt (hu : c.unit = 4) (herr : c.err = 0) :
    seEnd s i c = if seOp c.bytes = 5 || ckptGood c then seFinish s i c else seFail s i c 0x050B := by
  simp [seEnd, hu, herr]

end

/-- Settles O27: each unit's command ends as it does once it may, with what its reads and the engine's store met. -/
theorem stackEngineCompletes : Obligations.StackEngineCompletes := by
  intro s i c es hstarted b rd got met all
  refine ⟨fun hhead hclean => ?transpose, fun hhead hclean => ?pack, fun u hu hhead hpoison => ?localPoison,
    fun hhead herr hall hclean => ?ckpt,
    fun hhead herr hall hclean => ?failed, fun hhead hall hpoison => ?ckptPoison, fun u hhead => ?corrected, fun u hhead => ?lost⟩
  case transpose =>
    have hu := seHead_unit hhead
    refine congrArg Host.Outcome.next ((seCommandComplete_ends hhead (seMayEnd_local hstarted (.inl hu)) hclean).trans ?_)
    exact if_pos hu
  case pack =>
    have hu := seHead_unit hhead
    refine congrArg Host.Outcome.next ((seCommandComplete_ends hhead (seMayEnd_local hstarted (.inr hu)) hclean).trans ?_)
    exact (if_neg (by omega)).trans (if_pos hu)
  case localPoison =>
    have hunit := seHead_unit hhead
    refine congrArg Host.Outcome.next ((seCommandComplete_poisoned hhead (seMayEnd_local hstarted (hunit ▸ hu)) hpoison).trans ?_)
    rcases hu with rfl | rfl <;> rfl
  case ckpt =>
    have hu := seHead_unit hhead
    have hend := (seCommandComplete_ends hhead (seMayEnd_ckpt hstarted hu (.inl ⟨herr, hall⟩)) hclean).trans (seEnd_ckpt hu herr)
    refine ⟨fun hop => congrArg Host.Outcome.next (hend.trans ?_), fun hop hgood => congrArg Host.Outcome.next (hend.trans ?_),
      fun hop hbad => congrArg Host.Outcome.next (hend.trans ?_)⟩
    · exact if_pos (by simp [show seOp c.bytes = 5 from hop])
    · exact if_pos (by simp [hgood])
    · exact if_neg (by simp [show seOp c.bytes ≠ 5 from hop, hbad])
  case failed =>
    have hu := seHead_unit hhead
    exact congrArg Host.Outcome.next ((seCommandComplete_ends hhead (seMayEnd_ckpt hstarted hu (.inr ⟨herr, hall⟩)) hclean).trans
      (seEnd_failed hu herr))
  case ckptPoison =>
    exact congrArg Host.Outcome.next (seCommandComplete_poisoned hhead (seMayEnd_ckpt hstarted (seHead_unit hhead) hall) hpoison)
  case corrected =>
    refine congrArg Host.Outcome.next ?_
    simp only [seStoreRead, hhead]
  case lost =>
    refine congrArg Host.Outcome.next ?_
    simp only [seStoreRead, hhead, hstarted, if_true]

end Sys2Proof.Machine
end

section
/-! PROOFS. REDUCE: its slot, the contributions that land, the passes and the late ranks (R230-R234, R385-R397, R430-R432). -/

namespace Sys2Proof.Machine

/-! ### Opening -/

section
variable {s : State} {i : Nat} {c : SeCmd}

/-- The carry slot of the step before that a REDUCE adopts (R397). -/
def carryOf (s : State) (i : Nat) (c : SeCmd) : Option RSlot :=
  (slotAt s i (redGroup c.bytes) (redBucket c.bytes) true).filter
    (fun _ => (group s (redGroup c.bytes)).tag == (group s (redGroup c.bytes)).lateTag + 1)

/-- The engine once a REDUCE has left its queue for a slot. -/
def reduceLeft (s : State) (i : Nat) (c : SeCmd) : Option RSlot → State
  | some k => dropCmd (dropSlot (hbmTouch s (seDescReads c.bytes) false) i k) i c
  | none => dropCmd (hbmTouch s (seDescReads c.bytes) false) i c

/-- A REDUCE whose checks have passed: it waits for a free slot, or its slot opens. -/
def reduceOpened (s : State) (i : Nat) (c : SeCmd) : State :=
  if decide (256 ≤ (se s i).slots.length) && (carryOf s i c).isNone then s
  else sendPump 16 (modSe (reduceLeft s i c (carryOf s i c)) i (fun e => { e with slots := e.slots ++ [newSlot s c (carryOf s i c)] })) i

theorem startReduce_ofErr {code : Nat}
    (h : reduceErr s i (cmdPart s c) c.bytes (readBytes s.mem (seSrc c.bytes) 128) (readBytes s.mem (seDst c.bytes) 128) = some code) :
    startReduce s i c = seFail s i c code := by
  simp only [startReduce, h]

theorem startReduce_ofDraining
    (h : reduceErr s i (cmdPart s c) c.bytes (readBytes s.mem (seSrc c.bytes) 128) (readBytes s.mem (seDst c.bytes) 128) = none)
    (hdrain : (decide (partOfGroup s (redGroup c.bytes) = cmdPart s c) && (group s (redGroup c.bytes)).st == 2) = true) :
    startReduce s i c = s := by
  simp only [startReduce, h]
  exact if_pos hdrain

theorem startReduce_ofJoinErr {code : Nat}
    (h : reduceErr s i (cmdPart s c) c.bytes (readBytes s.mem (seSrc c.bytes) 128) (readBytes s.mem (seDst c.bytes) 128) = none)
    (hdrain : (decide (partOfGroup s (redGroup c.bytes) = cmdPart s c) && (group s (redGroup c.bytes)).st == 2) = false)
    (hjoin : joinErr s i (cmdPart s c) c.bytes (readBytes s.mem (seSrc c.bytes) 128) (readBytes s.mem (seDst c.bytes) 128) = some code) :
    startReduce s i c = seFail (grpErr s (cmdPart s c) code (redGroup c.bytes) (redBucket c.bytes) 0 0) i c code := by
  simp only [startReduce, h, hjoin]
  exact if_neg (ne_true_of_eq_false hdrain)

theorem startReduce_opens
    (h : reduceErr s i (cmdPart s c) c.bytes (readBytes s.mem (seSrc c.bytes) 128) (readBytes s.mem (seDst c.bytes) 128) = none)
    (hdrain : (decide (partOfGroup s (redGroup c.bytes) = cmdPart s c) && (group s (redGroup c.bytes)).st == 2) = false)
    (hjoin : joinErr s i (cmdPart s c) c.bytes (readBytes s.mem (seSrc c.bytes) 128) (readBytes s.mem (seDst c.bytes) 128) = none) :
    startReduce s i c = reduceOpened s i c := by
  unfold reduceOpened
  cases hslot : slotAt s i (redGroup c.bytes) (redBucket c.bytes) true with
  | none =>
    have hcarry : carryOf s i c = none := by simp [carryOf, hslot]
    simp only [startReduce, h, hjoin, hslot, hcarry, if_neg (ne_true_of_eq_false hdrain), reduceLeft, newSlot, beq_iff_eq,
      Option.map_none, Option.getD_none]
  | some k =>
    by_cases htag : (group s (redGroup c.bytes)).tag = (group s (redGroup c.bytes)).lateTag + 1
    · have hcarry : carryOf s i c = some k := by simp [carryOf, hslot, htag]
      simp only [startReduce, h, hjoin, hslot, hcarry, if_pos htag, if_neg (ne_true_of_eq_false hdrain), reduceLeft, newSlot, beq_iff_eq,
        Option.map_some, Option.getD_some]
    · have hcarry : carryOf s i c = none := by
        rw [carryOf, hslot]
        exact if_neg (by simpa only [beq_iff_eq] using htag)
      simp only [startReduce, h, hjoin, hslot, hcarry, if_neg htag, if_neg (ne_true_of_eq_false hdrain), reduceLeft, newSlot, beq_iff_eq,
        Option.map_none, Option.getD_none]

end

theorem reduceOpens : claimReduceOpens := by
  intro s q i c b d0 d1 p gn g carry own read left res
  have hstart : startReduce s i c = res := by
    cases herr : reduceErr s i p b d0 d1 with
    | some code => simp only [res, herr]; exact startReduce_ofErr herr
    | none =>
      cases hdrain : own && g.st == 2 with
      | true => simp only [res, herr, hdrain, if_true]; exact startReduce_ofDraining herr hdrain
      | false =>
        cases hjoin : joinErr s i p b d0 d1 with
        | some code =>
          simp only [res, herr, hdrain, hjoin, Bool.false_eq_true, if_false]
          exact startReduce_ofJoinErr herr hdrain hjoin
        | none =>
          simp only [res, herr, hdrain, hjoin, Bool.false_eq_true, if_false]
          refine (startReduce_opens herr hdrain hjoin).trans (ite_congr rfl (fun _ => rfl) fun _ => ?_)
          simp only [left, show carry = carryOf s i c from rfl]
          cases carryOf s i c <;> rfl
  refine ⟨fun hi hready => congrArg Host.Outcome.next ?_, fun hfirst hmet hon hserves => congrArg Host.Outcome.next ?_⟩
  · rw [seRow_ofReady hready, ← hi, hstart]
  · have hmet' : seWaitMet s i c.bytes = true := hmet
    refine Eq.trans ?_ hstart
    simp only [seStart, hfirst, hmet', hon, hserves, Bool.not_true, Bool.or_self, Bool.false_eq_true, if_false]

/-! ### Contributions -/

theorem contributionLands : claimContributionLands := by
  intro s i g b rank p r c hfind hpart m whole need good ready without lo k s1 s2 bad
  have hform : whole → (!c.fits || c.got != c.len + 40) = false := fun h => by simp [h.1, h.2]
  have hdig : good → (need && c.dig != some (crc64 (readBytes s.mem (r.holdBase + c.off) c.len))) = false := fun h => by
    rcases h with h | h <;> simp [h]
  have hbad : ¬ good → (need && c.dig != some (crc64 (readBytes s.mem (r.holdBase + c.off) c.len))) = true := fun h => by
    simpa [good, not_or] using h
  refine ⟨fun hw hg hc => ?added, fun hw hg hc => ?carried, fun hw => ?refused, fun hw hg hk => ?busy, fun hw hg hk => ?digest⟩
  all_goals refine congrArg Host.Outcome.next ?_
  all_goals simp only [contribLanded, hfind, hpart]
  case refused => exact if_pos (by simpa [whole, imp_iff_not_or] using hw)
  all_goals refine (if_neg (ne_true_of_eq_false (hform hw))).trans ?_
  case added => refine (if_neg (ne_true_of_eq_false (hdig hg))).trans ?_; rw [if_neg (ne_true_of_eq_false hc)]
  case carried => refine (if_neg (ne_true_of_eq_false (hdig hg))).trans ?_; rw [if_pos hc]
  case busy => exact (if_pos (hbad hg)).trans (if_neg (Nat.not_le.mpr hk))
  case digest => exact (if_pos (hbad hg)).trans (if_pos hk)

/-! ### Passes -/

section
variable {s : State} {i g b p : Nat} {r : RSlot}

theorem startPass_waits {chk : Chk} {es : List (Nat × Ecc)} (hslot : slotAt s i g b false = some r) (hpart : partOfSite s i = some p)
    (h : ¬ (passRuns s i = false ∧ siteOn s i = true)) : startPass s i g b chk es = s := by
  have hstop : (passRuns s i || !siteOn s i) = true := by
    cases hp : passRuns s i <;> simp_all
  simp only [startPass, hslot, hpart, hstop, if_true]

theorem startPass_replays {chk : Chk} {es : List (Nat × Ecc)} (hslot : slotAt s i g b false = some r) (hpart : partOfSite s i = some p)
    (h : passRuns s i = false ∧ siteOn s i = true) (hmode : silMode s p = 3) : startPass s i g b chk es =
      if (entryAt s i p r r.order).isSome then putSlot s i { r with pass := true } else s := by
  simp only [startPass, hslot, hpart, h.1, h.2, Bool.not_true, Bool.or_self, Bool.false_eq_true, if_false, hmode, if_true]

theorem passDone_idle (hslot : slotAt s i g b false = some r) (hpart : partOfSite s i = some p) (h : r.pass = false) :
    passDone s i g b = s := by
  simp only [passDone, hslot, hpart, h, Bool.not_false, if_true]

theorem passDone_mismatch (hslot : slotAt s i g b false = some r) (hpart : partOfSite s i = some p) (h : r.pass = true)
    (hmode : silMode s p = 3) (hno : replayItems s i p 8 r [] = none) :
    passDone s i g b = raiseEvt (redFail (dropSlot s i r) i r 0x050D 0) (pgPart p) 1 := by
  simp only [passDone, hslot, hpart, h, Bool.not_true, Bool.false_eq_true, if_false, hmode, if_true, hno]

theorem passDone_replay {r1 : RSlot} {l : List (List Byte)} (hslot : slotAt s i g b false = some r) (hpart : partOfSite s i = some p)
    (h : r.pass = true) (hmode : silMode s p = 3) (hyes : replayItems s i p 8 r [] = some (r1, l)) :
    passDone s i g b = tryClose (modGrpPage (addAll s i { r1 with pass := false } l) p
      (fun y => { y with contribIn := y.contribIn + BitVec.ofNat 64 l.length })) i g b := by
  simp only [passDone, hslot, hpart, h, Bool.not_true, Bool.false_eq_true, if_false, hmode, if_true, hyes]

theorem passDone_adds (hslot : slotAt s i g b false = some r) (hpart : partOfSite s i = some p) (h : r.pass = true)
    (hmode : silMode s p ≠ 3) : passDone s i g b = tryClose (modGrpPage (addAll s i
      { r with pass := false, ownPass := false, added := markItems r.added (ranItems r) false,
               carried := markItems r.carried (ranItems r) true, held := r.held.filter (fun c => !c.passing) }
      ((ranItems r).map (itemBytes s r))) p
      (fun y => { y with contribIn := y.contribIn + BitVec.ofNat 64 (ranItems r).length })) i g b := by
  simp only [passDone, hslot, hpart, h, Bool.not_true, Bool.false_eq_true, if_false, hmode, List.length_map]

end

theorem reducePasses : claimReducePasses := by
  intro s i g b p chk es r0 hslot hpart log x r s1 items y met s2 may
  refine ⟨fun hmay hmode => ?runs, fun hmay hmode => ?replays, fun hmay => ?waits, fun hheld => ?resumes, fun hheld => ?open_,
    fun hmode hpass => ?adds, fun hmode hpass => ⟨fun hno => ?mismatch, fun r1 l hyes => ?replayed⟩, fun hpass => ?idle⟩
  case runs =>
    obtain ⟨hclose, harith, hplain, hlogged, hfull⟩ := reducePass_ofSlot (chk := chk) (es := es) hslot hpart hmay hmode
    exact ⟨fun h => congrArg Host.Outcome.next (hclose h), fun h1 h2 h3 => congrArg Host.Outcome.next (harith h1 h2 h3),
      fun h1 h2 h3 h4 => congrArg Host.Outcome.next (hplain h1 h2 h3 h4),
      fun h1 h2 h3 h4 h5 => congrArg Host.Outcome.next (hlogged h1 h2 h3 h4 h5),
      fun h1 h2 h3 h4 h5 => congrArg Host.Outcome.next (hfull h1 h2 h3 h4 h5)⟩
  all_goals refine congrArg Host.Outcome.next ?_
  case replays => exact startPass_replays hslot hpart hmay hmode
  case waits => exact startPass_waits hslot hpart hmay
  case resumes => simp only [hslot, hheld, if_true]
  case open_ => simp only [hslot, hheld, Bool.false_eq_true, if_false]
  case adds => exact passDone_adds hslot hpart hpass hmode
  case mismatch => exact passDone_mismatch hslot hpart hpass hmode hno
  case replayed => exact passDone_replay hslot hpart hpass hmode hyes
  case idle => exact passDone_idle hslot hpart hpass

/-! ### Late ranks -/

theorem lateRanks : claimLateRank := by
  intro s i g b p r hslot hpart miss
  refine ⟨fun hset hnew htime hmiss => congrArg Host.Outcome.next ?_, fun hquiet => congrArg Host.Outcome.next ?_⟩
  · simp only [lateRank, hslot, hpart]
    exact if_neg (by simpa [hset, hnew, htime] using hmiss)
  · simp only [lateRank, hslot, hpart]
    exact if_pos (by simpa [or_assoc] using hquiet)

/-- Settles O28: the slot's opening, what lands in it, its passes and its deadline. -/
theorem reduceGroups : Obligations.ReduceGroups := ⟨reduceOpens, contributionLands, reducePasses, lateRanks⟩

end Sys2Proof.Machine
end

section
/-! PROOFS. The registers and the commands of a reduce group (R382, R383, R396-R399). -/

namespace Sys2Proof.Machine

section
variable {s : State} {n : Nat} {v : W32}

theorem grpCfgWrite_ofOpen (h : groupOpen s n = true) : exec (.grpCfgWrite n v) s = .next (settleFull (grpCfgWrite s n v)) := by
  refine congrArg Host.Outcome.next ((entryHost_ofGroupOpen h (by omega) (by omega) (by decide)).trans ?_)
  rw [BitVec.ofNat_toNat, BitVec.setWidth_eq]
  rfl

theorem layoutDataWrite_ofOpen (h : groupOpen s n = true) : exec (.layoutDataWrite n (some v)) s = .next (layoutWrite s n v) := by
  refine congrArg Host.Outcome.next ((entryHost_ofGroupOpen h (by omega) (by omega) (by decide)).trans ?_)
  rw [BitVec.ofNat_toNat, BitVec.setWidth_eq]
  rfl

theorem layoutDataRead_ofOpen (h : groupOpen s n = true) : exec (.layoutDataWrite n none) s =
    .next { modGroup s n layoutStep with reply := toBytes 4 (layoutRead (group s n)).toNat } := by
  have hn : n < 1024 := by
    simp only [groupOpen, Bool.and_eq_true, decide_eq_true_eq] at h
    exact h.1.1
  exact congrArg Host.Outcome.next ((if_pos hn).trans (hostRead_layout h))

theorem grpCmd_ofOpen {op : Nat} (h : groupOpen s n = true) (hop : op < 16) :
    entryHost s n 0x1C op = settleFull (grpCmd s n op) := by
  refine (entryHost_ofGroupOpen h (by omega) (by omega) (by decide)).trans ?_
  have hfield : fld (BitVec.ofNat 32 op) 3 0 = op := by
    have hsmall : op % 2 ^ 32 = op := Nat.mod_eq_of_lt (by omega)
    simp only [fld, nfld, BitVec.toNat_ofNat, hsmall]
    omega
  change settleFull (grpCmd s n (fld (BitVec.ofNat 32 op) 3 0)) = _
  rw [hfield]

theorem grpSettle_bad (h : latePolicy (group s n) = 0 ∨ bit (group s n).arg (ownRank (group s n)) = true) :
    grpSettle s n = grpErr s (partOfGroup s n) 0x0909 n 0 (ownRank (group s n)) 0 := if_pos (by simpa using h)

/-- Is the epoch of GRP_ARG newer than the group's (R398)? -/
def reshardNewer (g : Group) : Bool :=
  decide (BitVec.ofNat 32 (fld g.arg 31 0) ≠ g.epoch) && !bit (BitVec.ofNat 32 (fld g.arg 31 0) - g.epoch) 31

theorem grpReshard_eq : grpReshard s n =
    if (group s n).st = 2 || !(reshardNewer (group s n) || (group s n).st == 0) then
      grpErr s (partOfGroup s n) 0x090C n 0 (ownRank (group s n)) 0
    else setGroup s n { group s n with st := 2, newEpoch := BitVec.ofNat 32 (fld (group s n).arg 31 0) } := by
  have hne : (BitVec.ofNat 32 (fld (group s n).arg 31 0) != (group s n).epoch) =
      decide (BitVec.ofNat 32 (fld (group s n).arg 31 0) ≠ (group s n).epoch) := by simp [bne, beq_eq_decide]
  simp only [grpReshard, reshardNewer, hne]
  rfl

theorem grpReshard_bad (h : (group s n).st = 2 ∨ reshardNewer (group s n) = false ∧ (group s n).st ≠ 0) :
    grpReshard s n = grpErr s (partOfGroup s n) 0x090C n 0 (ownRank (group s n)) 0 :=
  grpReshard_eq.trans (if_pos (by rcases h with h | ⟨hold, h⟩ <;> simp_all))

theorem grpReshard_drains (hst : (group s n).st ≠ 2) (h : reshardNewer (group s n) = true ∨ (group s n).st = 0) :
    grpReshard s n = setGroup s n { group s n with st := 2, newEpoch := BitVec.ofNat 32 (fld (group s n).arg 31 0) } :=
  grpReshard_eq.trans (if_neg (by rcases h with h | h <;> simp_all))

/-- Does a REDUCE of the group's epoch still hold a slot (R398)? -/
def groupBusy (s : State) (n : Nat) : Bool :=
  (partSites s (partOfGroup s n)).any (fun i => (se s i).slots.any (fun r => r.group == n && !r.carrySlot))

theorem reshardDone_waits (h : (group s n).st ≠ 2 ∨ groupBusy s n = true) : reshardDone s n = s :=
  if_pos (by rw [Bool.or_eq_true_iff]; exact h.imp decide_eq_true id)

theorem reshardDone_done (hst : (group s n).st = 2) (hidle : groupBusy s n = false) : reshardDone s n =
    raiseEvt (modGroup (discardCarry s (partOfGroup s n) n) n (fun x =>
      { x with active := x.staged, epoch := x.newEpoch, lateSet := 0, st := 1 })) (pgGrp (partOfGroup s n)) 3 :=
  if_neg (by
    rw [Bool.or_eq_true_iff]
    rintro (h | h)
    · exact of_decide_eq_true h hst
    · exact ne_true_of_eq_false hidle h)

end

theorem groupSettings : claimGroupSettings := by
  intro s n v h g v1 fits
  have hfixed : ((fld v1 9 0 != fld g.cfg 9 0 && grpOpen s n != 0) || fld v1 7 6 == 3) = !decide fits := by
    by_cases h1 : fld v1 9 0 = fld g.cfg 9 0 <;> by_cases h2 : grpOpen s n = 0 <;> by_cases h3 : fld v1 7 6 = 3 <;> simp [fits, h1, h2, h3]
  refine ⟨fun hfits => ?taken, fun hfits => ?refused, fun hplane => ?write, fun hplane => ?locked, ?read⟩
  case taken =>
    refine (grpCfgWrite_ofOpen h).trans (congrArg (fun t => Host.Outcome.next (settleFull t)) ?_)
    exact if_neg (ne_true_of_eq_false (hfixed.trans (by simp [hfits])))
  case refused =>
    refine (grpCfgWrite_ofOpen h).trans (congrArg (fun t => Host.Outcome.next (settleFull t)) ?_)
    exact if_pos (hfixed.trans (by simp [hfits]))
  case write =>
    refine (layoutDataWrite_ofOpen h).trans (congrArg Host.Outcome.next ?_)
    simp only [layoutWrite, modGroup_eq, show bit (group s n).sel 30 = false from hplane, Bool.false_eq_true, if_false]
    rfl
  case locked =>
    refine (layoutDataWrite_ofOpen h).trans (congrArg Host.Outcome.next ?_)
    simp only [layoutWrite, modGroup_eq, show bit (group s n).sel 30 = true from hplane, if_true]
    rfl
  case read => exact layoutDataRead_ofOpen h

theorem groupCommands : claimGroupCommands := by
  intro s n g p e newer slotOf
  refine ⟨fun h hst hnew => ?drains, fun h hold => ?refused, fun hst hidle => ?done, fun hbusy => ?waits, fun h => ?abort,
    fun h hno => ?settleBad, fun h hpol hown => ?settle⟩
  case drains =>
    exact congrArg Host.Outcome.next ((grpCmd_ofOpen h (by omega)).trans (congrArg settleFull (grpReshard_drains hst hnew)))
  case refused =>
    exact congrArg Host.Outcome.next ((grpCmd_ofOpen h (by omega)).trans (congrArg settleFull (grpReshard_bad hold)))
  case done => exact congrArg Host.Outcome.next (reshardDone_done hst hidle)
  case waits => exact congrArg Host.Outcome.next (reshardDone_waits hbusy)
  case abort => exact congrArg Host.Outcome.next ((grpCmd_ofOpen h (by omega)).trans rfl)
  case settleBad => exact congrArg Host.Outcome.next ((grpCmd_ofOpen h (by omega)).trans (congrArg settleFull (grpSettle_bad hno)))
  case settle =>
    have hmay : ¬ ((latePolicy (group s n) = 0 || bit (group s n).arg (ownRank (group s n))) = true) := by
      simp [show latePolicy (group s n) ≠ 0 from hpol, show bit (group s n).arg (ownRank (group s n)) = false from hown]
    exact congrArg Host.Outcome.next ((grpCmd_ofOpen h (by omega)).trans (congrArg settleFull (if_neg hmay)))

/-- Settles O29: the open writes of a group's registers, and what each command does. -/
theorem groupSettingsAndCommands : Obligations.GroupSettingsAndCommands := ⟨groupSettings, groupCommands⟩

end Sys2Proof.Machine
end

section
/-! PROOFS. Accesses to the memory stacks, and their power states, refresh, temperatures, windows and scrubber (R197-R213, R240, R241). -/

namespace Sys2Proof.Machine

/-! ### Accesses -/

section
variable {s : State} {a k : Nat} {mk : Nat → Nat → HbmOp} {es : List Ecc} {rmw ko : Bool} {d : Nat}

theorem hbmAccess_inside (h : a + k ≤ regionEnd s a) : hbmAccess s a k mk es rmw ko d = (granules a k).foldl (fun s g => hbmRequest s
    { addr := g.1, op := mk (g.1 - a) g.2, ecc := es.drop (g.1 / 64 - a / 64), rmw := rmw, keepOpen := ko, drains := d }) s :=
  if_neg (by simpa using h)

theorem hbmAccess_past (h : regionEnd s a < a + k) : hbmAccess s a k mk es rmw ko d = s := if_pos (by simpa using h)

theorem hbmRequest_served {q : HbmReq} {p : HbmPlace} (h : hbmServes s q.addr p = true) : hbmRequest s q = serveReq s p q := by
  obtain ⟨hplace, hon, hserves⟩ := hbmServes_fields h
  simp only [hbmRequest, hplace, hon, hserves, Bool.not_true, Bool.false_eq_true, if_false, if_true]

theorem hbmRequest_waits {q : HbmReq} {p : HbmPlace} (hplace : hbmPlace s q.addr = some p) (hon : siteOn s p.site = true)
    (hst : (mc s p.site).st ≠ 0) :
    hbmRequest s q = modMc (startExit s p.site) p.site (fun m => { m with waiting := m.waiting ++ [q] }) := by
  have hserves : mcServes s p.site = false := beq_false_of_ne hst
  simp only [hbmRequest, hplace, hon, hserves, Bool.not_true, Bool.false_eq_true, if_false]

end

/-- Settles O30: an access is its granules' requests, and a request meets what its operation does. -/
theorem hbmAccesses : Obligations.HbmAccesses := by
  refine ⟨fun s a n es ko h => ?read, fun s a bs es ko k h => ?write, fun s a bf mx x es h => ?reduce, fun s a n es ko h => ?readPast,
    fun s a bs es ko k h => ?writePast, fun s a bf mx x es h => ?reducePast, fun s q p h => ?_⟩
  case read => exact congrArg Host.Outcome.next (hbmAccess_inside h)
  case write => exact congrArg Host.Outcome.next (hbmAccess_inside h)
  case reduce => exact congrArg Host.Outcome.next (if_neg (by simpa using h))
  case readPast => exact congrArg Host.Outcome.next (hbmAccess_past h)
  case writePast => exact congrArg Host.Outcome.next (hbmAccess_past h)
  case reducePast => exact congrArg Host.Outcome.next (if_pos (by simpa using h))
  rw [hbmRequest_served h]
  refine ⟨fun n hop => ?_, fun bs hop => ?_, fun t mx x hop => ?_⟩ <;> simp only [serveReq, hop] <;> rfl

/-! ### Self-refresh and banks -/

theorem selfRefresh : claimSelfRefresh := by
  refine ⟨fun s q p hplace hon hst => ?waits, fun s i hst => ?exits, fun s i hst => ?none_, fun s i t ht => ?enters, fun s i ht => ?never⟩
  case waits =>
    rw [hbmRequest_waits hplace hon hst]
    by_cases h1 : (mc s p.site).st = 1
    · simp only [startExit, modMc_eq, mc_setMc, setMc_setMc, if_pos h1]
    · simp only [startExit, modMc_eq, mc_setMc, setMc_setMc, if_neg h1]
  case exits => exact congrArg Host.Outcome.next (if_pos hst)
  case none_ => exact congrArg Host.Outcome.next (if_neg hst)
  case enters =>
    refine ⟨fun hmay => congrArg Host.Outcome.next ?_, fun hmay => congrArg Host.Outcome.next ?_⟩
    · simp only [selfRefreshEntry, ht]
      exact if_pos hmay
    · simp only [selfRefreshEntry, ht]
      exact if_neg (ne_true_of_eq_false hmay)
  case never =>
    refine congrArg Host.Outcome.next ?_
    simp only [selfRefreshEntry, ht]

section
variable {s : State} {i c b k d : Nat}

/-- The condition of a per-bank refresh. -/
theorem hbmRefresh_ofOn (hon : siteOn s i = true) (hst : (mc s i).st = 0) (hc : c < 64) (hb : b < 64) : hbmRefresh s i c b k d =
    eccCount (setMc s i (if (getBank (mc s i) c b).st = .down ∨ (getBank (mc s i) c b).st = .poweringDown
      then { mc s i with refreshes := (mc s i).refreshes + 1 }
      else putBank { mc s i with refreshes := (mc s i).refreshes + 1 } c b
        { getBank (mc s i) c b with st := .closed, writes := (getBank (mc s i) c b).writes - min k (getBank (mc s i) c b).writes }))
      { site := i, pc := c, bank := b, row := 0, col := 0 } 0 d :=
  if_pos (by simp [hon, hst, hc, hb])

theorem bankPowerDown_eq (hon : siteOn s i = true) (hc : c < 64) (hb : b < 64) : bankPowerDown s i c b =
    if bit (mc s i).cfg 0 = true ∧ (getBank (mc s i) c b).st = .closed ∧ (getBank (mc s i) c b).writes = 0 ∧
      (getBank (mc s i) c b).last + 15 * max 1 (fld (mc s i).cfg 23 16) ≤ now s
    then setMc s i (putBank (mc s i) c b { getBank (mc s i) c b with st := .poweringDown }) else s := by
  simp only [bankPowerDown, hon, hc, hb, Bool.true_and, decide_true, Bool.and_true, Bool.and_eq_true,
    decide_eq_true_eq, beq_iff_eq, and_assoc]

end

theorem banks : claimBanks := by
  intro s i c b hon hc hb m x idle counted
  refine ⟨fun hcfg hst hw hidle => ?down, fun h => ?stays, fun hst => ?isDown, fun hst => ?notDown, fun k d hm hst => ?refresh,
    fun k d hm hst => ?refreshDown, fun k d hm => ?off⟩
  all_goals refine congrArg Host.Outcome.next ?_
  case down => rw [bankPowerDown_eq hon hc hb, if_pos ⟨hcfg, hst, hw, of_decide_eq_true hidle⟩]
  case stays =>
    rw [bankPowerDown_eq hon hc hb]
    refine if_neg ?_
    rintro ⟨hcfg, hst, hw, hidle⟩
    rcases h with h | h | h | h
    · exact ne_true_of_eq_false h hcfg
    · exact h hst
    · exact h hw
    · exact of_decide_eq_false h hidle
  case isDown => exact if_pos hst
  case notDown => exact if_neg hst
  case refresh =>
    rw [hbmRefresh_ofOn hon hm hc hb, if_neg (by rcases hst with h | h <;> simp [show (getBank (mc s i) c b).st = _ from h])]
  case refreshDown => rw [hbmRefresh_ofOn hon hm hc hb, if_pos hst]
  case off =>
    have hstack : ((mc s i).st == 0) = false := beq_false_of_ne hm
    exact if_neg (by simp only [hstack, Bool.and_false, Bool.false_and, Bool.false_eq_true, not_false_eq_true])

/-! ### Temperatures -/

theorem temperatures : claimTemperatures := by
  intro s i p ts hon hpart hlen m old steps hot s1 s2 s3
  have hsample : tempSample s i ts = if 105 ≤ nth ts hot then overTemp s2 i else s2 := if_neg (by simp [hon, hlen])
  have hsite : partOfSite s3 i = some p := by
    refine (recordErr_site _ _ _ _ _ i).trans ?_
    exact (raises_site _ _ _ _ s1).trans hpart
  refine ⟨fun hcool => congrArg Host.Outcome.next ?_, fun hhot => congrArg Host.Outcome.next ?_⟩
  · exact hsample.trans (if_neg (Nat.not_le.mpr hcool))
  · refine hsample.trans ((if_pos hhot).trans ?_)
    simp only [overTemp, show partOfSite (recordErr (modMc s2 i (fun m => { m with st := 1 })) (pgMc i) 0x0602 0 0) i = some p from hsite]
    rfl

/-! ### Imbalance windows -/

theorem imbalance : claimImbalance := by
  intro s i m cs tot mx on run ratio raise report ends
  have hwait : (!imbRuns s i || decide (now s < m.winStart + 2 ^ imbWindow m)) = !ends := by
    simp only [ends, Bool.not_and, ← decide_not, Nat.not_le]
  have hend : ends = true → imbWindowEnd s i = if raise then raiseEvt report (pgMc i) 0 else report := fun h =>
    if_neg (ne_true_of_eq_false (hwait.trans (by simp [h])))
  refine ⟨fun h hno => ?quiet, fun h hyes => ?raises, fun h => ?waits⟩
  all_goals refine congrArg Host.Outcome.next ?_
  case quiet => exact (hend h).trans (if_neg (ne_true_of_eq_false hno))
  case raises => exact (hend h).trans (if_pos hyes)
  case waits => exact if_pos (hwait.trans (by simp [h]))

/-! ### The scrubber -/

theorem scrubber : claimScrubber := by
  intro s i x w p runs
  refine ⟨fun e hruns => ?_, fun e hidle => ?idle, fun v hi hopen => ?ctr⟩
  · intro fixed
    have hgo : ¬ (!(se s i).scrubEn || !siteOn s i || !mcServes s i) = true := by
      simp only [runs, x, Bool.and_eq_true] at hruns
      simp [hruns]
    refine ⟨fun hmore => ?_, fun hlast => ?_⟩
    · refine congrArg Host.Outcome.next ((if_neg hgo).trans ?_)
      have hno : decide ((se s i).scrubPos.toNat = 2 ^ 30 - 1) = false := decide_eq_false hmore
      simp only [hno, Bool.false_eq_true, if_false]
      rfl
    · refine congrArg Host.Outcome.next ((if_neg hgo).trans ?_)
      have hyes : decide ((se s i).scrubPos.toNat = 2 ^ 30 - 1) = true := decide_eq_true hlast
      have hwrap : (se s i).scrubPos + 1 = 0 := by
        apply BitVec.eq_of_toNat_eq
        simp [BitVec.toNat_add, show (se s i).scrubPos.toNat = 2 ^ 30 - 1 from hlast]
      simp only [hyes, if_true, hwrap]
      rfl
  case idle =>
    refine congrArg Host.Outcome.next (if_pos ?_)
    cases h1 : (se s i).scrubEn <;> cases h2 : siteOn s i <;> cases h3 : mcServes s i <;> simp_all [runs, x]
  case ctr =>
    have hpage := pageType_pgSe hi
    refine congrArg Host.Outcome.next ((if_pos hi).trans ?_)
    rw [hostReg_ofBlock hopen hpage (by unfold pgSe; omega) (by omega) (by omega) (by omega) (entryPage_pgSe hi)
      (by simp [wide, hpage, entryPage_pgSe hi])]
    simp only [blockWrite, hpage, BitVec.ofNat_toNat, BitVec.setWidth_eq]
    rfl

/-- Settles O31: power states and refresh of banks and stacks, temperatures, imbalance windows and the scrubber. -/
theorem hbmUpkeep : Obligations.HbmUpkeep := ⟨selfRefresh, banks, temperatures, imbalance, scrubber⟩

end Sys2Proof.Machine
end

section
/-! PROOFS. Stream messages at their landing die: order, delivery, and what each destination does (R334, R335, R358-R371). -/

namespace Sys2Proof.Machine

/-! ### Deliveries -/

theorem streamDeliveriesTaken : claimStreamDeliveries := by
  intro s x which i q m c o t kept done markQ mark
  have htaken : ∀ {k : Nat} {effect : State → Nat → Msg → State}, inTurn s x k which i q m c = true →
      streamRow s x k which (fun s q m => (effect s q m, true)) = delivered (effect t q m) x q m :=
    fun h => (streamRow_ofInTurn h _).trans (if_pos rfl)
  refine ⟨fun h => ?write, fun h => ?readReq, fun h => ?readData, fun h => ?contrib, fun h => ?diag, fun h => ?ret, fun h => ?drop,
    fun h => ?dispatch, fun h => ?mark⟩
  case write => exact congrArg Host.Outcome.next (htaken (effect := fun s q m => writeMessage s x q m o) h)
  case readReq => exact congrArg Host.Outcome.next (htaken (effect := fun s q m => readReqMessage s x q m) h)
  case readData => exact congrArg Host.Outcome.next (htaken (effect := readDataMessage) h)
  case contrib => exact congrArg Host.Outcome.next (htaken (effect := fun s q m => contribMessage s x q m) h)
  case diag =>
    exact congrArg Host.Outcome.next (htaken
      (effect := fun s q m => sendMsgs s x q [{ blankMsg 6 14 m.srcId with data := m.data }]) h)
  case ret => exact congrArg Host.Outcome.next (htaken (effect := fun s q m => returnMessage s x q m) h)
  case drop =>
    exact congrArg Host.Outcome.next (htaken
      (effect := fun s q m => applyDrop s m.dstIod q (leAt m.data 16 1) (m.data.take 16)) h)
  case dispatch =>
    refine (congrArg Host.Outcome.next (streamRow_ofInTurn h (fun s q m => dispatchMessage s x q m))).trans ?_
    exact apply_ite Host.Outcome.next _ _ _
  case mark =>
    refine (congrArg Host.Outcome.next (streamRow_ofInTurn h (fun s p m =>
      if !takesChoices s p (m.addr % 4096) then (s, true)
      else endMark s (m.addr % 4096) (leAt m.data 0 2) (leAt m.data 2 1 % 64)))).trans ?_
    cases hmet : takesChoices t q markQ with
    | false => simp only [t, markQ, done, Bool.not_false, if_true]
    | true =>
      cases hkept : takesChoices kept q markQ <;>
        cases hmark : mark.2 <;>
          simp_all only [t, kept, markQ, mark, done, Bool.not_true, Bool.not_false, Bool.false_eq_true, reduceCtorEq, if_true, if_false]

/-! ### Order -/

section
variable {s : State} {x i q : Nat} {m : Msg} {deliver : State → State × Bool}

theorem landStream_busy (hanew : startsAnew s x q m = true) (hnone : landCtx s x q m = none) (hfull : 16384 ≤ (iod s x).lands.length) :
    landStream s x i q m deliver = answer (dropInbox s x i) x q 0x0B 0 m := by
  have hopens : m.opens = true := by simpa [startsAnew, hnone] using hanew
  simp [landStream, hnone, hopens, hfull]

theorem landStream_reset (hanew : startsAnew s x q m = false) (hnone : landCtx s x q m = none) :
    landStream s x i q m deliver = answer (linkErr (dropInbox s x i) x 0x0705 m.dstId m.xtag) x q 0x0A 0x0705 m := by
  have hopens : m.opens = false := by simpa [startsAnew, hnone] using hanew
  simp [landStream, hnone, hopens, refuseMsg]

section
variable {c : LandCtx} (hmeets : meetsCtx s x q m c = true)
include hmeets

theorem landStream_quiesced (hturn : subMod (2 ^ 32) m.sseq c.expect = 0) (hst : (part s q).state = .quiesced) :
    landStream s x i q m deliver = delivered (answerBusy (met s x i q m c) x q m) x q m := by
  refine (landStream_ofMeets hmeets deliver).trans ((if_pos hturn).trans ?_)
  rw [if_pos hst]
  rfl

theorem landStream_again (hold : 2 ^ 31 ≤ subMod (2 ^ 32) m.sseq c.expect) : landStream s x i q m deliver = met s x i q m c :=
  (landStream_ofMeets hmeets deliver).trans ((if_neg (by omega)).trans (if_pos hold))

theorem landStream_far (h0 : 0 < subMod (2 ^ 32) m.sseq c.expect) (hnew : subMod (2 ^ 32) m.sseq c.expect < 2 ^ 31)
    (hfar : 1024 < subMod (2 ^ 32) m.sseq c.expect ∨ 4 * 2 ^ 20 < reorderBytes (iod s x) + 32 + m.data.length) :
    landStream s x i q m deliver =
      streamCtl (modIod (met s x i q m c) x (fun d => { d with reorderDrop := d.reorderDrop + 1 })) x q 0x0D c.expect m :=
  (landStream_ofMeets hmeets deliver).trans ((if_neg (by omega)).trans ((if_neg (by omega)).trans (if_pos hfar)))

theorem landStream_early (h0 : 0 < subMod (2 ^ 32) m.sseq c.expect)
    (hnear : ¬ (1024 < subMod (2 ^ 32) m.sseq c.expect ∨ 4 * 2 ^ 20 < reorderBytes (iod s x) + 32 + m.data.length)) :
    landStream s x i q m deliver = putLand (met s x i q m c) x q m
      { c with msgAt := s.time, early := m :: c.early.filter (fun y => y.sseq != m.sseq) } :=
  (landStream_ofMeets hmeets deliver).trans ((if_neg (by omega)).trans ((if_neg (by omega)).trans (if_neg hnear)))

end

end

theorem streamOrder : claimStreamOrder := by
  intro s x which o k r hr i q m hat _ t
  obtain ⟨deliver, hexec⟩ := exec_streamRows hr
  have hrow : ∀ {u : State}, landStream s x i q m (fun s1 => deliver s1 q m) = u → exec r s = .next u := fun h =>
    (hexec s).trans (congrArg Host.Outcome.next ((streamRow_ofAtDie hat deliver).trans h))
  refine ⟨fun hanew hnone hfull => hrow (landStream_busy hanew hnone hfull), fun hanew hnone => hrow (landStream_reset hanew hnone),
    fun c hmeets => ?_⟩
  intro ahead far
  refine ⟨fun h0 hst => hrow (landStream_quiesced hmeets h0 hst), fun hold => hrow (landStream_again hmeets hold),
    fun h0 hnew hfar => hrow (landStream_far hmeets h0 hnew (by simpa [far, ahead] using hfar)),
    fun h0 hnear => hrow (landStream_early hmeets h0 (by simpa [far, ahead] using hnear))⟩

theorem deliveryCounts : claimDeliveryCounts := by
  intro s x q m
  refine ⟨fun hnone => ?_, fun c hctx => ?_⟩
  · simp only [delivered, hnone]
  · cases hearly : c.early.find? (fun y => y.sseq == (c.expect + 1) % 2 ^ 32) <;> simp only [delivered, hctx, hearly]

/-! ### Writes -/

theorem writeErr_eq (t : State) (q : Nat) (m : Msg) (spanned : Bool) (data : List Byte) : writeErr t q m spanned data =
    (if spanned then spanErr t q (leAt m.data 0 8) (leAt m.data 8 8) else none).or
      (if data.isEmpty then none else spanErr t q m.addr (m.addr + data.length - 1)) := by
  unfold writeErr
  cases (if spanned then spanErr t q (leAt m.data 0 8) (leAt m.data 8 8) else none) <;> rfl

section
variable {t : State} {x q : Nat} {m : Msg} {o : FlitOut}

/-- The bytes of a WRITE message: the first carries its span in front (R358). -/
def writeData (m : Msg) : List Byte := if m.first && !m.data.isEmpty then m.data.drop 16 else m.data

/-- A WRITE message's bytes have landed. -/
def writeLanded (s : State) (x q : Nat) (m : Msg) : State :=
  if (writeData m).isEmpty then s else noteWrote (inboundWrite s x m.addr (writeData m)) x q m m.addr (writeData m).length

theorem writeMessage_refused {code : Nat} (hnew : (!m.first && xferRefused t x q m) = false)
    (hbad : writeErr t q m (m.first && !m.data.isEmpty) (writeData m) = some code) :
    writeMessage t x q m o = writeRefused t x q code m := by
  unfold writeData at hbad
  simp only [writeMessage, hnew, hbad, Bool.false_eq_true, if_false]

theorem writeMessage_lands (hnew : (!m.first && xferRefused t x q m) = false)
    (hgood : writeErr t q m (m.first && !m.data.isEmpty) (writeData m) = none) :
    writeMessage t x q m o = flitMeets (if m.first then noteXfer t x q m false else t) [] 0 (m.addr / 64) q o
      (fun s => if m.last then writeLast (writeLanded s x q m) x q m else writeLanded s x q m) := by
  unfold writeData at hgood
  simp only [writeMessage, hnew, hgood, Bool.false_eq_true, if_false]
  rfl

theorem writeLast_plain (h : m.incEn = false) : writeLast t x q m = answer (endXferAt t x q m) x q 0x09 0 m :=
  if_neg (ne_true_of_eq_false h)

end

theorem writeEffects : claimWriteEffects := by
  intro t x q m o spanned data err passed ends
  have herr : writeErr t q m spanned data = err := writeErr_eq t q m spanned data
  refine ⟨fun hpassed => if_pos hpassed, fun code hnew hbad => writeMessage_refused hnew (herr.trans hbad), fun hnew hgood => ?lands⟩
  refine (writeMessage_lands hnew (herr.trans hgood)).trans (congrArg (flitMeets _ [] 0 (m.addr / 64) q o) (funext fun u0 => ?_))
  cases hlast : m.last with
  | false => rfl
  | true =>
    cases hinc : m.incEn with
    | false => exact writeLast_plain hinc
    | true => exact if_pos hinc

/-! ### The other destinations -/

/-- The transfer that asked for a READ_DATA: its die, its tag and itself (R371). -/
def readAsker (t : State) (q : Nat) (m : Msg) : Option (Nat × Nat × Xfer) :=
  (List.range 4).findSome? (fun y => ((iod t y).xfers.find? (fun e => e.1 == m.xtag && e.2.part == q && e.2.dst == m.srcId
    && decide (e.2.got < e.2.want) && decide (homeOf e.2 ≤ m.addr) && decide (m.addr + m.data.length ≤ homeOf e.2 + e.2.want))).map
      (fun e => (y, e)))

theorem readDataMessage_ofNone {t : State} {q : Nat} {m : Msg} (h : readAsker t q m = none) : readDataMessage t q m = t := by
  unfold readAsker at h
  simp only [readDataMessage, h]

theorem applyDrop_stale {t : State} {x q d : Nat} {tag : List Byte} (h : tagContext t x q tag = none) :
    applyDrop t x q d tag = staleIn t x := by
  simp only [applyDrop, h]

theorem deliveredEffects : claimDeliveredEffects := by
  intro t x q m lo hi mine asked tag
  refine ⟨fun code hbad => ?refused, fun hgood => ?read, fun hnone => readDataMessage_ofNone hnone, fun y g f hsome => ?data,
    fun hfirst hnone => ?stale, fun c hfirst hctx => ?row, fun d hnone => applyDrop_stale hnone, fun d c hctx hd => ?drop,
    fun hfirst hno => ?notice⟩
  case refused => simp only [readReqMessage, show spanErr t q (leAt m.data 0 8) (leAt m.data 8 8) = some code from hbad]
  case read => simp only [readReqMessage, show spanErr t q (leAt m.data 0 8) (leAt m.data 8 8) = none from hgood]; rfl
  case data =>
    have hasker : readAsker t q m = some (y, g, f) := hsome
    unfold readAsker at hasker
    simp only [readDataMessage, hasker] <;> rfl
  case stale =>
    simp only [returnMessage, hfirst, if_true, show tagContext t m.dstIod q (m.data.take 16) = none from hnone]
  case row =>
    simp only [returnMessage, hfirst, if_true, show tagContext t m.dstIod q (m.data.take 16) = some c from hctx]
    rfl
  case drop =>
    have hplain : ¬ (d = 2 ∨ d = 3 ∨ d = 5) := by omega
    simp only [applyDrop, hctx, if_neg hplain]
  case notice =>
    simp only [dispatchMessage, hfirst, if_true, hno, Bool.not_false]
    rfl

/-- Settles O32: a message in turn is delivered with its effect, and any other waits, is dropped or is answered. -/
theorem streamDeliveries : Obligations.StreamDeliveries :=
  ⟨streamDeliveriesTaken, streamOrder, deliveryCounts, writeEffects, deliveredEffects⟩

end Sys2Proof.Machine
end

section
/-! PROOFS. Expert rounds and admission (R328-R330, R339), and the requester's side of the links (R366-R374, R426). -/

namespace Sys2Proof.Machine

/-! ### Rounds -/

section
variable {s : State} {q g r : Nat}

theorem roundAfterDrain_opens (hheld : (queue (flushGroup s q) q).heldGen = some g) (hdrained : roundDrained (flushGroup s q) q = true) :
    roundAfterDrain s q = openRound (flushGroup s q) q g := by
  simp only [roundAfterDrain, hheld, hdrained, if_true]

theorem roundAfterDrain_waits (hheld : (queue (flushGroup s q) q).heldGen = some g) (hdrained : roundDrained (flushGroup s q) q = false) :
    roundAfterDrain s q = flushGroup s q := by
  simp only [roundAfterDrain, hheld, hdrained, Bool.false_eq_true, if_false]

theorem roundAfterDrain_none (hheld : (queue (flushGroup s q) q).heldGen = none) : roundAfterDrain s q = flushGroup s q := by
  simp only [roundAfterDrain, hheld]

end

section
variable {s : State} {x k : Nat}

/-- The Atomizer of die x once an open context is closed (R339). -/
def ctxCancelled (s : State) (x k : Nat) (c : Ctx) : State := setAtom s x { atom s x with
  ctxs := sdel (atom s x).ctxs k, cancelled := sput (atom s x).cancelled k c.gen, cancels := (atom s x).cancels + 1 }

theorem pgAtom_bar0 : ∀ y < 4, pgAtom y * 4096 + 4096 ≤ 2 ^ 25 := by decide

theorem atomCancel_ofOpen (hx : x < 4) (hk : k < 256) (h : regOpen s (pgAtom x) = true) :
    exec (.atomCancel x k) s = .next (atomCancel s x k) := by
  have hpage := pageType_pgAtom x hx
  have hentry := entryPage_pgAtom x hx
  have hctx : fld (BitVec.ofNat 32 k) 7 0 = k := by
    have hsmall : k % 2 ^ 32 = k := Nat.mod_eq_of_lt (by omega)
    simp only [fld, nfld, BitVec.toNat_ofNat, hsmall]
    omega
  refine congrArg Host.Outcome.next ((if_pos hx).trans ?_)
  rw [hostReg_ofBlock h hpage (by have := pgAtom_bar0 x hx; omega) (by omega) (by omega) (by omega) hentry (by simp [wide, hpage, hentry])]
  simp only [blockWrite, hpage]
  change atomCancel s x (fld (BitVec.ofNat 32 k) 7 0) = _
  rw [hctx]

theorem atomCancel_closed (h : (atom s x).ctxs.find? (fun e => e.1 == k) = none) : atomCancel s x k = s := by
  simp only [atomCancel, h]

theorem atomCancel_ofCtx {j : Nat} {c : Ctx} (h : (atom s x).ctxs.find? (fun e => e.1 == k) = some (j, c)) :
    atomCancel s x k =
      (atom s x).disps.head?.elim (ctxCancelled s x k c) (fun d =>
        if dpCtx d.bytes = k then endDisp (ctxCancelled s x k c) x d 0 else ctxCancelled s x k c) := by
  simp only [atomCancel, h]
  show (match (atom s x).disps with
    | d :: _ => if dpCtx d.bytes = k then endDisp (ctxCancelled s x k c) x d 0 else ctxCancelled s x k c
    | [] => ctxCancelled s x k c) = _
  generalize ctxCancelled s x k c = u
  cases (atom s x).disps <;> rfl

theorem atomCancel_plain {j : Nat} {c : Ctx} (h : (atom s x).ctxs.find? (fun e => e.1 == k) = some (j, c))
    (hother : ∀ d r, (atom s x).disps = d :: r → dpCtx d.bytes ≠ k) : atomCancel s x k = ctxCancelled s x k c := by
  rw [atomCancel_ofCtx h]
  cases hd : (atom s x).disps with
  | nil => rfl
  | cons d r => exact if_neg (hother d r hd)

theorem atomCancel_running {j : Nat} {c : Ctx} {d : Disp} {r : List Disp} (h : (atom s x).ctxs.find? (fun e => e.1 == k) = some (j, c))
    (hd : (atom s x).disps = d :: r) (hctx : dpCtx d.bytes = k) : atomCancel s x k = endDisp (ctxCancelled s x k c) x d 0 := by
  rw [atomCancel_ofCtx h, hd]
  exact if_pos hctx

end

theorem roundsOpenAndCancel : claimRounds := by
  refine ⟨fun s q => ?_, fun s x k hx hk hopen => ?_⟩
  · intro t
    exact ⟨fun g hheld hdrained => congrArg Host.Outcome.next (roundAfterDrain_opens hheld hdrained),
      fun g hheld hdrained => congrArg Host.Outcome.next (roundAfterDrain_waits hheld hdrained),
      fun hheld => congrArg Host.Outcome.next (roundAfterDrain_none hheld)⟩
  · rw [atomCancel_ofOpen hx hk hopen]
    exact ⟨fun hclosed => congrArg Host.Outcome.next (atomCancel_closed hclosed),
      fun j c hctx => ⟨fun hother => congrArg Host.Outcome.next (atomCancel_plain hctx hother),
        fun d r hd hrun => congrArg Host.Outcome.next (atomCancel_running hctx hd hrun)⟩⟩

section
variable {s : State} {q g r : Nat}

theorem enterRound_holds (h : (queue s q).heldGen.isSome = true) : enterRound s q g = .held s := if_pos h

theorem enterRound_first (h : (queue s q).heldGen = none) (hseen : roundSeen s q = false) :
    enterRound s q g = .current (openRound s q g) :=
  (if_neg (by simp [h])).trans (if_pos (by simp [hseen]))

theorem enterRound_seen (h : (queue s q).heldGen = none) (hseen : roundSeen s q = true) : enterRound s q g =
    if subMod 65536 g (exGet s q 64 2) = 0 then (if roundOpen s q then .current s else .stale)
    else if 32768 ≤ subMod 65536 g (exGet s q 64 2) then .stale
    else if roundDrained (if roundOpen s q then closeRound s q else s) q then
      .current (openRound (if roundOpen s q then closeRound s q else s) q g)
    else .held (modQueue (if roundOpen s q then closeRound s q else s) q (fun x => { x with heldGen := some g })) :=
  (if_neg (by simp [h])).trans (if_neg (by simp [hseen]))

theorem admitRow_full (h : 16 ≤ (queue (flushGroup s q) q).group.length) : admitRow s q g r = .held (flushGroup s q) := if_pos h

section
variable (hroom : (queue (flushGroup s q) q).group.length < 16)
include hroom

theorem admitRow_ofHeld {u : State} (h : enterRound (flushGroup s q) q g = .held u) : admitRow s q g r = .held u := by
  simp only [admitRow, if_neg (Nat.not_le.mpr hroom), h]

theorem admitRow_ofStale (h : enterRound (flushGroup s q) q g = .stale) : admitRow s q g r = .drop (exInc (flushGroup s q) q 96 8) 1 := by
  simp only [admitRow, if_neg (Nat.not_le.mpr hroom), h]

/-- A choice takes slot k of the round (R329). -/
def admitSlot (v : State) (q k : Nat) : Admit :=
  .slot (flushGroup (modQueue (exInc (exInc v q 66 2) q 88 8) q (fun x => { x with group := x.group ++ [k] })) q) k

theorem admitRow_ofCurrent {u : State} (h : enterRound (flushGroup s q) q g = .current u) : admitRow s q g r =
    if exQuota (queue u q).entry then
      if exSrc (queue u q).entry ≤ r then .drop u 5
      else if exGet u q (128 + 2 * r) 2 < exPer (queue u q).entry then
        admitSlot (exPut u q (128 + 2 * r) 2 (exGet u q (128 + 2 * r) 2 + 1)) q (r * exPer (queue u q).entry + exGet u q (128 + 2 * r) 2)
      else .drop (exInc u q 80 8) 0
    else if exGet u q 66 2 < exCap (queue u q).entry then admitSlot u q (exGet u q 66 2) else .drop (exInc u q 80 8) 0 := by
  simp only [admitRow, if_neg (Nat.not_le.mpr hroom), h]
  rfl

end

end

theorem admission : claimAdmission := by
  intro s q g r t
  refine ⟨fun hfull => admitRow_full hfull, fun hroom => ⟨fun u h => admitRow_ofHeld hroom h, fun h => admitRow_ofStale hroom h, fun u h => ?_⟩,
    fun h => enterRound_holds h, fun h hseen => enterRound_first h hseen, fun h hseen => ?_⟩
  · intro e give f
    have hrow := admitRow_ofCurrent (r := r) hroom h
    refine ⟨fun hq => ?_, fun hq hsrc => ?_, fun hq hsrc => ?_⟩
    · exact hrow.trans (if_neg (ne_true_of_eq_false hq))
    · exact hrow.trans ((if_pos hq).trans (if_pos hsrc))
    · exact hrow.trans ((if_pos hq).trans (if_neg (Nat.not_le.mpr hsrc)))
  · intro d u
    have hrow := enterRound_seen (g := g) h hseen
    refine ⟨fun hd => ?_, fun hd => ?_, fun h0 hd => ?_⟩
    · exact hrow.trans (if_pos hd)
    · exact hrow.trans ((if_neg (by omega)).trans (if_pos hd))
    · exact hrow.trans ((if_neg (by omega)).trans (if_neg (by omega)))

/-- Settles O33: the rules of a round's generation, and what each admits. -/
theorem rounds : Obligations.Rounds := ⟨roundsOpenAndCancel, admission⟩

/-! ### Answers -/

section
variable {s : State} {x q : Nat} {m : Msg}

theorem refused_ofXfer {g : Nat} {f : Xfer} (h : answered s x q m = some (g, f)) : refused s x q m =
    if m.code = 0x0705 then closeStream (endXfer s x g m.code) x f.part f.dst f.vc 0x0705 else endXfer s x g m.code := by
  simp only [refused, h]

theorem refused_ofRow {g : SrcStream} (h : answered s x q m = none) (hrow : entryless s x q m = some g) : refused s x q m =
    if m.code = 0x0705 then closeStream s x g.part g.dst g.vc 0x0705 else s := by
  simp only [refused, h, hrow]

theorem refused_ofNone (h : answered s x q m = none) (hrow : entryless s x q m = none) : refused s x q m = s := by
  simp only [refused, h, hrow]

/-- Is a transfer the one a BUSY answer names? -/
def busyNames (q : Nat) (m : Msg) (e : Nat × Xfer) : Bool := e.1 == m.xtag && e.2.part == q && e.2.dst == m.srcId

theorem busied_ofXfer {g : Nat} {f : Xfer} (h : (iod s x).xfers.find? (busyNames q m) = some (g, f)) : busied s x q m =
    progress (modIod s x (fun d => { d with xfers := sput d.xfers g { f with busyAt := some s.time } })) x f.part f.dst f.vc := by
  unfold busyNames at h
  simp only [busied, h]

theorem busied_ofRow {g : SrcStream} (h : (iod s x).xfers.find? (busyNames q m) = none) (hrow : entryless s x q m = some g) :
    busied s x q m = modIod s x (fun d => { d with streams := d.streams.map (fun y => if isStream g.part g.dst g.vc y then
      { y with resends := 0, busy := y.busy.filter (fun e => e.1 != m.xtag) ++ [(m.xtag, s.time)] } else y) }) := by
  unfold busyNames at h
  simp only [busied, h, hrow]

theorem busied_ofNone (h : (iod s x).xfers.find? (busyNames q m) = none) (hrow : entryless s x q m = none) : busied s x q m = s := by
  unfold busyNames at h
  simp only [busied, h, hrow]

theorem streamAck_ofNone (h : (iod s x).streams.findIdx? (isStream q m.srcId m.svc) = none) : streamAck s x q m = s := by
  simp only [streamAck, h]

theorem streamAck_ofIdle {k : Nat} {u : SrcStream} (h : (iod s x).streams.findIdx? (isStream q m.srcId m.svc) = some k)
    (hu : (iod s x).streams[k]? = some u) (hsent : u.sent = []) : streamAck s x q m = s := by
  simp only [streamAck, h, hu, hsent]

/-- A stream of which n messages are acknowledged (R364, R366). -/
def acked (u : SrcStream) (n t : Nat) : SrcStream :=
  { u with sent := u.sent.drop n, kept := u.kept ++ (u.sent.take n).filter (fun y => atomKind y.kind), ackAt := t, resends := 0 }

theorem streamAck_frees {k : Nat} {u : SrcStream} {f : Msg} {r : List Msg}
    (h : (iod s x).streams.findIdx? (isStream q m.srcId m.svc) = some k) (hu : (iod s x).streams[k]? = some u) (hsent : u.sent = f :: r) :
    streamAck s x q m = if subMod (2 ^ 32) m.sseq f.sseq + 1 ≤ u.sent.length then
      pumpAt (modIod s x (fun d => { d with streams := d.streams.set k (acked u (subMod (2 ^ 32) m.sseq f.sseq + 1) s.time) })) x k
    else s := by
  simp only [streamAck, h, hu, hsent, acked]

theorem streamNak_ofNone (h : (iod s x).streams.find? (isStream q m.srcId m.svc) = none) : streamNak s x q m = s := by
  simp only [streamNak, h]

theorem streamNak_ofIdle {u : SrcStream} (h : (iod s x).streams.find? (isStream q m.srcId m.svc) = some u) (hsent : u.sent = []) :
    streamNak s x q m = s := by
  simp only [streamNak, h, hsent]

theorem streamNak_resends {u : SrcStream} {f : Msg} {r : List Msg} (h : (iod s x).streams.find? (isStream q m.srcId m.svc) = some u)
    (hsent : u.sent = f :: r) : streamNak s x q m =
      if subMod (2 ^ 32) m.sseq f.sseq < u.sent.length then resendFrom s x u (subMod (2 ^ 32) m.sseq f.sseq) else s := by
  simp only [streamNak, h, hsent]

end

theorem answers : claimAnswers := by
  intro s x which i q m _ t busyAgain byTag
  refine ⟨fun h => ⟨?ack, ?ackCorrected, ?ackLost⟩, fun h => ⟨fun g f hf => ?refuse, fun g hn hg => ?refuseRow, fun hn hg => ?refuseNone⟩,
    fun h => ⟨fun g f hf => ?busy, fun g hn hg => ?busyRow, fun hn hg => ?busyNone⟩,
    fun h => ⟨fun k u f r hk hu hs => ?sack, fun k u hk hu hs => ?sackIdle, fun hk => ?sackNone⟩,
    fun h => ⟨fun u f r hu hs => ?nak, fun u hu hs => ?nakIdle, fun hu => ?nakNone⟩⟩
  all_goals refine congrArg Host.Outcome.next ((ctlRow_ofAtDie h _).trans ?_)
  case ack => rfl
  case ackCorrected => rfl
  case ackLost => rfl
  case refuse => exact refused_ofXfer hf
  case refuseRow => exact refused_ofRow hn hg
  case refuseNone => exact refused_ofNone hn hg
  case busy => exact busied_ofXfer hf
  case busyRow => exact busied_ofRow hn hg
  case busyNone => exact busied_ofNone hn hg
  case sack => exact streamAck_frees hk hu hs
  case sackIdle => exact streamAck_ofIdle hk hu hs
  case sackNone => exact streamAck_ofNone hk
  case nak => exact streamNak_resends hu hs
  case nakIdle => exact streamNak_ofIdle hu hs
  case nakNone => exact streamNak_ofNone hu

/-! ### Timers -/

section
variable {s : State} {x k : Nat}

section
variable {c : LandCtx} (h : (iod s x).lands[k]? = some c)
include h

theorem streamAckTimer_sends (hdue : c.unacked ≠ 0) (htime : c.deliveredAt + 3000 ≤ s.time) : streamAckTimer s x k =
    streamCtl (modIod s x (fun d => { d with lands := d.lands.set k { c with unacked := 0 } })) x c.part 0x0C
      (subMod (2 ^ 32) c.expect 1) { blankMsg c.vc 0 0 with src := c.src } := by
  simp only [streamAckTimer, h, hdue, not_lt.mpr htime, decide_false, Bool.or_self, Bool.false_eq_true, if_false]

theorem streamAckTimer_early (hidle : c.unacked = 0 ∨ s.time < c.deliveredAt + 3000) : streamAckTimer s x k = s := by
  simp only [streamAckTimer, h, Bool.or_eq_true, decide_eq_true_eq, if_pos hidle]

end

section
variable {t : SrcStream} (h : (iod s x).streams[k]? = some t)
include h

theorem streamResend_again (hsent : t.sent ≠ []) (htime : t.ackAt + resendTicks (iod s x) ≤ s.time) :
    streamResend s x k =
      if resendMax (iod s x) ≤ t.resends + 1 then
        closeStream (resendFrom (modIod s x (fun d =>
          { d with streams := d.streams.set k { t with resends := t.resends + 1, ackAt := s.time } })) x t 0)
          x t.part t.dst t.vc 0x0704
      else resendFrom (modIod s x (fun d => { d with streams := d.streams.set k { t with resends := t.resends + 1, ackAt := s.time } })) x t 0 := by
  simp only [streamResend, h]
  exact if_neg (by simp [hsent, htime])

theorem streamResend_early (hidle : t.sent = [] ∨ s.time < t.ackAt + resendTicks (iod s x)) : streamResend s x k = s := by
  simp only [streamResend, h]
  exact if_pos (by simpa using hidle)

theorem sourceStreamClose_closes (hsent : t.sent = []) (hwait : t.waiting = []) (htime : t.sentAt + 150000 ≤ s.time) :
    exec (.sourceStreamClose x k) s = .next (contextFreed (modIod s x (fun d => { d with streams := d.streams.eraseIdx k })) x) := by
  refine congrArg Host.Outcome.next ?_
  simp only [h]
  exact if_pos (by simp [hsent, hwait, htime])

theorem sourceStreamClose_early (hidle : t.sent ≠ [] ∨ t.waiting ≠ [] ∨ s.time < t.sentAt + 150000) :
    exec (.sourceStreamClose x k) s = .next s := by
  refine congrArg Host.Outcome.next ?_
  simp only [h]
  refine if_neg fun hdue => ?_
  simp only [Bool.and_eq_true, List.isEmpty_iff, decide_eq_true_eq] at hdue
  obtain ⟨⟨hsent, hwait⟩, htime⟩ := hdue
  rcases hidle with hs | hw | ht
  · exact hs hsent
  · exact hw hwait
  · omega

end

/-- Is a transfer with tag k due to be resent after its BUSY (R369)? -/
def busyDue (s : State) (x k : Nat) (e : Nat × Xfer) : Bool :=
  e.1 == k && (match e.2.busyAt with
    | some b => decide (b + resendTicks (iod s x) ≤ s.time)
    | none => false)

/-- What a resend sends: the transfer that is due, or else the row. -/
def resendOf (s : State) (x k : Nat) (xfer : Option (Nat × Xfer)) (row : Option (SrcStream × List Msg)) : State :=
  match xfer with
  | some (_, t) => sendMsgs (modIod s x (fun d =>
      { d with xfers := sput d.xfers k { t with busyAt := none, got := 0 }, busyRx := d.busyRx + 1 })) x t.part (xferMsgs s t k)
  | none =>
    match row with
    | some (t, ms) => sendMsgs (modIod s x (fun d => { d with
        busyRx := d.busyRx + 1,
        streams := d.streams.map (fun y => if isStream t.part t.dst t.vc y then
          { y with busy := y.busy.filter (fun e => e.1 != k), kept := y.kept.filter (fun m => m.xtag != k) } else y) })) x t.part ms
    | none => s

theorem transferResend_eq : transferResend s x k = resendOf s x k ((iod s x).xfers.find? (busyDue s x k)) (entrylessDue s x k) := rfl

end

theorem streamTimers : claimStreamTimers := by
  intro s x k due
  have hresend : ∀ a b, (iod s x).xfers.find? due = a → entrylessDue s x k = b → transferResend s x k = resendOf s x k a b :=
    fun a b ha hb => by rw [transferResend_eq, show (iod s x).xfers.find? (busyDue s x k) = a from ha, hb]
  refine ⟨fun c hc => ⟨fun hu ht => ?ack, fun hidle => ?ackIdle, fun ht => ?free, fun ht => ?freeEarly⟩, fun hc => ⟨?noAck, ?noFree⟩,
    fun t ht => ⟨fun hs hdue => ?again, fun hidle => ?againIdle, fun hs hw hdue => ?close, fun hidle => ?closeIdle⟩, fun ht => ⟨?noAgain, ?noClose⟩,
    fun j t hf => ?xfer, fun t ms hf hrow => ?row, fun hf hrow => ?none⟩
  case close => exact sourceStreamClose_closes ht hs hw hdue
  case closeIdle => exact sourceStreamClose_early ht hidle
  all_goals refine congrArg Host.Outcome.next ?_
  case ack => exact streamAckTimer_sends hc hu ht
  case ackIdle => exact streamAckTimer_early hc hidle
  case noAck => simp only [streamAckTimer, hc]
  case free => simp only [hc, if_pos ht]
  case freeEarly => simp only [hc, if_neg (Nat.not_le.mpr ht)]
  case noFree => simp only [hc]
  case again =>
    refine (streamResend_again ht hs hdue).trans ?_
    by_cases hmax : resendMax (iod s x) ≤ t.resends + 1
    · exact (if_pos hmax).trans (if_neg (Nat.not_lt.mpr hmax)).symm
    · exact (if_neg hmax).trans (if_pos (Nat.not_le.mp hmax)).symm
  case againIdle => exact streamResend_early ht hidle
  case noAgain => simp only [streamResend, ht]
  case noClose => simp only [ht]
  case xfer => exact hresend _ _ hf rfl
  case row => exact hresend _ _ hf hrow
  case none => exact hresend _ _ hf hrow

/-! ### The link engine -/

section
variable {s : State} {q i : Nat} {b : List Byte}

theorem linkEngineMove_eq (hcons : qConsumer (queue s q) = 2) :
    linkEngineMove s q = recRow s q (fun b => recCls b == 2) (fun s' i b =>
      if handPick s' q (iod s' (qTarget (queue s q))).lastQueue then
        linkStart 8 (modIod (putRec s' q i b .running) (qTarget (queue s q)) (fun d =>
          { d with waiting := d.waiting ++ [{ queue := q, index := i, bytes := b, sent := 0, acked := 0 }], lastQueue := q })) (qTarget (queue s q))
      else s') :=
  if_neg (not_not_intro hcons)

theorem recRow_ofNone {kind : List Byte → Bool} {start : State → Nat → List Byte → State} (hnext : nextRec s q = none) :
    recRow s q kind start = s := by
  simp only [recRow, hnext]

theorem recRow_ofOther {kind : List Byte → Bool} {start : State → Nat → List Byte → State} (hnext : nextRec s q = some (i, b))
    (hk : kind b = false) : recRow s q kind start = s := by
  simp only [recRow, hnext, hk, Bool.not_false, if_true]

theorem recRow_ofGood {kind : List Byte → Bool} {start : State → Nat → List Byte → State} (hnext : nextRec s q = some (i, b))
    (hk : kind b = true) (hgood : recErr s q b = none) :
    recRow s q kind start = if recReady s q b then start s i b else s := by
  simp only [recRow, hnext, hk, hgood, Bool.not_true, Bool.false_eq_true, if_false]

end

theorem linkEngineMoves (s : State) (q : Nat) :
    (qConsumer (queue s q) ≠ 2 ∨ nextRec s q = none → exec (.linkEngineMove q) s = .next s) ∧
    (∀ i b, qConsumer (queue s q) = 2 → nextRec s q = some (i, b) →
      let x := qTarget (queue s q)
      (recCls b ≠ 2 → exec (.linkEngineMove q) s = .next s) ∧
      (∀ code, recCls b = 2 → recErr s q b = some code →
        exec (.linkEngineMove q) s = .next (settleQ (putRec (queueErr s q code 0 i) q i b .refused) q)) ∧
      (recCls b = 2 → recErr s q b = none → recReady s q b = false ∨ handPick s q (iod s x).lastQueue = false →
        exec (.linkEngineMove q) s = .next s) ∧
      (recCls b = 2 → mayStart s q i b = true → handPick s q (iod s x).lastQueue = true →
        exec (.linkEngineMove q) s = .next (linkStart 8 (modIod (putRec s q i b .running) x (fun d =>
          { d with waiting := d.waiting ++ [{ queue := q, index := i, bytes := b, sent := 0, acked := 0 }], lastQueue := q })) x))) := by
  refine ⟨fun hnone => ?none, fun i b hcons hnext => ⟨fun hc => ?other, fun code hc hbad => ?bad, fun hc hgood hwait => ?waits,
    fun hc hstart hpick => ?starts⟩⟩
  all_goals refine congrArg Host.Outcome.next ?_
  case none =>
    by_cases hcons : qConsumer (queue s q) = 2
    · exact (linkEngineMove_eq hcons).trans (recRow_ofNone (hnone.resolve_left (not_not_intro hcons)))
    · exact if_pos hcons
  all_goals refine (linkEngineMove_eq hcons).trans ?_
  case other => exact recRow_ofOther hnext (beq_false_of_ne hc)
  case bad => exact recRow_refuses hnext hbad (by simp [hc])
  case waits =>
    refine (recRow_ofGood hnext (by simp [hc]) hgood).trans ?_
    rcases hwait with hready | hpick
    · exact if_neg (ne_true_of_eq_false hready)
    · exact ite_eq_right_iff.mpr fun _ => if_neg (ne_true_of_eq_false hpick)
  case starts => exact (recRow_starts hstart (by simp [hc])).trans (if_pos hpick)

section
variable {s : State} {x n : Nat}

theorem linkStart_pumps (h : (iod s x).waiting = [] ∨ 4 ≤ (iod s x).moves.length) : linkStart n s x = linkPump 64 s x := by
  cases n with
  | zero => rfl
  | succ k =>
    cases hw : (iod s x).waiting with
    | nil => simp only [linkStart, hw]
    | cons m r =>
      have hfull : 4 ≤ (iod s x).moves.length := h.resolve_left (by simp [hw])
      simp only [linkStart, hw, if_pos hfull]

theorem linkStart_starts {m : LinkMove} {r : List LinkMove} (hw : (iod s x).waiting = m :: r) (hroom : (iod s x).moves.length < 4) :
    linkStart (n + 1) s x =
      let s1 := modIod s x (fun d => { d with waiting := r })
      if linkMoveBad s1 (qPart s1 m.queue) m.bytes then
        linkStart n (seReport (linkErr s1 x 0x0708 (globalId (lmDst m.bytes)) 0) m.queue m.index 0x0708) x
      else if nfld (lmDst m.bytes) 63 60 ≠ 0 then
        linkStart n (seReport (linkErr s1 x 0x0701 (globalId (lmDst m.bytes)) 0) m.queue m.index 0x0701) x
      else linkStart n (modIod s1 x (fun d => { d with moves := d.moves ++ [m] })) x := by
  simp only [linkStart, hw, if_neg (Nat.not_le.mpr hroom)]

end

theorem linkMoves : claimLinkMoves := by
  refine ⟨linkEngineMoves, fun n s x => ⟨linkStart_pumps, fun m r hw hroom => ?_⟩, fun s x => rfl⟩
  intro t fails
  have hstart := fun n => linkStart_starts (n := n) hw hroom
  refine ⟨fun hbad => ?_, fun hgood hdst => ?_, fun hgood hdst => ?_⟩
  · exact (hstart n).trans (if_pos hbad)
  · exact (hstart n).trans ((if_neg (ne_true_of_eq_false hgood)).trans (if_pos hdst))
  · exact (hstart n).trans ((if_neg (ne_true_of_eq_false hgood)).trans (if_neg (not_not_intro hdst)))

/-- Settles O34: the answers on channel 0, the timers of streams, and the moves of the link engine. -/
theorem answersAndTimers : Obligations.AnswersAndTimers := ⟨answers, streamTimers, linkMoves⟩

end Sys2Proof.Machine
end

section
/-! PROOFS. Training and retraining of ports (R346-R349), their flits (R350-R356), routes and transit (R361-R365, R590). -/

namespace Sys2Proof.Machine

/-! ### Training -/

section
variable {s : State} {i : Nat}

theorem trainStart_starts (ht : trainable s i = true) (hst : (port s i).st = .down) :
    trainStart s i true = setPort s i { port s i with st := .training } := by
  simp only [trainStart, ht, hst, decide_true, Bool.and_self, if_true, modPort]

theorem trainStart_stays {b : Bool} (h : b = false ∨ trainable s i = false ∨ (port s i).st ≠ .down) : trainStart s i b = s := by
  refine if_neg fun hall => ?_
  simp only [Bool.and_eq_true, decide_eq_true_eq] at hall
  obtain ⟨⟨ht, hb⟩, hst⟩ := hall
  rcases h with h | h | h
  · exact absurd hb (ne_true_of_eq_false h)
  · exact absurd ht (ne_true_of_eq_false h)
  · exact h hst

section
variable {lanes peerId peerPort : Nat}

theorem trainDone_stays (h : (port s i).st ≠ .training ∨ (iod s (i / 8)).refClk = false) : trainDone s i lanes peerId peerPort = s :=
  if_pos (by simpa using h)

/-- The port with the lanes and the peer that its training found (R348). -/
def linkedPort (s : State) (i lanes peerId peerPort : Nat) (st : PortSt) : Port :=
  { clearLink (port s i) s.time with
    st := st, lanes := BitVec.ofNat 4 (chooseLanes lanes).2, width := (chooseLanes lanes).1,
    peer := BitVec.ofNat 32 (2 ^ 31 + (peerPort % 32) * 2 ^ 12 + peerId % 4096) }

theorem trainDone_ends (hst : (port s i).st = .training) (hclk : (iod s (i / 8)).refClk = true) :
    trainDone s i lanes peerId peerPort =
      if !trainable s i then portDown s i
      else if (chooseLanes lanes).1 < minWidth (port s i) then portDown (recordErr s (pgPort i) 0x0707 (chooseLanes lanes).1 0) i
      else raiseEvt (setPort s i (linkedPort s i lanes peerId peerPort (if (chooseLanes lanes).1 = 4 then .up else .degraded))) (pgPort i)
        (if (chooseLanes lanes).1 = 4 then 0 else 2) :=
  if_neg (by simp [hst, hclk])

end

theorem training : claimTraining := by
  intro s i p
  refine ⟨fun ht hst => congrArg Host.Outcome.next (trainStart_starts ht hst), fun b h => congrArg Host.Outcome.next (trainStart_stays h),
    fun lanes peerId peerPort => ?_⟩
  intro w linked
  refine ⟨fun h => congrArg Host.Outcome.next (trainDone_stays h), fun hst hclk => ?_⟩
  refine ⟨fun ht => ?_, fun ht hw h4 => ?_, fun ht hw h4 => ?_, fun ht hw => ?_⟩
  all_goals refine congrArg Host.Outcome.next ((trainDone_ends hst hclk).trans ?_)
  · exact if_pos (by simp [ht])
  · refine (if_neg (by simp [ht])).trans ((if_neg (Nat.not_lt.mpr hw)).trans ?_)
    simp only [show (chooseLanes lanes).1 = 4 from h4, if_true]
    exact congrArg (fun p => raiseEvt (setPort s i p) (pgPort i) 0) (by simp only [linkedPort, w, h4, p])
  · refine (if_neg (by simp [ht])).trans ((if_neg (Nat.not_lt.mpr hw)).trans ?_)
    simp only [if_neg (show (chooseLanes lanes).1 ≠ 4 from h4)]
    rfl
  · exact (if_neg (by simp [ht])).trans (if_pos hw)

/-! ### Retraining -/

theorem startReplay_none (h : (port s i).replay = []) : startReplay s i = s := if_pos (by simp [h])

theorem startReplay_resends (h : (port s i).replay ≠ []) :
    startReplay s i =
      let t := portBlotter (setPort s i { port s i with
        resend := (port s i).replay, replays := (port s i).replays + 1, replayRun := (port s i).replayRun + 1, ackAt := s.time }) i 7 1
      if 16 ≤ (port s i).replayRun + 1 then retrain t i else t :=
  if_neg (by simpa using h)

theorem exec_portCmdRetrain (hi : i < 32) (hopen : regOpen s (pgPort i) = true) :
    exec (.portCmdRetrain i) s = .next (retrainCommand s i) :=
  congrArg Host.Outcome.next ((if_pos hi).trans (hostReg_portCmd 1 hi hopen))

theorem exec_portCmdSaveEq (hi : i < 32) (hopen : regOpen s (pgPort i) = true) : exec (.portCmdSaveEq i) s = .next (saveEq s i) :=
  congrArg Host.Outcome.next ((if_pos hi).trans (hostReg_portCmd 2 hi hopen))

end

theorem retraining : claimRetraining := by
  intro s i p
  refine ⟨congrArg Host.Outcome.next (retrain_eq s i), congrArg Host.Outcome.next (retrain_eq s i), rfl, fun hi hopen => ⟨?_, ?_, ?_⟩, ?_, ?_⟩
  · intro hst
    exact (exec_portCmdRetrain hi hopen).trans (congrArg Host.Outcome.next ((if_neg hst).trans (retrain_eq s i)))
  · intro hst
    refine (exec_portCmdRetrain hi hopen).trans (congrArg Host.Outcome.next ((if_pos hst).trans ?_))
    by_cases ht : trainable s i = true
    · exact (trainStart_starts ht hst).trans (if_pos ht).symm
    · exact (trainStart_stays (.inr (.inl (Bool.eq_false_iff.mpr ht)))).trans (if_neg ht).symm
  · exact exec_portCmdSaveEq hi hopen
  · intro t hup hheld htime
    have hdue : (port s i).replay ≠ [] ∧ (port s i).ackAt + 3000 ≤ s.time := ⟨hheld, htime⟩
    refine congrArg Host.Outcome.next ((if_pos (by simp [hup, hdue])).trans ((startReplay_resends hheld).trans ?_))
    by_cases hrun : (port s i).replayRun < 15
    · exact (if_neg (by omega)).trans (if_pos hrun).symm
    · exact (if_pos (by omega)).trans ((retrain_eq t i).trans (if_neg hrun).symm)
  · intro h
    refine congrArg Host.Outcome.next (if_neg fun hall => ?_)
    simp only [Bool.and_eq_true, Bool.not_eq_true', decide_eq_true_eq] at hall
    obtain ⟨⟨hup, hheld⟩, htime⟩ := hall
    rcases h with h | h | h
    · exact absurd hup (ne_true_of_eq_false h)
    · exact absurd hheld (by simp [show (port s i).replay = [] from h])
    · exact absurd htime (Nat.not_le.mpr h)

/-- Settles O35: training by the width it finds, and the ways a port trains again. -/
theorem linkTraining : Obligations.LinkTraining := ⟨training, retraining⟩

/-! ### Flits that go out -/

/-- Is a port in step 5 of its training (R346)? -/
def inStep5 (s : State) (i : Nat) : Bool := decide ((port s i).st = .training) && trainable s i && (iod s (i / 8)).refClk

section
variable {s : State} {i ca cb : Nat}

theorem flitSend_nothing (hup : portUp s i = false) (hstep : inStep5 s i = false) : flitSend s i ca cb = s :=
  if_pos (by rw [hup]; exact (congrArg (!·) hstep))

theorem flitSend_control (h : inStep5 s i = true ∨ portUp s i = true ∧ (port s i).slot = 127) : flitSend s i ca cb =
    putFlit (bumpFree s) i (port s i) (flitBytes (port s i) 2 0 0 0xFF ca cb (controlPay s i (port s i))) (ca :: cb :: List.range 7) := by
  have hsends : ¬ (!portUp s i && !inStep5 s i) = true := by rcases h with h | ⟨h, _⟩ <;> simp [h]
  have hslot : (decide ((port s i).slot = 127) || inStep5 s i) = true := by rcases h with h | ⟨_, h⟩ <;> simp [h]
  exact (if_neg hsends).trans (if_pos hslot)

theorem not_inStep5_ofUp (hup : portUp s i = true) : inStep5 s i = false := by
  have hst : (port s i).st ≠ .training := by
    intro hst
    simp [portUp, hst] at hup
  simp [inStep5, hst]

/-- What a slot of a port that is up sends when nothing is to be resent: a new DATA flit of the channel that has the turn, or IDLE. -/
def freshFlit (s : State) (i ca cb : Nat) : Option (Nat × Nat × Nat) → State
  | some (v, t, l) =>
    let p := port s i
    let ms := sget [] p.tx v
    let pay := (ms.foldr (fun m acc => m ++ acc) []).take 236
    let r := dropBytes ms 236 (sget false p.txPart v)
    let f : TxFlit := { seq := p.txSeq, vc := v, first := firstHdr ms (sget false p.txPart v), payload := pay ++ List.replicate (236 - pay.length) 0 }
    putFlit s i
      { p with
        tx := sput p.tx v r.1, txPart := sput p.txPart v r.2, used := sput p.used v (sget 0 p.used v + 1)
        replay := p.replay ++ [f], txSeq := (p.txSeq + 1) % 4096, turn := t, turnLeft := l,
        flitsTx := p.flitsTx + 1, ackAt := if p.replay.isEmpty then s.time else p.ackAt }
      (flitBytes p 0 f.seq f.vc f.first ca cb f.payload) [ca, cb]
  | none => putFlit (bumpFree s) i (port s i) (flitBytes (port s i) 1 0 0 0xFF ca cb (freeBytes s 236)) [ca, cb]

section
variable (hup : portUp s i = true) (hslot : (port s i).slot ≠ 127)
include hup hslot

theorem flitSend_resends {f : TxFlit} {r : List TxFlit} (hr : (port s i).resend = f :: r) : flitSend s i ca cb =
    putFlit s i { port s i with resend := r, flitsTx := (port s i).flitsTx + 1 }
      (flitBytes (port s i) 0 f.seq f.vc f.first ca cb f.payload) [ca, cb] := by
  have hstep := not_inStep5_ofUp hup
  refine (if_neg (by simp [hup])).trans ((if_neg ?_).trans ?_)
  · show ¬ (decide ((port s i).slot = 127) || inStep5 s i) = true
    simp [hstep, hslot]
  · simp only [hr]

theorem flitSend_fresh (hr : (port s i).resend = []) : flitSend s i ca cb =
    freshFlit s i ca cb (if (port s i).replay.length < 1024 then arbitrate (iod s (i / 8)) (port s i) else none) := by
  have hstep := not_inStep5_ofUp hup
  refine (if_neg (by simp [hup])).trans ((if_neg ?_).trans ?_)
  · show ¬ (decide ((port s i).slot = 127) || inStep5 s i) = true
    simp [hstep, hslot]
  · simp only []
    split
    · next f r h => exact absurd (hr.symm.trans h) (List.cons_ne_nil f r).symm
    · rfl

end

end

theorem flitsSent : claimFlitSend := by
  intro s i ca cb p step5 id control
  refine ⟨fun hup hstep => ?_, fun h => ?_, fun hup hslot => ⟨fun f r hr => ?_, fun v t l hr hroom ha => ?_, fun hr hnone => ?_⟩⟩
  all_goals refine congrArg Host.Outcome.next ?_
  · exact flitSend_nothing hup hstep
  · exact flitSend_control h
  · exact flitSend_resends hup hslot hr
  all_goals refine (flitSend_fresh hup hslot hr).trans ?_
  · rw [if_pos hroom, ha]
    rfl
  · have hidle : (if (port s i).replay.length < 1024 then arbitrate (iod s (i / 8)) (port s i) else none) = none := by
      rcases hnone with hfull | hnone
      · exact if_neg (Nat.not_lt.mpr hfull)
      · exact ite_eq_right_iff.mpr fun _ => hnone
    rw [hidle]
    rfl

/-! ### Flits that come in -/

theorem exec_otherFlitRow {s : State} {i c u : Nat} {f : Bool} {b : List Byte} {r : Instr}
    (h : r ∈ (if leAt b 0 1 % 4 = 1 ∨ leAt b 0 1 % 4 = 2 then [Instr.dataFlitReceive i b c u f] else [.controlFlitReceive i b c u f])
      ++ (if Nat.testBit (leAt b 0 1) 2 then [] else [.nakReceive i b c u f])) : exec r s = .next s := by
  rcases List.mem_append.mp h with h | h
  · split at h
    · next hft => obtain rfl := List.mem_singleton.mp h; exact congrArg Host.Outcome.next (if_pos hft)
    · next hft => obtain rfl := List.mem_singleton.mp h; exact congrArg Host.Outcome.next (if_neg hft)
  · split at h
    · exact absurd h List.not_mem_nil
    · next hnak => obtain rfl := List.mem_singleton.mp h; exact congrArg Host.Outcome.next (if_neg hnak)

theorem flitIn_stays {s : State} {i c u : Nat} {f : Bool} {b : List Byte} (h : portUp s i = false ∨ b.length ≠ 256) : flitIn s i b c u f = s :=
  if_pos (by simpa [bne_iff_ne] using h)

theorem protocolErr_eq (s : State) (i : Nat) : protocolErr s i = retrained (recordErr s (pgPort i) 0x0706 0 0) i := retrain_eq _ i

theorem flitsReceived : claimFlitReceive := by
  intro s i corr uncorr failed b ft nak rows others
  refine ⟨fun r hr => exec_otherFlitRow hr, fun r hr hno => ?_, fun r hr hup hlen hbad => ?_, fun r hr hup hlen hgood => ?_⟩
  · rw [exec_flitRows hr, flitIn_stays hno]
  · rw [exec_flitRows hr, flitIn_ofBad hup hlen hbad]
    intro t
    refine ⟨fun hft => ?_, fun hft hcrc => ?_, fun hft hcrc => ?_⟩ <;> refine congrArg Host.Outcome.next ?_
    · exact if_pos hft
    · exact (if_neg (not_not_intro hft)).trans (if_pos hcrc)
    · exact (if_neg (not_not_intro hft)).trans (if_neg (not_not_intro hcrc))
  · rw [exec_flitRows hr, flitIn_ofSound hup hlen hgood]
    intro t p vc full
    refine ⟨fun h => ?_, fun hu hft => ?_, fun hu hft => ?_, fun hu hft hseq => ?_, fun hu hft hseq hfull => ?_, fun hu hft hseq hroom => ?_⟩
    all_goals refine congrArg Host.Outcome.next ?_
    · by_cases hu : portUp t i = true
      · exact (if_neg (by simp [t, hu])).trans (if_pos (h.resolve_left (by simp [hu])))
      · exact if_pos (by simpa using hu)
    all_goals refine (if_neg (by rw [hu]; simp)).trans ((if_neg (by omega)).trans ?_)
    · exact if_pos hft
    all_goals refine (if_neg (by omega)).trans ?_
    · exact (if_pos hft).trans (protocolErr_eq t i)
    all_goals refine (if_neg (by omega)).trans ?_
    · exact if_pos hseq
    all_goals refine (if_neg (not_not_intro hseq)).trans ?_
    · exact (if_pos hfull).trans (protocolErr_eq t i)
    · exact if_neg hroom

/-- Settles O36: what a slot sends, and what a port does with each flit that arrives. -/
theorem linkFlits : Obligations.LinkFlits := ⟨flitsSent, flitsReceived⟩

/-! ### Routes and transit -/

theorem hostReg_routeData {s : State} {x : Nat} (v : W32) (hx : x < 4) (h : regOpen s (pgLink x) = true) :
    hostReg s (pgLink x) 0x44 v.toNat = routeWrite s x v := by
  have hpage := pageType_pgLink x hx
  have hentry := entryPage_pgLink x hx
  have hbar := pgLink_bar0 x hx
  rw [hostReg_block h hbar (by omega) (by omega) (by omega) hpage hentry (by simp [wide, hpage, hentry])]
  simp only [blockWrite, hpage, BitVec.ofNat_toNat, BitVec.setWidth_eq, Nat.add_sub_cancel_left]
  exact if_neg (by omega)

theorem routes : claimRoutes := by
  intro s x
  refine ⟨fun v hx => congrArg Host.Outcome.next (if_pos hx), fun hx hopen => ⟨fun v => ?_, ?_⟩⟩
  · exact congrArg Host.Outcome.next ((if_neg (Nat.not_le.mpr hx)).trans (hostReg_routeData v hx hopen))
  · exact congrArg Host.Outcome.next ((if_neg (Nat.not_le.mpr hx)).trans (hostRead_route hx hopen))

section
variable {s : State} {x k which i : Nat} {im : InMsg} {t : State}

theorem streamRow_ofNone {deliver : State → Nat → Msg → State × Bool} (h : inboxPick s x k which = none) : streamRow s x k which deliver = s := by
  simp only [streamRow, h]

theorem streamRow_ofGone {deliver : State → Nat → Msg → State × Bool} (h : inboxPick s x k which = some i) (hi : (iod s x).inbox[i]? = some im)
    (hgone : arrive s x i im = .gone t) : streamRow s x k which deliver = t := by
  simp only [streamRow, h, hi, hgone]

theorem ctlRow_ofNone {take : State → Nat → Msg → State} (h : inboxPick s x k which = none) : ctlRow s x k which take = s := by
  simp only [ctlRow, h]

theorem ctlRow_ofGone {take : State → Nat → Msg → State} (h : inboxPick s x k which = some i) (hi : (iod s x).inbox[i]? = some im)
    (hgone : arrive s x i im = .gone t) : ctlRow s x k which take = t := by
  simp only [ctlRow, h, hi, hgone]

theorem arrive_passesOn {q : Nat} (hq : idHolder s im.msg.dstId = some q) (he : endpoint s q = true)
    (hd : (if im.msg.vc = 0 then im.msg.dstIod else landDie s q im.msg.src) ≠ x) : arrive s x i im =
      .gone (toInbox (dropInbox s x i) (if im.msg.vc = 0 then im.msg.dstIod else landDie s q im.msg.src) none im.msg) := by
  simp only [arrive, hq, he, Bool.not_true, Bool.false_eq_true, if_false, if_neg hd]

theorem arrive_refusesAway {q : Nat} (hq : idHolder s im.msg.dstId = some q) (he : endpoint s q = false) : arrive s x i im =
    .gone (if im.msg.vc = 0 then lostCtl (dropInbox s x i) x else
      refuseAway (dropInbox s x i) x q ((im.port.bind (portOwner s)).getD q) im.msg) := by
  simp only [arrive, hq, he, Bool.not_false, if_true]

theorem awayCode_eq (s : State) (q : Nat) (m : Msg) :
    awayCode s q m = if m.opens = true ∨ (part s q).state = .off then 0x0702 else 0x0705 := by
  simp only [awayCode, Bool.or_eq_true, decide_eq_true_eq]

section
variable {pt p : Nat} (hq : idHolder s im.msg.dstId = none) (hport : im.port = some pt) (hown : portOwner s pt = some p)
include hq hport hown

theorem arrive_atZeroHops (h : im.msg.hops = 0) : arrive s x i im =
    .gone (if im.msg.vc = 0 then lostCtl (dropInbox s x i) x else refuseMsg (dropInbox s x i) x p 0x0703 im.msg) := by
  simp only [arrive, hq, hport, hown, if_pos h]

theorem arrive_goesOut {u : State} (h : im.msg.hops ≠ 0) (hout : outPort (dropInbox s x i) x p { im.msg with hops := im.msg.hops - 1 } = some u) :
    arrive s x i im = .gone u := by
  simp only [arrive, hq, hport, hown, if_neg h, hout]

theorem arrive_noRoute (h : im.msg.hops ≠ 0) (hout : outPort (dropInbox s x i) x p { im.msg with hops := im.msg.hops - 1 } = none) :
    arrive s x i im = .gone (if im.msg.vc = 0 then lostCtl (dropInbox s x i) x else refuseMsg (dropInbox s x i) x p 0x0702 im.msg) := by
  simp only [arrive, hq, hport, hown, if_neg h, hout]

end

end

theorem transit : claimTransit := by
  refine ⟨fun s x which o e k r hrow => ?_, fun s x i im => ⟨fun q hq he hd => ?_, fun q hq he => ?_, fun pt p hq hport hown => ?_⟩⟩
  · rcases List.mem_append.mp hrow with hrow | hrow
    · obtain ⟨deliver, hexec⟩ := exec_streamRows hrow
      exact ⟨fun hnone => (hexec s).trans (congrArg Host.Outcome.next (streamRow_ofNone hnone)),
        fun i im t hpick him hgone => (hexec s).trans (congrArg Host.Outcome.next (streamRow_ofGone hpick him hgone))⟩
    · obtain ⟨take, hexec⟩ := exec_answerRows hrow
      exact ⟨fun hnone => (hexec s).trans (congrArg Host.Outcome.next (ctlRow_ofNone hnone)),
        fun i im t hpick him hgone => (hexec s).trans (congrArg Host.Outcome.next (ctlRow_ofGone hpick him hgone))⟩
  · exact arrive_passesOn hq he hd
  · rw [arrive_refusesAway hq he, refuseAway, awayCode_eq]
  · exact ⟨fun h => arrive_atZeroHops hq hport hown h,
      fun h => ⟨fun u hout => arrive_goesOut hq hport hown h hout, fun hout => arrive_noRoute hq hport hown h hout⟩⟩

/-- Settles O37: the route table, and what a message on its way meets. -/
theorem routesAndTransit : Obligations.Routes := ⟨routes, transit⟩

end Sys2Proof.Machine
end

section
/-! PROOFS. Partition commands and states (R438, R454, R558, R559), and the settings that states lock (R20-R23, R198, R341, R427). -/

namespace Sys2Proof.Machine

/-! ### PART_CMD -/

section
variable {s : State} {p op : Nat} {r : Instr}

theorem partReg_past {o v : Nat} (hp : 4 ≤ p) : partReg s p o v = s := if_neg (Nat.not_lt.mpr hp)

theorem exec_partOps_past (hp : 4 ≤ p) (hr : (op, r) ∈ partOps p) : exec r s = .next s := by
  simp only [partOps, List.mem_cons, Prod.mk.injEq, List.mem_nil_iff, or_false] at hr
  rcases hr with ⟨-, rfl⟩ | ⟨-, rfl⟩ | ⟨-, rfl⟩ | ⟨-, rfl⟩ <;> exact congrArg Host.Outcome.next (partReg_past hp)

theorem partCmd_bad (h : cmdBad s p op = true) : partCmd s p op = recordErr s pgGlob 0x010B 0 0 := by
  simp only [partCmd, cmdRefusal, h, if_true, globErr]

theorem cmdRefusal_none (h : cmdBad s p op = false) (hclash : op = 2 → idClash s p = false) : cmdRefusal s p op = none :=
  (if_neg (ne_true_of_eq_false h)).trans (if_neg fun hc => absurd hc.2 (ne_true_of_eq_false (hclash hc.1)))

theorem partCmd_clash (h : cmdBad s p 2 = false) (hclash : idClash s p = true) : partCmd s p 2 = recordErr s pgGlob 0x0106 0 0 := by
  simp only [partCmd, cmdRefusal, h, hclash, Bool.false_eq_true, if_false, and_self, if_true, globErr]

theorem partCmd_init (h : cmdBad s p 1 = false) : partCmd s p 1 =
    pendCmd (if s.pwr.st = 0 then accStart { s with pwr := { s.pwr with st := 1 } } else s) p 1 (if opHolds s p then 2 else 0) := by
  simp only [partCmd, cmdRefusal_none h (by simp)]

theorem partCmd_activate (h : cmdBad s p 2 = false) (hclash : idClash s p = false) : partCmd s p 2 =
    if activateWait s p = 0 then activate s p else pendCmd s p 2 (activateWait s p) := by
  simp only [partCmd, cmdRefusal_none h (fun _ => hclash)]

theorem partCmd_quiesce (h : cmdBad s p 3 = false) : partCmd s p 3 = pendCmd s p 3 3 := by
  simp only [partCmd, cmdRefusal_none h (by simp)]

theorem partCmd_off (h : cmdBad s p 4 = false) : partCmd s p 4 =
    if opHolds s p then pendCmd s p 4 2 else takeOff s p (BitVec.ofNat 32 (256 * Config.freeNum s.freeCtr)) := by
  simp only [partCmd, cmdRefusal_none h (by simp)]

theorem activateWait_eq (s : State) (p : Nat) : activateWait s p = if s.pwr.bankOk = false then 1 else if opHolds s p then 2 else 0 := by
  simp only [activateWait, Bool.not_eq_true']

end

theorem partCommands : claimPartCommands := by
  intro s p
  refine ⟨fun r hr hp => exec_partOps_past hp hr, fun hopen => ?_⟩
  obtain ⟨hp, hreg⟩ := partOpen_fields hopen
  have hrow : ∀ r ∈ partOps p, exec r.2 s = .next (partCmd s p r.1) := fun r hr => exec_partOps hp hreg hr
  intro bad wait s1
  refine ⟨fun r hr hbad => ?_, fun hgood hclash => ?_, fun hgood => ?_, fun hgood hclash => ?_, fun hgood => ?_, fun hgood => ?_⟩
  · exact (hrow r hr).trans (congrArg Host.Outcome.next (partCmd_bad hbad))
  · exact (hrow (2, .partActivate p) (by simp [partOps])).trans (congrArg Host.Outcome.next (partCmd_clash hgood hclash))
  · exact (hrow (1, .partInit p) (by simp [partOps])).trans (congrArg Host.Outcome.next (partCmd_init hgood))
  · refine (hrow (2, .partActivate p) (by simp [partOps])).trans (congrArg Host.Outcome.next ((partCmd_activate hgood hclash).trans ?_))
    rw [activateWait_eq]
  · exact (hrow (3, .partQuiesce p) (by simp [partOps])).trans (congrArg Host.Outcome.next (partCmd_quiesce hgood))
  · exact (hrow (4, .partOff p) (by simp [partOps])).trans (congrArg Host.Outcome.next (partCmd_off hgood))

/-! ### States entered and left -/

theorem partEntries : claimPartEntries := by
  intro s p x fresh
  refine ⟨?_, fun cause hoff => if_pos hoff, fun cause hon => if_neg hon⟩
  simp only [activate, moved, modPart, fresh, x, decide_eq_true_eq]
  rfl

section
variable {s : State} {p : Nat}

theorem initDone_reads (hop : (part s p).pendOp = 1) (hoff : (part s p).state = .off)
    (hpow : (partExists s p && !opHolds s p && s.accord.fine && !s.accord.toCoarse && domainsOk s p) = true) :
    initDone s p = clearPart (powerNew s (setPart s p { part s p with state := .init, pendOp := 0, pendReason := 0 })) p := by
  simp only [Bool.and_eq_true] at hpow
  obtain ⟨⟨⟨⟨hex, hfree⟩, hfine⟩, hstays⟩, hdom⟩ := hpow
  exact if_pos (by simp only [hop, hoff, hex, hfree, hfine, hstays, hdom, decide_true, Bool.and_self])

theorem initDone_stays (h : (part s p).pendOp ≠ 1 ∨ (part s p).state ≠ .off ∨
    (partExists s p && !opHolds s p && s.accord.fine && !s.accord.toCoarse && domainsOk s p) = false) : initDone s p = s := by
  refine if_neg fun hall => ?_
  simp only [Bool.and_eq_true, decide_eq_true_eq] at hall
  obtain ⟨⟨⟨⟨⟨⟨hop, hoff⟩, hex⟩, hfree⟩, hfine⟩, hstays⟩, hdom⟩ := hall
  rcases h with h | h | h
  · exact h hop
  · exact h hoff
  · simp only [hex, hfree, hfine, hstays, hdom, Bool.and_self, Bool.true_eq_false] at h

theorem quiesceDone_reads (hop : (part s p).pendOp = 3) (hq : quiesced s p = true) : quiesceDone s p =
    settleFull ((clustersOf s p).foldl dropRole (setPart s p { part s p with state := .quiesced, pendOp := 0, pendReason := 0 })) :=
  if_pos (by simp only [hop, hq, decide_true, Bool.and_self])

theorem quiesceDone_stays (h : (part s p).pendOp ≠ 3 ∨ quiesced s p = false) : quiesceDone s p = s := by
  refine if_neg fun hall => ?_
  simp only [Bool.and_eq_true, decide_eq_true_eq] at hall
  rcases h with h | h
  · exact h hall.1
  · exact absurd hall.2 (ne_true_of_eq_false h)

end

theorem partStates : claimPartStates := by
  intro s p x powered wait
  refine ⟨fun hop hoff hpow => ?_, fun h => ?_, fun hop => ?_, fun hop => ?_, fun hop hq => ?_, fun h => ?_, fun hst => ?_, fun hst => ?_⟩
  all_goals refine congrArg Host.Outcome.next ?_
  · exact initDone_reads hop hoff hpow
  · exact initDone_stays h
  · refine (if_pos hop).trans ?_
    rw [activateWait_eq]
  · exact if_neg hop
  · exact quiesceDone_reads hop hq
  · exact quiesceDone_stays h
  · exact if_pos hst
  · exact if_neg hst

/-- Settles O39: the commands, the states they end in, and what entering and leaving ACTIVE does. -/
theorem partitionCommands : Obligations.PartitionCommands := ⟨partCommands, partEntries, partStates⟩

/-! ### Settings -/

section
variable {s : State} {p : Nat} {v : W32} {w : W64}

theorem exec_portOwnerWrite (hopen : regOpen s pgGlob = true) (hp : p < 4) :
    exec (.portOwnerWrite p v) s = .next (portOwnerWrite s p v) := by
  refine congrArg Host.Outcome.next ((if_pos hp).trans ((hostReg_ofGlob hopen (by omega) (by omega) (by omega)).trans ?_))
  rw [BitVec.ofNat_toNat, BitVec.setWidth_eq]
  interval_cases p <;> rfl

section
variable (hp : p < 4) (hopen : regOpen s (pgPart p) = true)
include hp hopen

theorem exec_partModuleIdWrite : exec (.partModuleIdWrite p v) s = .next (moduleIdWrite s p v) := by
  refine congrArg Host.Outcome.next ((hostReg_ofPart hp hopen (by omega) (by omega) (by omega) (by omega)).trans ?_)
  rw [BitVec.ofNat_toNat, BitVec.setWidth_eq]
  rfl

theorem exec_hbmPlacementWrite {k : Nat} (hk : k < 3) : exec (.hbmPlacementWrite p k v) s = .next (placementWrite s p k v) := by
  refine congrArg Host.Outcome.next ((if_pos hk).trans ((hostReg_ofPart hp hopen (by omega) (by omega) (by omega) (by omega)).trans ?_))
  rw [BitVec.ofNat_toNat, BitVec.setWidth_eq]
  interval_cases k <;> rfl

omit hopen in
theorem wideWrite_ofPart {o : Nat} : wideWrite s (pgPart p) o w =
    if o = 0x60 then expTableWrite s p w else if o = 0x70 then sillageOfsWrite s p w else sillageLenWrite s p w := by
  simp only [wideWrite, entryPage_pgPart hp, pageType_pgPart hp, Bool.false_eq_true, if_false]

theorem exec_expTableWrite : exec (.expTableWrite p w) s = .next (expTableWrite s p w) := by
  refine congrArg Host.Outcome.next ((if_pos hp).trans ((hostReg_ofPartWide hp hopen (.inl rfl)).trans ?_))
  rw [BitVec.ofNat_toNat, BitVec.setWidth_eq, wideWrite_ofPart hp]
  rfl

theorem exec_sillageOfsWrite : exec (.sillageWrite p 1 w) s = .next (sillageOfsWrite s p w) := by
  refine congrArg Host.Outcome.next ((if_neg (Nat.not_le.mpr hp)).trans ((hostReg_ofPartWide hp hopen (.inr (.inl rfl))).trans ?_))
  rw [BitVec.ofNat_toNat, BitVec.setWidth_eq, wideWrite_ofPart hp]
  rfl

theorem exec_sillageLenWrite : exec (.sillageWrite p 2 w) s = .next (sillageLenWrite s p w) := by
  refine congrArg Host.Outcome.next ((if_neg (Nat.not_le.mpr hp)).trans ((hostReg_ofPartWide hp hopen (.inr (.inr rfl))).trans ?_))
  rw [BitVec.ofNat_toNat, BitVec.setWidth_eq, wideWrite_ofPart hp]
  rfl

theorem exec_sillageCfgWrite : exec (.sillageWrite p 0 w) s = .next (sillageCfgWrite s p (BitVec.ofNat 32 (w.toNat % 2 ^ 32))) :=
  congrArg Host.Outcome.next ((if_neg (Nat.not_le.mpr hp)).trans (hostReg_ofPart hp hopen (by omega) (by omega) (by omega) (by omega)))

end

theorem fld_lowHalf (w : W64) : fld (BitVec.ofNat 32 (w.toNat % 2 ^ 32)) 1 0 = w.toNat % 4 := by
  simp only [fld, nfld, BitVec.toNat_ofNat]
  omega

/-- The ring of a partition lies in its HBM and is not too short (R427). -/
def ringFits (x : Part) : Bool := decide (x.sillageOfs.toNat + x.sillageLen.toNat ≤ x.localGib.toNat * 2 ^ 30) && decide (65536 ≤ x.sillageLen.toNat)

theorem ringBad_eq (x : Part) : (decide (x.localGib.toNat * 2 ^ 30 < x.sillageOfs.toNat + x.sillageLen.toNat) ||
    decide (x.sillageLen.toNat < 65536)) = !ringFits x := by
  simp only [ringFits, Bool.not_and, ← decide_not, not_le]

theorem sillageCfgWrite_refused (h : slotsOpen s p = true ∨ fld v 1 0 ≠ 0 ∧ ringFits (part s p) = false) :
    sillageCfgWrite s p v = globErr s 0x010A := by
  refine if_pos ?_
  rw [ringBad_eq]
  rcases h with h | ⟨hm, h⟩ <;> simp [h]
  exact .inr hm

theorem sillageCfgWrite_taken (hslots : slotsOpen s p = false) (h : fld v 1 0 = 0 ∨ ringFits (part s p) = true) :
    sillageCfgWrite s p v =
      let t := setPart s p { part s p with sillageMode := BitVec.ofNat 2 (fld v 1 0) }
      if (fld v 1 0 = 1 ∨ fld v 1 0 = 2) ∧ (part s p).sillageMode.toNat ≠ fld v 1 0 then
        (partSites s p).foldl (fun s i => ringHeader s i p) t else t := by
  refine if_neg ?_
  rw [ringBad_eq]
  rcases h with h | h <;> simp [h, hslots]

theorem globErr_eq (s : State) (code : Nat) : globErr s code = recordErr s pgGlob code 0 0 := rfl

end

/-- Settles O41: each setting, locked and not. -/
theorem partitionSettings : Obligations.PartitionSettings := by
  intro s p v w err
  refine ⟨fun hopen hp => ?_, fun hp => ⟨fun r hr => ?_, fun k => ⟨?_, ?_⟩⟩, fun k hk => ⟨?_, ?_⟩, fun hpart => ?_⟩
  · exact exec_portOwnerWrite hopen hp
  · simp only [List.mem_cons, List.mem_nil_iff, or_false] at hr
    rcases hr with rfl | rfl | rfl
    · exact congrArg Host.Outcome.next (if_neg (Nat.not_lt.mpr hp))
    · exact congrArg Host.Outcome.next (partReg_past hp)
    · exact congrArg Host.Outcome.next (if_neg (Nat.not_lt.mpr hp))
  · exact congrArg Host.Outcome.next (ite_eq_right_iff.mpr fun _ => partReg_past hp)
  · exact congrArg Host.Outcome.next (if_pos hp)
  · exact congrArg Host.Outcome.next (if_neg (Nat.not_lt.mpr hk))
  · obtain ⟨j, rfl⟩ : ∃ j, k = j + 3 := ⟨k - 3, by omega⟩
    exact congrArg Host.Outcome.next (ite_eq_left_iff.mpr fun _ => rfl)
  obtain ⟨hp, hopen⟩ := partOpen_fields hpart
  intro x
  refine ⟨fun hlocked => ⟨?_, fun k hk => ?_, ?_⟩, fun hfree => ⟨?_, ?_, ?_, ?_, ?_⟩, ?_, fun hmode => ⟨?_, ?_⟩, fun hmode => ⟨?_, ?_⟩⟩
  · exact (exec_partModuleIdWrite hp hopen).trans (congrArg Host.Outcome.next (if_pos hlocked))
  · exact (exec_hbmPlacementWrite hp hopen hk).trans (congrArg Host.Outcome.next (if_pos hlocked))
  · exact (exec_expTableWrite hp hopen).trans (congrArg Host.Outcome.next (if_pos hlocked))
  · refine (exec_partModuleIdWrite hp hopen).trans ((congrArg Host.Outcome.next (if_neg (ne_true_of_eq_false hfree))).trans ?_)
    exact apply_ite Host.Outcome.next _ _ _
  · exact (exec_hbmPlacementWrite hp hopen (by omega)).trans (congrArg Host.Outcome.next (if_neg (ne_true_of_eq_false hfree)))
  · exact (exec_hbmPlacementWrite hp hopen (by omega)).trans (congrArg Host.Outcome.next (if_neg (ne_true_of_eq_false hfree)))
  · exact (exec_hbmPlacementWrite hp hopen (by omega)).trans (congrArg Host.Outcome.next (if_neg (ne_true_of_eq_false hfree)))
  · exact (exec_expTableWrite hp hopen).trans (congrArg Host.Outcome.next (if_neg (ne_true_of_eq_false hfree)))
  · intro m fits t
    have hm := fld_lowHalf w
    refine ⟨fun h => ?_, fun hslots h => ?_⟩ <;> refine (exec_sillageCfgWrite hp hopen).trans (congrArg Host.Outcome.next ?_)
    · exact sillageCfgWrite_refused (by rw [hm]; exact h)
    · rw [sillageCfgWrite_taken hslots (by rw [hm]; exact h), hm]
  · exact (exec_sillageOfsWrite hp hopen).trans (congrArg Host.Outcome.next (if_pos hmode))
  · exact (exec_sillageLenWrite hp hopen).trans (congrArg Host.Outcome.next (if_pos hmode))
  · exact (exec_sillageOfsWrite hp hopen).trans (congrArg Host.Outcome.next (if_neg (not_not_intro hmode)))
  · exact (exec_sillageLenWrite hp hopen).trans (congrArg Host.Outcome.next (if_neg (not_not_intro hmode)))

end Sys2Proof.Machine
end

section
/-! PROOFS. Register pages and the ranges of the BARs, as the host and the Nose write and read them (R507-R517, R519, R523). -/

namespace Sys2Proof.Machine

/-! ### Page headers -/

section
variable {s : State} {pg : Nat} {v : W32}

theorem headerReg_noPage {o : Nat} (h : pageType pg = none) : headerReg s pg o v = s := if_neg (by simp [h])

theorem headerReg_open {o : Nat} (h : headOpen s pg = true) (ho : o < 0x40) (h4 : o % 4 = 0)
    (hlock : openWhenLocked o = true ∨ (hdr s pg).locked = false) : headerReg s pg o v = headerWrite s pg o v := by
  refine (hostReg_ofHead h ho h4).trans (if_neg ?_)
  rcases hlock with hlock | hlock <;> simp [hlock]

theorem headerReg_locked {o : Nat} (h : headOpen s pg = true) (ho : o < 0x40) (h4 : o % 4 = 0) (hlock : (hdr s pg).locked = true)
    (hkept : openWhenLocked o = false) : headerReg s pg o v = pcieErr s 0x0E03 0 4 (pg * 4096 + o) :=
  (hostReg_ofHead h ho h4).trans (if_pos (by simp [hlock, hkept]))

end

theorem pageHeaders : claimPageHeaders := by
  intro s pg v
  refine ⟨fun hopen => ⟨?_, ?_, ?_, fun hfree => ?_, fun hfree => ?_, fun hlock => ?_, fun hlock => ?_⟩, fun hnone r hr => ?_⟩
  · exact congrArg Host.Outcome.next (headerReg_open hopen (by omega) (by omega) (.inl rfl))
  · exact congrArg Host.Outcome.next (headerReg_open hopen (by omega) (by omega) (.inl rfl))
  · exact congrArg Host.Outcome.next (headerReg_open hopen (by omega) (by omega) (.inl rfl))
  · exact congrArg Host.Outcome.next (headerReg_open hopen (by omega) (by omega) (.inr hfree))
  · exact congrArg Host.Outcome.next (headerReg_open hopen (by omega) (by omega) (.inr hfree))
  · exact congrArg Host.Outcome.next (headerReg_locked hopen (by omega) (by omega) hlock rfl)
  · exact congrArg Host.Outcome.next (headerReg_locked hopen (by omega) (by omega) hlock rfl)
  · simp only [List.mem_cons, List.mem_nil_iff, or_false] at hr
    rcases hr with rfl | rfl | rfl | rfl | rfl <;> exact congrArg Host.Outcome.next (headerReg_noPage hnone)

/-! ### Writes in BAR0's layout -/

section
variable {s : State} {byNose : Bool} {off size v : Nat}

theorem pageOff_eq (off : Nat) : off / 4096 * 4096 + off % 4096 = off := Nat.div_add_mod' off 4096

theorem hostWrite_unreached {bar : Nat} (h : hostReach s = false) : hostWrite s bar off size v = s := if_pos (by simp [h])

theorem hostWrite_bar0 (h : hostReach s = true) : hostWrite s 0 off size v = bar0Write s false off size v := if_neg (by simp [h])

theorem bar0Write_badSize (h : writeSizeOk size off = false) :
    bar0Write s byNose off size v = if byNose then s else pcieErr s 0x0E02 0 size off := if_pos (by simp [h])

theorem bar0Write_past (hsize : writeSizeOk size off = true) (h : 0x2000000 ≤ off) : bar0Write s byNose off size v = s :=
  (if_neg (by simp [hsize])).trans (if_pos h)

theorem bar0Write_absent (hsize : writeSizeOk size off = true)
    (h : (if byNose then pageThere s (off / 4096) else pageServed s (off / 4096)) = false) : bar0Write s byNose off size v = s := by
  refine (if_neg (by simp [hsize])).trans (ite_eq_left_iff.mpr fun _ => if_pos ?_)
  cases byNose <;> simpa using h

section
variable (hsize : writeSizeOk size off = true) (hlow : off < 0x2000000)
  (hthere : (if byNose then pageThere s (off / 4096) else pageServed s (off / 4096)) = true)
include hsize hlow hthere

theorem bar0Write_there : bar0Write s byNose off size v =
    if overtaken s (off / 4096) then bumpFree s
    else pageWrite (if crossingReset s (off / 4096) then bumpFree s else s) byNose (off / 4096) (off % 4096) size v := by
  refine (if_neg (by simp [hsize])).trans ((if_neg (by omega)).trans (if_neg ?_))
  cases byNose <;> simpa using hthere

theorem bar0Write_overtaken (h : overtaken s (off / 4096) = true) : bar0Write s byNose off size v = bumpFree s :=
  (bar0Write_there hsize hlow hthere).trans (if_pos h)

theorem bar0Write_reaches (h : overtaken s (off / 4096) = false) : bar0Write s byNose off size v =
    pageWrite (if crossingReset s (off / 4096) then bumpFree s else s) byNose (off / 4096) (off % 4096) size v :=
  (bar0Write_there hsize hlow hthere).trans (if_neg (ne_true_of_eq_false h))

end

section
variable {pg o : Nat}

theorem pageWrite_off (h : pageOn s pg = false) :
    pageWrite s byNose pg o size v = if byNose then s else pcieErr s 0x0E05 0 size (pg * 4096 + o) := if_pos (by simp [h])

theorem pageWrite_four (h : pageOn s pg = true) : pageWrite s byNose pg o 4 v = half s byNose pg o (BitVec.ofNat 32 v) :=
  (if_neg (by simp [h])).trans (if_pos rfl)

theorem pageWrite_eight (h : pageOn s pg = true) : pageWrite s byNose pg o 8 v =
    if wide pg o && !lockedFor s byNose pg then wideWrite s pg o (BitVec.ofNat 64 v)
    else half (half s byNose pg o (BitVec.ofNat 32 v)) byNose pg (o + 4) (BitVec.ofNat 32 (v / 2 ^ 32)) :=
  (if_neg (by simp [h])).trans (if_neg (by omega))

theorem half_ofNose {x : W32} : half s true pg o x = writeReg4 s pg o x := if_neg (by simp [lockedFor])

end

end

theorem hostWrites : claimHostWrites := by
  intro s off size v pg o lo hi r lock put
  have hreach : hostReach s = true → hostWrite s 0 off size v.toNat = bar0Write s false off size v.toNat := hostWrite_bar0
  refine ⟨fun hno => congrArg Host.Outcome.next (hostWrite_unreached hno), fun hyes hbad => ?_,
    fun hyes hsize => ⟨fun hpast => ?_, fun hlow hserved => ?_⟩,
    fun x ho hentry hw => writeReg4_block s x hentry ho hw⟩
  · exact congrArg Host.Outcome.next ((hreach hyes).trans ((bar0Write_badSize hbad).trans (if_neg Bool.false_ne_true)))
  · refine congrArg Host.Outcome.next ((hreach hyes).trans ?_)
    rcases hpast with hpast | hpast
    · exact bar0Write_past hsize hpast
    · exact bar0Write_absent hsize hpast
  · intro t
    refine ⟨fun hover => ?_, fun hover hoff => ?_, fun hover hon hfour => ?_, fun hover hon height => ?_⟩
    all_goals refine congrArg Host.Outcome.next ((hreach hyes).trans ?_)
    · exact bar0Write_overtaken hsize hlow hserved hover
    all_goals refine (bar0Write_reaches (byNose := false) hsize hlow hserved hover).trans ?_
    · refine (pageWrite_off hoff).trans ((if_neg Bool.false_ne_true).trans ?_)
      rw [pageOff_eq]
    · subst hfour
      exact pageWrite_four hon
    · subst height
      exact pageWrite_eight hon

/-! ### The other BARs, and the Nose -/

section
variable {s : State} {off size v : Nat}

theorem hostWrite_bar2 (h : hostReach s = true) : hostWrite s 2 off size v =
    if off < 0x8000 then bellWrite s off size v else windowWrite s off (toBytes size v) :=
  (if_neg (by simp [h])).trans ((if_neg (by omega)).trans (if_pos rfl))

theorem hostWrite_bar4 (h : hostReach s = true) : hostWrite s 4 off size v = bar4Write s off size v :=
  (if_neg (by simp [h])).trans ((if_neg (by omega)).trans ((if_neg (by omega)).trans (if_pos rfl)))

theorem hostWrite_noBar {bar : Nat} (h0 : bar ≠ 0) (h2 : bar ≠ 2) (h4 : bar ≠ 4) : hostWrite s bar off size v = s :=
  ite_eq_left_iff.mpr fun _ => (if_neg h0).trans ((if_neg h2).trans (if_neg h4))

theorem bar4Write_past (h : 0x108000 ≤ off) : bar4Write s off size v = s := if_pos h

theorem bar4Write_badSize (hlow : off < 0x108000) (h : writeSizeOk size off = false) : bar4Write s off size v = pcieErr s 0x0E02 4 size off :=
  (if_neg (by omega)).trans (if_pos (by simp [h]))

theorem bar4Write_window (hlow : off < 0x100000) (h : writeSizeOk size off = true) : bar4Write s off size v =
    if mbBusy s then mbReject s else setNose s { s.nose with window := writeLe s.nose.window off size v } :=
  (if_neg (by omega)).trans ((if_neg (by simp [h])).trans (if_pos hlow))

theorem bar4Write_msix (hhigh : 0x100000 ≤ off) (hlow : off < 0x108000) (h : writeSizeOk size off = true) : bar4Write s off size v =
    let t := msixWrite s ((off - 0x100000) / 16) ((off - 0x100000) % 16) (BitVec.ofNat 32 v)
    if size = 8 then msixWrite t ((off - 0x100000) / 16) ((off - 0x100000) % 16 + 4) (BitVec.ofNat 32 (v / 2 ^ 32)) else t :=
  (if_neg (by omega)).trans ((if_neg (by simp [h])).trans (if_neg (by omega)))

section
variable {bar : Nat} {w : W64}

theorem noseWrites_stays (h : powered s = false ∨ s.nose.mode ≠ 1) : exec (.registerWrite true bar off size w) s = .next s := by
  refine congrArg Host.Outcome.next ((if_pos rfl).trans (if_neg fun hup => ?_))
  simp only [Bool.and_eq_true, beq_iff_eq] at hup
  rcases h with h | h
  · exact absurd hup.1 (ne_true_of_eq_false h)
  · exact h hup.2

theorem noseWrites_takes (hp : powered s = true) (hm : s.nose.mode = 1) : exec (.registerWrite true bar off size w) s =
    .next (if bar = 2 then noseBell s off size w else bar0Write s true off size w.toNat) :=
  congrArg Host.Outcome.next ((if_pos rfl).trans (if_pos (by simp [hp, hm])))

end

end

theorem otherWrites : claimOtherWrites := by
  intro s off size v q
  refine ⟨fun bar _ hno => ?_, fun bar h0 h2 h4 => ?_, fun hyes => ⟨fun hbell => ?_, fun hwin => ?_, fun hpast => ?_, fun hlow hbad => ?_,
    fun hlow hsize => ?_, fun hhigh hlow hsize => ?_⟩, fun bar hno => noseWrites_stays hno, fun hp hm => ⟨?_, fun bar hbar => ⟨fun hno => ?_, ?_⟩⟩⟩
  · exact congrArg Host.Outcome.next (hostWrite_unreached hno)
  · exact congrArg Host.Outcome.next (hostWrite_noBar h0 h2 h4)
  · exact congrArg Host.Outcome.next ((hostWrite_bar2 hyes).trans (if_pos hbell))
  · exact congrArg Host.Outcome.next ((hostWrite_bar2 hyes).trans (if_neg (Nat.not_lt.mpr hwin)))
  · exact congrArg Host.Outcome.next ((hostWrite_bar4 hyes).trans (bar4Write_past hpast))
  · exact congrArg Host.Outcome.next ((hostWrite_bar4 hyes).trans (bar4Write_badSize hlow hbad))
  · exact congrArg Host.Outcome.next ((hostWrite_bar4 hyes).trans (bar4Write_window hlow hsize))
  · exact congrArg Host.Outcome.next ((hostWrite_bar4 hyes).trans (bar4Write_msix hhigh hlow hsize))
  · exact (noseWrites_takes hp hm).trans (congrArg Host.Outcome.next (if_pos rfl))
  · refine (noseWrites_takes hp hm).trans (congrArg Host.Outcome.next ((if_neg hbar).trans ?_))
    by_cases hsize : writeSizeOk size off = true
    · rcases hno with hno | hno | hno
      · exact absurd hsize (ne_true_of_eq_false hno)
      · exact bar0Write_past hsize hno
      · exact bar0Write_absent hsize hno
    · exact (bar0Write_badSize (Bool.eq_false_iff.mpr hsize)).trans (if_pos rfl)
  · intro hlow hthere h4
    have hsize : writeSizeOk 4 off = true := by simp [writeSizeOk, h4]
    refine ⟨fun hover => ?_, fun hover => ?_⟩ <;> refine (noseWrites_takes hp hm).trans (congrArg Host.Outcome.next ((if_neg hbar).trans ?_))
    · exact bar0Write_overtaken hsize hlow hthere hover
    · refine (bar0Write_reaches (byNose := true) hsize hlow hthere hover).trans ?_
      by_cases hon : pageOn (if crossingReset s (off / 4096) then bumpFree s else s) (off / 4096) = true
      · exact (pageWrite_four hon).trans (half_ofNose.trans (if_pos hon).symm)
      · exact (pageWrite_off (Bool.eq_false_iff.mpr hon)).trans ((if_pos rfl).trans (if_neg hon).symm)

/-! ### Reads -/

section
variable {s : State} {bar off size : Nat}

/-- The endpoint answers a read of a range outside the command window. -/
def readThere (s : State) (bar off : Nat) : Bool := hostReach s && (bar == 0 || bar == 2 || bar == 4) && !(bar == 2 && decide (0x10000000 ≤ off))

/-- The read is of a page that BAR0 serves. -/
def readsPage (s : State) (bar off : Nat) : Bool := bar == 0 && decide (off < 0x2000000) && pageServed s (off / 4096)

theorem readThere_not (s : State) (bar off : Nat) :
    (!hostReach s || !(bar == 0 || bar == 2 || bar == 4) || (bar == 2 && decide (0x10000000 ≤ off))) = !readThere s bar off := by
  simp only [readThere, Bool.not_and (_ && _) _, Bool.not_and (hostReach s) _, Bool.not_not]

theorem hostRead_absent (h : readThere s bar off = false) : hostRead s bar off size = s := if_pos (by rw [readThere_not, h]; rfl)

section
variable (hthere : readThere s bar off = true)
include hthere

theorem hostRead_badSize (h : readSizeOk size off = false) :
    hostRead s bar off size = { pcieErr s 0x0E02 bar size off with reply := List.replicate size 0xFF } :=
  (if_neg (by rw [readThere_not, hthere]; simp)).trans (if_pos (by simp [h]))

variable (hsize : readSizeOk size off = true)
include hsize

theorem hostRead_good : hostRead s bar off size =
    if readsPage s bar off && overtaken s (off / 4096) then bumpFree { s with reply := List.replicate size 0xFF }
    else { (if readsPage s bar off then readEffect (if readsPage s bar off && crossingReset s (off / 4096) then bumpFree s else s)
        (off / 4096) (off % 4096) size else if readsPage s bar off && crossingReset s (off / 4096) then bumpFree s else s) with
      reply := readData s bar off size } :=
  (if_neg (by rw [readThere_not, hthere]; simp)).trans (if_neg (by simp [hsize]))

theorem hostRead_overtaken (hpage : readsPage s bar off = true) (hover : overtaken s (off / 4096) = true) :
    hostRead s bar off size = bumpFree { s with reply := List.replicate size 0xFF } :=
  (hostRead_good hthere hsize).trans (if_pos (by rw [hpage, hover]; rfl))

theorem hostRead_page (hpage : readsPage s bar off = true) (hover : overtaken s (off / 4096) = false) : hostRead s bar off size =
    { readEffect (if crossingReset s (off / 4096) then bumpFree s else s) (off / 4096) (off % 4096) size with reply := readData s bar off size } := by
  simp only [hostRead_good hthere hsize, hpage, hover, Bool.true_and, Bool.false_eq_true, if_false, if_true]

theorem hostRead_other (hpage : readsPage s bar off = false) : hostRead s bar off size = { s with reply := readData s bar off size } := by
  simp only [hostRead_good hthere hsize, hpage, Bool.false_and, Bool.false_eq_true, if_false]

end

end

theorem hostReads : claimHostReads := by
  intro s bar off size pg page there
  refine ⟨fun hno => ?_, fun hyes hbad => ?_, fun hyes hsize hpage hover => ?_, fun hyes hsize hpage hover => ?_, fun hyes hsize hpage => ?_⟩
  all_goals refine congrArg Host.Outcome.next ?_
  · exact hostRead_absent hno
  · exact hostRead_badSize hyes hbad
  · exact hostRead_overtaken hyes hsize hpage hover
  · exact hostRead_page hyes hsize hpage hover
  · exact hostRead_other hyes hsize hpage

/-! ### Registers of the endpoint -/

section
variable {s : State} {k : Nat} {v : W32} {w : W64}

theorem compPendWrite (hk : k < 128) (h : regOpen s pgPcie = true) : hostReg s pgPcie (0x100 + 4 * k) v.toNat =
    { s with pcie := { s.pcie with compPend := sput s.pcie.compPend k (sget (0 : W32) s.pcie.compPend k &&& ~~~ v) } } := by
  have hnarrow : ∀ j < 128, wide pgPcie (0x100 + 4 * j - (0x100 + 4 * j) % 8) = false := by decide
  rw [hostReg_block h (by decide) (by omega) (by omega) (by omega) (show pageType pgPcie = some (0xE, 0) from rfl) rfl (hnarrow k hk),
    BitVec.ofNat_toNat, BitVec.setWidth_eq]
  show pcieWrite s (0x100 + 4 * k) v = _
  have hword : (0x100 + 4 * k - 0x100) / 4 = k := by omega
  refine (if_neg (by omega)).trans ((if_pos (by omega)).trans ?_)
  simp only [hword]

theorem apertureWrites (hk : k < 16) (h : regOpen s pgPcie = true) : hostWrite s 0 (pgPcie * 4096 + 0x80 + 8 * k) 8 w.toNat =
    { s with pcie := { s.pcie with cwAp := sput s.pcie.cwAp k (w &&& 0xB000FFFFFF000000) } } := by
  have hwide : ∀ j < 16, wide pgPcie (0x80 + 8 * j) = true := by decide
  simp only [regOpen, Bool.and_eq_true, Bool.not_eq_true'] at h
  obtain ⟨⟨⟨⟨hreach, hserved⟩, hon⟩, hcross⟩, hlock⟩ := h
  rw [Nat.add_assoc, hostWrite_wide _ hreach hserved hon hcross hlock (by decide) (by omega) (by omega) (hwide k hk),
    BitVec.ofNat_toNat, BitVec.setWidth_eq]
  show apertureWrite s ((0x80 + 8 * k - 0x80) / 8) w = _
  have hap : (0x80 + 8 * k - 0x80) / 8 = k := by omega
  rw [hap]
  rfl

end

theorem endpointRegisters : claimEndpointRegisters := by
  intro s k v w
  refine ⟨fun hk hopen => ?_, fun hk hopen => ?_, fun hk hopen => ?_, fun hk => ?_, fun hk => ?_, fun hk => ?_⟩
  all_goals refine congrArg Host.Outcome.next ?_
  · refine (if_pos hk).trans ((hostReg_ofCluster (v := 1) (by omega) (by omega) (by omega) hk hopen).trans ?_)
    rfl
  · exact (if_pos hk).trans (compPendWrite hk hopen)
  · exact (if_pos hk).trans (apertureWrites hk hopen)
  all_goals exact if_neg (Nat.not_lt.mpr hk)

/-- Settles O42: a write or read by what its page, its size and the endpoint's state make of it. -/
theorem registerPages : Obligations.RegisterPages := ⟨pageHeaders, hostWrites, otherWrites, hostReads, endpointRegisters⟩

end Sys2Proof.Machine
end

section
/-! PROOFS. The command window (R518), MSI-X (R519), host resets (R526) and the endpoint's events (R507, R525, R545, R579, R581). -/

namespace Sys2Proof.Machine

/-! ### The command window -/

section
variable {s : State} {off len : Nat} {bs : List Byte}

theorem windowWrite_outside (h : inWindow off bs.length = false) : windowWrite s off bs = s := if_pos (by simp [h])

theorem windowRead_outside (h : inWindow off len = false) : windowRead s off len = s := if_pos (by simp [h])

section
variable (h : inWindow off bs.length = true)
include h

theorem windowWrite_refused {code : Nat} (herr : windowErr s off = some code) : windowWrite s off bs = windowRefused s code off := by
  simp only [windowWrite, h, herr, Bool.not_true, Bool.false_eq_true, if_false]

theorem windowWrite_taken (herr : windowErr s off = none) : windowWrite s off bs =
    if windowLive s off then
      hbmTouch { s with mem := writeBytes s.mem (windowAddr s off) bs } (rangeLines (windowAddr s off) bs.length) true
    else s := by
  simp only [windowWrite, h, herr, Bool.not_true, Bool.false_eq_true, if_false]

end

section
variable (h : inWindow off len = true)
include h

theorem windowRead_refused {code : Nat} (herr : windowErr s off = some code) :
    windowRead s off len = { windowRefused s code off with reply := List.replicate len 0xFF } := by
  simp only [windowRead, h, herr, Bool.not_true, Bool.false_eq_true, if_false]

theorem windowRead_taken (herr : windowErr s off = none) : windowRead s off len =
    if windowLive s off then hbmTouch { s with reply := readBytes s.mem (windowAddr s off) len } (rangeLines (windowAddr s off) len) false
    else bumpFree { s with reply := openBytes s.freeCtr len } := by
  simp only [windowRead, h, herr, Bool.not_true, Bool.false_eq_true, if_false]

end

end

theorem commandWindow : claimCommandWindow := by
  intro s off bs len a
  refine ⟨fun hno => ?_, fun hno => ?_, fun hyes hin => ⟨fun code herr => ?_, fun herr hlive => ?_, fun herr hdead => ?_⟩,
    fun hyes hin => ⟨fun code herr => ?_, fun herr hlive => ?_, fun herr hdead => ?_⟩⟩
  all_goals refine congrArg Host.Outcome.next ?_
  · rcases hno with hno | hno
    · exact if_neg (ne_true_of_eq_false hno)
    · exact ite_eq_right_iff.mpr fun _ => windowWrite_outside hno
  · rcases hno with hno | hno
    · exact if_neg (ne_true_of_eq_false hno)
    · exact ite_eq_right_iff.mpr fun _ => windowRead_outside hno
  all_goals refine (if_pos hyes).trans ?_
  · exact windowWrite_refused hin herr
  · exact (windowWrite_taken hin herr).trans (if_pos hlive)
  · exact (windowWrite_taken hin herr).trans (if_neg (ne_true_of_eq_false hdead))
  · exact windowRead_refused hin herr
  · exact (windowRead_taken hin herr).trans (if_pos hlive)
  · exact (windowRead_taken hin herr).trans (if_neg (ne_true_of_eq_false hdead))

/-! ### MSI-X -/

section
variable {s : State} {k : Nat} {fm : Bool}

theorem msixControl_enables (h : s.pcie.msixEn = false) : msixControl s true fm =
    (numsWhere (fun v => (pendingVectors s).contains v) 0 2048).foldl sendMsi
      { s with pcie := { s.pcie with msixEn := true, funcMask := fm, mbUnsent := false } } := if_pos (by simp [h])

theorem msixControl_stays (h : s.pcie.msixEn = true) :
    msixControl s true fm = flushPba { s with pcie := { s.pcie with msixEn := true, funcMask := fm } } := if_neg (by simp [h])

theorem msixControl_disables : msixControl s false fm = { s with pcie := { s.pcie with msixEn := false, funcMask := fm } } := by
  have hflush : msixControl s false fm = flushPba { s with pcie := { s.pcie with msixEn := false, funcMask := fm } } := by
    simp only [msixControl, Bool.false_and, Bool.false_eq_true, if_false]
  exact hflush.trans (if_pos rfl)

theorem msixWrite_unmasks : msixWrite s k 12 0 = flushPba { s with pcie := { s.pcie with
    msix := sput s.pcie.msix k { sget MsixVec.reset s.pcie.msix k with masked := false } } } := rfl

theorem msixUnmask_writes (hk : k < 2048) (h : hostReach s = true) : hostWrite s 4 (0x100000 + 16 * k + 12) 4 0 = msixWrite s k 12 0 := by
  have hsize : writeSizeOk 4 (0x100000 + 16 * k + 12) = true := by
    have h4 : (0x100000 + 16 * k + 12) % 4 = 0 := by omega
    simp [writeSizeOk, h4]
  have hvec : (0x100000 + 16 * k + 12 - 0x100000) / 16 = k := by omega
  have hword : (0x100000 + 16 * k + 12 - 0x100000) % 16 = 12 := by omega
  rw [hostWrite_bar4 h, bar4Write_msix (by omega) (by omega) hsize, hvec, hword]
  rfl

end

theorem msix : claimMsix := by
  intro s k fm
  refine ⟨fun hup hlink hen => ?_, fun hup hlink hen => ?_, fun hup hlink => ?_, fun b hno => ?_, fun hk hyes => ?_, fun hno => ?_⟩
  all_goals refine congrArg Host.Outcome.next ?_
  · exact (if_pos (by rw [hup, hlink]; rfl)).trans (msixControl_enables hen)
  · exact (if_pos (by rw [hup, hlink]; rfl)).trans (msixControl_stays hen)
  · exact (if_pos (by rw [hup, hlink]; rfl)).trans msixControl_disables
  · refine if_neg fun hall => ?_
    rw [Bool.and_eq_true] at hall
    rcases hno with hno | hno
    · exact absurd hall.1 (ne_true_of_eq_false hno)
    · exact absurd hall.2 (ne_true_of_eq_false hno)
  · exact (if_pos hk).trans ((msixUnmask_writes hk hyes).trans msixWrite_unmasks)
  · rcases hno with hno | hno
    · exact if_neg (Nat.not_lt.mpr hno)
    · exact ite_eq_right_iff.mpr fun _ => hostWrite_unreached hno

/-! ### Host resets -/

section
variable {s : State} {p code cls : Nat}

theorem triggerReset_off (h : (part s p).state = .off ∨ (part s p).state = .resetting) : triggerReset s p code cls = s := by
  rcases h with h | h <;> simp only [triggerReset, h]

theorem triggerReset_resets (hoff : (part s p).state ≠ .off) (hres : (part s p).state ≠ .resetting) : triggerReset s p code cls =
    abandonPart (let y := setPart s p { part s p with
        state := .resetting, resetCause := causeWord code cls, resets := (part s p).resets + 1, pendOp := 0, pendReason := 0, resetHeld := false }
      { y with glob := { y.glob with moduleOpParts := setBit y.glob.moduleOpParts p false } }) p := by
  unfold triggerReset
  split
  · next h => exact absurd h hoff
  · next h => exact absurd h hres
  · rfl

theorem hostResetWrite_part (hp : p < 4) : hostResetWrite s (BitVec.ofNat 32 (0x52530000 + p)) =
    if opHolds s p && decide ((part s p).state = .quiesced) then setPart s p { part s p with resetHeld := true } else triggerReset s p 0x0E04 0 := by
  have hkey : fld (BitVec.ofNat 32 (0x52530000 + p)) 31 16 = 0x5253 := by interval_cases p <;> rfl
  have haction : fld (BitVec.ofNat 32 (0x52530000 + p)) 3 0 = p := by interval_cases p <;> rfl
  refine (if_neg (not_not_intro hkey)).trans ((if_pos (by omega)).trans ?_)
  rw [haction]
  rfl

theorem exec_hostResetPartition (hopen : regOpen s pgPcie = true) (hp : p < 4) : exec (.hostResetPartition p) s =
    .next (if opHolds s p && decide ((part s p).state = .quiesced) then setPart s p { part s p with resetHeld := true }
      else triggerReset s p 0x0E04 0) :=
  congrArg Host.Outcome.next ((if_pos hp).trans ((hostReg_hostReset hopen rfl).trans (hostResetWrite_part hp)))

end

theorem hostResets : claimHostResets := by
  intro s p
  refine ⟨fun hopen => ?_, fun hp => congrArg Host.Outcome.next (if_neg (Nat.not_lt.mpr hp))⟩
  intro x held
  refine ⟨fun hp hfree hoff hres => ?_, fun hp hheld => ?_, fun hp hst => ?_, ?_⟩
  · exact (exec_hostResetPartition hopen hp).trans (congrArg Host.Outcome.next
      ((if_neg (ne_true_of_eq_false hfree)).trans (triggerReset_resets hoff hres)))
  · exact (exec_hostResetPartition hopen hp).trans (congrArg Host.Outcome.next (if_pos hheld))
  · refine (exec_hostResetPartition hopen hp).trans (congrArg Host.Outcome.next ((if_neg ?_).trans (triggerReset_off hst)))
    rcases hst with hst | hst <;> simp [show (part s p).state = _ from hst]
  · exact congrArg Host.Outcome.next ((hostReg_hostReset hopen rfl).trans rfl)

/-! ### Events of the endpoint -/

section
variable {s : State} {w sp : Nat} {f : Bool}

theorem endpointUp_eq : endpointUp s w sp f =
    if !s.pcie.perst && s.pcie.refClk && (powered s && decide (2 ≤ s.glob.stage.toNat)) then
      { s with pcie := { s.pcie with up := true, linkUp := true, flit := f, width := BitVec.ofNat 4 w, speed := BitVec.ofNat 4 sp } }
    else s := by
  unfold endpointUp
  rw [Bool.and_assoc _ (powered s)]

end

theorem endpointEvents : claimEndpointEvents := by
  intro s up t high clocked ready
  refine ⟨fun hst => ?_, fun hst => ?_, fun w sp f hlow => ?_, fun w sp f hhigh => ?_, rfl, fun w sp f hclk => ?_, fun w sp f hclk => ?_, rfl,
    fun d3 hlink => ?_, fun d3 hlink => ?_⟩
  all_goals refine congrArg Host.Outcome.next ?_
  · exact if_pos hst
  · exact if_neg (Nat.not_lt.mpr hst)
  · exact (if_pos hlow).trans endpointUp_eq
  · exact if_neg (ne_true_of_eq_false hhigh)
  · refine (if_neg (ne_true_of_eq_false hclk)).trans (endpointUp_eq.trans ?_)
    simp only [clocked, Bool.and_true]
    rfl
  · exact if_pos hclk
  · exact if_pos hlink
  · exact if_neg (ne_true_of_eq_false hlink)

/-- Settles O43: the command window, MSI-X, resets by the host, and what happens to the link. -/
theorem endpointAndWindow : Obligations.EndpointAndWindow := ⟨commandWindow, msix, hostResets, endpointEvents⟩

end Sys2Proof.Machine
end

section
/-! PROOFS. The input, the drydown and the hold-up bank (R486, R496-R502); power windows, thermal limits, operating points, rails and clocks
(R457, R487, R491, R492, R495, R578, R579). -/

namespace Sys2Proof.Machine

/-! ### The input -/

section
variable {s : State} {a b : Nat}

theorem inputFault_drydown (h : powered s = true) (cause : Nat) : inputFault s cause a b =
    drydown (pwrBlotter (bumpFree (pwrErr s 0x0B02 0)) (Config.freeNum (pwrErr s 0x0B02 0).freeCtr % 65536) 0x0B02 0 0xFF) cause a b := if_pos h

theorem inputFault_unpowered (h : powered s = false) (cause : Nat) : inputFault s cause a b = s := if_neg (ne_true_of_eq_false h)

end

theorem inputs : claimInputs := by
  intro s a b s1 s2
  refine ⟨fun hp => ⟨?_, ?_, ?_, ?_⟩, fun hp r hr => ?_, fun cause => rfl⟩
  · exact congrArg Host.Outcome.next (if_pos hp)
  · exact congrArg Host.Outcome.next (inputFault_drydown hp 2)
  · exact congrArg Host.Outcome.next (inputFault_drydown hp 3)
  · refine congrArg Host.Outcome.next ?_
    by_cases hin : 36000 ≤ a ∧ a ≤ 44000
    · have hquiet : ¬ (powered s && (decide (a < 36000) || decide (44000 < a))) = true := by simp [not_lt.mpr hin.1, not_lt.mpr hin.2]
      exact (if_neg hquiet).trans (if_pos hin).symm
    · have hout : a < 36000 ∨ 44000 < a := by omega
      exact (if_pos (by simp [hp, hout])).trans (if_neg hin).symm
  · simp only [List.mem_cons, List.mem_nil_iff, or_false] at hr
    rcases hr with rfl | rfl | rfl | rfl <;> refine congrArg Host.Outcome.next ?_
    · exact if_neg (ne_true_of_eq_false hp)
    · exact inputFault_unpowered hp 2
    · exact inputFault_unpowered hp 3
    · exact if_neg (by simp [hp])

/-! ### The drydown's last step -/

section
variable {s : State} {failed : List Nat} {c : CritSet}

/-- The vial once the captured set is programmed in the target half, or the marker (R478-R480). -/
def committed (v : Vial) (skip : Bool) (c : CritSet) (failed : List Nat) : Vial :=
  let x := { c with seq := keptSeq v + 1 }
  let w := { fillHalf v v.dryTarget with dryReady := false, dryFailed := failed.filter (halfBlocks v v.dryTarget).contains }
  if skip then { v with marker := some (c.cause, keptSeq v) }
  else if v.dryTarget then { w with halfB := some x } else { w with halfA := some x }

theorem drydownCommit_commits (hst : s.pwr.st = 2) (hdry : s.pwr.dry = some c) :
    drydownCommit s failed = { s with vial := committed s.vial s.pwr.drySkip c failed, pwr := { s.pwr with st := 3 } } := by
  simp only [drydownCommit, hdry, beq_iff_eq.mpr hst]
  rfl

theorem drydownCommit_idle (h : s.pwr.st ≠ 2 ∨ s.pwr.dry = none) : drydownCommit s failed = s := by
  unfold drydownCommit
  split
  · next c hst hdry =>
    rcases h with h | h
    · exact absurd (beq_iff_eq.mp hst) h
    · exact absurd (h.symm.trans hdry) (by simp)
  · rfl

end

theorem drydownCommits : claimDrydown := by
  intro s failed
  refine ⟨fun c hst hdry => ?_, fun h => congrArg Host.Outcome.next (drydownCommit_idle h)⟩
  intro v x hold w
  have hcommit := drydownCommit_commits (failed := failed) hst hdry
  refine ⟨fun hskip htarget => ?_, fun hskip htarget => ?_, fun hskip => ?_⟩ <;> refine congrArg Host.Outcome.next (hcommit.trans ?_)
  · have hkind : committed s.vial s.pwr.drySkip c failed = { w with halfB := some x } :=
      (if_neg (ne_true_of_eq_false hskip)).trans (if_pos htarget)
    rw [hkind]
  · have hkind : committed s.vial s.pwr.drySkip c failed = { w with halfA := some x } :=
      (if_neg (ne_true_of_eq_false hskip)).trans (if_neg (ne_true_of_eq_false htarget))
    rw [hkind]
  · have hkind : committed s.vial s.pwr.drySkip c failed = { v with marker := some (c.cause, keptSeq v) } := if_pos hskip
    rw [hkind]

/-! ### The hold-up bank -/

theorem holdUpBank : claimHoldUpBank := by
  intro s mv cap p low
  refine ⟨fun hp => ⟨fun hfull => ?_, fun hok hpart => ?_, fun hbank hlow => ?_⟩, fun h => ?_, fun h => ?_⟩
  all_goals refine congrArg Host.Outcome.next ?_
  · have hok : 43000 ≤ mv := by omega
    exact (if_pos (by simp [hp, hok])).trans (congrArg (setPwr s) (if_neg (Nat.not_lt.mpr hfull)))
  · exact (if_pos (by simp [hp, hok])).trans (congrArg (setPwr s) (if_pos hpart))
  · exact if_pos (by simp [hp, show s.pwr.bankOk = true from hbank, hlow])
  · refine if_neg fun hall => ?_
    simp only [Bool.and_eq_true, decide_eq_true_eq] at hall
    rcases h with h | h
    · exact absurd hall.1 (ne_true_of_eq_false h)
    · omega
  · refine if_neg fun hall => ?_
    simp only [Bool.and_eq_true, decide_eq_true_eq] at hall
    obtain ⟨⟨hpow, hbank⟩, hlow⟩ := hall
    rcases h with h | h | h
    · exact absurd hpow (ne_true_of_eq_false h)
    · exact absurd hbank (ne_true_of_eq_false h)
    · omega

/-- Settles O44: what triggers a drydown, what it commits, and what the bank measures. -/
theorem inputsAndDrydown : Obligations.InputsAndDrydown := ⟨inputs, drydownCommits, holdUpBank⟩

/-! ### Power windows -/

section
variable {s : State} {mv ma watts bankMv : Nat}

theorem powerWindow_unpowered (h : powered s = false) : powerWindow s mv ma watts bankMv = s := if_pos (by simp [h])

theorem powerWindow_taken (h : powered s = true) : powerWindow s mv ma watts bankMv =
    settleOps (if limitWatts s < watts then capDown (setPwr s (windowSensors s.pwr mv ma watts bankMv))
      else if watts * 10 ≤ limitWatts s * 9 then capUp (setPwr s (windowSensors s.pwr mv ma watts bankMv))
      else setPwr s { windowSensors s.pwr mv ma watts bankMv with under := 0 }) := if_neg (by simp [h])

theorem capDown_steps (h : s.pwr.powerCap.toNat < 2) : capDown s =
    raiseEvt (setPwr s { s.pwr with under := 0, powerCap := s.pwr.powerCap + 1, caps := s.pwr.caps + 1, bottomAt := some s.time }) pgPwr 1 :=
  if_pos h

theorem capDown_raises (h : 2 ≤ s.pwr.powerCap.toNat) (hdue : s.pwr.bottomAt = none ∨ ∃ t, s.pwr.bottomAt = some t ∧ t + 15000000 ≤ s.time) :
    capDown s = raiseEvt (setPwr s { s.pwr with under := 0, bottomAt := some s.time }) pgPwr 1 := by
  refine (if_neg (Nat.not_lt.mpr h)).trans (if_pos ?_)
  rcases hdue with hnone | ⟨t, hat, ht⟩
  · simp only [hnone, Option.map_none, Option.getD_none]
  · simp only [hat, Option.map_some, Option.getD_some, decide_eq_true ht]

theorem capDown_waits {t : Nat} (h : 2 ≤ s.pwr.powerCap.toNat) (hat : s.pwr.bottomAt = some t) (ht : s.time < t + 15000000) :
    capDown s = setPwr s { s.pwr with under := 0 } := by
  refine (if_neg (Nat.not_lt.mpr h)).trans (if_neg ?_)
  simp only [hat, Option.map_some, Option.getD_some, decide_eq_false (Nat.not_le.mpr ht), Bool.false_eq_true, not_false_eq_true]

end

theorem powerWindows : claimPowerWindows := by
  intro s mv ma watts bankMv p l r put
  refine ⟨fun hp => congrArg Host.Outcome.next (powerWindow_unpowered hp),
    fun hp hover => ⟨fun hcap => ?_, fun hdue hcap => ?_, fun t hcap hat ht => ?_⟩,
    fun hp hunder => ⟨fun hlow hrun => ?_, fun hlow hrun => ?_, fun hmid => ?_⟩⟩
  all_goals refine congrArg Host.Outcome.next ((powerWindow_taken hp).trans (congrArg settleOps ?_))
  · exact (if_pos hover).trans (capDown_steps hcap)
  · exact (if_pos hover).trans (capDown_raises hcap hdue)
  · exact (if_pos hover).trans (capDown_waits hcap hat ht)
  all_goals refine (if_neg (Nat.not_lt.mpr hunder)).trans ?_
  · exact (if_pos hlow).trans (if_pos hrun)
  · exact (if_pos hlow).trans (if_neg (Nat.not_lt.mpr hrun))
  · exact if_neg (Nat.not_le.mpr hmid)

/-! ### Thermal limits -/

section
variable {s : State} {u t : Nat}

/-- The state once the hottest sensor of die u is read (R495). -/
def heatSeen (s : State) (u t : Nat) : State := setPwr s { s.pwr with dieTemp := sput s.pwr.dieTemp u (BitVec.ofNat 8 t) }

theorem thermalSample_tripped (h : s.pwr.tripped.contains u = true) : thermalSample s u t =
    if t < 80 then powerNew s { s with pwr := { s.pwr with tripped := s.pwr.tripped.filter (· != u) } } else s := if_pos h

theorem thermalSample_off (h : s.pwr.tripped.contains u = false) (hoff : unitOn s u = false ∨ powered s = false) : thermalSample s u t = s := by
  refine (if_neg (ne_true_of_eq_false h)).trans (if_pos ?_)
  rcases hoff with hoff | hoff <;> simp [hoff]

section
variable (h : s.pwr.tripped.contains u = false) (hon : unitOn s u = true) (hp : powered s = true)
include h hon hp

theorem thermalSample_iod (hu : 2 ≤ u) : thermalSample s u t = if 110 ≤ t then tripUnit s u else s :=
  (if_neg (ne_true_of_eq_false h)).trans ((if_neg (by simp [hon, hp])).trans (if_neg (Nat.not_lt.mpr hu)))

theorem thermalSample_die (hu : u < 2) : thermalSample s u t =
    if 115 ≤ t ∨ (110 ≤ t ∧ opOf s u = 2) then tripUnit (heatSeen s u t) u
    else settleOp (if 100 ≤ t then thermDown (heatSeen s u t) u
      else if t < 92 then thermCool (heatSeen s u t) u
      else setPwr (heatSeen s u t) { (heatSeen s u t).pwr with
        coolAt := sdel (heatSeen s u t).pwr.coolAt u, thermAt := sdel (heatSeen s u t).pwr.thermAt u }) u :=
  (if_neg (ne_true_of_eq_false h)).trans ((if_neg (by simp [hon, hp])).trans (if_pos hu))

theorem thermalSample_kept (hu : u < 2) (hlow : t < 110 ∨ t < 115 ∧ opOf s u ≠ 2) : thermalSample s u t =
    settleOp (if 100 ≤ t then thermDown (heatSeen s u t) u
      else if t < 92 then thermCool (heatSeen s u t) u
      else setPwr (heatSeen s u t) { (heatSeen s u t).pwr with
        coolAt := sdel (heatSeen s u t).pwr.coolAt u, thermAt := sdel (heatSeen s u t).pwr.thermAt u }) u :=
  (thermalSample_die h hon hp hu).trans (if_neg (by omega))

end

theorem thermCool_runs {e t0 : Nat} (h : s.pwr.coolAt.find? (fun e => e.1 == u) = some (e, some t0)) : thermCool s u =
    if t0 + 15000000 ≤ s.time then setPwr s { s.pwr with
      thermAt := sdel s.pwr.thermAt u
      thermCap := sput s.pwr.thermCap u (if sget (0 : BitVec 2) s.pwr.thermCap u = 0 then 0 else sget (0 : BitVec 2) s.pwr.thermCap u - 1)
      coolAt := sput s.pwr.coolAt u (some s.time) }
    else setPwr s { s.pwr with thermAt := sdel s.pwr.thermAt u } := by
  simp only [thermCool, h]

theorem thermCool_begins (h : ∀ e t0, s.pwr.coolAt.find? (fun e => e.1 == u) ≠ some (e, some t0)) : thermCool s u =
    setPwr s { s.pwr with thermAt := sdel s.pwr.thermAt u, coolAt := sput s.pwr.coolAt u (some s.time) } := by
  -- `h` discharges the condition of the match's last case
  simp only [thermCool]

end

theorem thermals : claimThermals := by
  intro s u t seen q cap hot r
  refine ⟨fun h hon hp => ⟨fun hu htrip => ?_, fun hu hhot hlow hop => ?_, fun e t0 hu hcold hat => ?_, fun hu hcold hat => ?_,
    fun hu hwarm hlow => ?_, fun hu htrip => ?_, fun hu hlow => ?_⟩, fun h hoff => ?_, fun h => ?_, rfl⟩
  all_goals refine congrArg Host.Outcome.next ?_
  · exact (thermalSample_die h hon hp hu).trans (if_pos htrip)
  · refine (thermalSample_kept h hon hp hu (by omega)).trans (congrArg (settleOp · u) ((if_pos hhot).trans ?_))
    rfl
  · refine (thermalSample_kept h hon hp hu (by omega)).trans (congrArg (settleOp · u) ((if_neg (by omega)).trans ((if_pos hcold).trans ?_)))
    exact thermCool_runs hat
  · refine (thermalSample_kept h hon hp hu (by omega)).trans (congrArg (settleOp · u) ((if_neg (by omega)).trans ((if_pos hcold).trans ?_)))
    exact thermCool_begins hat
  · refine (thermalSample_kept h hon hp hu (by omega)).trans (congrArg (settleOp · u) ((if_neg (by omega)).trans ?_))
    exact if_neg (Nat.not_lt.mpr hwarm)
  · exact (thermalSample_iod h hon hp hu).trans (if_pos htrip)
  · exact (thermalSample_iod h hon hp hu).trans (if_neg (Nat.not_le.mpr hlow))
  · exact thermalSample_off h hoff
  · exact thermalSample_tripped h

/-! ### Operating points, rails and clocks -/

theorem hostReg_opCfg {s : State} {v : W32} (h : regOpen s pgPwr = true) : hostReg s pgPwr 0x48 v.toNat = opCfgWrite s v := by
  rw [hostReg_block h (by decide) (by omega) (by omega) (by omega) (show pageType pgPwr = some (0xB, 0) from rfl) rfl rfl,
    BitVec.ofNat_toNat, BitVec.setWidth_eq]
  rfl

theorem operatingPoints : claimOperatingPoints := by
  intro s
  refine ⟨fun v hopen => ?_, fun d e t h => ?_, fun d h => ?_, fun bad h => ?_, fun bad hen hp => ?_, fun r => rfl⟩
  all_goals refine congrArg Host.Outcome.next ?_
  · exact hostReg_opCfg hopen
  · simp only [opChangeDone, h]
    rfl
  · simp only [opChangeDone, h]
  · exact if_pos (by rcases h with h | h <;> simp [h])
  · exact if_neg (by simp [hen, hp])

theorem referenceClocks : claimReferenceClocks := by
  intro s x
  refine ⟨rfl, rfl, fun h => ⟨?_, ?_⟩, fun h => ⟨?_, ?_⟩⟩
  all_goals refine congrArg Host.Outcome.next ?_
  · exact if_pos h
  · exact if_pos h
  · exact if_neg (ne_true_of_eq_false h)
  · exact if_neg (ne_true_of_eq_false h)

/-- Settles O45: each window, sample and clock edge by the case it falls in. -/
theorem powerThermalsAndClocks : Obligations.PowerThermalsAndClocks := ⟨powerWindows, thermals, operatingPoints, referenceClocks⟩

end Sys2Proof.Machine
end

section
/-! PROOFS. The Nose: its restarts (R456, R523, R530, R540), sensors (R531), keys and address (R534, R551-R553). -/

namespace Sys2Proof.Machine

/-! ### Restarts -/

section
variable {s : State} {cause at_ verdict : Nat} {asked : Bool} {r : VRead}

theorem noseRestart_restarts (h : nosePowered s) : noseRestart s cause false = restarted s cause := if_pos h

theorem noseRestart_stays (h : ¬ nosePowered s) : noseRestart s cause asked = s := if_neg h

theorem restartMailbox_none (h : s.nose.mb = none) : restartMailbox s asked = s := by
  simp only [restartMailbox, h]

theorem restartMailbox_ends {m : MbOp} (h : s.nose.mb = some m) : restartMailbox s asked =
    endModuleOp (mbFinish s m.op (if asked = true ∧ m.op = 0x54 then 0 else 0x0C03) []) := by
  simp only [restartMailbox, h, Bool.and_eq_true, beq_iff_eq]

theorem restartDone_none (h : s.nose.restarting = none) : restartDone s verdict r = s := by
  simp only [restartDone, h]

/-- The state once the ROM has started the image and the restart is reported, before a mailbox operation ends (R456, R532). -/
def restartReported (s : State) (cause : Nat) (asked : Bool) (at_ verdict : Nat) (r : VRead) : State :=
  let a := romStarted s cause verdict r
  let b := releaseBlotters (if cause = 0 then a else noseBlotter (noseErr a cause 0) cause at_)
  raiseEvt (if asked = true then raiseEvt (addEvent b 0xC0000 5 0 0 0x54) pgNose 1 else b) pgNose 0

theorem restartDone_reports (h : s.nose.restarting = some (cause, asked, at_)) :
    restartDone s verdict r = restartMailbox (restartReported s cause asked at_ verdict r) asked := by
  unfold restartDone
  rw [h]
  rfl

end

theorem noseRestarts : claimNoseRestarts := by
  intro s verdict r
  refine ⟨fun h => ⟨?_, fun hen => ?_⟩, fun h => ?_, fun h => ?_, fun cause asked at_ h => ⟨fun hmb => ?_, fun m hmb => ?_⟩, fun h => ?_⟩
  all_goals refine congrArg Host.Outcome.next ?_
  · exact noseRestart_restarts h
  · exact (if_pos hen).trans (noseRestart_restarts h)
  · exact noseRestart_stays h
  · rcases h with h | h
    · exact ite_eq_right_iff.mpr fun _ => noseRestart_stays h
    · exact if_neg (ne_true_of_eq_false h)
  · exact (restartDone_reports h).trans (restartMailbox_none hmb)
  · exact (restartDone_reports h).trans (restartMailbox_ends hmb)
  · exact restartDone_none h

/-! ### Sensors -/

section
variable {s : State} {id v : Nat}

/-- A sensor's reading is kept with its highest since mount and its level (R531). -/
def sensorSeen (s : State) (id v : Nat) : State :=
  setNose s { s.nose with
    sensors := sput s.nose.sensors id (v, max (sget (v, v) s.nose.sensors id).2 v), levels := sput s.nose.levels id (sensorLevel s id v) }

theorem readSensor_reads (hid : sensorIds.contains id = true) (hlive : sensorLive s id = true) : readSensor s id v =
    if sensorLevel s id v = sget 0 s.nose.levels id then sensorSeen s id v
    else crossEvent (sensorSeen s id v) id (sget 0 s.nose.levels id) (sensorLevel s id v) v :=
  if_neg (by rw [hid, hlive]; exact Bool.false_ne_true)

theorem readSensor_skips (h : sensorIds.contains id = false ∨ sensorLive s id = false) : readSensor s id v = s := by
  refine if_pos ?_
  rcases h with h | h <;> rw [h]
  · rfl
  · exact Bool.or_true _

theorem sensorPoll_down {rs : List (Nat × Nat)} {k : Ecc} (h : noseUp s = false) : sensorPoll s rs k = s := by
  refine if_pos ?_
  simp only [noseUp, Bool.and_eq_false_iff, beq_eq_false_iff_ne] at h
  rcases h with h | h
  · simp [h]
  · rw [decide_eq_true h, Bool.true_or]

theorem sensorPoll_up {rs : List (Nat × Nat)} {k : Ecc} (h : noseUp s = true) : sensorPoll s rs k =
    k.casesOn (rs.foldl (fun t e => readSensor t e.1 e.2) s)
      (let t := rs.foldl (fun t e => readSensor t e.1 e.2) s
       setNose t { t.nose with sramCe := t.nose.sramCe + 1 })
      (noseRestart (rs.foldl (fun t e => readSensor t e.1 e.2) s) 0x0C0C false) := by
  obtain ⟨hp, hm⟩ := noseUp_fields h
  refine (if_neg (by simp [hp, hm])).trans ?_
  cases k <;> rfl

end

theorem noseSensors : claimNoseSensors := by
  intro s id v
  refine ⟨fun h => ?_, fun h rs k => congrArg Host.Outcome.next (sensorPoll_down h)⟩
  intro l old seen
  have hpoll : ∀ {rs k}, exec (.noseSensorPoll rs k) s = .next (sensorPoll s rs k) := rfl
  refine ⟨fun hid hlive => ⟨fun hlevel => ?_, fun hlevel => ?_⟩, fun hskip => ?_, fun rs => ⟨?_, ?_, ?_⟩⟩
  all_goals refine congrArg Host.Outcome.next ((sensorPoll_up h).trans ?_)
  · exact (readSensor_reads hid hlive).trans (if_pos hlevel)
  · exact (readSensor_reads hid hlive).trans (if_neg hlevel)
  · exact readSensor_skips hskip
  all_goals rfl

/-! ### Keys and address -/

theorem noseKeysAndAddress : claimNoseKeysAndAddress := by
  intro s a
  refine ⟨fun hm hk => ?_, fun h => ?_, fun hp => ?_, fun hp => ?_⟩
  all_goals refine congrArg Host.Outcome.next ?_
  · exact if_pos ⟨hm, by rw [hk]; rfl⟩
  · refine if_neg fun hboth => ?_
    obtain ⟨hm, hk⟩ := hboth
    rcases h with h | h
    · exact h hm
    · rw [h] at hk
      exact Bool.false_ne_true hk
  · exact if_pos hp
  · exact if_neg (ne_true_of_eq_false hp)

/-- Settles O46: restarts and what ends with them, sensor readings, keys and the address. -/
theorem noseRestartsAndSensors : Obligations.NoseRestartsAndSensors := ⟨noseRestarts, noseSensors, noseKeysAndAddress⟩

end Sys2Proof.Machine
end

section
/-! PROOFS. The vial: critical sets, patrol, forgotten codewords, wear levelling, garbage collection, the blotter log (R466-R482). -/

namespace Sys2Proof.Machine

/-! ### Critical sets -/

section
variable {v : Vial} {ar br : Bool} {x y : CritSet}

theorem setValid_some {c : Option CritSet} {b : Bool} (hc : c = some x) (h : (x.good && b) = true) : setValid c b = some x := by
  subst hc
  exact if_pos h

theorem setValid_torn {c : Option CritSet} {b : Bool} (hc : c = some x) (h : (x.good && b) = false) : setValid c b = none := by
  subst hc
  exact if_neg (ne_true_of_eq_false h)

theorem setValid_erased {c : Option CritSet} {b : Bool} (hc : c = none) : setValid c b = none := by
  subst hc
  rfl

theorem newestSet_both (ha : setValid v.halfA ar = some x) (hb : setValid v.halfB br = some y) :
    newestSet v ar br = (some (if x.seq < y.seq then (y, true) else (x, false)), false) := by
  simp only [newestSet, ha, hb]

theorem newestSet_ofA (ha : setValid v.halfA ar = some x) (hb : setValid v.halfB br = none) :
    newestSet v ar br = (some (x, false), v.halfB.isSome && decide (x.seq < seqOf v.halfB)) := by
  simp only [newestSet, ha, hb]

theorem newestSet_ofB (ha : setValid v.halfA ar = none) (hb : setValid v.halfB br = some y) :
    newestSet v ar br = (some (y, true), v.halfA.isSome && decide (y.seq < seqOf v.halfA)) := by
  simp only [newestSet, ha, hb]

theorem newestSet_none (ha : setValid v.halfA ar = none) (hb : setValid v.halfB br = none) : newestSet v ar br = (none, false) := by
  simp only [newestSet, ha, hb]

end

theorem criticalSets : claimCriticalSets := by
  intro v ar br
  refine ⟨fun x y hA hB => ⟨fun ha hb => ?_, fun ha hb => ?_, fun ha hb => ?_, fun ha hb => ?_⟩, fun x hA hB => ?_, fun y hA hB => ?_,
    fun hA hB => ?_⟩
  · exact newestSet_both (setValid_some hA ha) (setValid_some hB hb)
  · refine (newestSet_ofA (setValid_some hA ha) (setValid_torn hB hb)).trans ?_
    rw [hB]
    rfl
  · refine (newestSet_ofB (setValid_torn hA ha) (setValid_some hB hb)).trans ?_
    rw [hA]
    rfl
  · exact newestSet_none (setValid_torn hA ha) (setValid_torn hB hb)
  · by_cases ha : (x.good && ar) = true
    · refine (newestSet_ofA (setValid_some hA ha) (setValid_erased hB)).trans ?_
      rw [if_pos ha, hB]
      rfl
    · exact (newestSet_none (setValid_torn hA (Bool.eq_false_iff.mpr ha)) (setValid_erased hB)).trans (if_neg ha).symm
  · by_cases hb : (y.good && br) = true
    · refine (newestSet_ofB (setValid_erased hA) (setValid_some hB hb)).trans ?_
      rw [if_pos hb, hA]
      rfl
    · exact (newestSet_none (setValid_erased hA) (setValid_torn hB (Bool.eq_false_iff.mpr hb))).trans (if_neg hb).symm
  · exact newestSet_none (setValid_erased hA) (setValid_erased hB)

/-! ### The patrol -/

section
variable {s : State} {b corr worst retry lost w : Nat} {last : Bool}

/-- Does the page read end the patrol's pass (R473)? -/
def passEnds (v : Vial) (b : Nat) (last : Bool) : Bool := last && (liveBlocks v).all (fun c => !keyLt (patrolKey v b) (patrolKey v c))

/-- The state once a page is read and its forgotten codewords have cost what the region says (R468, R473). -/
def patrolled (s : State) (b corr retry lost w : Nat) (last : Bool) : State :=
  let v := s.vial
  let s1 := setVial s { setMap v { v.map with patrolPasses := if passEnds v b last then v.map.patrolPasses + 1 else v.map.patrolPasses } with
    corrected := v.corrected + BitVec.ofNat 64 corr, retries := v.retries + BitVec.ofNat 64 retry
    patrolAt := if passEnds v b last then none else some (patrolKey v b) }
  if lost = 0 then s1 else loseAt (forgotMany s1 (vblock v b).region (lunOf b) lost) b lost w

theorem vialPatrol_reads (hidle : vialIdle s = true) (hb : b < 16384) (hlive : (vblock s.vial b).live = true) (hturn : patrolTurn s.vial b = true) :
    vialPatrol s b corr worst retry lost w last =
      if (24 < worst ∨ retry ≠ 0) ∧ (vblock (patrolled s b corr retry lost w last).vial b).live then
        moveBlock (setVial (patrolled s b corr retry lost w last) { (patrolled s b corr retry lost w last).vial with
          refreshed := (patrolled s b corr retry lost w last).vial.refreshed + 1 }) b false
      else if passEnds s.vial b last then anchorWrite (patrolled s b corr retry lost w last) else patrolled s b corr retry lost w last :=
  if_neg (by rw [hidle, hlive, hturn, decide_eq_false (Nat.not_le.mpr hb)]; exact Bool.false_ne_true)

theorem vialPatrol_skips (h : vialIdle s = false ∨ 16384 ≤ b ∨ (vblock s.vial b).live = false ∨ patrolTurn s.vial b = false) :
    vialPatrol s b corr worst retry lost w last = s := by
  refine if_pos ?_
  rcases h with h | h | h | h <;> simp [h]

end

theorem patrol : claimPatrol := by
  intro s b corr worst retry lost w last v ends seen after r
  refine ⟨fun hidle hb hlive hturn => ?_, fun h => congrArg Host.Outcome.next (vialPatrol_skips h)⟩
  have hread := vialPatrol_reads (corr := corr) (worst := worst) (retry := retry) (lost := lost) (w := w) (last := last) hidle hb hlive hturn
  refine ⟨fun hbad hstill => ?_, fun hgood => ?_⟩ <;> refine congrArg Host.Outcome.next (hread.trans ?_)
  · exact if_pos ⟨hbad, hstill⟩
  · refine if_neg fun hmoves => ?_
    obtain ⟨hbad, hstill⟩ := hmoves
    rcases hgood with hgood | hgone
    · omega
    · exact absurd hstill (ne_true_of_eq_false hgone)

/-! ### Forgotten codewords -/

theorem forgottenCosts : claimForgotten := by
  intro s b n w v x
  refine ⟨fun h => ?_, fun h => ?_, fun e h hw hrec => ?_, fun h hrec => ?_, fun h => ?_, fun h => ?_, fun h => ?_, fun h => ?_⟩
  case refine_8 =>
    obtain ⟨k, hk⟩ : ∃ k, (vblock s.vial b).region = k + 6 := ⟨(vblock s.vial b).region - 6, by have : 5 < (vblock s.vial b).region := h; omega⟩
    simp only [loseAt, hk]
  all_goals
    have hregion : (vblock s.vial b).region = _ := h
    simp only [loseAt, hregion]
  · rfl
  · rfl
  · simp only [show s.vial.records.find? (fun e => e.1 == w) = some e from hrec, if_neg hw]
  · simp only [show s.vial.records.find? (fun e => e.1 == w) = none from hrec]
  all_goals rfl

/-! ### Wear levelling and garbage collection -/

section
variable {s : State} {r b c : Nat} {failed : Bool}

/-- The free block of a region that wear levelling of block b's data would take: of those with more erases, the least erased (R470). -/
def wearTarget (v : Vial) (r b : Nat) : Option Nat :=
  leastErased v ((regionBlocks v r).filter (fun c => blockFree v c && decide ((vblock v b).erases < (vblock v c).erases)))

/-- Most erases of a block of region r. -/
def mostErases (v : Vial) (r : Nat) : Nat := (regionBlocks v r).foldl (fun a b => max a (vblock v b).erases) 0

/-- The block of region r whose data wear levelling moves. -/
def wearSource (v : Vial) (r : Nat) : Option Nat := leastErased v ((regionBlocks v r).filter (fun b => (vblock v b).live))

theorem wearLevel_noSource (h : wearSource s.vial r = none) : wearLevel s r = s := by
  rw [wearSource] at h
  simp only [wearLevel, h]

theorem wearLevel_noTarget (h : wearSource s.vial r = some b) (ht : wearTarget s.vial r b = none) : wearLevel s r = s := by
  rw [wearSource] at h
  rw [wearTarget] at ht
  simp only [wearLevel, h, ht]

theorem wearLevel_target (h : wearSource s.vial r = some b) (ht : wearTarget s.vial r b = some c) : wearLevel s r =
    if 2000 < mostErases s.vial r - (vblock s.vial b).erases then anchorWrite (setVial s (placeBlock s.vial b c)) else s := by
  rw [wearSource] at h
  rw [wearTarget] at ht
  simp only [wearLevel, h, ht, mostErases]
  rfl

theorem garbageCollection_skips (h : vialIdle s = false ∨ 16384 ≤ b ∨ reclaimable s.vial b = false) :
    exec (.garbageCollection b failed) s = .next s := by
  refine congrArg Host.Outcome.next (if_neg fun hall => ?_)
  simp only [Bool.and_eq_true, decide_eq_true_eq] at hall
  obtain ⟨⟨hidle, hb⟩, hrec⟩ := hall
  rcases h with h | h | h
  · exact absurd hidle (ne_true_of_eq_false h)
  · omega
  · exact absurd hrec (ne_true_of_eq_false h)

theorem garbageCollection_collects (hidle : vialIdle s = true) (hb : b < 16384) (hrec : reclaimable s.vial b = true) :
    exec (.garbageCollection b failed) s =
      let t := (unitsIn s.vial b).foldl (fun t u => storeUnit t u (unitBytes t.vial u)) s
      .next (if (unitsIn t.vial b).isEmpty then
        (if failed then anchorWrite (setVial t (retireBlock (putBlock t.vial b { vblock t.vial b with live := false }) b)) else eraseBlock t b)
      else t) :=
  congrArg Host.Outcome.next (if_pos (by simp only [hidle, hb, hrec, decide_true, Bool.and_self]))

end

theorem wear : claimWear := by
  intro s r b failed v l hi more
  have hlevel : vialIdle s = true → r < 6 → exec (.vialWearLevel r) s = .next (wearLevel s r) := fun hidle hr =>
    congrArg Host.Outcome.next (if_pos (by simp only [hidle, hr, decide_true, Bool.and_self]))
  have hskips : wearLevel s r = s → exec (.vialWearLevel r) s = .next s := fun h =>
    congrArg Host.Outcome.next (ite_eq_right_iff.mpr fun _ => h)
  refine ⟨fun c hidle hr hsource htarget => ⟨fun hwide => ?_, fun hnarrow => ?_⟩, fun hsource htarget => hskips (wearLevel_noTarget hsource htarget),
    fun h => ?_, ?_, fun h => garbageCollection_skips h⟩
  · exact (hlevel hidle hr).trans (congrArg Host.Outcome.next ((wearLevel_target hsource htarget).trans (if_pos hwide)))
  · exact (hlevel hidle hr).trans (congrArg Host.Outcome.next ((wearLevel_target hsource htarget).trans (if_neg (Nat.not_lt.mpr hnarrow))))
  · rcases h with h | h | h
    · exact congrArg Host.Outcome.next (if_neg (by simp [h]))
    · exact congrArg Host.Outcome.next (if_neg (by simp [Nat.not_lt.mpr h]))
    · exact hskips (wearLevel_noSource h)
  · intro t hidle hb hrec
    have hcollect := garbageCollection_collects (failed := failed) hidle hb hrec
    refine ⟨fun hempty hfine => ?_, fun hempty hfailed => ?_, fun hleft => ?_⟩ <;>
      refine hcollect.trans (congrArg Host.Outcome.next ?_)
    · exact (if_pos hempty).trans (if_neg (ne_true_of_eq_false hfine))
    · exact (if_pos hempty).trans (if_pos hfailed)
    · exact if_neg (ne_true_of_eq_false hleft)

/-! ### The blotter log -/

section
variable {s : State} {page : List Blotter} {b c : Nat} {failed : Bool}

/-- The page is written to block b of the log, and the map with it (R482). -/
def putPage (t : State) (b : Nat) (page : List Blotter) : State :=
  anchorWrite (setVial t { setMap t.vial { t.vial.map with blotWritten := t.vial.map.blotWritten + BitVec.ofNat 64 page.length } with
    logPages := sput t.vial.logPages b (pagesOf t.vial b ++ [page]) })

/-- Does the log's newest block have room for a page? -/
def logRoom (s : State) : Bool :=
  match (logList s.vial).getLast? with
  | some b => decide ((pagesOf s.vial b).length < 256)
  | none => false

/-- The state once a failed program has retired the log's newest block (R471). -/
def logMoved (s : State) (failed : Bool) : State :=
  match failed, (logList s.vial).getLast? with
  | true, some b => moveBlock s b true
  | _, _ => s

/-- The page goes to the log's newest block. -/
def putNewest (s : State) (page : List Blotter) : State :=
  match (logList s.vial).getLast? with
  | none => s
  | some b => putPage s b page

theorem logPage_eq : logPage s page failed = putNewest (logMoved (if logRoom s then s else openLog s) failed) page := rfl

theorem logRoom_eq (h : (logList s.vial).getLast? = some b) : logRoom s = decide ((pagesOf s.vial b).length < 256) := by
  rw [logRoom, h]

theorem logMoved_fine : logMoved s false = s := rfl

theorem logMoved_failed (h : (logList s.vial).getLast? = some b) : logMoved s true = moveBlock s b true := by
  unfold logMoved
  rw [h]

theorem putNewest_eq (h : (logList s.vial).getLast? = some b) : putNewest s page = putPage s b page := by
  rw [putNewest, h]

theorem logPage_room (h : (logList s.vial).getLast? = some b) (hroom : (pagesOf s.vial b).length < 256) :
    logPage s page false = putPage s b page := by
  rw [logPage_eq, if_pos ((logRoom_eq h).trans (decide_eq_true hroom)), logMoved_fine, putNewest_eq h]

theorem logPage_failed (h : (logList s.vial).getLast? = some b) (hroom : (pagesOf s.vial b).length < 256)
    (hnew : (logList (moveBlock s b true).vial).getLast? = some c) : logPage s page true = putPage (moveBlock s b true) c page := by
  rw [logPage_eq, if_pos ((logRoom_eq h).trans (decide_eq_true hroom)), logMoved_failed h, putNewest_eq hnew]

theorem logPage_full (h : (logList s.vial).getLast? = some b) (hfull : 256 ≤ (pagesOf s.vial b).length)
    (hnew : (logList (openLog s).vial).getLast? = some c) : logPage s page false = putPage (openLog s) c page := by
  rw [logPage_eq, if_neg (ne_true_of_eq_false ((logRoom_eq h).trans (decide_eq_false (Nat.not_lt.mpr hfull)))), logMoved_fine, putNewest_eq hnew]

theorem dropOldest_drops {rest : List Nat} (h : logList s.vial = b :: rest) : dropOldest s =
    eraseBlock (setVial s (setMap s.vial { s.vial.map with
      blotOver := s.vial.map.blotOver + BitVec.ofNat 64 (pagesOf s.vial b).flatten.length })) b := by
  simp only [dropOldest, h]

end

theorem blotterLog : claimBlotterLog := by
  intro s failed l put
  have hput : ∀ t b page, putPage t b page = put t b page := fun _ _ _ => rfl
  refine ⟨fun hidle hheld hdue => ?_, fun h => ?_, fun page b hlast hroom => ⟨?_, fun c hnew => ?_⟩,
    fun page b c hlast hfull hnew => ?_, fun b rest h => dropOldest_drops h⟩
  rotate_left 2
  · exact (logPage_room hlast hroom).trans (hput _ _ _)
  · exact (logPage_failed hlast hroom hnew).trans (hput _ _ _)
  · exact (logPage_full hlast hfull hnew).trans (hput _ _ _)
  · refine congrArg Host.Outcome.next (if_pos ?_)
    have hsome : s.nose.unlogged.isEmpty = false := by simpa using hheld
    have hdue' : (decide (8 ≤ s.nose.unlogged.length) || decide (s.nose.loggedAt + 75000000 ≤ s.time)) = true := by
      simpa only [Bool.or_eq_true, decide_eq_true_eq] using hdue
    simp only [hidle, hsome, hdue', Bool.not_false, Bool.and_self]
  · refine congrArg Host.Outcome.next (if_neg fun hall => ?_)
    simp only [Bool.and_eq_true, Bool.or_eq_true, Bool.not_eq_true', decide_eq_true_eq] at hall
    obtain ⟨⟨hidle, hheld⟩, hdue⟩ := hall
    rcases h with h | h | h
    · exact absurd hidle (ne_true_of_eq_false h)
    · exact absurd hheld (by simp [h])
    · omega

/-- Settles O47: each of the vial's own tasks, by the case it meets. -/
theorem vialUpkeep : Obligations.VialUpkeep := ⟨criticalSets, patrol, forgottenCosts, wear, blotterLog⟩

end Sys2Proof.Machine
end

section
/-! PROOFS. Power-up, mount, boot, restore and cut-off (R469, R478, R503, R544-R549). -/

namespace Sys2Proof.Machine

/-! ### What an error record leaves of the Nose -/

section
variable (s : State)

/-- The state with another event log. -/
def withLog (s : State) (q : Nat) (l : List Event) : State := { s with nose := { s.nose with evtSeq := q, events := l } }

theorem addEvent_log (a b c d e : Nat) : ∃ q l, addEvent s a b c d e = withLog s q l := by
  unfold addEvent
  exact ⟨_, _, rfl⟩

theorem logRaise_mode (p code n : Nat) : (logRaise s p code n).nose.mode = s.nose.mode := by
  obtain ⟨q, l, h⟩ := addEvent_log s (pageId p) 1 n code ((hdr s p).infoLo.toNat + (hdr s p).infoHi.toNat * 2 ^ 32)
  unfold logRaise
  simp only [h]
  split
  · rfl
  · split <;> rfl

theorem sendMsi_nose (v : Nat) : (sendMsi s v).nose = s.nose := by
  unfold sendMsi
  dsimp only
  split
  · rfl
  · split <;> rfl

theorem sendMsis_nose : ∀ (k : Nat) (s : State) (v : Nat), (sendMsis s v k).nose = s.nose
  | 0, _, _ => rfl
  | k + 1, s, v => (sendMsis_nose k (sendMsi s v) v).trans (sendMsi_nose s v)

theorem putEvt_nose (p : Nat) (h : Hdr) (fresh : W32) : (putEvt s p h fresh).nose = s.nose := by
  unfold putEvt
  dsimp only
  split
  · exact sendMsis_nose _ _ _
  · rfl

theorem raiseCode_mode (p : Nat) (m : W32) (code : Nat) : (raiseCode s p m code).nose.mode = s.nose.mode := by
  have hfold : ∀ (l : List Nat) (t : State), (l.foldl (fun s n => logRaise s p (if n = 31 then code else 0) n) t).nose.mode = t.nose.mode := by
    intro l
    induction l with
    | nil => exact fun t => rfl
    | cons n l ih => exact fun t => (ih _).trans (logRaise_mode t p _ n)
  exact (hfold _ _).trans (congrArg Nose.mode (putEvt_nose s p _ 0))

theorem recordErr_mode (p code lo hi : Nat) : (recordErr s p code lo hi).nose.mode = s.nose.mode := raiseCode_mode _ _ _ _

end

/-! ### Power-up -/

section
variable {s : State} {w sp : Nat} {f : Bool}

theorem endpointUp_comes (hperst : s.pcie.perst = false) (hclk : s.pcie.refClk = true) (hp : powered s = true) (hst : 2 ≤ s.glob.stage.toNat) :
    endpointUp s w sp f = { s with pcie := { s.pcie with
      up := true, linkUp := true, flit := f, width := BitVec.ofNat 4 w, speed := BitVec.ofNat 4 sp } } :=
  if_pos (by simp only [hperst, hclk, hp, hst, decide_true, Bool.not_false, Bool.and_self])

theorem endpointUp_stays (h : s.pcie.perst = true ∨ s.pcie.refClk = false ∨ powered s = false ∨ s.glob.stage.toNat < 2) :
    endpointUp s w sp f = s := by
  refine if_neg fun hall => ?_
  simp only [Bool.and_eq_true, Bool.not_eq_true', decide_eq_true_eq] at hall
  obtain ⟨⟨⟨hperst, hclk⟩, hp⟩, hst⟩ := hall
  rcases h with h | h | h | h
  · exact absurd h (ne_true_of_eq_false hperst)
  · exact absurd hclk (ne_true_of_eq_false h)
  · exact absurd hp (ne_true_of_eq_false h)
  · omega

end

theorem powersUp : claimPowerUp := by
  intro s w sp f t
  refine ⟨fun hoff => ⟨fun hperst hclk hp hst => ?_, fun h => ?_⟩, fun hon => congrArg Host.Outcome.next (if_neg hon), rfl⟩
  · exact congrArg Host.Outcome.next ((if_pos hoff).trans (endpointUp_comes hperst hclk hp hst))
  · exact congrArg Host.Outcome.next ((if_pos hoff).trans (endpointUp_stays h))

/-! ### Mount -/

/-- Of two copies of ANCHOR, one perhaps missing, the good one of higher sequence (R469). -/
def newerAnchor (a : Option Anchor) (c : Anchor) : Option Anchor :=
  if !c.good then a else match a with
    | none => some c
    | some b => if b.seq < c.seq then some c else a

theorem newestAnchor_eq (v : Vial) : newestAnchor v = v.anchor.foldl (fun a e => newerAnchor a e.2) none := rfl

theorem newerAnchor_bad {a : Option Anchor} {c : Anchor} (h : c.good = false) : newerAnchor a c = a := if_pos (by rw [h]; rfl)

theorem newerAnchor_good {a : Option Anchor} {c : Anchor} (h : c.good = true) :
    ∃ b, newerAnchor a c = some b ∧ (b = c ∨ a = some b) ∧ c.seq ≤ b.seq ∧ ∀ x, a = some x → x.seq ≤ b.seq := by
  have hpick : newerAnchor a c = a.casesOn (some c) (fun b => if b.seq < c.seq then some c else some b) := by
    refine (if_neg (by rw [h]; exact Bool.false_ne_true)).trans ?_
    cases a <;> rfl
  rw [hpick]
  cases a with
  | none => exact ⟨c, rfl, .inl rfl, le_rfl, fun x hx => absurd hx (by simp)⟩
  | some b =>
    by_cases hlt : b.seq < c.seq
    · exact ⟨c, if_pos hlt, .inl rfl, le_rfl, fun x hx => by injection hx with hx; subst hx; omega⟩
    · exact ⟨b, if_neg hlt, .inr rfl, Nat.not_lt.mp hlt, fun x hx => by injection hx with hx; subst hx; exact le_rfl⟩

theorem newestAnchor_fold (l : List (Nat × Anchor)) : ∀ (a : Option Anchor) (c : Anchor), l.foldl (fun a e => newerAnchor a e.2) a = some c →
    (a = some c ∨ c.good = true ∧ c ∈ l.map (·.2)) ∧ (∀ x, a = some x → x.seq ≤ c.seq) ∧ ∀ e ∈ l, e.2.good = true → e.2.seq ≤ c.seq := by
  induction l with
  | nil =>
    intro a c h
    have hac : a = some c := h
    exact ⟨.inl hac, fun x hx => by rw [hx] at hac; injection hac with hac; rw [hac], fun e he => absurd he List.not_mem_nil⟩
  | cons e l ih =>
    intro a c h
    obtain ⟨hfrom, hacc, hrest⟩ := ih (newerAnchor a e.2) c h
    cases hgood : e.2.good with
    | false =>
      rw [newerAnchor_bad hgood] at hfrom hacc
      refine ⟨hfrom.imp_right fun hin => ⟨hin.1, List.mem_cons_of_mem _ hin.2⟩, hacc, fun d hd hdgood => ?_⟩
      rcases List.mem_cons.mp hd with rfl | hd
      · exact absurd hdgood (ne_true_of_eq_false hgood)
      · exact hrest d hd hdgood
    | true =>
      obtain ⟨b, hb, hwhich, hle, hold⟩ := newerAnchor_good (a := a) hgood
      have hbc : b.seq ≤ c.seq := hacc b hb
      refine ⟨?_, fun x hx => (hold x hx).trans hbc, fun d hd hdgood => ?_⟩
      · rcases hfrom with hfrom | hin
        · have hcb : b = c := by rw [hb] at hfrom; injection hfrom
          subst hcb
          rcases hwhich with rfl | hwhich
          · exact .inr ⟨hgood, List.mem_cons_self⟩
          · exact .inl hwhich
        · exact .inr ⟨hin.1, List.mem_cons_of_mem _ hin.2⟩
      · rcases List.mem_cons.mp hd with rfl | hd
        · exact hle.trans hbc
        · exact hrest d hd hdgood

section
variable {s : State} {anchors bad worn : List Nat} {a b : Bool} {verdict : Nat}

/-- The vial as mount begins: mounted, its counters zero. -/
def mountBegun (s : State) : State := setVial s { s.vial with
  mounted := true, corrected := 0, retries := 0, uncorr := 0, refreshed := 0, patrolAt := none, poweredAt := s.time }

/-- The state once the map is in force, DRYDOWN mounted, the keys derived and the records mended: the ROM's turn comes (R479, R551). -/
def mountMended (t : State) (c : Anchor) (a b : Bool) (bad worn : List Nat) : State :=
  let s2 := setVial t { t.vial with map := c.map, anchorSeq := c.seq }
  let s3 := { s2 with nose := { s2.nose with sensors := [], levels := [] }, pwr := { s2.pwr with minMv := 0 } }
  let s4 := deriveKeys (retireFailed (mountDry s3 a b))
  mendRecords (dropRecords s4 (bad ++ (if (versionRec s4).isNone then [384] else []))) worn

theorem vialMount_stays (h : s.glob.stage ≠ 2 ∨ s.vial.mounted = true) : vialMount s anchors a b bad worn verdict = s :=
  if_pos (by simpa using h)

theorem vialMount_noCopy {t : State} (h : mountAnchor (mountBegun s) anchors = (t, none)) : vialMount s anchors a b bad worn verdict = s := by
  refine ite_eq_left_iff.mpr fun _ => ?_
  show (match mountAnchor (mountBegun s) anchors with
    | (_, none) => s
    | (_, some _) => _) = s
  rw [h]

theorem vialMount_mounts {t : State} {c : Anchor} (hst : s.glob.stage = 2) (hnew : s.vial.mounted = false)
    (h : mountAnchor (mountBegun s) anchors = (t, some c)) : vialMount s anchors a b bad worn verdict =
      let s6 := startImage (mountMended t c a b bad worn) verdict
      mbEnded (releaseBlotters (if s6.nose.mode = 1 then keysMade { s6 with glob := { s6.glob with stage := 5 } } else s6)) := by
  unfold vialMount
  rw [if_neg (by simp [hst, hnew])]
  show (match mountAnchor (mountBegun s) anchors with
    | (_, none) => s
    | (t, some c) => _) = _
  rw [h]
  rfl

/-- The Nose as the ROM leaves it: MIN_VERSION read, no SPDM connection. -/
def romNose (d : State) : Nose := { d.nose with minVersion := BitVec.ofNat 32 (minVersion d), spdm := [] }

theorem startImage_starts {i : Image} (himage : s.vial.map.image = some i) (hgood : imageVerdict s verdict = 0) :
    startImage s verdict = { s with nose := { romNose s with
      mode := 1, running := BitVec.ofNat 32 i.version, staged := BitVec.ofNat 32 i.version } } := by
  simp only [startImage, himage, hgood, romNose]

theorem startImage_rejects (hbad : imageVerdict s verdict ≠ 0) : startImage s verdict =
    recordErr { s with nose := { romNose s with mode := 2 } } pgNose 0x0C0E (imageVerdict s verdict) 0 := by
  unfold startImage
  dsimp only
  split
  · next i hzero _ => exact absurd hzero hbad
  · rfl

theorem imageVerdict_noImage (himage : s.vial.map.image = none) : imageVerdict s verdict ≠ 0 := by
  simp only [imageVerdict, himage]
  split <;> omega

end

theorem mounts : claimMount := by
  intro s anchors a b bad worn verdict r z
  refine ⟨fun t c hst hnew hcopy => ?_, fun t hnone => congrArg Host.Outcome.next (vialMount_noCopy hnone),
    fun h => congrArg Host.Outcome.next (vialMount_stays h), fun c hc => ?_⟩
  · have hmount := vialMount_mounts (a := a) (b := b) (bad := bad) (worn := worn) (verdict := verdict) hst hnew hcopy
    intro y k d n
    refine ⟨fun i himage hgood => ?_, fun hbad => ?_, fun hgood => ?_⟩
    · refine congrArg Host.Outcome.next (hmount.trans ?_)
      have hstart : startImage (mountMended t c a b bad worn) verdict = _ := startImage_starts himage hgood
      rw [hstart]
      rfl
    · refine congrArg Host.Outcome.next (hmount.trans ?_)
      have hstart : startImage (mountMended t c a b bad worn) verdict = _ := startImage_rejects hbad
      have hmode : (startImage (mountMended t c a b bad worn) verdict).nose.mode ≠ 1 := by
        rw [hstart, recordErr_mode]
        exact (by decide : (2 : BitVec 3) ≠ 1)
      refine congrArg (fun u => mbEnded (releaseBlotters u)) ((if_neg hmode).trans ?_)
      rw [hstart]
      rfl
    · cases himage : d.vial.map.image with
      | none => exact absurd hgood (imageVerdict_noImage himage)
      | some i => exact ⟨i, rfl⟩
  · obtain ⟨hfrom, _, hmax⟩ := newestAnchor_fold s.vial.anchor none c hc
    obtain ⟨hgood, hmem⟩ := hfrom.resolve_left (by simp)
    exact ⟨hgood, hmem, hmax⟩

/-! ### Stages 5 to 8 -/

section
variable {s : State} {ms : Nat} {dis : List Nat} {nar : List (Nat × Nat)} {rows : List W32} {bad : List Nat}

/-- The state once the boot's records are made and the measured map is stored (R544, R547). -/
def bootStored (s : State) (dis : List Nat) (nar : List (Nat × Nat)) (rows : List W32) : State :=
  let s1 := { s with glob := { s.glob with scan := !mapUsable s.vial, cold := !warmPath s } }
  recordMap (if warmPath s then s1 else coldRecords s1) (mapPayload dis nar rows)

theorem bootReady_stays (h : s.glob.stage ≠ 5 ∨ s.nose.mode ≠ 1 ∨ powered s = false) : bootReady s ms dis nar rows bad = s := by
  refine if_pos ?_
  simp only [Bool.or_eq_true, decide_eq_true_eq, Bool.not_eq_true']
  tauto

theorem bootReady_runs (hst : s.glob.stage = 5) (hm : s.nose.mode = 1) (hp : powered s = true) : bootReady s ms dis nar rows bad =
    if dis.length + 4032 > 4096 ∨ 64 < nar.length then bootFail (bootStored s dis nar rows) 0x010C
    else if bad.any (sitePop s) then bootFail (bootStored s dis nar rows) 0x010D
    else bootDone (bootStored s dis nar rows) ms dis nar rows := by
  refine if_neg ?_
  simp only [Bool.or_eq_true, decide_eq_true_eq, Bool.not_eq_true', not_or, not_not]
  exact ⟨⟨hst, hm⟩, by simp [hp]⟩

end

theorem boots : claimBoot := by
  intro s ms dis nar rows bad r marked m kept stored short
  refine ⟨fun hst hm hp => ?_, fun h => congrArg Host.Outcome.next (bootReady_stays h)⟩
  have hrun := bootReady_runs (ms := ms) (dis := dis) (nar := nar) (rows := rows) (bad := bad) hst hm hp
  refine ⟨fun hdis hnar hsites => ?_, fun hmany => ?_, fun hdis hnar hsites => ?_⟩ <;> refine congrArg Host.Outcome.next (hrun.trans ?_)
  · exact (if_neg (by omega)).trans (if_neg (ne_true_of_eq_false hsites))
  · exact if_pos (by omega)
  · exact (if_neg (by omega)).trans (if_pos hsites)

/-! ### Restore and cut-off -/

section
variable {s : State} {fell : Bool} {w sp : Nat} {f : Bool}

theorem inputRestore_stays (h : s.pwr.st ≠ 3 ∨ fell = false ∧ ∃ c, s.pwr.dry = some c ∧ c.cause = 3) : inputRestore s fell w sp f = s := by
  refine if_neg fun hall => ?_
  obtain ⟨hst, hfell⟩ := hall
  rcases h with h | ⟨hno, c, hdry, hcause⟩
  · exact h hst
  · simp [hno, hdry, hcause] at hfell

theorem inputRestore_restarts (hst : s.pwr.st = 3) (h : fell = true ∨ ∀ c, s.pwr.dry = some c → c.cause ≠ 3) : inputRestore s fell w sp f =
    endpointUp (stage2 { afresh s with
      accord := accKeep s.accord
      faults := { (afresh s).faults with utcBase := s.faults.utcBase }
      pwr := { (afresh s).pwr with accKept := true, bankWeak := s.pwr.bankWeak, bankCap := s.pwr.bankCap, bankMv := s.pwr.bankMv,
                                   drydowns := s.pwr.drydowns, faultLow := s.pwr.faultLow } }) w sp f := by
  refine if_pos ⟨hst, ?_⟩
  rcases h with h | h
  · rw [h, Bool.or_true]
  · have hcause : ((s.pwr.dry.map (·.cause)).getD 0 == 3) = false := by
      cases hdry : s.pwr.dry with
      | none => rfl
      | some c => exact beq_false_of_ne (h c hdry)
    rw [hcause]
    rfl

theorem tearHalf_none (h : s.pwr.dry = none ∨ s.pwr.drySkip = true ∨ s.pwr.st = 3) : tearHalf s = s.vial := by
  unfold tearHalf
  split
  · next c hdry hstep =>
    rw [Bool.or_eq_false_iff] at hstep
    rcases h with h | h | h
    · exact absurd (h.symm.trans hdry) (by simp)
    · exact absurd h (ne_true_of_eq_false hstep.1)
    · exact absurd hstep.2 (by simp [h])
  · rfl

theorem tearHalf_tears {c : CritSet} (hdry : s.pwr.dry = some c) (hskip : s.pwr.drySkip = false) (hst : s.pwr.st = 2) : tearHalf s =
    let x := some { c with seq := keptSeq s.vial + 1, good := false }
    let v := fillHalf s.vial s.vial.dryTarget
    if v.dryTarget then { v with halfB := x } else { v with halfA := x } := by
  have hstep : (s.pwr.drySkip || s.pwr.st == 3) = false := by rw [hskip, hst]; rfl
  unfold tearHalf
  rw [hdry, hstep]

theorem bankCutoff_cuts (h : 2 ≤ s.pwr.st.toNat) : bankCutoff s = afresh (setVial s (tearHalf s)) := if_neg (Nat.not_lt.mpr h)

end

theorem restores : claimRestore := by
  intro s fell w sp f a t
  refine ⟨fun hst h => ?_, fun c hdry hcause => ?_, fun hst => ?_, fun hst => ?_, fun hst => ?_, fun hst h => ?_, fun c hst hdry hskip => ?_⟩
  all_goals refine congrArg Host.Outcome.next ?_
  · exact inputRestore_restarts hst h
  · exact inputRestore_stays (.inr ⟨rfl, c, hdry, hcause⟩)
  · exact inputRestore_stays (.inl hst)
  · exact if_pos hst
  all_goals refine (bankCutoff_cuts (by rw [hst]; decide)).trans ?_
  · rw [tearHalf_none (.inr (.inr hst))]
    rfl
  · rw [tearHalf_none (h.imp_right .inl)]
    rfl
  · rw [tearHalf_tears hdry hskip hst]
    rfl

/-- Settles O48: power-up, mount, boot, restore and cut-off, each by the state it meets. -/
theorem powerUpAndBoot : Obligations.PowerUpAndBoot := ⟨powersUp, mounts, boots, restores⟩

end Sys2Proof.Machine
end

section
/-! PROOFS. The mailbox: starts and ends (R521-R524, R536, R541), the operations that read, and those on stored bytes (R466-R504). -/

namespace Sys2Proof.Machine

/-! ### Starts -/

section
variable {s : State} {op req arg code : Nat}

theorem startErr_tooLong (h : 1048576 < req) : startErr s op req arg = some 0x0C04 := if_pos h

section
variable (hlen : req ≤ 1048576)
include hlen

theorem startErr_recovery (hm : s.nose.mode = 2) :
    startErr s op req arg = if op ≠ 0xF0 then some 0x0C0D else if mbArgOk s op arg req then none else some 0x0C06 :=
  (if_neg (Nat.not_lt.mpr hlen)).trans (if_pos hm)

section
variable (hm : s.nose.mode ≠ 2)
include hm

theorem startErr_unlisted (h : mbOpcodes.contains op = false ∨ op = 0xF0) : startErr s op req arg = some 0x0C05 := by
  refine (if_neg (Nat.not_lt.mpr hlen)).trans ((if_neg hm).trans (if_pos ?_))
  rcases h with h | h <;> simp only [h, Bool.not_false, Bool.true_or, beq_self_eq_true, Bool.or_true]

theorem startErr_listed (h : mbOpcodes.contains op = true) (h0 : op ≠ 0xF0) : startErr s op req arg =
    if !mbArgOk s op arg req then some 0x0C06 else if isModuleOp op && !(opParts s op arg).all (partStill s) then some 0x0C10 else none :=
  (if_neg (Nat.not_lt.mpr hlen)).trans ((if_neg hm).trans (if_neg (by rw [h, beq_false_of_ne h0]; exact Bool.false_ne_true)))

end

theorem startErr_none (hop : (s.nose.mode = 2 ∧ op = 0xF0) ∨ (s.nose.mode ≠ 2 ∧ mbOpcodes.contains op = true ∧ op ≠ 0xF0))
    (harg : mbArgOk s op arg req = true) (hstill : isModuleOp op = false ∨ (opParts s op arg).all (partStill s) = true) :
    startErr s op req arg = none := by
  rcases hop with ⟨hm, h0⟩ | ⟨hm, hlist, h0⟩
  · exact (startErr_recovery hlen hm).trans ((if_neg (not_not_intro h0)).trans (if_pos harg))
  · refine (startErr_listed hlen hm hlist h0).trans ((if_neg (by rw [harg]; exact Bool.false_ne_true)).trans (if_neg ?_))
    rcases hstill with h | h <;> rw [h]
    · exact Bool.false_ne_true
    · rw [Bool.not_true, Bool.and_false]
      exact Bool.false_ne_true

end

theorem mbStart_ignored (h : mbBusy s = true ∨ mbServes s = false) : mbStart s = s :=
  if_pos (by rcases h with h | h <;> rw [h] <;> simp)

section
variable (hfree : mbBusy s = false) (hserves : mbServes s = true)
include hfree hserves

theorem mbStart_refused (herr : startErr s s.nose.mbOpcode.toNat s.nose.mbReqLen.toNat s.nose.mbArg.toNat = some code) :
    mbStart s = mbFinish { s with nose := { s.nose with mbDone := false } } s.nose.mbOpcode.toNat code [] := by
  simp only [mbStart, hfree, hserves, herr, Bool.not_true, Bool.or_self, Bool.false_eq_true, if_false]
  rfl

theorem mbStart_begins (herr : startErr s s.nose.mbOpcode.toNat s.nose.mbReqLen.toNat s.nose.mbArg.toNat = none) : mbStart s =
    let op := s.nose.mbOpcode.toNat
    let arg := s.nose.mbArg.toNat
    { s with
      nose := { s.nose with mbDone := false, mb := some { op := op, arg := arg, req := s.nose.mbReqLen.toNat, result := none } }
      glob := if isModuleOp op then
          { s.glob with moduleOp := BitVec.ofNat 16 op, moduleOpParts := BitVec.ofNat 4 (partBits (opParts s op arg)) }
        else s.glob } := by
  simp only [mbStart, hfree, hserves, herr, Bool.not_true, Bool.or_self, Bool.false_eq_true, if_false]
  rfl

end

end

/-! ### Ends -/

section
variable {s : State} {op : Nat}

theorem mailboxComplete_completes {m : MbOp} {code : Nat} {resp : List Byte} (hmb : s.nose.mb = some m) (hres : m.result = some (code, resp))
    (hrun : s.nose.restarting = none) : mailboxComplete s = endModuleOp (mbFinish s m.op code resp) := by
  simp only [mailboxComplete, hmb, hres, hrun]

theorem mailboxComplete_waits (h : s.nose.mb = none ∨ s.nose.restarting ≠ none ∨ (∃ m, s.nose.mb = some m ∧ m.result = none)) :
    mailboxComplete s = s := by
  rcases h with h | h | ⟨m, h, hres⟩
  · simp only [mailboxComplete, h]
  · obtain ⟨r, hr⟩ := Option.ne_none_iff_exists'.mp h
    cases hmb : s.nose.mb <;> simp only [mailboxComplete, hmb, hr]
  · cases hr : s.nose.restarting <;> simp only [mailboxComplete, h, hres, hr]

theorem exec_mbRow {i : Instr} (h : mbRow op i) : ∃ f, exec i s = .next (mbRun s op f) := by
  obtain ⟨r, failed, pass, dis, nar, verdict, h⟩ := h
  simp only [List.mem_cons, List.mem_nil_iff, or_false, Prod.mk.injEq] at h
  rcases h with h | h | h | h | h | h | h | h | h | h | h | h | h | h | h | h | h | h | h | h <;> obtain ⟨rfl, rfl⟩ := h <;> exact ⟨_, rfl⟩

end

theorem mailbox : claimMailbox := by
  intro s op req arg cleared
  have hF0 : mbOpcodes.contains op = false → op ≠ 0xF0 := fun hno h0 => by rw [h0] at hno; exact absurd hno (by decide)
  have hrow : mbOpcodes.contains op = false → exec .unlistedMailboxOpcode s = .next (mbStart s) := fun hno =>
    congrArg Host.Outcome.next (if_neg (ne_true_of_eq_false hno))
  refine ⟨fun hlist => congrArg Host.Outcome.next (if_pos hlist),
    fun hno => ⟨fun h => (hrow hno).trans (congrArg Host.Outcome.next (mbStart_ignored h)),
      fun hfree hserves => ⟨fun hlen hm => ?_, fun hlen hm => ?_, fun hlong => ?_⟩⟩,
    mbStart_ignored, fun hfree hserves => ⟨fun hlong => ?_, fun hlen hm => ⟨fun h0 => ?_, fun h0 harg => ?_⟩,
      fun hlen hm => ⟨fun h => ?_, fun hlist h0 harg => ?_, fun hlist h0 harg hmod hstill => ?_⟩, fun hlen hop harg hstill => ?_⟩,
    fun m code resp hmb hres hrun => congrArg Host.Outcome.next (mailboxComplete_completes hmb hres hrun),
    fun h => congrArg Host.Outcome.next (mailboxComplete_waits h), fun op code resp => rfl, fun op i hi hnot => ?_⟩
  · exact (hrow hno).trans (congrArg Host.Outcome.next (mbStart_refused hfree hserves (startErr_unlisted hlen hm (.inl hno))))
  · exact (hrow hno).trans (congrArg Host.Outcome.next
      (mbStart_refused hfree hserves ((startErr_recovery hlen hm).trans (if_pos (hF0 hno)))))
  · exact (hrow hno).trans (congrArg Host.Outcome.next (mbStart_refused hfree hserves (startErr_tooLong hlong)))
  · exact mbStart_refused hfree hserves (startErr_tooLong hlong)
  · exact mbStart_refused hfree hserves ((startErr_recovery hlen hm).trans (if_pos h0))
  · exact mbStart_refused hfree hserves ((startErr_recovery hlen hm).trans
      ((if_neg (not_not_intro h0)).trans (if_neg (ne_true_of_eq_false harg))))
  · exact mbStart_refused hfree hserves (startErr_unlisted hlen hm h)
  · exact mbStart_refused hfree hserves ((startErr_listed hlen hm hlist h0).trans (if_pos (by rw [harg]; rfl)))
  · exact mbStart_refused hfree hserves ((startErr_listed hlen hm hlist h0).trans
      ((if_neg (by rw [harg]; exact Bool.false_ne_true)).trans (if_pos (by rw [hmod, hstill]; rfl))))
  · exact mbStart_begins hfree hserves (startErr_none hlen hop harg hstill)
  · obtain ⟨f, hf⟩ := exec_mbRow hi
    exact hf.trans (congrArg Host.Outcome.next (mbRun_ofNotHeld hnot f))

/-! ### Operations that read -/

theorem mailboxReads : claimMailboxReads := by
  intro s arg req
  refine ⟨fun h => ?_, fun h => ?_, fun h => ?_, fun r h => ?_, fun h => ?_, fun r region lun => rfl, fun region lun => rfl⟩
  all_goals refine congrArg Host.Outcome.next ((mbRun_ofHolds h _).trans ?_)
  · exact congrArg bumpFree (mbResult_ofHolds h _ _)
  · exact mbResult_ofHolds (s := { s with faults := { s.faults with utcBase := some (arg, s.accord.master) } }) h _ _
  · exact mbResult_ofHolds h _ _
  · rfl
  · exact congrArg bumpFree (mbResult_ofHolds h _ _)

/-- Settles O49: how an operation starts, ends and, where it reads, what it answers. -/
theorem mailboxOperations : Obligations.MailboxOperations := ⟨mailbox, mailboxReads⟩

/-! ### Stored bytes -/

section
variable {s : State} {arg req : Nat} {failed : Bool}

/-- The units of a STORE_WRITE go to new places one after another (R469). -/
def storeUnits (s t : State) (arg req : Nat) : State :=
  mbResult ((List.range (req / 2 ^ 18)).foldl
    (fun t i => storeUnit t (arg + i) (((readBytes s.nose.window 0 req).drop (i * 2 ^ 18)).take (2 ^ 18))) t) 0 []

/-- The state once a failed program has retired the block STORE fills (R471). -/
def storeMoved (s : State) (failed : Bool) : State :=
  match failed, s.vial.map.openBlock with
  | true, some (b, _) =>
    let t := moveBlock s b true
    setVial t (setMap t.vial { t.vial.map with openBlock := none })
  | _, _ => s

theorem storeWrite_worn (h : mbHolds s 0x31 arg req = true) (hworn : storeWritable s.vial = false) :
    exec (.storeWrite failed) s = .next (mbResult (vialErr s 0x0D02 5 0) 0x0D02 []) :=
  congrArg Host.Outcome.next ((mbRun_ofHolds h _).trans (if_pos (by rw [hworn]; rfl)))

theorem storeWrite_writes (h : mbHolds s 0x31 arg req = true) (hgood : storeWritable s.vial = true) :
    exec (.storeWrite failed) s = .next (storeUnits s (storeMoved s failed) arg req) :=
  congrArg Host.Outcome.next ((mbRun_ofHolds h _).trans (if_neg (by rw [hgood]; exact Bool.false_ne_true)))

theorem storeMoved_idle (h : s.vial.map.openBlock = none) : storeMoved s true = s := by
  simp only [storeMoved, h]

theorem storeMoved_moves {b k : Nat} (h : s.vial.map.openBlock = some (b, k)) : storeMoved s true =
    setVial (moveBlock s b true) (setMap (moveBlock s b true).vial { (moveBlock s b true).vial.map with openBlock := none }) := by
  simp only [storeMoved, h]

theorem loseWord_loses {w u b k : Nat} (h : s.vial.map.place.find? (fun e => e.1 == w / 256) = some (u, b, k)) : loseWord s w =
    bumpFree (setVial s { s.vial with flash := loseRange s.vial.flash (b * 2 ^ 22 + k * 2 ^ 18 + w % 256 * 1024) 1024 s.freeCtr }) := by
  simp only [loseWord, h]

theorem unitBytes_placed {v : Vial} {u b k : Nat} (h : v.map.place.find? (fun e => e.1 == u) = some (u, b, k)) :
    unitBytes v u = readBytes v.flash (b * 2 ^ 22 + k * 2 ^ 18) (2 ^ 18) := by
  simp only [unitBytes, h]

theorem unitBytes_unwritten {v : Vial} {u : Nat} (h : v.map.place.find? (fun e => e.1 == u) = none) :
    unitBytes v u = List.replicate (2 ^ 18) 0 := by
  simp only [unitBytes, h]

/-- The bytes of a STAGE_READ: of the drydown buffer, or of the restored header (R501, R504). -/
def stageAnswer (s : State) (arg : Nat) : List Byte :=
  if arg < 2 ^ 63 then readBytes s.nose.buffer (arg % 2 ^ 32) (min mib (bufferLen - arg % 2 ^ 32))
  else match s.nose.restored with
    | some c => ((critHeader c).drop (arg % 2 ^ 32)).take mib
    | none => []

theorem stageRead_answers (h : mbHolds s 0x21 arg req = true) : exec .stageRead s = .next (mbGives s 0x21 arg req 0 (stageAnswer s arg)) := by
  refine congrArg Host.Outcome.next ((mbRun_ofHolds h _).trans ?_)
  rw [← mbResult_ofHolds h]
  exact (apply_ite (mbResult s 0) _ _ _).symm

end

theorem storage : claimStorage := by
  intro s arg req data put
  refine ⟨fun h => ?_, fun h => ⟨fun hlow => ?_, fun c hhigh hc => ?_, fun hhigh hnone => ?_⟩, fun r h => ?_,
    fun failed h hworn => storeWrite_worn h hworn,
    fun h hgood => ⟨storeWrite_writes h hgood, fun hnone => ?_, fun b k hopen => ?_⟩, fun w u b k hw => loseWord_loses hw,
    fun u b k hu => unitBytes_placed hu, fun u hu => unitBytes_unwritten hu⟩
  · refine congrArg Host.Outcome.next ((mbRun_ofHolds h _).trans ?_)
    exact mbResult_ofHolds (s := { s with nose := { s.nose with buffer := writeBytes s.nose.buffer arg data } }) h _ _
  · rw [stageRead_answers h, stageAnswer, if_pos hlow]
  · rw [stageRead_answers h, stageAnswer, if_neg (Nat.not_lt.mpr hhigh), hc]
  · rw [stageRead_answers h, stageAnswer, if_neg (Nat.not_lt.mpr hhigh), hnone]
  · exact congrArg Host.Outcome.next (mbRun_ofHolds h _)
  · rw [storeWrite_writes h hgood, storeMoved_idle hnone]
    rfl
  · rw [storeWrite_writes h hgood, storeMoved_moves hopen]
    rfl

/-! ### One unit of STORE -/

section
variable {s : State} {v : Vial} {u b k : Nat} {bs : List Byte}

theorem storeOpen_room (h : v.map.openBlock = some (b, k)) (hk : k < 16) : storeOpen v = (some (b, k), v) := by
  simp only [storeOpen, h, if_pos hk]

theorem storeOpen_new (h : v.map.openBlock = none ∨ (∃ b k, v.map.openBlock = some (b, k) ∧ 16 ≤ k)) :
    storeOpen v = ((takeBlock v 5).1.map (fun b => (b, 0)), (takeBlock v 5).2) := by
  rcases h with h | ⟨b, k, h, hk⟩
  · simp only [storeOpen, h]
  · simp only [storeOpen, h, if_neg (Nat.not_lt.mpr hk)]

/-- The vial whose map names block b's place k for unit u (R469). -/
def unitNamed (v : Vial) (u b k : Nat) : Vial :=
  let v1 := putBlock v b { vblock v b with live := true, born := if k = 0 then v.map.births else (vblock v b).born }
  setMap v1 { v1.map with
    place := sput v1.map.place u (b, k), openBlock := some (b, k + 1), births := if k = 0 then v1.map.births + 1 else v1.map.births }

/-- The unit's bytes go to place k of block b, and the map to ANCHOR. -/
def unitPut (s : State) (w : Vial) (b k : Nat) (bs : List Byte) : State :=
  anchorWrite (setVial s { w with flash := writeBytes w.flash (b * 2 ^ 22 + k * 2 ^ 18) bs })

theorem storeUnit_worn (h : storeOpen s.vial = (none, v)) : storeUnit s u bs = wornRegion (setVial s v) 5 0 := by
  simp only [storeUnit, h]

theorem storeUnit_first (h : storeOpen s.vial = (some (b, k), v)) (hold : v.map.place.find? (fun e => e.1 == u) = none) :
    storeUnit s u bs = unitPut s (unitNamed v u b k) b k bs := by
  simp only [storeUnit, h, hold]
  rfl

theorem storeUnit_again {x o j : Nat} (h : storeOpen s.vial = (some (b, k), v)) (hold : v.map.place.find? (fun e => e.1 == u) = some (x, o, j)) :
    storeUnit s u bs = unitPut s (if o != b && (unitsIn (unitNamed v u b k) o).isEmpty then
      putBlock (unitNamed v u b k) o { vblock (unitNamed v u b k) o with live := false, stale := true } else unitNamed v u b k) b k bs := by
  simp only [storeUnit, h, hold]
  rfl

end

theorem storeUnits_places : claimStoreUnit := by
  intro s u bs
  refine ⟨fun b k h hk => storeOpen_room h hk, storeOpen_new, fun v h => storeUnit_worn h, fun b k v h => ?_⟩
  intro v1 put
  refine ⟨fun hold => storeUnit_first h hold, fun x o j hold => ⟨fun hne hempty => ?_, fun hkept => ?_⟩⟩
  · refine (storeUnit_again h hold).trans ?_
    rw [if_pos (by rw [bne_iff_ne.mpr hne, Bool.true_and]; exact hempty)]
    rfl
  · refine (storeUnit_again h hold).trans ?_
    rw [if_neg ?_]
    · rfl
    · rw [Bool.and_eq_true, bne_iff_ne]
      rintro ⟨hne, hempty⟩
      rcases hkept with hb | hfull
      · exact hne hb
      · exact absurd hempty (ne_true_of_eq_false hfull)

/-- Settles O50: the staging buffer, and STORE's units as they are read and written. -/
theorem mailboxStorage : Obligations.MailboxStorage := ⟨storage, storeUnits_places⟩

end Sys2Proof.Machine
end

section
/-! PROOFS. Operations on quiesced partitions (R436-R438, R537), firmware by the mailbox and in RECOVERY (R538-R543, R549). -/

namespace Sys2Proof.Machine

/-! ### Operations on quiesced partitions -/

theorem opEnd_whole {s : State} {m : MbOp} {resp : List Byte} (h : opWhole s m.op m.arg = true) : opEnd s m resp = mbResult s 0 resp :=
  if_neg (by rw [Bool.not_eq_true, ← Bool.not_eq_true']; exact h)

theorem opEnd_lost {s : State} {m : MbOp} {resp : List Byte} (h : opWhole s m.op m.arg = false) :
    opEnd s m resp = bumpFree (mbResult s (1 + Config.freeNum s.freeCtr % 65535) []) :=
  if_pos ((Bool.not_eq_false' ..).mp h)

theorem calibrate_whole {s : State} {arg req : Nat} (h : mbHolds s 0x40 arg req = true) (hw : opWhole s 0x40 arg = true) :
    exec .calibrate s = .next (mbGives (writeRec (writeRec s 4 0 []) 5 0 []) 0x40 arg req 0 []) := by
  have hnone : (opParts s 0x40 arg).any (opLost s) = false := (Bool.not_eq_true' _).mp hw
  refine congrArg Host.Outcome.next ((mbRun_ofHolds h _).trans ?_)
  simp only [hnone, Bool.false_eq_true, if_false]
  exact (opEnd_whole hw).trans (mbResult_ofHolds (s := writeRec (writeRec s 4 0 []) 5 0 []) h _ _)

theorem calibrate_lost {s : State} {arg req : Nat} (h : mbHolds s 0x40 arg req = true) (hl : opWhole s 0x40 arg = false) :
    exec .calibrate s = .next (bumpFree (mbGives s 0x40 arg req (1 + Config.freeNum s.freeCtr % 65535) [])) := by
  have hany : (opParts s 0x40 arg).any (opLost s) = true := (Bool.not_eq_false' ..).mp hl
  refine congrArg Host.Outcome.next ((mbRun_ofHolds h _).trans ?_)
  simp only [hany, if_true]
  rw [← mbResult_ofHolds h]
  exact opEnd_lost hl

/-- The sites a RETRAIN_HBM trains: those named, of partitions whose work no reset has ended. -/
def retrainSites (s : State) (arg : Nat) : List Nat :=
  (sites s).filter (fun i => Nat.testBit arg i && (match partOfSite s i with
    | some p => !opLost s p
    | none => false))

theorem retrainSites_eq (s : State) (arg : Nat) :
    retrainSites s arg = (sites s).filter (fun i => Nat.testBit arg i && opKept s (partOfSite s i)) :=
  List.filter_congr fun i _ => by cases partOfSite s i <;> rfl

theorem retrainHbm_trains {s : State} {arg req : Nat} (h : mbHolds s 0x41 arg req = true) : exec .retrainHbm s =
    .next (opEnd ((retrainSites s arg).foldl (fun s i => writeRec s 3 i []) s) { op := 0x41, arg := arg, req := req, result := none } []) :=
  congrArg Host.Outcome.next (mbRun_ofHolds h _)

/-- The ports a RECAL_PORTS trains: those named that are up, of partitions whose work no reset has ended. -/
def recalPortList (s : State) (arg : Nat) : List Nat :=
  (List.range 32).filter (fun i => Nat.testBit arg i && portUp s i && (match portOwner s i with
    | some p => !opLost s p
    | none => false))

theorem recalPortList_eq (s : State) (arg : Nat) :
    recalPortList s arg = (List.range 32).filter (fun i => Nat.testBit arg i && portUp s i && opKept s (portOwner s i)) :=
  List.filter_congr fun i _ => by cases portOwner s i <;> rfl

theorem recalPorts_trains {s : State} {arg req : Nat} (h : mbHolds s 0x42 arg req = true) : exec .recalPorts s =
    .next (opEnd ((recalPortList s arg).foldl (fun s i => modPort s i fun p =>
      { clearLink p s.time with st := .training, lanes := 0, width := 0, peer := 0 }) s)
      { op := 0x42, arg := arg, req := req, result := none } []) :=
  congrArg Host.Outcome.next (mbRun_ofHolds h _)

theorem moduleOps : claimModuleOps := by
  intro s arg req op
  refine ⟨fun h => ⟨calibrate_whole h, calibrate_lost h⟩, fun h => ?_, fun h => ?_,
    fun pass dis nar diff h => congrArg Host.Outcome.next (mbRun_ofHolds h _), fun m resp => ⟨opEnd_whole, opEnd_lost⟩⟩
  · rw [retrainHbm_trains h, retrainSites_eq]
  · rw [recalPorts_trains h, recalPortList_eq]

/-! ### Firmware by the mailbox -/

section
variable {s : State} {arg req : Nat}

theorem fwBegin_otherPath (h : mbHolds s 0x50 arg req = true) (ho : otherPath s 1 = true) :
    exec .fwBegin s = .next (mbGives s 0x50 arg req 0x0C0A []) :=
  congrArg Host.Outcome.next ((mbRun_ofHolds h _).trans ((if_pos ho).trans (mbResult_ofHolds h _ _)))

theorem fwBegin_noBlocks (h : mbHolds s 0x50 arg req = true) (ho : otherPath s 1 = false) (hb : beginUpdate (dropStaging s) 1 arg = none) :
    exec .fwBegin s = .next (mbResult (updateStep (dropStaging s) 0x50 0x0C0B) 0x0C0B []) := by
  refine congrArg Host.Outcome.next ((mbRun_ofHolds h _).trans ((if_neg (ne_true_of_eq_false ho)).trans ?_))
  simp only [hb]

theorem fwBegin_begins {t : State} (h : mbHolds s 0x50 arg req = true) (ho : otherPath s 1 = false)
    (hb : beginUpdate (dropStaging s) 1 arg = some t) : exec .fwBegin s = .next (mbResult (updateStep t 0x50 0) 0 []) := by
  refine congrArg Host.Outcome.next ((mbRun_ofHolds h _).trans ((if_neg (ne_true_of_eq_false ho)).trans ?_))
  simp only [hb]

/-! FW_DATA: the staging takes the next bytes in order (R539). -/

/-- The staging goes on with block c in the place of the block b that failed (R471). -/
def stageMoved (t : State) (u : Update) (b c o : Nat) (bs : List Byte) : State :=
  { t with nose := { t.nose with
    update := some { u with blocks := u.blocks.map (fun x => if x = b then c else x), done := o + bs.length, bytes := writeBytes u.bytes o bs } } }

theorem stageMoved_eq (t : State) (u : Update) (b c o : Nat) (bs : List Byte) :
    stageBytes t { u with blocks := u.blocks.map (fun x => if x = b then c else x) } o bs = stageMoved t u b c o bs := rfl

section
variable {u : Update} {failed : Bool}

theorem swapStaging_good (h : failed = false ∨ u.blocks = []) : swapStaging s u failed = some (s, u) :=
  if_pos (by rcases h with h | h <;> rw [h] <;> simp)

section
variable (hne : u.blocks ≠ [])
include hne

theorem swapStaging_guard : ¬ ((!true || u.blocks.isEmpty) = true) := by
  simpa using hne

theorem swapStaging_swaps {b c : Nat} {v : Vial} (hb : nth u.blocks (imageBlocks u.done - 1) = b) (hv : retireBlock s.vial b = v)
    (hc : (unnamedBlocks v).find? (fun c => !u.blocks.contains c) = some c) : swapStaging s u true =
    some (anchorWrite { s with vial := v }, { u with blocks := u.blocks.map (fun x => if x = b then c else x) }) := by
  refine (if_neg (swapStaging_guard hne)).trans ?_
  simp only [hb, hv, hc]
  rfl

theorem swapStaging_none {b : Nat} {v : Vial} (hb : nth u.blocks (imageBlocks u.done - 1) = b) (hv : retireBlock s.vial b = v)
    (hc : (unnamedBlocks v).find? (fun c => !u.blocks.contains c) = none) : swapStaging s u true = none := by
  refine (if_neg (swapStaging_guard hne)).trans ?_
  simp only [hb, hv, hc]

end

variable (h : mbHolds s 0x51 arg req = true)
include h

theorem fwData_noStaging (hu : s.nose.update = none ∨ ∃ u, s.nose.update = some u ∧ u.path ≠ 1) :
    exec (.fwData failed) s = .next (mbResult (updateStep s 0x51 0x0C07) 0x0C07 []) := by
  refine congrArg Host.Outcome.next ((mbRun_ofHolds h _).trans ?_)
  rcases hu with hu | ⟨u, hu, hp⟩
  · simp only [hu]
  · simp only [hu]
    exact if_pos hp

variable (hu : s.nose.update = some u) (hp : u.path = 1)
include hu hp

theorem fwData_outOfOrder (ho : arg ≠ u.done) : exec (.fwData failed) s = .next (mbResult (updateStep (dropStaging s) 0x51 0x0C07) 0x0C07 []) := by
  refine congrArg Host.Outcome.next ((mbRun_ofHolds h _).trans ?_)
  simp only [hu]
  exact (if_neg (not_not_intro hp)).trans (if_pos ho)

theorem fwData_takes {t : State} {w : Update} (ho : arg = u.done) (hs : swapStaging s u failed = some (t, w)) :
    exec (.fwData failed) s = .next (mbResult (updateStep (stageBytes t w arg (readBytes s.nose.window 0 req)) 0x51 0) 0 []) := by
  refine congrArg Host.Outcome.next ((mbRun_ofHolds h _).trans ?_)
  simp only [hu]
  refine (if_neg (not_not_intro hp)).trans ((if_neg (not_not_intro ho)).trans ?_)
  simp only [hs]
  rfl

theorem fwData_takesElsewhere {b c : Nat} {v : Vial} (ho : arg = u.done) (hne : u.blocks ≠ [])
    (hb : nth u.blocks (imageBlocks u.done - 1) = b) (hv : retireBlock s.vial b = v)
    (hc : (unnamedBlocks v).find? (fun c => !u.blocks.contains c) = some c) : exec (.fwData true) s =
    .next (mbResult (updateStep (stageMoved (anchorWrite { s with vial := v }) u b c arg (readBytes s.nose.window 0 req)) 0x51 0) 0 []) := by
  rw [fwData_takes h hu hp ho (swapStaging_swaps hne hb hv hc), stageMoved_eq]

theorem fwData_noRoom (ho : arg = u.done) (hs : swapStaging s u failed = none) :
    exec (.fwData failed) s = .next (mbResult (updateStep (dropStaging s) 0x51 0x0C0B) 0x0C0B []) := by
  refine congrArg Host.Outcome.next ((mbRun_ofHolds h _).trans ?_)
  simp only [hu]
  refine (if_neg (not_not_intro hp)).trans ((if_neg (not_not_intro ho)).trans ?_)
  simp only [hs]

end

/-! FW_COMMIT, FW_ABORT and FW_ACTIVATE (R539, R540). -/

section
variable {u : Update} {verdict : Nat} {r : VRead}

/-- FW_COMMIT on the state its read of IMAGE leaves. -/
def fwCommitOn (t : State) (verdict : Nat) : State :=
  match t.nose.update with
  | none => mbResult (updateStep t 0x52 0x0C07) 0x0C07 []
  | some u =>
    if u.path ≠ 1 ∨ u.done ≠ u.len then mbResult (updateStep t 0x52 0x0C07) 0x0C07 []
    else mbResult (updateStep (commitUpdate t u verdict).1 0x52 (commitUpdate t u verdict).2) (commitUpdate t u verdict).2 []

theorem fwCommit_run (h : mbHolds s 0x52 arg req = true) :
    exec (.fwCommit verdict r) s = .next (fwCommitOn (if s.nose.update.isSome then vialRead s r 1 0 else s) verdict) :=
  congrArg Host.Outcome.next (mbRun_ofHolds h _)

theorem fwCommit_noStaging (h : mbHolds s 0x52 arg req = true) (hu : s.nose.update = none) :
    exec (.fwCommit verdict r) s = .next (mbResult (updateStep s 0x52 0x0C07) 0x0C07 []) := by
  rw [fwCommit_run h, if_neg (by rw [hu]; exact Bool.false_ne_true), fwCommitOn, hu]

theorem fwCommit_reads (h : mbHolds s 0x52 arg req = true) (hu : s.nose.update ≠ none) :
    exec (.fwCommit verdict r) s = .next (fwCommitOn (vialRead s r 1 0) verdict) := by
  rw [fwCommit_run h, if_pos (Option.isSome_iff_ne_none.mpr hu)]

theorem fwCommitOn_none (hu : s.nose.update = none) : fwCommitOn s verdict = mbResult (updateStep s 0x52 0x0C07) 0x0C07 [] := by
  rw [fwCommitOn, hu]

theorem fwCommitOn_partial (hu : s.nose.update = some u) (hp : u.path ≠ 1 ∨ u.done ≠ u.len) :
    fwCommitOn s verdict = mbResult (updateStep s 0x52 0x0C07) 0x0C07 [] := by
  rw [fwCommitOn, hu]
  exact if_pos hp

theorem fwCommitOn_whole {t : State} {code : Nat} (hu : s.nose.update = some u) (hp : u.path = 1) (hl : u.done = u.len)
    (hc : commitUpdate s u verdict = (t, code)) : fwCommitOn s verdict = mbResult (updateStep t 0x52 code) code [] := by
  rw [fwCommitOn, hu]
  refine (if_neg (not_or.mpr ⟨not_not_intro hp, not_not_intro hl⟩)).trans ?_
  rw [hc]

end

theorem fwAbort_drops (h : mbHolds s 0x53 arg req = true) (ho : otherPath s 1 = false) :
    exec .fwAbort s = .next (mbResult (dropStaging s) 0 []) :=
  congrArg Host.Outcome.next ((mbRun_ofHolds h _).trans (congrArg (mbResult · 0 []) (if_neg (ne_true_of_eq_false ho))))

theorem fwAbort_otherPath (h : mbHolds s 0x53 arg req = true) (ho : otherPath s 1 = true) :
    exec .fwAbort s = .next (mbGives s 0x53 arg req 0 []) :=
  congrArg Host.Outcome.next ((mbRun_ofHolds h _).trans ((congrArg (mbResult · 0 []) (if_pos ho)).trans (mbResult_ofHolds h _ _)))

end

theorem firmware : claimFirmware := by
  intro s arg req data
  refine ⟨fun h => ⟨fwBegin_otherPath h, fwBegin_noBlocks h, fun t => fwBegin_begins h⟩,
    fun h failed => ⟨fwData_noStaging h, fun u hu hp => ⟨fwData_outOfOrder h hu hp, fun ho hgood => fwData_takes h hu hp ho (swapStaging_good hgood),
      fun ho hf hne => ?_⟩⟩,
    fun h verdict r => ?_, fun h => ⟨fwAbort_drops h, fwAbort_otherPath h⟩, fun h => ⟨fun hm => ?_, fun h1 h2 => ?_⟩⟩
  · intro b v t other
    subst hf
    have hb : nth u.blocks (imageBlocks u.done - 1) = b := rfl
    have hv : retireBlock s.vial b = v := rfl
    have ht : anchorWrite { s with vial := v } = t := rfl
    clear_value t v b
    refine ⟨fun c hc => ?_, fun hnone => fwData_noRoom h hu hp ho (swapStaging_none hne hb hv hnone)⟩
    rw [fwData_takesElsewhere h hu hp ho hne hb hv hc, ht]
    rfl
  · intro t bad
    refine ⟨fwCommit_noStaging h, fun hu ht => ?_, fun u hu ht => ⟨fun hp => ?_, fun hp hl => ⟨fun hc => ?_, fun hc => ?_, fun c hc h0 h5 => ?_⟩⟩⟩
    all_goals refine (fwCommit_reads h hu).trans (congrArg Host.Outcome.next ?_)
    · exact fwCommitOn_none ht
    · exact fwCommitOn_partial ht hp
    · exact fwCommitOn_whole ht hp hl (commitUpdate_good hc)
    · exact fwCommitOn_whole ht hp hl (commitUpdate_oldVersion hc)
    · exact fwCommitOn_whole ht hp hl (commitUpdate_bad hc h0 h5)
  · obtain ⟨-, -, hpow⟩ := mbHolds_fields h
    exact congrArg Host.Outcome.next ((mbRun_ofHolds h _).trans (if_pos ⟨hm, hpow⟩))
  · exact congrArg Host.Outcome.next ((mbRun_ofHolds h _).trans (if_neg fun hm => hm.1.elim h1 h2))

/-! ### What the ROM finds in a staged image -/

theorem imageChecks : claimImageChecks := by
  intro s u verdict i form
  have hform : (readLe u.bytes 0 4 ≠ 0x5A465750 ∨ i.len < 32768 + readLe u.bytes 64 4 ∨ 96 * mib < i.len) ↔ ¬ form := by
    simp only [form, not_and_or, not_le, ne_eq]
  refine ⟨fun hf => if_pos (hform.mpr hf), fun hf h2 h4 => ?_, fun hf hv => ?_, rfl, rfl⟩
  · exact (if_neg (fun hbad => hform.mp hbad hf)).trans (if_pos ⟨h2, h4⟩)
  · exact (if_neg (fun hbad => hform.mp hbad hf)).trans (if_neg hv)

/-! ### The minimum version, and recovery -/

section
variable {s : State} {arg req verdict : Nat} {u : Update}

theorem setMinVersion_older (h : mbHolds s 0x60 arg req = true) (hv : arg < minVersion s) :
    exec .setMinVersion s = .next (mbResult (vialErr s 0x0D05 2 0) 0x0D05 []) :=
  congrArg Host.Outcome.next ((mbRun_ofHolds h _).trans (if_pos hv))

section
variable (h : mbHolds s 0xF0 arg req = true)
include h

theorem recoveryLoad_outOfOrder (hu : recoveryUpdate s (arg % 2 ^ 48) = none) :
    exec (.recoveryLoad verdict) s = .next (mbResult (updateStep (dropStaging s) 0xF0 0x0C07) 0x0C07 []) := by
  refine congrArg Host.Outcome.next ((mbRun_ofHolds h _).trans ?_)
  simp only [hu]

variable (hu : recoveryUpdate s (arg % 2 ^ 48) = some u)
include hu

theorem recoveryLoad_more (hlow : arg < 2 ^ 63) : exec (.recoveryLoad verdict) s =
    .next (mbResult (updateStep (stageBytes s u (arg % 2 ^ 48) (readBytes s.nose.window 0 req)) 0xF0 0) 0 []) := by
  refine congrArg Host.Outcome.next ((mbRun_ofHolds h _).trans ?_)
  simp only [hu]
  exact if_pos hlow

omit h hu in
theorem stageBytes_update (o : Nat) (bs : List Byte) :
    (stageBytes s u o bs).nose.update = some { u with done := o + bs.length, bytes := writeBytes u.bytes o bs } := rfl

/-- The last piece of a RECOVERY_LOAD that has been verified: what the commit leaves, booted when it passed (R541). -/
def recoveryEnd (t : State) (code : Nat) : State :=
  if code = 0 then bootLoaded (mbResult (updateStep t 0xF0 code) code []) else mbResult (updateStep t 0xF0 code) code []

theorem recoveryLoad_last {t : State} {code : Nat} (hhigh : 2 ^ 63 ≤ arg)
    (hc : commitUpdate (stageBytes s u (arg % 2 ^ 48) (readBytes s.nose.window 0 req))
      { u with done := arg % 2 ^ 48 + (readBytes s.nose.window 0 req).length,
               bytes := writeBytes u.bytes (arg % 2 ^ 48) (readBytes s.nose.window 0 req) } verdict = (t, code)) :
    exec (.recoveryLoad verdict) s = .next (recoveryEnd t code) := by
  refine congrArg Host.Outcome.next ((mbRun_ofHolds h _).trans ?_)
  simp only [hu]
  refine (if_neg (Nat.not_lt.mpr hhigh)).trans ?_
  have hreq : mbRequest s { op := 0xF0, arg := arg, req := req, result := none } = readBytes s.nose.window 0 req := rfl
  simp only [stageBytes_update, hreq, hc]
  rfl

end

end

theorem recoveryEnd_boots (t : State) : recoveryEnd t 0 = bootLoaded (mbResult (updateStep t 0xF0 0) 0 []) := if_pos rfl

theorem recoveryEnd_fails (t : State) {code : Nat} (h : code ≠ 0) : recoveryEnd t code = mbResult (updateStep t 0xF0 code) code [] := if_neg h

theorem setMinVersion_records {s : State} {arg req : Nat} (h : mbHolds s 0x60 arg req = true) (hv : minVersion s ≤ arg) :
    exec .setMinVersion s =
      let t := writeRec s 6 0 (toBytes 4 arg ++ toBytes 12 0 ++ versionMac (s.nose.kMin.getD []) (nextGen s.vial 6 0) arg)
      .next (mbGives { t with nose := { t.nose with minVersion := BitVec.ofNat 32 arg } } 0x60 arg req 0 []) := by
  refine congrArg Host.Outcome.next ((mbRun_ofHolds h _).trans ((if_neg (Nat.not_lt.mpr hv)).trans ?_))
  let t := writeRec s 6 0 (toBytes 4 arg ++ toBytes 12 0 ++ versionMac (s.nose.kMin.getD []) (nextGen s.vial 6 0) arg)
  exact mbResult_ofHolds (s := { t with nose := { t.nose with minVersion := BitVec.ofNat 32 arg } }) h _ _

theorem versionsAndRecovery : claimVersionsAndRecovery := by
  intro s arg req
  refine ⟨fun h => ⟨setMinVersion_older h, setMinVersion_records h⟩, fun h verdict => ?_, rfl, fun o u ho hu => ?_, fun o ho hu => ?_⟩
  · intro o data
    refine ⟨recoveryLoad_outOfOrder h, fun u hu => recoveryLoad_more h hu, fun u hu hhigh => ?_⟩
    intro w t
    refine ⟨fun hc => ?_, fun hc => ?_, fun c hc h0 h5 => ?_⟩
    · rw [recoveryLoad_last h hu hhigh (commitUpdate_good hc), recoveryEnd_boots]
    · rw [recoveryLoad_last h hu hhigh (commitUpdate_oldVersion hc), recoveryEnd_fails _ (by decide)]
    · rw [recoveryLoad_last h hu hhigh (commitUpdate_bad hc h0 h5), recoveryEnd_fails _ (by decide)]
  · rw [recoveryUpdate, if_neg ho, hu]
  · rw [recoveryUpdate, if_neg ho, hu]

/-- Settles O51: operations on quiesced partitions, firmware, its checks, versions and recovery. -/
theorem moduleOperationsAndFirmware : Obligations.ModuleOperationsAndFirmware := ⟨moduleOps, firmware, imageChecks, versionsAndRecovery⟩

end Sys2Proof.Machine
end

section
/-! PROOFS. Management and attestation: MCTP and PLDM (R534, R535), DOE (R507) and SPDM (R553-R555). -/

namespace Sys2Proof.Machine

/-! ### MCTP -/

section
variable {s : State} {b eid tag cmd : Nat} {data : List Byte}

theorem mctpControl_answers (h : bindingUp s b = true) : exec (.mctpControl b eid tag cmd data) s = .next
    (mctpOut (controlAnswer s b cmd data).1 b eid 0 (toBytes 1 (tag % 32) ++ toBytes 1 cmd ++ (controlAnswer s b cmd data).2)) :=
  congrArg Host.Outcome.next (if_pos h)

theorem controlAnswer_endpoint (h8 : 8 ≤ leAt data 1 1) (h254 : leAt data 1 1 ≤ 254) : controlAnswer s b 1 data =
    ({ s with nose := { s.nose with eids := sput s.nose.eids b (BitVec.ofNat 8 (leAt data 1 1)) } },
      toBytes 1 0 ++ toBytes 1 0 ++ toBytes 1 (leAt data 1 1) ++ toBytes 1 0) := if_pos ⟨h8, h254⟩

theorem controlAnswer_badEndpoint (h : leAt data 1 1 < 8 ∨ 254 < leAt data 1 1) : controlAnswer s b 1 data = (s, toBytes 1 2) :=
  if_neg (by omega)

theorem controlAnswer_unserved (h : cmd = 0 ∨ 5 < cmd) : controlAnswer s b cmd data = (s, toBytes 1 5) := by
  rcases h with rfl | h
  · rfl
  · obtain ⟨k, rfl⟩ : ∃ k, cmd = k + 6 := ⟨cmd - 6, by omega⟩
    rfl

end

theorem mctp : claimMctp := by
  intro s b eid tag cmd data ans e r
  refine ⟨fun h => ⟨fun hc h8 h254 => ?_, fun hc he => ?_, fun hc => ?_, fun hc => ?_, fun hc => ?_, fun hc => ?_, fun hc => ?_⟩,
    fun h => congrArg Host.Outcome.next (if_neg (ne_true_of_eq_false h))⟩
  all_goals refine (mctpControl_answers h).trans (congrArg Host.Outcome.next ?_)
  · subst hc
    rw [controlAnswer_endpoint h8 h254]
  · subst hc
    rw [controlAnswer_badEndpoint he]
  · subst hc; rfl
  · subst hc; rfl
  · subst hc; rfl
  · subst hc; rfl
  · rw [controlAnswer_unserved hc]

/-! ### PLDM -/

section
variable {s : State} {b eid tag cmd id : Nat} {data : List Byte}

theorem discoveryAnswer_unserved (h : cmd = 0 ∨ 5 < cmd) : discoveryAnswer s cmd data = (s, toBytes 1 5) := by
  rcases h with rfl | h
  · rfl
  · obtain ⟨k, rfl⟩ : ∃ k, cmd = k + 6 := ⟨cmd - 6, by omega⟩
    rfl

theorem fruAnswer_unserved (h : cmd = 0 ∨ 2 < cmd) : fruAnswer s cmd = toBytes 1 5 := by
  rcases h with rfl | h
  · rfl
  · obtain ⟨k, rfl⟩ : ∃ k, cmd = k + 3 := ⟨cmd - 3, by omega⟩
    rfl

theorem sensorAnswer_unknown (h : sensorIds.contains id = false) : sensorAnswer s id = toBytes 1 0x80 :=
  if_pos (by rw [h]; rfl)

theorem sensorAnswer_unavailable (h : sensorIds.contains id = true) (hl : sensorLive s id = false) : sensorAnswer s id =
    toBytes 1 0 ++ toBytes 1 4 ++ toBytes 1 3 ++ toBytes 1 0 ++ toBytes 3 0 ++ toBytes 4 0 :=
  (if_neg (by rw [h]; exact Bool.false_ne_true)).trans (if_pos (by rw [hl]; rfl))

theorem sensorAnswer_live (h : sensorIds.contains id = true) (hl : sensorLive s id = true) : sensorAnswer s id =
    let l := toBytes 1 (levelState (sget 0 s.nose.levels id))
    toBytes 1 0 ++ toBytes 1 4 ++ toBytes 1 0 ++ toBytes 1 1 ++ l ++ l ++ l ++ toBytes 4 (sget (Config.freeNum s.freeCtr, 0) s.nose.sensors id).1 :=
  (if_neg (by rw [h]; exact Bool.false_ne_true)).trans (if_neg (by rw [hl]; exact Bool.false_ne_true))

section
variable (h : bindingUp s b = true)
include h

theorem pldmDiscovery_type0 : exec (.pldmDiscovery b eid tag 0 cmd data) s =
    .next (pldmOut (discoveryAnswer s cmd data).1 b eid tag 0 cmd (discoveryAnswer s cmd data).2) :=
  congrArg Host.Outcome.next (if_pos h)

theorem pldmDiscovery_type4 : exec (.pldmDiscovery b eid tag 4 cmd data) s = .next (bumpFree (pldmOut s b eid tag 4 cmd (fruAnswer s cmd))) :=
  congrArg Host.Outcome.next (if_pos h)

theorem pldmDiscovery_unserved {ty : Nat} (h0 : ty ≠ 0) (h4 : ty ≠ 4) :
    exec (.pldmDiscovery b eid tag ty cmd data) s = .next (pldmOut s b eid tag ty cmd (toBytes 1 0x20)) :=
  congrArg Host.Outcome.next ((if_pos h).trans ((if_neg h0).trans (if_neg h4)))

theorem pldmSensorRead_answers : exec (.pldmSensorRead b eid tag id) s = .next (bumpFree (pldmOut s b eid tag 2 0x11 (sensorAnswer s id))) :=
  congrArg Host.Outcome.next (if_pos h)

end

end

theorem fruRecord_partNumber (v : Variant) : (fruRecord v).drop 7 = partNumber v := rfl

theorem pldm : claimPldm := by
  intro s b eid tag
  refine ⟨fun h => ⟨fun cmd data => ?_, fun cmd data => ?_, fun ty cmd data h0 h4 => pldmDiscovery_unserved h h0 h4, fun id hid hlive => ?_,
    fun id hid hlive => ?_, fun id hid => ?_, fun on r => congrArg Host.Outcome.next (if_pos h)⟩, fun h ty cmd data id on r => ?_⟩
  · intro r
    refine ⟨fun hc => ?_, fun hc => ?_, fun hc => ?_, fun hc => ?_, fun hc => ?_, fun hc => ?_⟩
    all_goals refine (pldmDiscovery_type0 h).trans (congrArg Host.Outcome.next ?_)
    · subst hc; rfl
    · subst hc; rfl
    · subst hc; rfl
    · subst hc; rfl
    · subst hc; rfl
    · rw [discoveryAnswer_unserved hc]
  · intro r rec_
    refine ⟨fun hc => ?_, fun hc => ?_, fun hc => ?_, fruRecord_partNumber _⟩
    all_goals refine (pldmDiscovery_type4 h).trans (congrArg Host.Outcome.next ?_)
    · subst hc; rfl
    · subst hc; rfl
    · rw [fruAnswer_unserved hc]
  · rw [pldmSensorRead_answers h, sensorAnswer_live hid hlive]
  · rw [pldmSensorRead_answers h, sensorAnswer_unavailable hid hlive]
  · rw [pldmSensorRead_answers h, sensorAnswer_unknown hid]
  · refine ⟨?_, ?_, ?_⟩ <;> exact congrArg Host.Outcome.next (if_neg (ne_true_of_eq_false h))

/-! ### Updates by PLDM -/

section
variable {s : State} {b eid tag len verdict : Nat} {image : List Byte} {u : Update}

section
variable (h : bindingUp s b = true)
include h

theorem pldmRequestUpdate_busy (hu : s.nose.update ≠ none) :
    exec (.pldmRequestUpdate b eid tag len) s = .next (pldmOut s b eid tag 5 0x10 (toBytes 1 0x81)) :=
  congrArg Host.Outcome.next ((if_pos h).trans (if_pos (Option.isSome_iff_ne_none.mpr hu)))

theorem pldmRequestUpdate_badLength (hu : s.nose.update = none) (hl : len < 1048576 ∨ 100663296 < len) :
    exec (.pldmRequestUpdate b eid tag len) s = .next (pldmOut s b eid tag 5 0x10 (toBytes 1 2)) :=
  congrArg Host.Outcome.next ((if_pos h).trans ((if_neg (by rw [hu]; exact Bool.false_ne_true)).trans (if_pos hl)))

section
variable (hu : s.nose.update = none) (hlo : 1048576 ≤ len) (hhi : len ≤ 100663296)
include hu hlo hhi

theorem pldmRequestUpdate_begins {t : State} (hb : beginUpdate s 2 len = some t) : exec (.pldmRequestUpdate b eid tag len) s =
    .next (pldmOut (updateStep t 0x10 0) b eid tag 5 0x10 (toBytes 1 0 ++ toBytes 2 0 ++ toBytes 1 0)) := by
  refine congrArg Host.Outcome.next ((if_pos h).trans ((if_neg (by rw [hu]; exact Bool.false_ne_true)).trans
    ((if_neg (not_or.mpr ⟨Nat.not_lt.mpr hlo, Nat.not_lt.mpr hhi⟩)).trans ?_)))
  simp only [hb]

theorem pldmRequestUpdate_noBlocks (hb : beginUpdate s 2 len = none) : exec (.pldmRequestUpdate b eid tag len) s =
    .next (pldmOut (bumpFree (updateStep s 0x10 0x0C0B)) b eid tag 5 0x10 (toBytes 1 (1 + Config.freeNum s.freeCtr % 255))) := by
  refine congrArg Host.Outcome.next ((if_pos h).trans ((if_neg (by rw [hu]; exact Bool.false_ne_true)).trans
    ((if_neg (not_or.mpr ⟨Nat.not_lt.mpr hlo, Nat.not_lt.mpr hhi⟩)).trans ?_)))
  simp only [hb]

end

theorem pldmActivate_refused (hu : s.nose.update = none ∨ ∃ u, s.nose.update = some u ∧ (u.path ≠ 2 ∨ image.length ≠ u.len)) :
    exec (.pldmActivateFirmware b eid tag image verdict) s =
      .next (pldmOut (bumpFree s) b eid tag 5 0x1A (toBytes 1 (1 + Config.freeNum s.freeCtr % 255))) := by
  refine congrArg Host.Outcome.next ((if_pos h).trans ?_)
  rcases hu with hu | ⟨u, hu, hp⟩
  · simp only [hu]
  · simp only [hu]
    exact if_pos hp

end

/-- The end of an ActivateFirmware: the Nose restarts into the image that passed, or a free completion code is answered (R535, R539).
The number that makes the code free is the one in force at the request. -/
def activateEnd (t : State) (code b eid tag free : Nat) : State :=
  if code = 0 then noseRestart (pldmOut (updateStep t 0x1A code) b eid tag 5 0x1A (toBytes 1 0 ++ toBytes 2 0)) 0 true
  else pldmOut (bumpFree (updateStep t 0x1A code)) b eid tag 5 0x1A (toBytes 1 (1 + Config.freeNum free % 255))

theorem pldmActivate_whole (h : bindingUp s b = true) (hu : s.nose.update = some u) (hp : u.path = 2) (hl : image.length = u.len)
    {t : State} {code : Nat} (hc : commitUpdate s { u with done := u.len, bytes := writeBytes u.bytes 0 image } verdict = (t, code)) :
    exec (.pldmActivateFirmware b eid tag image verdict) s = .next (activateEnd t code b eid tag s.freeCtr) := by
  refine congrArg Host.Outcome.next ((if_pos h).trans ?_)
  simp only [hu]
  refine (if_neg (not_or.mpr ⟨not_not_intro hp, not_not_intro hl⟩)).trans ?_
  simp only [hc]
  rfl

theorem activateEnd_restarts (t : State) (free : Nat) : activateEnd t 0 b eid tag free =
    noseRestart (pldmOut (updateStep t 0x1A 0) b eid tag 5 0x1A (toBytes 1 0 ++ toBytes 2 0)) 0 true := if_pos rfl

theorem activateEnd_fails (t : State) {code : Nat} (free : Nat) (hc : code ≠ 0) : activateEnd t code b eid tag free =
    pldmOut (bumpFree (updateStep t 0x1A code)) b eid tag 5 0x1A (toBytes 1 (1 + Config.freeNum free % 255)) := if_neg hc

end

theorem pldmUpdate : claimPldmUpdate := by
  intro s b eid tag free
  refine ⟨fun h => ⟨fun len hu => pldmRequestUpdate_busy h hu, fun len hu hl => pldmRequestUpdate_badLength h hu hl,
    fun len t hu hlo hhi hb => pldmRequestUpdate_begins h hu hlo hhi hb, fun len hu hlo hhi hb => pldmRequestUpdate_noBlocks h hu hlo hhi hb,
    fun image verdict hu => pldmActivate_refused h hu, fun u image verdict hu hp hl => ?_⟩, fun h len image verdict => ?_⟩
  · intro w no
    refine ⟨fun hc => ?_, fun hc => ?_, fun c hc h0 h5 => ?_⟩
    · rw [pldmActivate_whole h hu hp hl (commitUpdate_good hc), activateEnd_restarts]
    · rw [pldmActivate_whole h hu hp hl (commitUpdate_oldVersion hc), activateEnd_fails _ _ (by decide)]
    · rw [pldmActivate_whole h hu hp hl (commitUpdate_bad hc h0 h5), activateEnd_fails _ _ (by decide)]
  · refine ⟨?_, ?_⟩ <;> exact congrArg Host.Outcome.next (if_neg (ne_true_of_eq_false h))

/-! ### DOE discovery -/

theorem doe : claimDoe := by
  intro s k say
  refine ⟨fun hm hl => ?_, fun h => congrArg Host.Outcome.next (if_neg ?_)⟩
  · have hup : (manageServes s && s.pcie.linkUp) = true := by rw [hm, hl]; rfl
    refine ⟨fun hk => ?_, fun hk => ?_, fun hk => ?_, fun hk => ?_⟩
    all_goals refine congrArg Host.Outcome.next ((if_pos hup).trans ?_)
    · subst hk; rfl
    · subst hk; rfl
    · subst hk; rfl
    · exact congrArg say (if_neg (Nat.not_lt.mpr hk))
  · rcases h with h | h <;> rw [h] <;> simp

/-- Settles O52: the management messages the Nose answers. -/
theorem managementMessages : Obligations.ManagementMessages := ⟨mctp, pldm, pldmUpdate, doe⟩

/-! ### SPDM connections -/

section
variable {s : State} {t e : Nat}

theorem spdmGetCapabilities_badVersion {v : Nat} (h : spdmUp s t = true) (hv : v < 0x10 ∨ 0x13 < v) :
    exec (.spdmGetCapabilities t e v) s = .next (spdmError s t e 0x41) :=
  congrArg Host.Outcome.next ((if_pos h).trans (if_pos hv))

theorem spdmGetCapabilities_fixes {v : Nat} (h : spdmUp s t = true) (hlo : 0x10 ≤ v) (hhi : v ≤ 0x13) :
    exec (.spdmGetCapabilities t e v) s = .next (spdmOut (setConn s t { Spdm.reset with version := v, caps := true }) t e
      (spdmHead v 0x61 0 0 ++ toBytes 1 0 ++ toBytes 1 21 ++ toBytes 2 0 ++ toBytes 4 0x62D6 ++ (if 0x12 ≤ v then openBytes s.freeCtr 8 else []))) :=
  congrArg Host.Outcome.next ((if_pos h).trans (if_neg (by omega)))

end

theorem spdmConnection : claimSpdmConnection := by
  intro s t e
  refine ⟨fun h => ⟨congrArg Host.Outcome.next (if_pos h), fun v => spdmGetCapabilities_fixes h, fun v => spdmGetCapabilities_badVersion h,
    fun turn i hi => ?_, fun hkeys hcaps => congrArg Host.Outcome.next (spdmStep_inTurn h hkeys hcaps)⟩,
    fun h => ⟨congrArg Host.Outcome.next (if_neg (ne_true_of_eq_false h)), fun v => congrArg Host.Outcome.next (if_neg (ne_true_of_eq_false h)),
      fun turn i hi => ?_⟩⟩
  all_goals obtain ⟨f, hf⟩ := exec_spdmRow hi s
  · exact ⟨fun hkeys => hf.trans (congrArg Host.Outcome.next (spdmStep_keysNotReady h hkeys)),
      fun hkeys hturn => hf.trans (congrArg Host.Outcome.next (spdmStep_outOfTurn h hkeys hturn))⟩
  · exact hf.trans (congrArg Host.Outcome.next (spdmStep_down h))

/-! ### Attestation and sessions -/

theorem spdmStep_served {s : State} {t e : Nat} {turn : Spdm → Bool} {f : Spdm → State} (h : spdmServed s t = true) (hturn : turn (conn s t) = true) :
    spdmStep s t e turn f = f (conn s t) :=
  spdmStep_inTurn (spdmServed_fields h).1 (spdmServed_fields h).2 hturn

theorem measSelect_other (s : State) {index : Nat} (signed : Bool) (hi : index = 0 ∨ 5 < index) (hall : index ≠ 0xFF) :
    measSelect s index signed = [] := by
  refine (if_neg hall).trans (List.map_eq_nil_iff.mpr (List.filter_eq_nil_iff.mpr fun m hm => ?_))
  have hplace : 1 ≤ m.1 ∧ m.1 ≤ 5 := by
    simp only [measBlocks, List.mem_cons, List.mem_nil_iff, or_false] at hm
    rcases hm with h | h | h | h | h <;> rw [h] <;> simp
  simp only [beq_iff_eq]
  omega

section
variable {s : State} {t e : Nat} (h : spdmServed s t = true) (halgs : (conn s t).algs = true)
include h halgs

theorem spdmGetMeasurements_answers {index : Nat} {signed : Bool} (hi : index = 0 ∨ measSelect s index signed ≠ []) :
    exec (.spdmGetMeasurements t e index signed) s =
      let r := (measSelect s index signed).flatten
      .next (bumpFree (bumpFree (bumpFree (spdmOut s t e (spdmHead (conn s t).version 0x60 (if index = 0 then 6 else 0) 0
        ++ toBytes 1 (measSelect s index signed).length ++ toBytes 3 r.length ++ r ++ openBytes (s.freeCtr + 3) 32 ++ toBytes 2 0
        ++ (if signed then openBytes (s.freeCtr + 4) 384 else [])))))) := by
  refine congrArg Host.Outcome.next ((spdmStep_served h halgs).trans (if_neg fun hno => ?_))
  exact hi.elim hno.1 fun hsome => hsome (List.isEmpty_iff.mp hno.2)

theorem spdmGetMeasurements_refused {index : Nat} {signed : Bool} (h0 : index ≠ 0) (hnone : measSelect s index signed = []) :
    exec (.spdmGetMeasurements t e index signed) s = .next (spdmError s t e 1) :=
  congrArg Host.Outcome.next ((spdmStep_served h halgs).trans (if_pos ⟨h0, List.isEmpty_iff.mpr hnone⟩))

end

theorem attestation : claimAttestation := by
  intro s t e h halgs v
  exact ⟨congrArg Host.Outcome.next (spdmStep_served h halgs),
    fun slot len hs => congrArg Host.Outcome.next ((spdmStep_served h halgs).trans (if_neg (by omega))),
    fun slot len hs => congrArg Host.Outcome.next ((spdmStep_served h halgs).trans (if_pos hs)),
    congrArg Host.Outcome.next ((spdmStep_served h halgs).trans (if_neg (not_not_intro rfl))),
    fun slot hs => congrArg Host.Outcome.next ((spdmStep_served h halgs).trans (if_pos hs)),
    fun index signed => spdmGetMeasurements_answers h halgs, fun index signed => spdmGetMeasurements_refused h halgs,
    fun signed => ⟨rfl, rfl, rfl, rfl, rfl, rfl, fun index => measSelect_other s signed⟩⟩

theorem sessions : claimSessions := by
  intro s t e h c
  refine ⟨fun halgs hnone => congrArg Host.Outcome.next (spdmStep_served h (by rw [halgs, hnone]; rfl)),
    fun hhand => ⟨congrArg Host.Outcome.next (spdmStep_served h hhand), congrArg Host.Outcome.next (spdmStep_served h hhand)⟩,
    fun hsess => ⟨congrArg Host.Outcome.next (spdmStep_served h hsess), fun op tag hlo hhi => ?_, fun op tag hop => ?_,
      congrArg Host.Outcome.next (spdmStep_served h hsess)⟩⟩
  · exact congrArg Host.Outcome.next ((spdmStep_served h hsess).trans (if_neg (by omega)))
  · exact congrArg Host.Outcome.next ((spdmStep_served h hsess).trans (if_pos hop))

/-- Settles O53: SPDM connections, attestation and sessions. -/
theorem securityMessages : Obligations.SecurityMessages := ⟨spdmConnection, attestation, sessions⟩

end Sys2Proof.Machine
end

section
/-! PROOFS. Mover instructions issue (R137, R160, R161) and complete (R164, R167-R170). -/

namespace Sys2Proof.Machine

/-! ### Issue -/

theorem moverInstructionsIssue : claimMoverInstructionsIssue := by
  intro s n
  refine ⟨fun h => ?_, fun h => ?_, fun h => ?_, fun h => ?_⟩
  · exact congrArg Host.Outcome.next ((coreRowMet_clean s n _).trans (coreRow_ofMoverReady h rfl))
  · exact congrArg Host.Outcome.next ((coreRowMet_clean s n _).trans (coreRow_ofMoverReady h rfl))
  · refine congrArg Host.Outcome.next ?_
    rw [moveR, coreRowMet_clean, coreRow_ofMoverReady h rfl, moverIssued_pc]
    exact if_neg (Nat.succ_ne_self _)
  · exact congrArg Host.Outcome.next ((coreRowMet_clean s n _).trans (coreRow_ofMoverReady h rfl))

/-! ### Completion -/

section
variable {s : State} {n which : Nat} {f : Flight} {es : List (Nat × Ecc)} {o : FlitOut}

/-- The bytes a mover instruction writes when it completes; none where they went over the network, or where it combines them. -/
def endCells (s : State) (n : Nat) (f : Flight) : List Host.Cell :=
  if f.sent then []
  else if opc f.word = 0x4B then (if (moveView f).dst.ctile then ctileFree s n (moveView f) else []) else moveCells s n (moveView f)

/-- The HBM addresses its write has the controllers read first. -/
def endMerged (s : State) (n : Nat) (f : Flight) : List Nat := if f.sent then [] else mergedAddrs s n (moveView f) (endCells s n f)

/-- The HBM addresses a mover instruction reads. -/
def endReads (s : State) (n : Nat) (f : Flight) : List Nat :=
  (srcAddrs s n (moveView f)).filter (fun a => decide (a < 2 ^ 40)) ++ endMerged s n f

/-- What the instruction does with what it read: its writes have landed, or it combines, or it writes `cs`. -/
def endWrites (t : State) (n : Nat) (f : Flight) (cs : List Host.Cell) : State :=
  if f.sent then moveDone t n f
  else if opc f.word = 0x4B ∧ !(moveView f).dst.ctile then moveDone (localReduce t n (moveView f)) n f
  else moveDone (localWrite (bumpMove t n (moveView f)) n cs) n f

/-- The completion on a state that its flits have left, with the bytes and addresses found before them. -/
def endWork (s : State) (n : Nat) (f : Flight) (es : List (Nat × Ecc)) (t : State) : State :=
  if hbmPoison (endReads s n f) es then moveReads t n (moveView f) (endMerged s n f) es
  else endWrites (moveReads t n (moveView f) (endMerged s n f) es) n f (endCells s n f)

/-- Does the completion use the network? -/
def endOnNet (s : State) (n : Nat) (f : Flight) : Bool := moveOnNet s n (moveView f) ((endCells s n f).map (·.1) ++ endMerged s n f)

theorem moveComplete_ofHead (h : (unitFlights (core s n) .mover)[which]? = some f) : moveComplete s n which es o =
    if toRemote s n (moveView f) then s
    else if f.sent && s.net.any (fun m => m.src == n && m.flight == f.id) then s
    else if endOnNet s n f then flitMeets s [] 0 n (partOfCore s n) o (endWork s n f es) else endWork s n f es s := by
  simp only [moveComplete, h]
  rfl

/-- A move to another endpoint ends once it is acknowledged (R169). -/
def remoteEnd (s : State) (n : Nat) (f : Flight) (es : List (Nat × Ecc)) (o : FlitOut) : State :=
  let rd := (srcAddrs s n (moveView f)).filter (fun a => decide (a < 2 ^ 40))
  if f.sent && f.xfer.isNone then
    if hbmPoison rd es then hbmMeets s rd es
    else flitMeets (hbmMeets s rd es) [] 0 n (partOfCore s n) o (fun t => remoteComplete t n f)
  else s

theorem remoteEnd_acknowledged (hs : f.sent = true) (hx : f.xfer = none)
    (hp : hbmPoison ((srcAddrs s n (moveView f)).filter (fun a => decide (a < 2 ^ 40))) es = false) : remoteEnd s n f es o =
    flitMeets (hbmMeets s ((srcAddrs s n (moveView f)).filter (fun a => decide (a < 2 ^ 40))) es) [] 0 n (partOfCore s n) o
      (fun t => remoteComplete t n f) :=
  (if_pos (by rw [hs, hx]; rfl)).trans (if_neg (ne_true_of_eq_false hp))

theorem remoteEnd_waits (h : f.sent = false ∨ f.xfer.isSome = true) : remoteEnd s n f es o = s := by
  refine if_neg ?_
  rw [Bool.and_eq_true, Option.isNone_iff_eq_none]
  rintro ⟨hs, hx⟩
  rcases h with h | h
  · exact absurd hs (ne_true_of_eq_false h)
  · rw [hx] at h
    exact absurd h Bool.false_ne_true

theorem endWork_poisoned (t : State) (h : hbmPoison (endReads s n f) es = true) :
    endWork s n f es t = moveReads t n (moveView f) (endMerged s n f) es := if_pos h

theorem endWork_clean (t : State) (h : hbmPoison (endReads s n f) es = false) :
    endWork s n f es t = endWrites (moveReads t n (moveView f) (endMerged s n f) es) n f (endCells s n f) := if_neg (ne_true_of_eq_false h)

theorem flitMeets_goodHere {q : Nat} (take : State → State) : flitMeets s [] 0 n q .good take = take s := rfl

variable (h : (unitFlights (core s n) .mover)[which]? = some f)
include h

theorem exec_moveComplete : exec (.moveComplete n which es o) s =
    .next (waitingSent (if toRemote s n (moveView f) then remoteEnd s n f es o else moveComplete s n which es o) n) := by
  refine congrArg Host.Outcome.next ?_
  simp only [moveEnd, h]
  rfl

theorem moveComplete_remote (hr : toRemote s n (moveView f) = true) :
    exec (.moveComplete n which es o) s = .next (waitingSent (remoteEnd s n f es o) n) := by
  rw [exec_moveComplete h, if_pos hr]

section
variable (hr : toRemote s n (moveView f) = false)
include hr

theorem moveComplete_waits (hs : f.sent = true) (hw : s.net.any (fun m => m.src == n && m.flight == f.id) = true) :
    exec (.moveComplete n which es o) s = .next (waitingSent s n) := by
  rw [exec_moveComplete h, if_neg (ne_true_of_eq_false hr), moveComplete_ofHead h, if_neg (ne_true_of_eq_false hr),
    if_pos (by rw [hs, hw]; rfl)]

section
variable (hw : f.sent = false ∨ s.net.any (fun m => m.src == n && m.flight == f.id) = false)
include hw

theorem moveComplete_runs : exec (.moveComplete n which es o) s =
    .next (waitingSent (if endOnNet s n f then flitMeets s [] 0 n (partOfCore s n) o (endWork s n f es) else endWork s n f es s) n) := by
  have hfree : ¬ ((f.sent && s.net.any (fun m => m.src == n && m.flight == f.id)) = true) := by
    rcases hw with hw | hw <;> rw [hw] <;> simp
  rw [exec_moveComplete h, if_neg (ne_true_of_eq_false hr), moveComplete_ofHead h, if_neg (ne_true_of_eq_false hr), if_neg hfree]

theorem moveComplete_good (hn : endOnNet s n f = false ∨ o = .good) :
    exec (.moveComplete n which es o) s = .next (waitingSent (endWork s n f es s) n) := by
  rw [moveComplete_runs h hr hw]
  rcases hn with hn | rfl
  · rw [if_neg (ne_true_of_eq_false hn)]
  · rw [flitMeets_goodHere, ite_self]

theorem moveComplete_onNet (hn : endOnNet s n f = true) : exec (.moveComplete n which es o) s =
    .next (waitingSent (flitMeets s [] 0 n (partOfCore s n) o (endWork s n f es)) n) := by
  rw [moveComplete_runs h hr hw, if_pos hn]

end

end

end

/-! What the completion reads and writes, by the instruction's form. -/

section
variable {s : State} {n : Nat} {f : Flight}

theorem endCells_sent (hs : f.sent = true) : endCells s n f = [] := if_pos hs

theorem endMerged_sent (hs : f.sent = true) : endMerged s n f = [] := if_pos hs

theorem endWrites_sent (t : State) (cs : List Host.Cell) (hs : f.sent = true) : endWrites t n f cs = moveDone t n f := if_pos hs

variable (hs : f.sent = false)
include hs

theorem endCells_move (ho : opc f.word ≠ 0x4B) : endCells s n f = moveCells s n (moveView f) :=
  (if_neg (ne_true_of_eq_false hs)).trans (if_neg ho)

theorem endCells_reduce (ho : opc f.word = 0x4B) (hc : (moveView f).dst.ctile = false) : endCells s n f = [] :=
  (if_neg (ne_true_of_eq_false hs)).trans ((if_pos ho).trans (if_neg (ne_true_of_eq_false hc)))

theorem endCells_reduceTile (ho : opc f.word = 0x4B) (hc : (moveView f).dst.ctile = true) : endCells s n f = ctileFree s n (moveView f) :=
  (if_neg (ne_true_of_eq_false hs)).trans ((if_pos ho).trans (if_pos hc))

theorem endMerged_here : endMerged s n f = mergedAddrs s n (moveView f) (endCells s n f) := if_neg (ne_true_of_eq_false hs)

theorem endWrites_combines (t : State) (cs : List Host.Cell) (ho : opc f.word = 0x4B) (hc : (moveView f).dst.ctile = false) :
    endWrites t n f cs = moveDone (localReduce t n (moveView f)) n f :=
  (if_neg (ne_true_of_eq_false hs)).trans (if_pos ⟨ho, by rw [hc]; rfl⟩)

theorem endWrites_stores (t : State) (cs : List Host.Cell) (ho : opc f.word ≠ 0x4B ∨ (moveView f).dst.ctile = true) :
    endWrites t n f cs = moveDone (localWrite (bumpMove t n (moveView f)) n cs) n f := by
  refine (if_neg (ne_true_of_eq_false hs)).trans (if_neg fun hboth => ?_)
  rcases ho with ho | ho
  · exact ho hboth.1
  · rw [ho] at hboth
    exact absurd hboth.2 Bool.false_ne_true

/-- A local move that reads nothing poisoned writes its `cs`, or what `work` stands for; its flits meet what the network did to them. -/
theorem moveComplete_here {which : Nat} {es : List (Nat × Ecc)} {o : FlitOut} {cs : List Host.Cell} {work : State → State}
    (h : (unitFlights (core s n) .mover)[which]? = some f) (hr : toRemote s n (moveView f) = false) (hcs : endCells s n f = cs)
    (hwork : ∀ t, endWrites t n f cs = work t)
    (hp : hbmPoison ((srcAddrs s n (moveView f)).filter (fun a => decide (a < 2 ^ 40)) ++ mergedAddrs s n (moveView f) cs) es = false) :
    (moveOnNet s n (moveView f) (cs.map (·.1) ++ mergedAddrs s n (moveView f) cs) = false ∨ o = .good →
      exec (.moveComplete n which es o) s =
        .next (waitingSent (work (moveReads s n (moveView f) (mergedAddrs s n (moveView f) cs) es)) n)) ∧
    (moveOnNet s n (moveView f) (cs.map (·.1) ++ mergedAddrs s n (moveView f) cs) = true → exec (.moveComplete n which es o) s =
      .next (waitingSent (flitMeets s [] 0 n (partOfCore s n) o
        (fun t => work (moveReads t n (moveView f) (mergedAddrs s n (moveView f) cs) es))) n)) := by
  subst hcs
  have hp' : hbmPoison (endReads s n f) es = false := by rw [endReads, endMerged_here hs]; exact hp
  have hend : ∀ t, endWork s n f es t = work (moveReads t n (moveView f) (mergedAddrs s n (moveView f) (endCells s n f)) es) := fun t => by
    rw [endWork_clean t hp', hwork, endMerged_here hs]
  have hnet : endOnNet s n f = moveOnNet s n (moveView f) ((endCells s n f).map (·.1) ++ mergedAddrs s n (moveView f) (endCells s n f)) := by
    rw [endOnNet, endMerged_here hs]
  refine ⟨fun hn => ?_, fun hn => ?_⟩
  · rw [moveComplete_good h hr (.inl hs) (by rw [hnet]; exact hn), hend]
  · rw [moveComplete_onNet h hr (.inl hs) (by rw [hnet]; exact hn)]
    exact congrArg (fun w => Host.Outcome.next (waitingSent (flitMeets s [] 0 n (partOfCore s n) o w) n)) (funext hend)

end

theorem movesCompleteInMemory : claimMovesCompleteInMemory := by
  intro s n which f es o h v q hs local_
  refine ⟨fun hr hsent => ⟨fun ho => ?_, fun ho hc => ?_, fun ho hc => ?_, fun ho hp hgood => ?_⟩, fun hr hsent hw hp hgood => ?_,
    fun hr hsent hw => moveComplete_waits h hr hsent hw, fun hr hsent hx hp => ?_, fun hr hx => ?_⟩
  · exact fun hp => moveComplete_here hsent h hr (endCells_move hsent ho) (fun t => endWrites_stores hsent t _ (.inl ho)) hp
  · exact fun hp => moveComplete_here hsent h hr (endCells_reduce hsent ho hc) (fun t => endWrites_combines hsent t _ ho hc) hp
  · exact fun hp => moveComplete_here hsent h hr (endCells_reduceTile hsent ho hc) (fun t => endWrites_stores hsent t _ (.inr hc)) hp
  · rw [moveComplete_good h hr (.inl hsent) (.inr hgood), endWork_poisoned, endMerged_here hsent, endCells_move hsent ho]
    rw [endReads, endMerged_here hsent, endCells_move hsent ho]
    exact hp
  · rw [moveComplete_good h hr (.inr hw) (.inr hgood), endWork_clean, endWrites_sent _ _ hsent, endMerged_sent hsent]
    rw [endReads, endMerged_sent hsent, List.append_nil]
    exact hp
  · rw [moveComplete_remote h hr, remoteEnd_acknowledged hsent hx hp]
  · rw [moveComplete_remote h hr, remoteEnd_waits hx]

/-- Settles O13: mover instructions issue, and complete with their bytes in memory. -/
theorem moversIssueAndComplete : Obligations.MoversIssueAndComplete := ⟨moverInstructionsIssue, movesCompleteInMemory⟩

end Sys2Proof.Machine
end
